-- ==== Sys2Proof/Word.lean ====
section
/-! DEFINITION. The word types of the model and their plainest arithmetic. A register is 64 bits wide (R11), a
memory cell is one byte, an FP32 value is a 32-bit pattern. Counts, indices, ticks and addresses are `Nat`. -/
namespace Sys2Proof

/-- A register value (R11). -/
abbrev Word := BitVec 64

/-- One byte of memory. -/
abbrev Byte := BitVec 8

/-- An FP32 bit pattern (Table 2.1). -/
abbrev F32 := BitVec 32

/-- A sparse table: key and value pairs, keys strictly rising. -/
abbrev Tbl (α : Type) := List (Nat × α)

end Sys2Proof
end

