-- ==== Sys2Proof/Syntax.lean ====
section
/-! DEFINITION. The commands the block takes: `Instr`, one constructor for each row of spec/opcode_table.json, with the
operands that say what the row acts on. The table gives no operand bits, so the operand forms are the model's own
(log entry 1). A row that is an event of the hardware, of firmware or of the world carries what identifies the event. -/
namespace Sys2Proof

/-- A queue's identity: tenant (0 to 31), context (0 to 255), queue (0 to 15) (R15, R286). -/
structure QueueId where
  tenant : Nat
  ctx    : Nat
  queue  : Nat
  deriving DecidableEq, Repr

/-- Who makes a register access (R510). `host p t`: host software over Chotus port `p` with tenant tag `t` (R368).
`core n`: a store by logical core `n`, which carries its task's tenant and context. `firmware`, and `peer`, the
firmware of another module (R134). -/
inductive Requester where
  | host (port tenant : Nat)
  | core (n : Nat)
  | firmware
  | peer
  deriving DecidableEq, Repr

/-- One issued core instruction: the logical core and the bytes its encoding takes, by which CORE_SEQ_PC moves.
Encodings stand in another manual (log entry 2). -/
structure Issue where
  core : Nat
  len  : Nat
  deriving DecidableEq, Repr

/-- Scalar operations on a0 to a31 (Table 4.2: integer add, shift, compare, address arithmetic). -/
inductive ScalarOp where
  | add | sub | and | or | xor | shl | shr | sar | eq | ne | ltu | lts | mul | mov
  deriving DecidableEq, Repr

/-- A scalar source: a register a0 to a31, or an immediate. -/
inductive Src where
  | reg (r : Nat)
  | imm (v : Word)
  deriving DecidableEq, Repr

/-- Branch conditions. -/
inductive Cond where
  | always | eq | ne | ltu | lts | geu | ges
  deriving DecidableEq, Repr

/-- Element formats, in the order of Table 2.1. -/
inductive Fmt where
  | fp32 | bf16 | fp16 | e4m3 | e5m2 | e3m2 | e2m3 | e2m1 | int8 | int4
  deriving DecidableEq, Repr

/-- Scale schemes (Table 3.6, SSCH). -/
inductive Scheme where
  | none | microscaling | fineBlock
  deriving DecidableEq, Repr

/-- The places a core's units read and write (Table 4.1). `core` is task-relative core memory, `pool` task-relative
shared pool, `glob` a 64-bit global address. -/
inductive Space where
  | stationary | stream | accumulator | vector | core | pool | glob
  deriving DecidableEq, Repr

/-- A place: a space and a byte offset in it (a global address for `glob`). -/
structure Loc where
  space : Space
  off   : Nat
  deriving DecidableEq, Repr

/-- One row of elements as a vector-unit operand: element plane, format, scheme, scale plane, tensor scale (R33). -/
structure Row where
  loc    : Loc
  fmt    : Fmt
  scheme : Scheme
  scales : Loc
  tscale : F32
  deriving DecidableEq, Repr

/-- Elementwise operations of the vector unit (R79). Comparisons give 1.0 or +0. `select` takes the second operand where
the first is not zero, else the third. -/
inductive VecOp where
  | add | sub | mul | fma | max | min | cmpEq | cmpLt | cmpLe | select
  deriving DecidableEq, Repr

/-- Reductions along a row (R79); `merge dim` merges the partials of a row, which have `dim` elements each (R214). -/
inductive RedOp where
  | sum | max | min
  | merge (dim : Nat)
  deriving DecidableEq, Repr

/-- Host requests over Chotus (R368 to R372). -/
inductive HostOp where
  | read (bytes : Nat)
  | write (data : List Byte)
  | readReg (half : Bool)
  | cacheShared
  | cacheExclusive
  deriving DecidableEq, Repr

/-- Where a management message arrives (R313, R380, R381, R393). A mailbox message stands in the mailbox's request
buffer; a datagram or an I3C request carries its bytes with it. -/
inductive Port where
  | mailbox (k : Nat)
  | net (source : Nat) (datagram : List Byte)
  | i3c (message : List Byte)
  deriving DecidableEq, Repr

/-- A master of the module, as R150, R442 and Table 19.1 name masters. -/
inductive Master where
  | core (n : Nat)
  | dma (k : Nat)
  | codec (k : Nat)
  | drover (k : Nat)
  | groom (k : Nat)
  | coll (die : Nat)
  | cmdChan (tile : Nat)
  deriving DecidableEq, Repr

/-- A segment claim as it arrives at a host's Drover (R227, R228). -/
structure Claim where
  qaddr     : Nat
  node      : Nat
  tenant    : Nat
  ctx       : Nat
  exch      : Nat
  rowBytes  : Nat
  combHitch : Nat
  expert    : Nat
  n         : Nat
  deriving DecidableEq, Repr

/-- A host's answer to a claim (R228, R233, R234): rows granted, refused as R233 says, refused after ARM_TMO, held for an arm, or
turned back because the host holds 1,024 claims. -/
inductive ClaimAnswer where
  | granted | refused | expired | held | full
  deriving DecidableEq, Repr

/-- A transaction of the fabric (Table 14.7). `mask` is empty when MASKED is 0. `tagged`: read data is of hitch memory (log entry 104). -/
structure Burst where
  kind    : Nat
  srcNode : Nat
  dstNode : Nat
  tenant  : Nat
  ctx     : Nat
  master  : Nat
  seq     : Nat
  tag     : Nat
  addr    : Nat
  data    : List Byte
  mask    : List Bool
  poison  : Bool
  hitch   : Nat
  inc     : Nat
  tagged  : Bool := false
  deriving DecidableEq, Repr

/-- A collective segment as it arrives (R359): `step` is 0 for a chunk on its way to its owner and 1 for a finished one, `seg` the chunk
or, for an all-to-all, the segment; `bad` the poisoned extents, in elements or bytes. -/
structure CollSeg where
  tenant : Nat
  ctx    : Nat
  collId : Nat
  op     : Nat
  red    : Nat
  dtype  : Nat
  n      : Nat
  count  : Nat
  cmpr   : Bool
  rate   : Nat
  rank   : Nat
  seg    : Nat
  step   : Nat
  data   : List Byte
  bad    : List (Nat × Nat)
  deriving DecidableEq, Repr

/-- The identity a port's neighbour sends in training (R341). -/
structure Neighbour where
  node   : Nat
  port   : Nat
  bpos   : Nat
  serial : Nat
  deriving DecidableEq, Repr

/-- Why a port declares a lane failing (R339): lost lock; `n` corrected symbols in one 1 ms window; or the other end has declared it. -/
inductive LaneCause where
  | lock
  | symbols (n : Nat)
  | told
  deriving DecidableEq, Repr

/-- A lane that a port declares failing, and why. -/
structure LaneReport where
  lane  : Nat
  cause : LaneCause
  deriving DecidableEq, Repr

/-- A lost frame (R339): the port, whether it is itself a replay of the frame lost before, the corrected symbols of each lane in it, and the
codewords corrected on the port since the last one. -/
structure LostFrame where
  port      : Nat
  again     : Bool
  symbols   : List Nat
  codewords : Nat
  deriving DecidableEq, Repr

/-- Every row of the opcode table. -/
inductive Instr where
  -- chapter 4: scalar and control
  | scalarOp (i : Issue) (op : ScalarOp) (rd : Nat) (a b : Src)
  | branch (i : Issue) (c : Cond) (a b : Src) (target : Nat)
  | loop (i : Issue) (count : Nat) (skipTo : Nat)
  | endloop (i : Issue)
  | call (i : Issue) (target : Nat)
  | ret (i : Issue)
  | drain (i : Issue) (mask : Nat)
  | drainComplete (core : Nat)
  | end_ (i : Issue)
  -- chapters 2, 3, 8, 9: matrix, vector, special function
  | matmul (i : Issue) (desc : Nat)
  | matmulComplete (core : Nat)
  | vectorElementwise (i : Issue) (op : VecOp) (dst a b c : Row) (count : Nat)
  | vectorConvert (i : Issue) (dst src : Row) (count : Nat)
  | vectorReduce (i : Issue) (op : RedOp) (dst src : Row) (count : Nat)
  | topk (i : Issue) (scores : Loc) (bf16 : Bool) (spitch rows experts k : Nat) (route wgt : Loc)
  | compensatedSplit (i : Issue) (src hi lo : Loc) (count : Nat)
  | compensatedCombine (i : Issue) (main comp dst : Loc) (count : Nat)
  | gather (i : Issue) (dst src idx : Loc) (esize count : Nat)
  | scatter (i : Issue) (dst src idx : Loc) (esize count : Nat)
  | globalLoad (i : Issue) (src : Loc) (bytes : Nat) (dst : Loc)
  | globalLoadReturn (core idx : Nat)
  | coherentPointLoad (i : Issue) (src : Loc) (bytes : Nat) (dst : Loc)
  | globalStore (i : Issue) (dst : Loc) (bytes : Nat) (src : Loc)
  | storeReachesHome (core idx : Nat)
  | signalledStore (i : Issue) (dst : Nat) (bytes : Nat) (src : Loc) (hitch inc : Nat)
  | attentionPass (i : Issue) (desc : Nat)
  | exp (i : Issue) (dst src : Nat) (bf16 : Bool) (count : Nat)
  | rsqrt (i : Issue) (dst src : Nat) (bf16 : Bool) (count : Nat)
  | recip (i : Issue) (dst src : Nat) (bf16 : Bool) (count : Nat)
  -- chapters 4, 5, 6: copies, hitches, order
  | copySubmit (i : Issue) (channel desc : Nat)
  | dmaSliceTimeout (tile engine granules : Nat)
  | copyDescriptorComplete (tile channel : Nat)
  | hsignal (i : Issue) (hitch : Nat) (v : Src)
  | hwait (i : Issue) (hitch : Nat) (target : Src)
  | hwaitSatisfied (core : Nat)
  | hitchTimeout (core : Nat)
  | hpoll (i : Issue) (hitch rd : Nat)
  | hreset (i : Issue) (hitch : Nat) (v : Src)
  | acquire (i : Issue)
  | release (i : Issue)
  | fence (i : Issue)
  | orderHoldEnd (core : Nat)
  -- register writes with rows of their own, and the rest
  | coreSeqStop (r : Requester) (core : Nat)
  | coreArrClr (r : Requester) (core : Nat)
  | lcInvalidate (r : Requester) (tile : Nat)
  | lcCounterClr (r : Requester) (tile : Nat)
  | attClr (r : Requester) (core : Nat)
  | drvClr (r : Requester) (tile ring : Nat)
  | grmClr (r : Requester) (stack : Nat)
  | sadClr (r : Requester)
  | registerWrite (r : Requester) (addr : Nat) (half : Bool) (value : Word)
  | doorbellSqTail (r : Requester) (q : QueueId) (index : Nat)
  | doorbellCqHead (r : Requester) (q : QueueId) (index : Nat)
  | sysAdminEnable (r : Requester) (log2Cq log2Sq : Nat)
  -- chapters 12, 13: queues, dispatch, pace
  | packetFetch (q : QueueId)
  | pacedAdmission (q : QueueId)
  | dispatch
  | agingPromotion (q : QueueId)
  | pacedLeadStart (q : QueueId)
  | pulledUpResume (core : Nat)
  | pacedOverrunStop (q : QueueId)
  | suspensionEnd
  | nop (q : QueueId)
  | tenantCreate (q : QueueId)
  | tenantDestroy (q : QueueId)
  | tenantKeyLoad (q : QueueId)
  | rangeSet (q : QueueId)
  | rangeClear (q : QueueId)
  | mailboxAssign (q : QueueId)
  | contextCreate (q : QueueId)
  | contextDestroy (q : QueueId)
  | contextReset (q : QueueId)
  | queueCreate (q : QueueId)
  | queueDestroy (q : QueueId)
  | resourceAssign (q : QueueId)
  | resourceRelease (q : QueueId)
  | programLoad (q : QueueId)
  | programUnload (q : QueueId)
  | taskRun (q : QueueId)
  | hitchSignal (q : QueueId)
  | copy (q : QueueId) (tile : Nat)
  | saddleLoad (q : QueueId)
  | saddleUpdate (q : QueueId)
  | saddleUnload (q : QueueId)
  | groomUpdate (q : QueueId)
  | collective (q : QueueId)
  | teardownDrainEnd (tenant ctx : Nat)
  | teardownDrainTimeout (tenant ctx : Nat)
  | purgeEnd (tenant ctx : Nat)
  | scrubEnd (idx : Nat)
  | deferredPerform (q : QueueId)
  -- chapter 7: paging, memories, codecs
  | pagingSegmentComplete (engine : Nat)
  | pageInComplete (obj : Nat)
  | pageOut (obj : Nat)
  | patrolScrub (stack : Nat)
  | ddrChannelFailure (channel : Nat)
  | cmpRingTail (r : Requester) (die ring tail : Nat)
  | lossyEncode (die ring : Nat)
  | lossyDecode (die ring : Nat)
  | losslessEncode (die ring : Nat)
  | losslessDecode (die ring : Nat)
  | codecJobEnd (die ring : Nat)
  -- chapter 9: Drover
  | drvRingTail (r : Requester) (tile ring tail : Nat)
  | exchangeDispatch (tile ring : Nat)
  | exchangeCombine (tile ring : Nat)
  | claimArrival (tile : Nat) (c : Claim)
  | grantArrival (tile ring expert : Nat) (answer : ClaimAnswer) (grant base rowsOff : Nat)
  | segmentCloseArrival (tile : Nat) (qaddr exch : Nat)
  | claimArmTimeout (tile idx : Nat)
  | claimResend (tile ring expert : Nat)
  | dispatchJobEnd (tile ring : Nat)
  -- chapter 11: Groom and Pacer
  | grmRingTail (r : Requester) (stack ring tail : Nat)
  | momentumSgd (stack ring : Nat)
  | adamw (stack ring : Nat)
  | signMomentum (stack ring : Nat)
  | factoredSecondMoment (stack ring : Nat)
  | generalRecurrence (stack ring : Nat)
  | sparseRowUpdate (stack ring : Nat)
  | groomDescriptorEnd (stack ring : Nat)
  | pacerQuery (r : Requester) (group step : Nat)
  | pacerCommit (r : Requester) (group : Nat)
  -- chapter 14: collectives and fabric
  | allReduce (die : Nat)
  | reduceScatter (die : Nat)
  | allGather (die : Nat)
  | allToAll (die : Nat)
  | collectiveSegment (die node master seq : Nat) (s : CollSeg)
  | collectiveAbort (die tenant ctx collId : Nat)
  | collectiveTimeout (q : QueueId)
  | collectiveEnd (q : QueueId)
  | fabricWrite (port : Nat) (b : Burst)
  | signalledWrite (port : Nat) (b : Burst)
  | fabricSignal (port : Nat) (b : Burst)
  | readRequest (port : Nat) (b : Burst) (granules : Nat)
  | readData (port : Nat) (b : Burst)
  | acknowledgement (port master node seq : Nat)
  | negativeAcknowledgement (port master node : Nat) (read : Bool) (id kind : Nat)
  | purge (port : Nat) (b : Burst)
  | burstResendTimeout (master node seq : Nat)
  | laneFailing (port : Nat) (report : LaneReport)
  | spareLaneTrained (port : Nat)
  | fabPortRetrain (r : Requester) (port : Nat)
  | fabPortTrained (port : Nat) (nbr : Neighbour) (failed : Nat)
  | ackNbr (r : Requester) (port : Nat)
  | fabPortDisable (r : Requester) (port : Nat) (disable : Bool)
  | nodeAssign (r : Requester) (node : Nat)
  | routingEntryWrite (r : Requester) (node : Nat) (entry : Word)
  | nodeLost (node : Nat)
  | cableUnplug (connector : Nat)
  | cablePlug (connector : Nat)
  | recoveringReceived (node : Nat)
  | rejoinReceived (node : Nat)
  | peerHoldExpiry (node : Nat)
  -- chapter 15: Chotus and management ports
  | chotusPortTraining (port hostId lanes : Nat)
  | chotusModeFix
  | hostRequest (port tag addr : Nat) (op : HostOp)
  | snoopResponse (port addr : Nat) (dirty : Option (List Byte))
  | snoopTimeout (port : Nat)
  | chotusLaneFail (port lanes : Nat)
  | chotusPortRetrain (r : Requester) (port : Nat)
  | chotusPortDisable (r : Requester) (port : Nat) (disable : Bool)
  | heartbeatWrite (r : Requester) (port : Nat)
  | hostLost (port : Nat)
  | hostHoldExpiry (port : Nat)
  | mailboxGo (r : Requester) (k : Nat)
  | identify (p : Port)
  | healthSummary (p : Port)
  | healthFaultRecords (p : Port)
  | telemetry (p : Port)
  -- chapter 16: firmware update
  | fwStageBegin (p : Port)
  | fwStageData (p : Port)
  | fwStageEnd (p : Port)
  | fwStageAbort (p : Port)
  | fwActivateNow (p : Port)
  | fwActivateAtReset (p : Port)
  | activationDrainLimit
  | activationRestartDone
  | activationDeferExpiry
  | fwStatus (p : Port)
  | attestGenerate (p : Port)
  | attestRead (p : Port)
  | attestReadChain (p : Port)
  | resetModuleWarm (p : Port)
  | resetModuleCold (p : Port)
  | resetDelayExpiry
  | hangRead (p : Port)
  | logRead (p : Port)
  | netBootBroadcast
  -- I3C
  | entdaa (addr : Nat)
  | enec (mask : Byte)
  | disec (mask : Byte)
  | i3cEventClear (bits : Nat)
  -- chapters 17, 18: reset, boot, power
  | rstCmdWarm (r : Requester) (confirm : Nat)
  | rstCmdCold (r : Requester) (confirm : Nat)
  | rstCmdTile (r : Requester) (tile confirm : Nat)
  | rstCmdCore (r : Requester) (core confirm : Nat)
  | rstCmdEngine (r : Requester) (engine confirm : Nat)
  | rstCmdFabricPort (r : Requester) (port confirm : Nat)
  | powerOn (straps : Nat)
  | powerLoss
  | inputVoltageFault (mv ticks : Nat)
  | modRstNAssert (samples : Nat)
  | warmReset
  | coldReset
  | resetRelease
  | firmwareLoaded (slot : Nat)
  | optionLoadingEnd
  | optionWatchdogExpiry
  | trialConfirm
  | domainResetFail (domain : Nat)
  | refclkLoss (ticks : Nat)
  | refclkReturn
  | tilePllIdleStop (tile : Nat)
  | controlCoreWatchdog (core : Nat)
  | powerCapWindow (mw mv ca : Nat) (temps : List Nat)
  | standbyRequest (r : Requester)
  | m2Entry
  | m2Wake
  | m1Entry
  | brakeAssert (ticks : Nat)
  | thermAlertAssert (ticks : Nat)
  | overcurrentDetect (ca ticks : Nat)
  | tileEmergencyTemp (tile temp : Nat)
  | emergencyCauseEnd (cause ticks : Nat)
  | emergencyWindowClose
  | thermalTrip (tile temp : Nat)
  | coolantWarn (inlet outlet secondsHot : Nat)
  | effectiveCapEnd (mv ticks : Nat)
  -- chapter 19: faults and recovery
  | watchdogHang (cls idx : Nat)
  | escalationTimeout (level idx : Nat)
  | curbHandling
  | deviceRecovery (trigger : Nat)
  | recoveryEnd
  | coreRemount (core reason : Nat)
  | coreIdleRemount (core : Nat)
  -- chapter 20: security
  | secExtend (r : Requester) (reg : Nat)
  | svnCommit (r : Requester) (confirm : Nat)
  | svnCommitComplete
  | mgmtKeySet (r : Requester)
  | mgmtKeyClear (r : Requester)
  -- the table's last rows; then I3C rows without operands (Lean's runtime has room for 245 tags of constructors with operands)
  | frameReplay (frame : LostFrame)
  | linkLevelReplay (port : Nat) (failures : Nat)
  | sectorEraseDone (sectors : Nat)
  | attestSigned (p : Port)
  | rangeZeroFillEnd (q : QueueId)
  | setdasa
  | rstdaa
  | getpid
  | getbcr
  | getdcr
  | getstatus
  deriving DecidableEq, Repr

end Sys2Proof
end

