-- ==== Sys2Proof/Machine/Num.lean ====
section
/-! DEFINITION. Numbers: exact dyadic values, the ten element formats (Tables 2.1 to 2.3), rounding to nearest even (R35),
saturation and overflow (R36), and the FP32 functions that the units compute. Values are exact until one rounding. -/
namespace Sys2Proof
open Machine

/-- An exact value: NaN, an infinity, or ± m × 2^e. -/
inductive Val where
  | nan
  | inf (neg : Bool)
  | fin (neg : Bool) (m : Nat) (e : Int)
  deriving DecidableEq, Repr

/-- Layout of a floating-point format: mantissa bits, exponent of the smallest normal, code of the largest finite value,
codes of infinity and canonical NaN where the format has them. -/
structure FloatFmt where
  width   : Nat
  q       : Nat
  emin    : Int
  maxCode : Nat
  infCode : Option Nat
  nanCode : Option Nat
  deriving DecidableEq, Repr

/-- Tables 2.1 and 2.3. -/
def Fmt.float : Fmt → Option FloatFmt
  | .fp32 => some ⟨32, 23, -126, 0x7F7FFFFF, some 0x7F800000, some 0x7FC00000⟩
  | .bf16 => some ⟨16, 7, -126, 0x7F7F, some 0x7F80, some 0x7FC0⟩
  | .fp16 => some ⟨16, 10, -14, 0x7BFF, some 0x7C00, some 0x7E00⟩
  | .e4m3 => some ⟨8, 3, -6, 0x7E, none, some 0x7F⟩
  | .e5m2 => some ⟨8, 2, -14, 0x7B, some 0x7C, some 0x7E⟩
  | .e3m2 => some ⟨6, 2, -2, 0x1F, none, none⟩
  | .e2m3 => some ⟨6, 3, 0, 0x1F, none, none⟩
  | .e2m1 => some ⟨4, 1, 0, 7, none, none⟩
  | .int8 => none
  | .int4 => none

/-- Element width in bits. -/
def Fmt.width : Fmt → Nat
  | .fp32 => 32 | .bf16 => 16 | .fp16 => 16 | .e4m3 => 8 | .e5m2 => 8 | .e3m2 => 6 | .e2m3 => 6 | .e2m1 => 4
  | .int8 => 8 | .int4 => 4

/-- Exponent of the largest binade (Table 2.2); 0 for INT8 under Microscaling. -/
def Fmt.emax : Fmt → Int
  | .fp32 => 127 | .bf16 => 127 | .fp16 => 15 | .e4m3 => 8 | .e5m2 => 15 | .e3m2 => 4 | .e2m3 => 2 | .e2m1 => 2
  | .int8 => 0 | .int4 => 0

/-- The largest integer a conversion into an integer format produces (R26). -/
def Fmt.intMax : Fmt → Nat
  | .int4 => 7
  | _ => 127

/-- Numerical events, at their CORE_NUMSTAT positions (Table 2.6). -/
structure Events where
  nanIn     : Bool := false
  nanMade   : Bool := false
  infMade   : Bool := false
  saturated : Bool := false
  nanToZero : Bool := false
  scaleBad  : Bool := false
  underflow : Bool := false
  deriving DecidableEq, Repr

/-- Both sets of events. -/
def Events.join (a b : Events) : Events :=
  ⟨a.nanIn || b.nanIn, a.nanMade || b.nanMade, a.infMade || b.infMade, a.saturated || b.saturated,
    a.nanToZero || b.nanToZero, a.scaleBad || b.scaleBad, a.underflow || b.underflow⟩

/-- The events of a list. -/
def joinEvents (l : List Events) : Events := l.foldl Events.join {}

/-- +0. -/
def Val.zero : Val := .fin false 0 0

/-- 1. -/
def Val.one : Val := .fin false 1 0

/-- Whether a value is NaN. -/
def Val.isNan : Val → Bool
  | .nan => true
  | _ => false

/-- Whether a value is finite. -/
def Val.isFin : Val → Bool
  | .fin _ _ _ => true
  | _ => false

/-- Whether a value is an infinity. -/
def Val.isInf : Val → Bool
  | .inf _ => true
  | _ => false

/-- Whether a value is a zero of either sign. -/
def Val.isZero : Val → Bool
  | .fin _ 0 _ => true
  | _ => false

/-- The sign bit of a value. -/
def Val.neg? : Val → Bool
  | .nan => false
  | .inf n => n
  | .fin n _ _ => n

/-- The negated value. -/
def Val.negate : Val → Val
  | .nan => .nan
  | .inf n => .inf !n
  | .fin n m e => .fin (!n) m e

/-- The magnitude of a value. -/
def Val.abs : Val → Val
  | .nan => .nan
  | .inf _ => .inf false
  | .fin _ m e => .fin false m e

/-- The signed integer ± m × 2^k for k ≥ 0. -/
def signedInt (neg : Bool) (m k : Nat) : Int := if neg then -((m * 2 ^ k : Nat) : Int) else ((m * 2 ^ k : Nat) : Int)

/-- The exact sum; zeros follow IEEE 754 under round to nearest, so a sum that cancels is +0. -/
def Val.add : Val → Val → Val
  | .nan, _ => .nan
  | _, .nan => .nan
  | .inf a, .inf b => if a = b then .inf a else .nan
  | .inf a, _ => .inf a
  | _, .inf b => .inf b
  | .fin na ma ea, .fin nb mb eb =>
    if ma = 0 ∧ mb = 0 then .fin (na && nb) 0 0
    else if ma = 0 then .fin nb mb eb
    else if mb = 0 then .fin na ma ea
    else
      let e := min ea eb
      let s := signedInt na ma (ea - e).toNat + signedInt nb mb (eb - e).toNat
      .fin (decide (s < 0)) s.natAbs e

/-- The exact product; infinity times zero is NaN. -/
def Val.mul : Val → Val → Val
  | .nan, _ => .nan
  | _, .nan => .nan
  | .inf a, .inf b => .inf (a != b)
  | .inf a, .fin b m _ => if m = 0 then .nan else .inf (a != b)
  | .fin a m _, .inf b => if m = 0 then .nan else .inf (a != b)
  | .fin a m e, .fin b n f => .fin (a != b) (m * n) (e + f)

/-- The exact difference. -/
def Val.sub (a b : Val) : Val := a.add b.negate

/-- The exact sum of a list, from +0. -/
def Val.sum (l : List Val) : Val :=
  match l with
  | [] => .zero
  | a :: t => t.foldl Val.add a

/-- a < b on numbers; false where either is NaN. -/
def Val.lt : Val → Val → Bool
  | .nan, _ => false
  | _, .nan => false
  | .inf a, .inf b => a && !b
  | .inf a, .fin _ _ _ => a
  | .fin _ _ _, .inf b => !b
  | .fin na ma ea, .fin nb mb eb =>
    let e := min ea eb
    decide (signedInt na ma (ea - e).toNat < signedInt nb mb (eb - e).toNat)

/-- a ≤ b on numbers; false where either is NaN. -/
def Val.le (a b : Val) : Bool := !a.isNan && !b.isNan && !b.lt a

/-- a = b on numbers; the two zeros are equal, NaN equals nothing. -/
def Val.eq (a b : Val) : Bool := a.le b && b.le a

/-- The value of a code. -/
def FloatFmt.decode (f : FloatFmt) (code : Nat) : Val :=
  let neg := code.testBit (f.width - 1)
  let c := code % 2 ^ (f.width - 1)
  if f.infCode = some c then .inf neg
  else if c > f.maxCode then .nan
  else if c < 2 ^ f.q then .fin neg c (f.emin - f.q)
  else .fin neg (2 ^ f.q + c % 2 ^ f.q) (f.emin - f.q + (c / 2 ^ f.q : Nat) - 1)

/-- The value of an element code (R22); integers are two's complement. -/
def Fmt.decode (f : Fmt) (code : Nat) : Val :=
  match f.float with
  | some ff => ff.decode code
  | none =>
    let c := code % 2 ^ f.width
    if c < 2 ^ (f.width - 1) then .fin false c 0 else .fin true (2 ^ f.width - c) 0

/-- The FP32 value of a pattern. -/
def F32.val (x : F32) : Val := Fmt.fp32.decode x.toNat

/-- ⌊log2 (n / d)⌋, for n and d positive. -/
def floorLog2 (n d : Nat) : Int :=
  let a : Int := Nat.log2 n
  let b : Int := Nat.log2 d
  let k := a - b
  let low := if k ≥ 0 then decide (n < d * 2 ^ k.toNat) else decide (n * 2 ^ (-k).toNat < d)
  if low then k - 1 else k

/-- n / d to the nearest integer, ties to even. -/
def roundQuot (n d : Nat) : Nat :=
  let q := n / d
  let r := n % d
  if 2 * r < d then q else if 2 * r > d then q + 1 else q + q % 2

/-- Numerator and denominator of (n / d) × 2^s. -/
def scaleQ (n d : Nat) (s : Int) : Nat × Nat :=
  if s ≥ 0 then (n * 2 ^ s.toNat, d) else (n, d * 2 ^ (-s).toNat)

/-- The magnitude (n / d) × 2^e as a multiple of the format's spacing at it, with the code of the binade's start. -/
def FloatFmt.position (f : FloatFmt) (n d : Nat) (e : Int) : Nat × Nat × Nat :=
  let k := max (floorLog2 n d + e) f.emin
  let p := scaleQ n d (e - (k - f.q))
  (p.1, p.2, (k - f.emin).toNat * 2 ^ f.q)

/-- The code nearest (n / d) × 2^e, ties to even (R35), before the check for overflow. -/
def FloatFmt.nearest (f : FloatFmt) (n d : Nat) (e : Int) : Nat :=
  if n = 0 then 0
  else
    let p := f.position n d e
    p.2.2 + roundQuot p.1 p.2.1

/-- The sign bit of a code. -/
def FloatFmt.signed (f : FloatFmt) (neg : Bool) (c : Nat) : Nat := if neg then c + 2 ^ (f.width - 1) else c

/-- What a finite magnitude beyond the largest becomes (R36): infinity in BF16, FP16 and FP32, else the largest. -/
def Fmt.overflow (t : Fmt) (f : FloatFmt) : Nat × Events :=
  match t with
  | .fp32 | .bf16 | .fp16 => (f.infCode.getD 0, { infMade := true })
  | _ => (f.maxCode, { saturated := true })

/-- Two's complement code of ± c in an integer format. -/
def Fmt.intCode (t : Fmt) (neg : Bool) (c : Nat) : Nat := if neg then (2 ^ t.width - c) % 2 ^ t.width else c

/-- Conversion of ± (n / d) × 2^e, d positive, to nearest even, saturating or overflowing after rounding (R35, R36). -/
def Fmt.convertQ (t : Fmt) (neg : Bool) (n d : Nat) (e : Int) : Nat × Events :=
  match t.float with
  | some f =>
    let c := f.nearest n d e
    if c > f.maxCode then
      let o := t.overflow f
      (f.signed neg o.1, o.2)
    else (f.signed neg c, { underflow := decide (n ≠ 0 ∧ c = 0) })
  | none =>
    let p := scaleQ n d e
    let c := roundQuot p.1 p.2
    if c > t.intMax then (t.intCode neg t.intMax, { saturated := true })
    else (t.intCode neg c, { underflow := decide (n ≠ 0 ∧ c = 0) })

/-- Conversion of NaN: the canonical NaN, or +0 with NAN_TO_ZERO where the target has none (R25, Table 2.5). -/
def Fmt.convertNan (t : Fmt) : Nat × Events :=
  match t.float.bind (·.nanCode) with
  | some c => (c, {})
  | none => (0, { nanToZero := true })

/-- Conversion of an infinity (R36). -/
def Fmt.convertInf (t : Fmt) (neg : Bool) : Nat × Events :=
  match t.float with
  | some f =>
    match f.infCode with
    | some c => (f.signed neg c, {})
    | none => (f.signed neg f.maxCode, { saturated := true })
  | none => (t.intCode neg t.intMax, { saturated := true })

/-- A conversion of a value into an element format. -/
def Fmt.convert (t : Fmt) : Val → Nat × Events
  | .nan => t.convertNan
  | .inf n => t.convertInf n
  | .fin n m e => t.convertQ n m 1 e

/-- The largest finite element as a value (Table 2.2). -/
def Fmt.largest (t : Fmt) : Val :=
  match t.float with
  | some f => f.decode f.maxCode
  | none => .fin false t.intMax 0

/-- An exact value rounded to a 32-bit pattern, as arithmetic in FP32 rounds it. -/
def Val.toF32 (v : Val) : F32 := BitVec.ofNat 32 (Fmt.fp32.convert v).1

/-- The events of an arithmetic result from given operands. -/
def arithEvents (ops : List Val) (r : Val) : Events :=
  { nanIn := ops.any Val.isNan
    nanMade := r.isNan && !ops.any Val.isNan
    infMade := r.isInf && ops.all Val.isFin }

/-- The bytes of a list of FP32 patterns. -/
def f32Bytes (vs : List F32) : List Byte := vs.flatMap fun v => leBytes 4 v.toNat

/-- FP32 results of the vector unit: exact, then one rounding. -/
def f32Add (a b : F32) : F32 := (a.val.add b.val).toF32
/-- FP32 difference. -/
def f32Sub (a b : F32) : F32 := (a.val.sub b.val).toF32
/-- FP32 product. -/
def f32Mul (a b : F32) : F32 := (a.val.mul b.val).toF32
/-- FP32 fused multiply-add. -/
def f32Fma (a b c : F32) : F32 := ((a.val.mul b.val).add c.val).toF32

/-- The FP32 value nearest (n / d) × 2^e. -/
def f32OfQ (neg : Bool) (n d : Nat) (e : Int) : F32 := BitVec.ofNat 32 (Fmt.fp32.convertQ neg n d e).1

/-- Canonical NaN in FP32. -/
def f32Nan : F32 := 0x7FC00000
/-- An infinity in FP32. -/
def f32Inf (neg : Bool) : F32 := if neg then 0xFF800000 else 0x7F800000
/-- A zero in FP32. -/
def f32Zero (neg : Bool) : F32 := if neg then 0x80000000 else 0
/-- 1.0 in FP32. -/
def f32One : F32 := 0x3F800000

/-- FP32 quotient, rounded once. -/
def f32Div (a b : F32) : F32 :=
  match a.val, b.val with
  | .nan, _ => f32Nan
  | _, .nan => f32Nan
  | .inf _, .inf _ => f32Nan
  | .inf s, .fin t _ _ => f32Inf (s != t)
  | .fin s _ _, .inf t => f32Zero (s != t)
  | .fin s m e, .fin t n f =>
    if n = 0 then (if m = 0 then f32Nan else f32Inf (s != t))
    else f32OfQ (s != t) m n (e - f)

/-- Newton steps towards ⌊√n⌋ from above, at most `fuel` of them. -/
def sqrtFrom (n : Nat) : Nat → Nat → Nat
  | 0, g => g
  | fuel + 1, g =>
    let h := (g + n / g) / 2
    if h < g then sqrtFrom n fuel h else g

/-- ⌊√n⌋. -/
def isqrt (n : Nat) : Nat := if n = 0 then 0 else sqrtFrom n 600 (2 ^ (Nat.log2 n / 2 + 1))

/-- The FP32 value nearest √(n / d), for n and d positive: the root at 64 bits below the leading one, with a sticky bit. -/
def f32SqrtQ (n d : Nat) (e : Int) : F32 :=
  let k := floorLog2 n d + e
  let p : Int := 64 - k / 2
  let t := scaleQ n d (e + 2 * p)
  let s := isqrt (t.1 / t.2)
  let exact := decide (s * s * t.2 = t.1)
  f32OfQ false (2 * s + if exact then 0 else 1) 1 (-p - 1)

/-- FP32 square root. -/
def f32Sqrt (a : F32) : F32 :=
  match a.val with
  | .nan => f32Nan
  | .inf s => if s then f32Nan else f32Inf false
  | .fin s m e => if m = 0 then f32Zero s else if s then f32Nan else f32SqrtQ m 1 e

/-- rsqrt: 1 / √x to nearest even; rsqrt(±0) = ±∞, rsqrt(+∞) = +0, a negative value gives NaN (R78, Table 2.5). -/
def f32Rsqrt (x : Val) : F32 :=
  match x with
  | .nan => f32Nan
  | .inf s => if s then f32Nan else f32Zero false
  | .fin s m e =>
    if m = 0 then f32Inf s
    else if s then f32Nan
    else f32SqrtQ 1 m (-e)

/-- reciprocal: 1 / x to nearest even (R78, Table 2.5). -/
def f32Recip (x : Val) : F32 :=
  match x with
  | .nan => f32Nan
  | .inf s => f32Zero s
  | .fin s m e => if m = 0 then f32Inf s else f32OfQ s 1 m (-e)

/-- Fixed point with 320 bits below the point. -/
def fixOne : Nat := 2 ^ 320

/-- Σ t^k / k! in fixed point, for t below 1, over `fuel` terms: term k is `term`, the sum so far `acc`. -/
def expTerms (t : Nat) : Nat → Nat → Nat → Nat → Nat
  | 0, _, _, acc => acc
  | fuel + 1, k, term, acc =>
    let term' := term * t / fixOne / k
    expTerms t fuel (k + 1) term' (acc + term')

/-- e^t for t below 1, in fixed point. -/
def fixExp (t : Nat) : Nat := expTerms t 70 1 fixOne fixOne

/-- e^(m × 2^e) for a magnitude up to 256: the argument divided by 256, then eight squarings, in fixed point. -/
def expMag (m : Nat) (e : Int) : Nat :=
  let t := scaleQ (m * fixOne) 1 (e - 8)
  iter (fun y => y * y / fixOne) 8 (fixExp (t.1 / t.2))

/-- exp: e^x to nearest even (R78); exp(+∞) = +∞, exp(−∞) = +0 (Table 2.5). Arguments of magnitude 128 or more lie beyond
the range of FP32 on either side. DEDUCED: nearest is formed from 320 fractional bits. -/
def f32Exp (x : Val) : F32 :=
  match x with
  | .nan => f32Nan
  | .inf s => if s then f32Zero false else f32Inf false
  | .fin s m e =>
    if m = 0 then f32One
    else if floorLog2 m 1 + e ≥ 7 then (if s then f32Zero false else f32Inf false)
    else if s then f32OfQ false fixOne (expMag m e) 0
    else f32OfQ false (expMag m e) fixOne 0

end Sys2Proof
end

