-- ==== Sys2Proof/Config.lean ====
section
/-! DEFINITION. The free values: results that the manual leaves open. Every constant here is opaque, without a body,
so that nothing can evaluate it and no proof can lean on a value of it. The log rows are named in each docstring. -/
namespace Sys2Proof

/-- A fresh open value: applied to `Block.free`, a counter that each use advances (log entry 3). -/
opaque Config.freeWord : Nat → Word

/-- A fresh open byte string of the given length (log entry 3): data read under another key (R163), a drawn key. -/
opaque Config.freeBytes : Nat → Nat → List Byte

/-- A byte of memory written under another key, by the index of that event and its address (R163; log entry 3). -/
opaque Config.staleByte : Nat → Nat → Byte

/-- A byte that firmware takes from a poisoned granule, by the free counter and the address: the manual states what masters do with poison
and not what firmware reads there (R447; log entry 110). -/
opaque Config.poisonByte : Nat → Nat → Byte

/-- Scalar shift by 64 or more: the manual states no result (log entry 4). -/
opaque Config.wideShift : Word → Word → Word

/-- The natural logarithm in FP32 as the attention pass and its merges form it: the manual states the function and not
its rounding (R192, R214; log entry 5). Not consulted for 1, whose logarithm R196 fixes. -/
opaque Config.lnF32 : F32 → F32

/-- Order in which the vector unit adds the `n` products of one dot product or one row reduction (R44; log entry 6).
Read as a list of positions; used only when it is a permutation of `0 … n − 1`. -/
opaque Config.sumOrder : Nat → List Nat

/-- Whether the vector unit forms a dot product with fused multiply-adds (R44, Table 4.1; log entry 6). -/
opaque Config.fusedDot : Bool

/-- The code lengths a lossless encoder chooses for a block (R185 leaves the choice open; log entry 7). -/
opaque Config.prefixLengths : List Byte → List Nat

/-- Which of the FP32 neighbours of the nearest value a Pacer multiplier takes (R281; log entry 8): 0 the nearest,
1 the one below, 2 the one above. A function of the group's active copy and the step, so the same entry and step give
the same value. -/
opaque Config.pacerNeighbour : List Word → Nat → Nat

/-- FIPS 204 ML-DSA-87 signature verification: public key, message digest, signature (R390; log entry 9). -/
opaque Config.mlDsaVerify : List Byte → List Byte → List Byte → Bool

/-- FIPS 204 ML-DSA-87 signature under the device identity derived from the seed (R478, R482; log entry 9). -/
opaque Config.mlDsaSign : List Byte → List Byte → List Byte

/-- FIPS 203 ML-KEM-1024 encapsulation key of a key-pair seed (R485; log entry 9). -/
opaque Config.mlKemPublic : List Byte → List Byte

/-- Decapsulation, key derivation and AES key unwrap of a TENANT_KEY_LOAD payload (R486): key-pair seed, KEM_ID, tenant,
ciphertext, wrapped key. `none` is a failed integrity check (log entry 9). -/
opaque Config.keyUnwrap : List Byte → Word → Nat → List Byte → List Byte → Option (List Byte)

/-- The Llynvon firmware key digest held in the boot ROM (R390; log entry 9). -/
opaque Config.firmwareKeyDigest : List Byte

/-- The bytes of the boot ROM (R475, R480; log entry 9). -/
opaque Config.bootRom : List Byte

/-- The 32-byte identity seed in fuses (R478; log entry 9). -/
opaque Config.identitySeed : List Byte

/-- The bytes of an option-block copy in flash that holds the given fields, as the ROM measures them: the manual gives no layout (Table
20.2; log entry 9). -/
opaque Config.optionBlockBytes : List Nat → List Byte

/-- The public key of the device identity derived from the seed (R478; log entry 9). -/
opaque Config.mlDsaPublic : List Byte → List Byte

/-- GETPID, GETBCR and GETDCR answers of the I3C target: the manual gives no values (R381; log entry 10). -/
opaque Config.i3cPid : Nat
/-- Bus characteristics register of the I3C target (R381; log entry 10). -/
opaque Config.i3cBcr : Byte
/-- Device characteristics register of the I3C target (R381; log entry 10). -/
opaque Config.i3cDcr : Byte

end Sys2Proof
end

