-- ==== Sys2Proof/Machine/Ecc.lean ====
section
/-! DEFINITION. Where bytes lie in the HBM stacks and the DDR5 tier (R158, R170), the Reed–Solomon check symbols of an HBM granule (R160), and
what the code of each memory corrects and detects (R114, R160, R171). An error is a set of wrong bits of a granule's stored codeword. -/
namespace Sys2Proof.Machine

/- Places -/

/-- Where an HBM granule lies (R158, Table 7.2). -/
structure HbmPlace where
  stack     : Nat
  channel   : Nat
  pseudo    : Nat
  bankGroup : Nat
  bank      : Nat
  stackId   : Nat
  row       : Nat
  granule   : Nat
  deriving DecidableEq, Repr

/-- Offset within its stack of a local HBM address: address bits [35:0]. -/
def stackOffset (a : Nat) : Nat := a % 2 ^ 36

/-- The pseudo-channel of a stack offset: o[12:7] XOR o[18:13]. -/
def pseudoChannel (o : Nat) : Nat := (o / 2 ^ 7 % 64) ^^^ (o / 2 ^ 13 % 64)

/-- The place of the granule at a local HBM address. -/
def hbmPlace (a : Nat) : HbmPlace :=
  let p := pseudoChannel (stackOffset a)
  let q := stackOffset a / 2 ^ 13
  { stack := a / 2 ^ 36, channel := p / 2, pseudo := p % 2, bankGroup := q / 2 ^ 3 % 4, bank := q / 2 ^ 5 % 4, stackId := q / 2 ^ 7 % 4
    row := q / 2 ^ 9 % 16384, granule := q % 8 }

/-- Where a byte of the tier lies (R170). -/
structure TierPlace where
  channel    : Nat
  offset     : Nat
  dimm       : Nat
  subchannel : Nat
  deriving DecidableEq, Repr

/-- The place of a tier offset over the used channels, in ascending order, each with `dimms` DIMMs and `bytes` of capacity used. -/
def tierPlace (used : List Nat) (dimms bytes x : Nat) : TierPlace :=
  let c := used.length
  let off := x / (0x1000 * c) * 0x1000 + x % 0x1000
  { channel := used.getD (x / 0x1000 % c) 0, offset := off
    dimm := if dimms = 2 ∧ 2 * off ≥ bytes then 1 else 0, subchannel := x / 64 % 2 }

/- The code of an HBM granule -/

/-- Multiplication by x in GF(2^8) modulo x^8 + x^4 + x^3 + x^2 + 1. -/
def gfTimesX (a : Nat) : Nat := if a < 128 then 2 * a else (2 * a) ^^^ 0x11D

/-- The product of two elements of GF(2^8). -/
def gfMul (a b : Nat) : Nat := (maskList 8 b).foldl (fun s i => s ^^^ iter gfTimesX i a) 0

/-- The generator polynomial with the roots α^0 to α^15, highest coefficient first. -/
def rsGenerator : List Nat :=
  (List.range 16).foldl (fun g i => List.zipWith (· ^^^ ·) (g ++ [0]) (0 :: g.map (gfMul (iter gfTimesX i 1)))) [1]

/-- One symbol enters the division by the generator: the remainder so far, highest coefficient first. -/
def rsShift (r : List Nat) (s : Nat) : List Nat :=
  let f := s ^^^ r.headD 0
  List.zipWith (· ^^^ ·) (r.drop 1 ++ [0]) ((rsGenerator.drop 1).map (gfMul f))

/-- The 16 check symbols of a message: the remainder of its division by the generator. -/
def rsChecks (msg : List Nat) : List Nat := msg.foldl rsShift (List.replicate 16 0)

/-- The check symbols of a stored granule: the five bytes of its stack offset go before its 128 data symbols and are not stored (R160 says
that the symbols cover the offset and not how; DESIGN CHOICE, log entry 109). -/
def granuleChecks (offset : Nat) (stored : List Byte) : List Nat :=
  rsChecks (((leBytes 5 offset).reverse ++ stored).map (·.toNat))

/-- The check symbols that mark a granule poisoned: all inverted (R162). -/
def poisonChecks (l : List Nat) : List Nat := l.map (255 - ·)

/- What the codes do -/

/-- What a read finds: an error corrected, an error detected, or one beyond what the code promises. -/
inductive EccClass where
  | corrected | detected | beyond
  deriving DecidableEq, Repr

/-- The class of an error that touches `n` units of a code that corrects `c` and detects `d`. -/
def eccClass (c d n : Nat) : EccClass := if n ≤ c then .corrected else if n ≤ d then .detected else .beyond

/-- The largest number of different units that wrong bits touch within one codeword; a codeword takes `word` bits, a unit `unit`. -/
def unitsHit (word unit : Nat) (bits : List Nat) : Nat :=
  (bits.map fun b => ((bits.filter fun x => x / word == b / word).map (· / unit)).dedup.length).foldl max 0

/-- HBM: one codeword of 144 symbols; 4 corrected, 12 detected (R160). -/
def hbmClass (bits : List Nat) : EccClass := eccClass 4 12 (unitsHit 1152 8 bits)

/-- The tier: a codeword for each subchannel, of 64 data and 16 check bytes over ten x4 devices; one corrected, two detected (R171). -/
def tierClass (bits : List Nat) : EccClass := eccClass 1 2 (unitsHit 640 64 bits)

/-- Core memory and the pool: a codeword for each 64-bit word, with 8 check bits; one bit corrected, two detected (R114). -/
def dieClass (bits : List Nat) : EccClass := eccClass 1 2 (unitsHit 72 1 bits)

end Sys2Proof.Machine
end

