-- ==== Sys2Proof/Machine/State.lean ====
section
/-! DEFINITION. The state of the block, as plain data: `Block` holds every register, memory, buffer, queue, counter, mode
and pin that the manual gives the module; `State` is the block and the queue of waiting commands.

Registers have one home, `Block.regs`, keyed by register address; a register not listed holds its reset value
(Machine/RegMap.lean gives every register's address, fields and reset value). Memories are lists of cells in one
canonical form; an unlisted cell reads 0x00 (log entry 11). Fields marked MODEL are the model's own. -/
namespace Sys2Proof.Machine

/-- A memory: address and byte pairs, addresses strictly rising, no byte 0x00 listed. -/
abbrev Memory := List Host.Cell

/-- The form every memory is kept in. -/
abbrev Memory.wf (m : Memory) : Prop :=
  m.Pairwise (fun a b => a.1 < b.1) ∧ ∀ c ∈ m, c.2 ≠ 0

/-- The three variants (Table 0.2). -/
inductive Variant where
  | sbm3216 | sbm3216s | sbm2412
  deriving DecidableEq, Repr

/-- One nesting level of LOOP (R85): where the body starts and how many runs are left. -/
structure LoopFrame where
  body : Nat
  left : Nat
  deriving DecidableEq, Repr

/-- A write not yet performed: place, bytes. -/
structure Write where
  loc   : Loc
  bytes : List Byte
  deriving DecidableEq, Repr

/-- A matrix instruction that its queue or the array holds (Table 4.2): the descriptor as the sequencer read it (R72), whether its address
was a multiple of 128, whether the array has taken it, and then the output writes its completion makes (R57, R61) with the CORE_NUMSTAT
bits their conversion sets. -/
structure MatOp where
  words   : List Word
  aligned : Bool
  started : Bool := false
  outs    : List Write := []
  events  : Nat := 0
  deriving DecidableEq, Repr

/-- One granule of a global or pool load issued and not returned (R135). `node` is the destination of a remote load, `addr`
the local address there; `stamp` is the instruction's place in the tile's issue order and `floor` the oldest fill it may
hit (R147); `line` is false for coherent-point loads and the loads that R139 keeps from the line cache; `tag` is the
read tag of a remote load; `keep` is false once a store of its tile to the granule makes the fill unfit to stay (R146); `pool` marks a
task-relative pool access. -/
structure Load where
  node  : Option Nat
  addr  : Nat
  bytes : Nat
  dst   : Loc
  stamp : Nat
  floor : Nat
  line  : Bool
  tag   : Option Nat
  keep  : Bool := true
  pool  : Bool := false
  deriving DecidableEq, Repr

/-- One granule of a store issued and not yet at its home (R148). `stamp` is the instruction's place in the tile's issue
order; `remote` is the node and burst number when the home is another module; `pool` marks a task-relative pool access. -/
structure Store where
  addr   : Nat
  bytes  : List Byte
  stamp  : Nat
  remote : Option (Nat × Nat)
  pool   : Bool := false
  deriving DecidableEq, Repr

/-- An HSIGNAL that waits for the earlier stores of its core, those issued before `stamp`, and for `mats` matrix outputs
(R93). -/
structure PendingSignal where
  hitch : Nat
  inc   : Word
  stamp : Nat
  mats  : Nat
  deriving DecidableEq, Repr

/-- What holds a core's issue (R82). -/
inductive Hold where
  | none | hwait | drain | acquire | release | fence
  deriving DecidableEq, Repr

/-- A copy descriptor held by a channel, with how far it has come (R121, R123): the next granule to move, counted through
the rows; `aligned` that its own address was a multiple of 64; `tag` the remote read of that granule in flight. -/
structure CopyJob where
  words   : List Word
  core    : Nat
  aligned : Bool
  done    : Nat := 0
  tag     : Option Nat := none
  deriving DecidableEq, Repr

/-- An attention pass under way: its descriptor as it was read (R197). Of a Carousel pass also (R217) the Carousel descriptor, the length-table
entry, the round, how far the round has come (0 its block is awaited, 1 the transfer of the block is being written, 2 the block is to be folded,
3 the body's writes are awaited, 4 the header's), the segments of the body written so far, the header of the block it holds, the state
(m, l, acc) of every row, and the tick since which it waits for credit. -/
structure AttRun where
  w      : List Word
  car    : List Word := []
  seq    : List Byte := []
  round  : Nat := 0
  stage  : Nat := 0
  segs   : Nat := 0
  header : List Word := []
  rows   : List (F32 × F32 × List F32) := []
  since  : Option Nat := none
  deriving DecidableEq, Repr

/-- A task pulled up by firmware (R329): the core's registers, sequencer state, queued and outstanding work, operand
buffers, and, once a PACED task of the same context is dispatched to the core (`cmHeld`), the window that both have. -/
structure SavedTask where
  task     : Option QueueId
  slot     : Nat
  lastCtx  : Option (Nat × Nat)
  regs     : List (Nat × Word)
  sregs    : List Word
  loops    : List LoopFrame
  calls    : List Nat
  codeOff  : Nat
  codeSize : Nat
  matQ     : List MatOp
  vecQ     : List (Nat × Instr)
  sfuQ     : List Instr
  copyQ    : List (Nat × CopyJob)
  loads    : List Load
  stores   : List Store
  signals  : List PendingSignal
  hold     : Hold
  drainMask : Nat
  ordStamp : Nat
  waitStart : Nat
  waitAddr : Nat
  met      : Bool
  att      : Option AttRun
  bufs     : Memory
  bufBad   : List Nat
  cmHeld   : Bool
  cm       : Memory
  cmBad    : List Nat
  deriving DecidableEq, Repr

/-- One logical core, beside its CORE_ registers. `matQ`, `vecQ`, `sfuQ`, `copyQ` are the queues of its units (Table 4.2); a vector
instruction stands there with its place in the tile's issue order. `cmCorr`, `cmUncorr`: ticks of the core-memory errors of the last 24 hours (R470);
`hangs`: hangs that a core reset did not clear. -/
structure CoreState where
  sregs    : List Word := List.replicate 32 0
  loops    : List LoopFrame := []
  calls    : List Nat := []
  codeOff  : Nat := 0
  codeSize : Nat := 0
  matQ     : List MatOp := []
  vecQ     : List (Nat × Instr) := []
  sfuQ     : List Instr := []
  copyQ    : List (Nat × CopyJob) := []
  loads    : List Load := []
  stores   : List Store := []
  signals  : List PendingSignal := []
  hold     : Hold := .none
  drainMask : Nat := 0
  ordStamp : Nat := 0
  waitStart : Nat := 0
  waitAddr : Nat := 0
  met      : Bool := false
  att      : Option AttRun := none
  task     : Option QueueId := none
  slot     : Nat := 0
  lastCtx  : Option (Nat × Nat) := none
  saved    : Option SavedTask := none
  cmCorr   : List Nat := []
  cmUncorr : List Nat := []
  hangs    : Nat := 0
  deriving DecidableEq, Repr

/-- One line of a tile's line cache (R140): node and granule address, tenant, bytes, issue stamp of the load that filled
it; `bad`: it holds a parity error that no load has found yet (R143). -/
structure Line where
  node   : Option Nat
  addr   : Nat
  tenant : Nat
  bytes  : List Byte
  stamp  : Nat
  bad    : Bool := false
  deriving DecidableEq, Repr

/-- One tile: line cache, issue stamp and oldest fill a new load may hit, channels served by the engines with the tick at which each engine's
slice began and the granules it has moved in it (R122), channel order, PLL
and its idle time, clock, whether the brake divides the clock of the tile and its base die and halves the issue of its HBM controllers
(Table 18.6), temperature, command channel. -/
structure TileState where
  lines    : List Line := []
  stamp    : Nat := 0
  floor    : Nat := 0
  engines  : List (Option Nat) := [none, none, none, none]
  sliceAt  : List Nat := [0, 0, 0, 0]
  sliceDone : List Nat := [0, 0, 0, 0]
  nextChan : Nat := 0
  pllOn    : Bool := true
  idleFrom : Nat := 0
  mhz      : Nat := 3000
  braked   : Bool := false
  hot      : Bool := false   -- met PWR_THERM.EMERG in the open emergency (R435)
  temp     : Nat := 0
  cmdChan  : Option QueueId := none
  cmdDone  : Nat := 0
  cmdTag   : Option Nat := none
  deriving DecidableEq, Repr

/-- A command packet, eight words (Table 12.3). -/
abbrev Packet := List Word

/-- The terms of an accepted PACED command (R323, R324). `lead` is unknown until the command admitted before it
completes. -/
structure Pace where
  bound : Nat
  work  : Nat
  slots : Nat
  lead  : Option Nat
  caughtRecovery  : Bool := false
  caughtEmergency : Bool := false
  deriving DecidableEq, Repr

/-- What a started command waits for. -/
inductive Wait where
  | none
  | residency      -- R177, R255: saddles and KV pages being paged in
  | table          -- R247: the writes of the saddle table on their way
  | shutdown       -- R308: an earlier shutdown or scrub
  | zeroFill       -- R306
  | teardown       -- R309
  | tasks          -- R85: cores of the task still run
  | unit           -- engine, ring or channel work of the command
  | faulting       -- R444: the other masters are being stopped
  deriving DecidableEq, Repr

/-- An accepted, uncompleted command: its stud-book entry (R459) and what firmware knows of its run. -/
structure Cmd where
  q        : QueueId
  packet   : Packet
  sqHead   : Nat
  admitted : Nat
  started  : Bool := false
  replays  : Nat := 0
  replayed : Bool := false
  promoted : Bool := false
  deferred : Bool := false
  aborted  : Bool := false
  pace     : Option Pace := none
  wait     : Wait := .none
  binds    : List (Nat × Nat) := []
  rows     : List Nat := []   -- R248: the HANDLE of each saddle-table entry, as found at admission
  heldAt   : Option Nat := none
  bound    : Bool := false
  kv       : List Nat := []
  payload  : List Byte := []
  faultSeq : Option Word := none
  peers    : List (Nat × Nat) := []   -- R464: recovering peers that hold it, and since when
  peerLost : Bool := false
  objLost  : Bool := false
  shown    : Bool := false   -- R460: an admin command whose effect the restored state shows
  result   : Word := 0
  deriving DecidableEq, Repr

/-- A completion record (Table 12.7), four words. -/
abbrev Completion := List Word

/-- A completion record that has not reached its ring, whether an interrupt follows it, and the stud-book entry it retires (R300, R459). -/
structure HeldRecord where
  record : Completion
  irq    : Bool
  entry  : Option Cmd := none
  deriving DecidableEq, Repr

/-- A submission and completion queue pair (R286 to R292, Table 12.2). -/
structure Queue where
  id     : QueueId
  sqBase : Nat
  cqBase : Nat
  log2Sq : Nat
  log2Cq : Nat
  cls    : Nat
  irqEn  : Bool
  starve : Nat := 0
  sqHead : Nat := 0
  sqTail : Nat := 0
  cqHead : Nat := 0
  cqTail : Nat := 0
  phase  : Bool := true
  held   : List HeldRecord := []
  bells   : List (Nat × Nat) := []   -- PACED: ticks of the doorbells and how many unfetched packets each has covered (R321)
  waiting : List (Nat × Nat × Packet) := []   -- PACED: doorbell tick, head after it, packet
  ready  : Option Nat := none
  promoted : Bool := false
  destroyBy : Option QueueId := none
  lossTail  : Option Nat := none   -- R378: the head up to which packets were accepted when the host was lost
  deriving DecidableEq, Repr

/-- A tenant (R286, R288). `dying`: its shutdown has not ended (Table 12.9). -/
structure Tenant where
  id     : Nat
  dying  : Bool := false
  exists_ : Bool := true
  deriving DecidableEq, Repr

/-- A tenant memory range (R304). -/
structure Range where
  tenant   : Nat
  idx      : Nat
  base     : Nat
  size     : Nat
  readers  : Nat
  r        : Bool
  w        : Bool
  fabricIn : Bool
  deriving DecidableEq, Repr

/-- How far a teardown has come (Table 12.10). `drain` is the drain counter, `since` the tick of step 2. -/
structure Teardown where
  by_    : Option QueueId
  reset  : Bool
  drain  : Nat
  since  : Nat
  purging : Bool := false
  purged : Nat := 0
  deriving DecidableEq, Repr

/-- A context (R295 CONTEXT_CREATE, R309). -/
structure Context where
  tenant   : Nat
  ctx      : Nat
  poolBase : Nat := 0
  poolSize : Nat := 0
  cmBase   : Nat := 0
  cmSize   : Nat := 0
  hitches  : Nat := 0
  cores    : List Nat := []
  revoked  : Bool := false
  exists_  : Bool := true
  held     : Bool := false
  tear     : Option Teardown := none
  deriving DecidableEq, Repr

/-- A loaded program: its placed and relocated sections for each slot, as the program store keeps them (R456). `gone`: unloaded,
with the accepted commands that may still run it. -/
structure Program where
  handle   : Nat
  tenant   : Nat
  ctx      : Nat
  slots    : List Nat
  ranks    : List Nat
  entry    : Nat
  codeOff  : Nat
  codeSize : Nat
  cmBytes  : Nat
  args     : List Byte
  placed   : List (Nat × Nat × List Byte)   -- slot, task-relative offset, bytes
  gone     : Option (List (QueueId × Nat)) := none
  deriving DecidableEq, Repr

/-- A region that waits for its scrub (R312): what it belonged to, where it lies. -/
structure Scrub where
  tenant : Nat
  ctx    : Option Nat
  range  : Option Nat
  base   : Nat
  size   : Nat
  deriving DecidableEq, Repr

/-- Saddle states (Table 10.3). -/
inductive SaddleState where
  | resident | paged | loading | lost
  deriving DecidableEq, Repr

/-- One version of one saddle (R249 to R254). `bytes` is the image; `addr` its HBM address while it has a slot; `uid` tells
versions apart. -/
structure Saddle where
  uid      : Nat
  tenant   : Nat
  handle   : Nat
  version  : Nat
  bytes    : Nat
  addr     : Nat
  slot     : Option Nat
  state    : SaddleState
  tierOff  : Option Nat
  tierCurrent : Bool
  lastRun  : Nat
  old      : Bool := false
  retiring : Bool := false
  unloadBy : Option QueueId := none
  deriving DecidableEq, Repr

/-- What a paging object is (R173). -/
inductive ObjKind where
  | saddle (tenant handle uid : Nat)
  | kvPage (entryAddr : Nat)
  | other (tenant : Nat)
  deriving DecidableEq, Repr

/-- A paging object: HBM place, tier place, length (R173, R177). -/
structure PageObj where
  id     : Nat
  kind   : ObjKind
  tenant : Nat
  hbm    : Nat
  tier   : Nat
  bytes  : Nat
  resident : Bool
  deriving DecidableEq, Repr

/-- A paging request in the urgent or the background queue (R174). `done` counts the 64 KiB segments that each engine has moved of the part
of the object that lies in its channel. -/
structure PageReq where
  obj    : Nat
  pageIn : Bool
  done   : Tbl Nat := []
  since  : Nat := 0
  deriving DecidableEq, Repr

/-- A codec job whose blocks have been coded and whose RESULT is not yet written (R190). -/
structure CodecJob where
  result : Nat
  dmgSub : Nat
  firstDmg : Nat
  dlen   : Nat
  encode : Bool
  deriving DecidableEq, Repr

/-- A queue armed at a host's Drover (R227, R230): the counts it holds, the header as armed; `owed`: its hitch is signalled once the
writes of its completion have reached their homes. `ring` is 8 × tile + ring. -/
structure Armed where
  qaddr    : Nat
  exch     : Nat
  peers    : Nat
  tenant   : Nat
  ctx      : Nat
  ring     : Nat
  gentry   : Nat
  outAddr  : Nat
  outPitch : Nat
  capacity : Nat
  rowBytes : Nat
  header   : List Byte
  fill     : Nat := 0
  segments : Nat := 0
  claimed  : Nat := 0
  routed   : Nat := 0
  skipped  : Nat := 0
  complete : Bool := false
  owed     : Bool := false
  origins  : List (Nat × Nat × Nat × Nat) := []  -- node, tenant, context, COMB_HITCH of each claim
  deriving DecidableEq, Repr

/-- A claim held for an arm (R234), with the tick at which it was accepted. -/
structure HeldClaim where
  claim : Claim
  since : Nat
  deriving DecidableEq, Repr

/-- One segment of a dispatch job (R227): 0 claim sent, 1 granted, 2 closed, 3 refused after ARM_TMO; when the claim was first and
last sent, whether a full host has turned it back, and the host's answer. -/
structure Seg where
  expert : Nat
  qaddr  : Nat
  choices : List (Nat × Nat)
  phase  : Nat := 0
  since  : Nat := 0
  sent   : Nat := 0
  nacked : Bool := false
  grant  : Nat := 0
  base   : Nat := 0
  rowsOff : Nat := 0
  refused : Bool := false
  deriving DecidableEq, Repr

/-- What a Drover sends to another, or to itself: a claim, the answer to one (rows granted, first slot, ROWS_OFF), the close of a
segment. -/
inductive XMsg where
  | claim (c : Claim)
  | answer (c : Claim) (a : ClaimAnswer) (grant base rowsOff : Nat)
  | close (node qaddr exch : Nat)
  deriving DecidableEq, Repr

/-- A dispatch job in progress on a Drover ring. -/
structure XJob where
  words  : List Word
  exch   : Nat
  segs   : List Seg
  reason : Nat := 0
  timedOut : Bool := false
  refused  : Bool := false
  hosted : List Nat := []
  deriving DecidableEq, Repr

/-- A Groom descriptor that has been applied and not yet ended (R275). -/
structure GroomJob where
  result : Nat
  reason : Nat
  step   : Nat
  deriving DecidableEq, Repr

/-- A collective in progress at an engine (R355 to R360): the descriptor, the member table, the source as read at its start with its
poisoned extents, the reduction under way in the own chunk, the chunks finished, the segments taken in. -/
structure Coll where
  die     : Nat
  q       : QueueId
  words   : List Word
  addr    : Nat
  members : List Nat
  start   : Nat
  started : Bool := false
  src     : List Byte := []
  srcBad  : List (Nat × Nat) := []
  acc     : List F32 := []
  accBad  : List (Nat × Nat) := []
  arrived : Nat := 0
  have_   : List Nat := []
  seen    : List (Nat × Nat × Nat) := []
  tooBig  : Bool := false
  damaged : Bool := false
  reason  : Nat := 0
  deriving DecidableEq, Repr

/-- A segment, or an abort (`seg` none), that an engine has sent and that is not acknowledged. -/
structure CollOut where
  die    : Nat
  tenant : Nat
  ctx    : Nat
  node   : Nat
  id     : Nat
  collId : Nat
  seg    : Option CollSeg
  port   : Option Nat
  sentAt : Nat
  deriving DecidableEq, Repr

/-- A burst a source keeps until it is acknowledged (R352): the transaction, its path port, the tick it was last sent. -/
structure TxBurst where
  burst  : Burst
  port   : Option Nat
  sentAt : Nat
  sent   : Bool := true
  deriving DecidableEq, Repr

/-- The sending side of a pair (MASTER, DST_NODE). -/
structure TxPair where
  master  : Nat
  node    : Nat
  nextSeq : Nat := 0
  unacked : List TxBurst := []
  deriving DecidableEq, Repr

/-- The receiving side of a pair: next SEQ to apply, and the bursts that wait, each with the engine that took it (R352). -/
structure RxPair where
  master : Nat
  node   : Nat
  expect : Nat := 0
  early  : List (Nat × Burst) := []
  deriving DecidableEq, Repr

/-- A remote read in flight (R352), and once its data has come whether the granule is hitch memory there (R139). -/
structure RemoteRead where
  tag    : Nat
  master : Nat
  tenant : Nat
  ctx    : Nat
  node   : Nat
  addr   : Nat
  bytes  : Nat
  port   : Option Nat
  data   : Option (List Byte × Bool) := none
  hitch  : Bool := false
  deriving DecidableEq, Repr

/-- A granule cached in a host (R371). -/
structure DirEntry where
  gran  : Nat
  port  : Nat
  excl  : Bool
  deriving DecidableEq, Repr

/-- A master's write that waits at its home: address, bytes, byte mask, poison; or an operation on the hitch at the address: add or set, and
the value. `owner`: tenant and context of a master's write to a host; `sender`: the master (R150). -/
structure HeldWrite where
  addr  : Nat
  bytes : List Byte
  mask  : List Bool
  bad   : Bool
  hitch : Option (Bool × Nat) := none
  owner : Option (Nat × Nat) := none
  sender : Nat := 0
  deriving DecidableEq, Repr

/-- What follows writes that wait at their homes: a signal of a context's hitch. -/
inductive AfterAct where
  | signal (tenant ctx hitch inc : Nat)
  deriving DecidableEq, Repr

/-- An act that waits until no write waits in its spans of addresses (R232, R236, R300). -/
structure After where
  spans : List (Nat × Nat)
  act   : AfterAct
  deriving DecidableEq, Repr

/-- A snoop sent and not answered (R372), with the master's write that waits for it. -/
structure Snoop where
  gran  : Nat
  port  : Nat
  since : Nat
  write : Option HeldWrite
  deriving DecidableEq, Repr

/-- One Chotus port beside its registers (R364, R377, R378). -/
structure ChotusState where
  lossTick : Option Nat := none
  noFurther : Bool := false
  kept     : List (QueueId × Completion × Bool) := []
  pendIrq  : List Nat := []
  everUp   : Bool := false
  barred   : Bool := false
  deriving DecidableEq, Repr

/-- One fabric port beside its registers: neighbour accepted last and present, spare lane in training, working lanes, failed lanes that
spares have still to replace (R340, R341), the failed replays of the present frame in a row (R339). -/
structure FabPort where
  acked    : Option Neighbour := none
  now      : Option Neighbour := none
  training : Option Nat := none
  inUse    : List Nat := []
  toFix    : List Nat := []
  cable    : Bool := true
  replays  : Nat := 0
  deriving DecidableEq, Repr

/-- A curb that firmware has not handled yet (R443, R444): Table 19.1 and 19.3 codes, the access that failed. -/
structure Curb where
  kind   : Nat
  mtype  : Nat
  mindex : Nat
  tenant : Nat
  ctx    : Nat
  addr   : Nat
  len    : Nat
  remote : Option Nat
  q      : Option QueueId
  cause  : Nat := 0
  deriving DecidableEq, Repr

/-- A fault record (Table 19.2). -/
structure FaultRec where
  time   : Nat
  seq    : Nat
  kind   : Nat
  mtype  : Nat
  mindex : Nat
  ctx    : Nat
  tenant : Nat
  opcode : Nat
  tag    : Word
  addr   : Nat
  len    : Nat
  cause  : Nat
  flags  : Nat
  node   : Nat
  deriving DecidableEq, Repr

/-- A hang record (Table 19.6): header fields; the parts that follow are identified by their words. -/
structure HangRec where
  seq     : Nat
  time    : Nat
  level   : Nat
  trigger : Nat
  flags   : Nat
  words   : List Word
  deriving DecidableEq, Repr

/-- A wear-ledger record (Table 19.10). -/
structure WearRec where
  time   : Nat
  seq    : Nat
  kind   : Nat
  reason : Nat
  unit   : Nat
  from_  : Nat
  to_    : Nat
  count  : Nat
  deriving DecidableEq, Repr

/-- A log record (Table 16.5). -/
structure LogRec where
  time  : Nat
  seq   : Nat
  point : Nat
  level : Nat
  core  : Nat
  args  : List Word
  deriving DecidableEq, Repr

/-- A measurement event (Table 20.3). -/
structure MeasEvent where
  reg    : Nat
  source : Nat
  time   : Nat
  digest : List Byte
  deriving DecidableEq, Repr

/-- An option block (R335, R391, Table 15.7), of which two copies stand in flash. -/
structure OptionBlock where
  seq       : Nat := 1
  prefSlot  : Nat := 0
  trial     : Bool := false
  tries     : Nat := 0
  paceSlot  : Nat := 6250
  sadGib    : Nat := 128
  reserveMib : Nat := 4096
  traceEn   : Word := 0
  deriving DecidableEq, Repr

/-- A management request as it was read (Tables 12.12, 12.13): where it came from, its major version, opcode, SEQ and body. -/
structure MgmtReq where
  port   : Port
  major  : Nat
  opcode : Nat
  seq    : Nat
  body   : List Byte
  deriving DecidableEq, Repr

/-- Staging of a firmware image (R396): total bytes, the DATA messages programmed so far in order, sectors erased from the slot's start,
DATA messages that wait for an erase. -/
structure Staging where
  slot    : Nat
  total   : Nat
  written : List (Nat × List Byte) := []
  erased  : Nat := 1
  waiting : List MgmtReq := []
  deriving DecidableEq, Repr

/-- An activation under way (R397 to R400). -/
structure Activation where
  request : Nat
  began   : Nat
  pulled  : List Nat := []
  deriving DecidableEq, Repr

/-- A module reset in progress (R407 to R420): what asked for it and when, when it was asserted, and whether it met option loading, in
which case option loading restarts (R418). -/
structure ResetInProgress where
  cold     : Bool
  source   : Nat
  request  : Nat
  asserted : Option Nat := none
  restart  : Bool := false
  deriving DecidableEq, Repr

/-- A reset of engine (0), core (1) or tile (2) level that firmware has ordered (R449), and the core that submitted a tile-level engine's
work. Kept until it escalates or another of its unit takes its place. -/
structure NarrowReset where
  level : Nat
  idx   : Nat
  since : Nat
  core  : Option Nat := none
  deriving DecidableEq, Repr

/-- Output pins (Table 17.6). -/
structure Pins where
  modReady  : Bool := false
  modAlertN : Bool := true
  i3cOn     : Bool := false
  mgmtOn    : Bool := false
  chotusTx  : Nat := 0   -- 0 electrical idle, 1 keepalive, 2 trained or training
  evotrixTx : Nat := 0
  ddrResetN : List Bool := List.replicate 16 false
  deriving DecidableEq, Repr

/-- The commands and tenants of the block: queues, stud book, tenants, contexts, programs (chapters 4, 12, 13). -/
structure Cmds where
  queues    : List Queue := []
  cmds      : List Cmd := []
  tenants   : List Tenant := [{ id := 0 }]
  ranges    : List Range := []
  contexts  : List Context := [{ tenant := 0, ctx := 0 }]
  programs  : List Program := []
  nextHandle : Nat := 1
  scrubs    : List Scrub := []
  lastRun   : Tbl QueueId := []
  lastPacedDone : Bool := true
  deriving DecidableEq, Repr

/-- Paging and saddles (chapters 7, 10). -/
structure Paging where
  objs      : List PageObj := []
  urgent    : List PageReq := []
  background : List PageReq := []
  engines   : Tbl (Nat × Bool × Nat) := []
  saddles   : List Saddle := []
  nextObj   : Nat := 1
  deriving DecidableEq, Repr

/-- The engines that work on descriptors: codecs, Drovers, Grooms, collectives, Pacers (chapters 7, 9, 11, 14). -/
structure Engines where
  codecs    : Tbl CodecJob := []
  armed     : Tbl (List Armed) := []
  heldClaims : Tbl (List HeldClaim) := []
  xjobs     : Tbl XJob := []
  xout      : List XMsg := []
  grooms    : Tbl GroomJob := []
  groomLists : List (QueueId × Nat × Nat × List Nat) := []
  colls     : List Coll := []
  collHeld  : List (Nat × CollSeg) := []
  collOut   : List CollOut := []
  collNext  : Nat := 0
  pacerActive : Tbl (List Word) := []
  pacerDenied : Bool := false
  pacerAsked : Bool := false
  deriving DecidableEq, Repr

/-- The Evotrix fabric (chapter 14). -/
structure Fabric where
  fabPorts  : Tbl FabPort := []
  tx        : List TxPair := []
  rx        : List RxPair := []
  reads     : List RemoteRead := []
  readsIn   : List (Burst × Nat) := []
  nextTag   : Nat := 0
  unreach   : Tbl Nat := []
  pathAt    : Tbl Nat := []   -- R448: when a node's hold for want of a path last ended
  lostDrops : Nat := 0
  lostNodes : List Nat := []
  wrr       : Tbl (List Int) := []
  portRr    : Tbl Nat := []
  fabOut    : List Burst := []
  laneTold  : List (Nat × Nat) := []   -- Table 14.3: lanes declared failing to the other end of a port
  recovering : List (Nat × Nat) := []
  sendRecovering : Bool := false
  deriving DecidableEq, Repr

/-- Chotus and the management ports (chapter 15). -/
structure Mgmt where
  chotus    : Tbl ChotusState := []
  modeTick  : Nat := 0
  modeOpen  : Bool := false
  irqs      : List (Nat × Nat) := []
  directory : List DirEntry := []
  snoops    : List Snoop := []
  modeIds   : List Nat := []
  hostIn    : List (Nat × Nat × Nat × HostOp) := []
  hostWrites : List HeldWrite := []
  sender    : Nat := 0   -- R366: the master whose writes are on their way to a host
  after     : List After := []
  hostOut   : List (Nat × List Byte × Bool) := []
  mbBusy    : List Nat := []
  netBusy   : List Nat := []
  netOut    : List (Nat × List Byte) := []
  i3cDyn    : Option Nat := none
  i3cEvents : Nat := 0
  i3cEnable : Bool := false
  i3cResp   : List Byte := []
  i3cOut    : List Nat := []
  i3cReads  : List (List Byte) := []
  reports   : List (Nat × List Byte) := []
  reportPend : List (MgmtReq × List Byte) := []
  resetPend : List (Bool × Nat × Nat) := []
  deriving DecidableEq, Repr

/-- FJONU firmware (chapter 16). -/
structure Firmware where
  opt       : OptionBlock := {}
  optOld    : OptionBlock := { seq := 0 }
  slotA     : List Byte := []
  slotB     : List Byte := []
  chain     : List Byte := []
  fallback  : Bool := false
  runSvn    : Nat := 0
  runSince  : Nat := 0
  awayAt    : Nat := 0   -- when the module last left M0 for M1 or M2
  traceOld  : Option (Nat × Nat × Nat) := none   -- R403: tick of the last write of FW_TRACE_EN or _LVL, values before it
  staging   : Option Staging := none
  act       : Option Activation := none
  fetchStop : Bool := false
  ctrlState : List Nat := [0, 0, 0, 0, 0, 0, 0, 1]
  ctrlMap   : List Nat := [0, 1, 2, 3, 4, 5, 6]
  log       : List LogRec := []
  fwUp      : Bool := false
  recoveryWait : Bool := false
  bootSlot  : Option Nat := none   -- R391: the slot, network (2) or mailbox (3), that the ROM loads from
  netImage  : List Byte := []   -- R393: a sound image that the ROM has placed in the pool area
  ctrlFailed : List Nat := []   -- R386: logical control cores to be remounted in recovery
  deriving DecidableEq, Repr

/-- Reset, power, pins, recovery (chapters 17 to 19). -/
structure Power where
  powered   : Bool := false
  stuck     : Bool := false
  straps    : Nat := 0
  selfTest  : Nat := 0
  rst       : Option ResetInProgress := none
  narrow    : List NarrowReset := []
  coldOpt   : Bool := false
  holdUntil : Nat := 0   -- R412, Table 17.5: the reset holds at least until this tick
  lowUntil  : Nat := 0   -- R412: MOD_RST_N stays low until this tick
  rotBad    : Bool := false   -- MODEL: the root of trust fails its self-test (R477)
  wdogStart : Nat := 0
  recovery  : Option (Nat × Nat) := none   -- trigger tick, phase of Table 19.7
  recoverAgain : Bool := false
  healthState : Nat := 0
  refclk    : Bool := true
  pins      : Pins := {}
  pstate    : Nat := 3
  causes    : List Nat := []
  wake      : Bool := false   -- R430: a doorbell, GO or burst has asked for M0
  emergOpen : Bool := false
  under97   : Nat := 0
  uj        : Nat := 0   -- input energy since module cold reset
  capSaved  : Option Nat := none   -- R439: PWR_CAP as it stood before the warning
  capLater  : Option Nat := none   -- R434: a PWR_CAP write made in an emergency
  effDue    : Bool := false
  effCap    : Bool := false   -- R496
  trip      : Bool := false
  deriving DecidableEq, Repr

/-- Fault, hang and wear records (chapter 19). -/
structure Faults where
  curbs     : List Curb := []
  faults    : List FaultRec := []
  faultSeqs : Tbl Nat := []
  hangs     : List HangRec := []
  wear      : List WearRec := []
  wearSeq   : Nat := 0
  progAt    : Tbl Nat := []   -- R448: last advance, at 4096 × class + index
  pageCorr  : Tbl (List Nat) := []   -- R470: ticks of corrected errors, by HBM page
  bankCorr  : Tbl (List Nat) := []   -- by pool bank, 64 × die + bank
  bankUncorr : Tbl (List Nat) := []
  deadStacks : List Nat := []   -- MODEL: stacks and DDR5 channels that fail training
  deadChannels : List Nat := []
  failedStacks : List Nat := []
  deriving DecidableEq, Repr

/-- Security (chapter 20). -/
structure Security where
  keys      : Tbl (List Byte) := []
  kemSeed   : List Byte := []
  meas      : List (List Byte) := List.replicate 6 (List.replicate 64 0)
  events    : List MeasEvent := []
  mgmtKey   : Option (List Byte) := none
  mgmtRx    : Nat := 0
  mgmtTx    : Nat := 1
  svnBusy   : Bool := false
  digest    : List Word := List.replicate 8 0
  mgmtWords : List Word := List.replicate 4 0
  deriving DecidableEq, Repr

/-- Fuses and identity (chapters 0, 20). -/
structure Fuses where
  variant   : Variant := .sbm3216
  stepping  : Nat := 0x10
  serial    : Nat := 0
  svnFuses  : Nat := 0
  styleLock : Bool := false
  styleVal  : Bool := false
  debugLock : Bool := true
  sector    : Nat := 65536   -- MODEL: erase unit of the flash part fitted (R382)
  deriving DecidableEq, Repr

/-- The block: everything but the queue of waiting commands. -/
structure Block where
  -- registers and memories
  regs      : List (Nat × Word) := []
  mem       : Memory := []
  bufs      : Memory := []
  mbuf      : Memory := []
  poison    : List Nat := []
  bufPoison : List Nat := []
  tags      : List Nat := []
  ecc       : List (Nat × List Nat) := []   -- granules holding an error, and the bits of the stored codeword that are wrong
  stale     : List (Nat × Nat × Nat) := []   -- R163: first granule and count of what was written under another key; MODEL: index of its free bytes
  dimms     : List (List Nat) := List.replicate 16 []
  -- time
  time      : Nat := 0
  -- cores and tiles
  cores     : Tbl CoreState := []
  tiles     : Tbl TileState := []
  chans     : Tbl (List CopyJob) := []
  cmd       : Cmds := {}
  page      : Paging := {}
  eng       : Engines := {}
  fab       : Fabric := {}
  cho       : Mgmt := {}
  fw        : Firmware := {}
  pwr       : Power := {}
  flt       : Faults := {}
  sec       : Security := {}
  fuse      : Fuses := {}
  -- MODEL: the index of the next free value
  free      : Nat := 0
  deriving DecidableEq, Repr

/-- Why the machine would stop with a fault. No command of the table stops the block: a failing access curbs its master
(R443) and the block goes on, so no constructor is needed and none exists. -/
inductive Fault where
  deriving DecidableEq, Repr

/-- Why a command would be refused. -/
inductive Refusal where
  /-- Raised by an arm of `exec` whose command has no meaning yet; safe, nothing runs. -/
  | notModelled (mnemonic : String)
  deriving DecidableEq, Repr

/-- The model state: the block and the commands that wait, first in, first out. -/
structure State where
  m       : Block := {}
  pending : List Instr := []
  deriving DecidableEq, Repr

/-- An SBM-3216 (log entry 12) before PWR_GOOD rises: every register at its reset value, no memory listed, no command
waiting. -/
def State.reset : State := {}

end Sys2Proof.Machine
end

