-- ==== Sys2Proof/Machine/Mem.lean ====
section
/-! DEFINITION. Memory as cells in canonical form: reading, writing, zero-filling, and the canonical form of any list of
cells. A byte that nothing has written reads 0x00 (log entry 11). -/
namespace Sys2Proof.Machine

/-- The byte at an address. -/
def Memory.read : Memory → Nat → Byte
  | [], _ => 0
  | (k, v) :: t, a => if k = a then v else Memory.read t a

/-- Writes one byte, keeping addresses rising and no 0x00 listed. -/
def Memory.write : Memory → Nat → Byte → Memory
  | [], a, v => if v = 0 then [] else [(a, v)]
  | (k, w) :: t, a, v =>
    if a < k then (if v = 0 then (k, w) :: t else (a, v) :: (k, w) :: t)
    else if a = k then (if v = 0 then t else (a, v) :: t)
    else (k, w) :: Memory.write t a v

/-- `n` bytes from an address on. -/
def Memory.readN (m : Memory) (a : Nat) : Nat → List Byte
  | 0 => []
  | n + 1 => m.read a :: Memory.readN m (a + 1) n

/-- Writes bytes from an address on. -/
def Memory.writeN (m : Memory) (a : Nat) : List Byte → Memory
  | [] => m
  | b :: bs => Memory.writeN (m.write a b) (a + 1) bs

/-- Writes the bytes that a mask selects; a mask shorter than the data selects the rest. -/
def Memory.writeMasked (m : Memory) (a : Nat) : List Byte → List Bool → Memory
  | [], _ => m
  | b :: bs, [] => Memory.writeMasked (m.write a b) (a + 1) bs []
  | b :: bs, k :: ks => Memory.writeMasked (if k then m.write a b else m) (a + 1) bs ks

/-- Zero-fills `n` bytes. -/
def Memory.clear (m : Memory) (a n : Nat) : Memory := m.filter fun c => !(decide (a ≤ c.1) && decide (c.1 < a + n))

/-- The canonical form of a list of cells: the same bytes, addresses rising, no 0x00 listed. -/
def Memory.canon (m : Memory) : Memory := m.foldr (fun c acc => Memory.write acc c.1 c.2) []

end Sys2Proof.Machine
end

