-- ==== Sys2Proof/Machine/RegMap.lean ====
section
/-! DEFINITION. The register map: the offset of every register in the register range (local address 0x3000_0000_0000 plus
the offset), its instances, its field types as masks (Table 0.9) and its reset value. Each `Reg` name is the register's
offset; block instance (tile, die, stack, channel, core, port) comes first, then the index within the block.
Field positions stand in the tables of the chapters: 0.3 to 0.7, 2.6, 3.8, 4.9, 4.12, 5.4, 5.5, 5.8, 6.4, 7.3, 7.5, 7.6,
7.11, 8.9, 9.8, 10.4, 11.6, 11.7, 12.2, 12.15, 13.5, 14.11 to 14.13, 15.4, 15.5, 16.6, 17.8, 17.9, 18.8, 19.13, 20.8. -/
namespace Sys2Proof.Machine

abbrev Reg.capId : Nat := 0x0
abbrev Reg.capCompute : Nat := 0x8
abbrev Reg.capMemory : Nat := 0x10
abbrev Reg.capFabric : Nat := 0x18
abbrev Reg.capUnits : Nat := 0x20
abbrev Reg.capGroom : Nat := 0x28
abbrev Reg.coreNumstat (i : Nat) : Nat := 0x1000180 + 0x1000 * i
abbrev Reg.coreArrLoadcyc (i : Nat) : Nat := 0x10001c0 + 0x1000 * i
abbrev Reg.coreArrStrmcyc (i : Nat) : Nat := 0x10001c8 + 0x1000 * i
abbrev Reg.coreArrStallcyc (i : Nat) : Nat := 0x10001d0 + 0x1000 * i
abbrev Reg.coreArrCtl (i : Nat) : Nat := 0x10001d8 + 0x1000 * i
abbrev Reg.coreSeqStatus (i : Nat) : Nat := 0x1000000 + 0x1000 * i
abbrev Reg.coreSeqPc (i : Nat) : Nat := 0x1000008 + 0x1000 * i
abbrev Reg.coreSeqProgress (i : Nat) : Nat := 0x1000010 + 0x1000 * i
abbrev Reg.coreSeqCtl (i : Nat) : Nat := 0x1000018 + 0x1000 * i
abbrev Reg.coreHitchCfg (i : Nat) : Nat := 0x1000020 + 0x1000 * i
abbrev Reg.coreHitchTmo (i : Nat) : Nat := 0x1000028 + 0x1000 * i
abbrev Reg.coreHitchWait (i : Nat) : Nat := 0x1000030 + 0x1000 * i
abbrev Reg.coreHitchTarget (i : Nat) : Nat := 0x1000038 + 0x1000 * i
abbrev Reg.corePhys (i : Nat) : Nat := 0x1000040 + 0x1000 * i
abbrev Reg.coreSeqDispatch (i : Nat) : Nat := 0x1000048 + 0x1000 * i
abbrev Reg.tileCoreMap (i : Nat) : Nat := 0x800040 + 0x1000 * i
abbrev Reg.tileCoreState (i : Nat) : Nat := 0x800048 + 0x1000 * i
abbrev Reg.poolSpareMap (i : Nat) : Nat := 0x900000 + 0x1000 * i
abbrev Reg.poolEcc (i : Nat) : Nat := 0x900008 + 0x1000 * i
abbrev Reg.poolPoison (i : Nat) : Nat := 0x900010 + 0x1000 * i
abbrev Reg.coreTaskId (i : Nat) : Nat := 0x1000100 + 0x1000 * i
abbrev Reg.coreCmBase (i : Nat) : Nat := 0x1000108 + 0x1000 * i
abbrev Reg.coreCmBound (i : Nat) : Nat := 0x1000110 + 0x1000 * i
abbrev Reg.corePoolBase (i : Nat) : Nat := 0x1000118 + 0x1000 * i
abbrev Reg.corePoolBound (i : Nat) : Nat := 0x1000120 + 0x1000 * i
abbrev Reg.coreBoundErr (i : Nat) : Nat := 0x1000128 + 0x1000 * i
abbrev Reg.coreCmStallcyc (i : Nat) : Nat := 0x1000130 + 0x1000 * i
abbrev Reg.tileDmaOwner (i j : Nat) : Nat := 0x800800 + 0x1000 * i + 0x10 * j
abbrev Reg.tileDmaStatus (i j : Nat) : Nat := 0x800808 + 0x1000 * i + 0x10 * j
abbrev Reg.tileLcCtl (i : Nat) : Nat := 0x800080 + 0x1000 * i
abbrev Reg.tileLcHits (i : Nat) : Nat := 0x800088 + 0x1000 * i
abbrev Reg.tileLcMisses (i : Nat) : Nat := 0x800090 + 0x1000 * i
abbrev Reg.tileLcAcq (i : Nat) : Nat := 0x800098 + 0x1000 * i
abbrev Reg.tileLcPerr (i : Nat) : Nat := 0x8000a0 + 0x1000 * i
abbrev Reg.hbmStatus (i : Nat) : Nat := 0xa00000 + 0x1000 * i
abbrev Reg.hbmEcc (i : Nat) : Nat := 0xa00008 + 0x1000 * i
abbrev Reg.hbmPoison (i : Nat) : Nat := 0xa00010 + 0x1000 * i
abbrev Reg.hbmScrub (i : Nat) : Nat := 0xa00018 + 0x1000 * i
abbrev Reg.hbmKeystate (i : Nat) : Nat := 0xa00020 + 0x1000 * i
abbrev Reg.ddrStatus (i : Nat) : Nat := 0xb00000 + 0x1000 * i
abbrev Reg.ddrEcc (i : Nat) : Nat := 0xb00008 + 0x1000 * i
abbrev Reg.ddrPoison (i : Nat) : Nat := 0xb00010 + 0x1000 * i
abbrev Reg.ddrTierStatus : Nat := 0xb10000
abbrev Reg.ddrPageRate : Nat := 0xb10008
abbrev Reg.ddrPageTpg : Nat := 0xb10010
abbrev Reg.ddrPageSeg : Nat := 0xb10018
abbrev Reg.ddrPageReserve : Nat := 0xb10020
abbrev Reg.ddrPageUrgent : Nat := 0xb10028
abbrev Reg.cmpRingOwner (i j : Nat) : Nat := 0xc00100 + 0x1000 * i + 0x20 * j
abbrev Reg.cmpRingBase (i j : Nat) : Nat := 0xc00108 + 0x1000 * i + 0x20 * j
abbrev Reg.cmpRingTail (i j : Nat) : Nat := 0xc00110 + 0x1000 * i + 0x20 * j
abbrev Reg.cmpRingHead (i j : Nat) : Nat := 0xc00118 + 0x1000 * i + 0x20 * j
abbrev Reg.attSeqDone (i j : Nat) : Nat := 0xd00000 + 0x1000 * i + 0x40 * j
abbrev Reg.attTokens (i j : Nat) : Nat := 0xd00008 + 0x1000 * i + 0x40 * j
abbrev Reg.attEmpty (i j : Nat) : Nat := 0xd00010 + 0x1000 * i + 0x40 * j
abbrev Reg.attRefused (i j : Nat) : Nat := 0xd00018 + 0x1000 * i + 0x40 * j
abbrev Reg.attKvw (i j : Nat) : Nat := 0xd00020 + 0x1000 * i + 0x40 * j
abbrev Reg.attCar (i j : Nat) : Nat := 0xd00028 + 0x1000 * i + 0x40 * j
abbrev Reg.attCtl (i j : Nat) : Nat := 0xd00030 + 0x1000 * i + 0x40 * j
abbrev Reg.drvCfg (i : Nat) : Nat := 0xe00000 + 0x1000 * i
abbrev Reg.drvState (i : Nat) : Nat := 0xe00008 + 0x1000 * i
abbrev Reg.drvRowsSent (i j : Nat) : Nat := 0xe00200 + 0x1000 * i + 0x20 * j
abbrev Reg.drvRowsSkip (i j : Nat) : Nat := 0xe00208 + 0x1000 * i + 0x20 * j
abbrev Reg.drvTmo (i j : Nat) : Nat := 0xe00210 + 0x1000 * i + 0x20 * j
abbrev Reg.drvCtl (i j : Nat) : Nat := 0xe00218 + 0x1000 * i + 0x20 * j
abbrev Reg.drvRingOwner (i j : Nat) : Nat := 0xe00100 + 0x1000 * i + 0x20 * j
abbrev Reg.drvRingBase (i j : Nat) : Nat := 0xe00108 + 0x1000 * i + 0x20 * j
abbrev Reg.drvRingTail (i j : Nat) : Nat := 0xe00110 + 0x1000 * i + 0x20 * j
abbrev Reg.drvRingHead (i j : Nat) : Nat := 0xe00118 + 0x1000 * i + 0x20 * j
abbrev Reg.sadCfg : Nat := 0xf00000
abbrev Reg.sadState : Nat := 0xf00008
abbrev Reg.sadPagein : Nat := 0xf00010
abbrev Reg.sadEvict : Nat := 0xf00018
abbrev Reg.sadHoldMax : Nat := 0xf00020
abbrev Reg.sadCtl : Nat := 0xf00028
abbrev Reg.grmStatus (i : Nat) : Nat := 0x1100000 + 0x1000 * i
abbrev Reg.grmElems (i : Nat) : Nat := 0x1100008 + 0x1000 * i
abbrev Reg.grmNonfinite (i : Nat) : Nat := 0x1100010 + 0x1000 * i
abbrev Reg.grmSkew (i : Nat) : Nat := 0x1100018 + 0x1000 * i
abbrev Reg.grmCtl (i : Nat) : Nat := 0x1100020 + 0x1000 * i
abbrev Reg.grmRingOwner (i j : Nat) : Nat := 0x1100100 + 0x1000 * i + 0x20 * j
abbrev Reg.grmRingBase (i j : Nat) : Nat := 0x1100108 + 0x1000 * i + 0x20 * j
abbrev Reg.grmRingTail (i j : Nat) : Nat := 0x1100110 + 0x1000 * i + 0x20 * j
abbrev Reg.grmRingHead (i j : Nat) : Nat := 0x1100118 + 0x1000 * i + 0x20 * j
abbrev Reg.pcrQueryIn : Nat := 0x1200000
abbrev Reg.pcrQueryOut : Nat := 0x1200008
abbrev Reg.pcrGOwner (i : Nat) : Nat := 0x1201000 + 0x40 * i
abbrev Reg.pcrGShape (i : Nat) : Nat := 0x1201008 + 0x40 * i
abbrev Reg.pcrGLen (i : Nat) : Nat := 0x1201010 + 0x40 * i
abbrev Reg.pcrGVals (i : Nat) : Nat := 0x1201018 + 0x40 * i
abbrev Reg.pcrGGamma (i : Nat) : Nat := 0x1201020 + 0x40 * i
abbrev Reg.pcrGCtl (i : Nat) : Nat := 0x1201028 + 0x40 * i
abbrev Reg.pcrGLast (i : Nat) : Nat := 0x1201030 + 0x40 * i
abbrev Reg.cmdSysSq : Nat := 0x1300000
abbrev Reg.cmdSysCq : Nat := 0x1300008
abbrev Reg.cmdSysCfg : Nat := 0x1300010
abbrev Reg.cmdCounts : Nat := 0x1300018
abbrev Reg.cmdDropped : Nat := 0x1300020
abbrev Reg.cmdPurged : Nat := 0x1300028
abbrev Reg.cmdAged : Nat := 0x1300030
abbrev Reg.cmdScrubPending : Nat := 0x1300038
abbrev Reg.cmdMbCtl (i : Nat) : Nat := 0x1301000 + 8 * i
abbrev Reg.paceAdm : Nat := 0x1400000
abbrev Reg.paceSlot : Nat := 0x1400008
abbrev Reg.paceFg : Nat := 0x1400010
abbrev Reg.paceLhop : Nat := 0x1400018
abbrev Reg.paceCopy : Nat := 0x1400020
abbrev Reg.paceAhead : Nat := 0x1400028
abbrev Reg.paceStatus : Nat := 0x1400030
abbrev Reg.paceSuspStart : Nat := 0x1400038
abbrev Reg.paceSuspEnd : Nat := 0x1400040
abbrev Reg.paceAccepts : Nat := 0x1400048
abbrev Reg.paceRejects : Nat := 0x1400050
abbrev Reg.paceLate : Nat := 0x1400058
abbrev Reg.paceOverrun : Nat := 0x1400060
abbrev Reg.fabNode : Nat := 0x1500000
abbrev Reg.fabUnreach : Nat := 0x1500008
abbrev Reg.fabCollTmo : Nat := 0x1500010
abbrev Reg.fabLaneSer : Nat := 0x1500018
abbrev Reg.fabRtErr : Nat := 0x1500020
abbrev Reg.fabDrop : Nat := 0x1500028
abbrev Reg.fabLost : Nat := 0x1500030
abbrev Reg.fabPortStatus (i : Nat) : Nat := 0x1501000 + 0x40 * i
abbrev Reg.fabPortNbr (i : Nat) : Nat := 0x1501008 + 0x40 * i
abbrev Reg.fabPortErr (i : Nat) : Nat := 0x1501010 + 0x40 * i
abbrev Reg.fabPortCtl (i : Nat) : Nat := 0x1501018 + 0x40 * i
abbrev Reg.fabCollState (i : Nat) : Nat := 0x1510000 + 0x40 * i
abbrev Reg.fabCollDone (i : Nat) : Nat := 0x1510008 + 0x40 * i
abbrev Reg.fabCollFail (i : Nat) : Nat := 0x1510010 + 0x40 * i
abbrev Reg.choMode : Nat := 0x1600000
abbrev Reg.choHbTmo : Nat := 0x1600008
abbrev Reg.choHold : Nat := 0x1600010
abbrev Reg.choPortStatus (i : Nat) : Nat := 0x1600100 + 0x40 * i
abbrev Reg.choHb (i : Nat) : Nat := 0x1600108 + 0x40 * i
abbrev Reg.choHbLast (i : Nat) : Nat := 0x1600110 + 0x40 * i
abbrev Reg.choPortErr (i : Nat) : Nat := 0x1600118 + 0x40 * i
abbrev Reg.choIrqPend (i : Nat) : Nat := 0x1600120 + 0x40 * i
abbrev Reg.choPortCtl (i : Nat) : Nat := 0x1600128 + 0x40 * i
abbrev Reg.fwRun : Nat := 0x1700000
abbrev Reg.fwStaged : Nat := 0x1700008
abbrev Reg.fwAct : Nat := 0x1700010
abbrev Reg.fwActTime : Nat := 0x1700018
abbrev Reg.fwActEnd : Nat := 0x1700020
abbrev Reg.fwActDrain : Nat := 0x1700028
abbrev Reg.fwActDefer : Nat := 0x1700030
abbrev Reg.fwTraceEn : Nat := 0x1700038
abbrev Reg.fwTraceLvl : Nat := 0x1700040
abbrev Reg.fwLog : Nat := 0x1700048
abbrev Reg.fwCtrl : Nat := 0x1700050
abbrev Reg.fwSvn : Nat := 0x1700058
abbrev Reg.aonTime : Nat := 0x100000
abbrev Reg.aonStraps : Nat := 0x100008
abbrev Reg.tileClkIdle : Nat := 0x100010
abbrev Reg.aonRefclk : Nat := 0x100018
abbrev Reg.rstCause : Nat := 0x200000
abbrev Reg.rstTime : Nat := 0x200008
abbrev Reg.rstCounts : Nat := 0x200010
abbrev Reg.rstStatus : Nat := 0x200018
abbrev Reg.rstCmd : Nat := 0x200020
abbrev Reg.pwrState : Nat := 0x1800000
abbrev Reg.pwrCtl : Nat := 0x1800008
abbrev Reg.pwrCap : Nat := 0x1800010
abbrev Reg.pwrLimits : Nat := 0x1800018
abbrev Reg.pwrInput : Nat := 0x1800020
abbrev Reg.pwrEnergy : Nat := 0x1800028
abbrev Reg.pwrTherm : Nat := 0x1800030
abbrev Reg.pwrCool : Nat := 0x1800038
abbrev Reg.pwrEvents : Nat := 0x1800040
abbrev Reg.pwrTemp (i : Nat) : Nat := 0x1800100 + 8 * i
abbrev Reg.pwrRail (i : Nat) : Nat := 0x1800200 + 8 * i
abbrev Reg.aonWdog (i : Nat) : Nat := 0x100100 + 8 * i
abbrev Reg.aonEscEngine : Nat := 0x100150
abbrev Reg.aonEscCore : Nat := 0x100158
abbrev Reg.aonEscTile : Nat := 0x100160
abbrev Reg.aonRecov : Nat := 0x100180
abbrev Reg.aonRecovStart : Nat := 0x100188
abbrev Reg.aonRecovEnd : Nat := 0x100190
abbrev Reg.aonHang : Nat := 0x100198
abbrev Reg.secStatus : Nat := 0x1900000
abbrev Reg.secKemId : Nat := 0x1900008
abbrev Reg.secExtend : Nat := 0x1900010
abbrev Reg.secDigest (i : Nat) : Nat := 0x1900040 + 8 * i
abbrev Reg.secSvnCtl : Nat := 0x1900018
abbrev Reg.secMgmtKey (i : Nat) : Nat := 0x1900080 + 8 * i
abbrev Reg.secMgmtCtl : Nat := 0x1900020
abbrev Reg.secMgmtErr : Nat := 0x1900028
abbrev Reg.secKeyload : Nat := 0x1900030
abbrev Reg.secMeas (i j : Nat) : Nat := 0x1900100 + 0x40 * i + 8 * j
abbrev Reg.fabRoute (i : Nat) : Nat := 0x1508000 + 8 * i

/-- One register, or an array of them: base offset, two strides with counts, and the bits of each field type. -/
structure RegRow where
  name : String
  base : Nat
  s1   : Nat
  n1   : Nat
  s2   : Nat
  n2   : Nat
  ro   : Nat
  rw   : Nat
  w1c  : Nat
  wo   : Nat
  deriving DecidableEq, Repr

/-- Registers of window 0. -/
def capRows : List RegRow := [
  ⟨"CAP_ID", 0x0, 0x0, 1, 0x0, 1, 0x8000ffffffffffff, 0x0, 0x0, 0x0⟩,
  ⟨"CAP_COMPUTE", 0x8, 0x0, 1, 0x0, 1, 0xfffff00ffffff, 0x0, 0x0, 0x0⟩,
  ⟨"CAP_MEMORY", 0x10, 0x0, 1, 0x0, 1, 0x3ffffffffffffff, 0x0, 0x0, 0x0⟩,
  ⟨"CAP_FABRIC", 0x18, 0x0, 1, 0x0, 1, 0x3fffffffffffff, 0x0, 0x0, 0x0⟩,
  ⟨"CAP_UNITS", 0x20, 0x0, 1, 0x0, 1, 0xfff07, 0x0, 0x0, 0x0⟩,
  ⟨"CAP_GROOM", 0x28, 0x0, 1, 0x0, 1, 0xffffffffffffffff, 0x0, 0x0, 0x0⟩]

/-- Registers of window 1. -/
def aonRows : List RegRow := [
  ⟨"AON_TIME", 0x100000, 0x0, 1, 0x0, 1, 0xffffffffffffffff, 0x0, 0x0, 0x0⟩,
  ⟨"AON_STRAPS", 0x100008, 0x0, 1, 0x0, 1, 0xe0000000000003ef, 0x0, 0x0, 0x0⟩,
  ⟨"TILE_CLK_IDLE", 0x100010, 0x0, 1, 0x0, 1, 0x0, 0xffffffff, 0x0, 0x0⟩,
  ⟨"AON_REFCLK", 0x100018, 0x0, 1, 0x0, 1, 0xffffffff, 0x0, 0x0, 0x0⟩,
  ⟨"AON_WDOG", 0x100100, 0x8, 9, 0x0, 1, 0x0, 0xffffffffff, 0x0, 0x0⟩,
  ⟨"AON_ESC_ENGINE", 0x100150, 0x0, 1, 0x0, 1, 0xffffffffff, 0x0, 0x0, 0x0⟩,
  ⟨"AON_ESC_CORE", 0x100158, 0x0, 1, 0x0, 1, 0xffffffffff, 0x0, 0x0, 0x0⟩,
  ⟨"AON_ESC_TILE", 0x100160, 0x0, 1, 0x0, 1, 0xffffffffff, 0x0, 0x0, 0x0⟩,
  ⟨"AON_RECOV", 0x100180, 0x0, 1, 0x0, 1, 0xffffffffffffffff, 0x0, 0x0, 0x0⟩,
  ⟨"AON_RECOV_START", 0x100188, 0x0, 1, 0x0, 1, 0xffffffffffffffff, 0x0, 0x0, 0x0⟩,
  ⟨"AON_RECOV_END", 0x100190, 0x0, 1, 0x0, 1, 0xffffffffffffffff, 0x0, 0x0, 0x0⟩,
  ⟨"AON_HANG", 0x100198, 0x0, 1, 0x0, 1, 0xffffffffffffffff, 0x0, 0x0, 0x0⟩]

/-- Registers of window 2. -/
def rstRows : List RegRow := [
  ⟨"RST_CAUSE", 0x200000, 0x0, 1, 0x0, 1, 0xff00000000000000, 0x0, 0x0, 0x0⟩,
  ⟨"RST_TIME", 0x200008, 0x0, 1, 0x0, 1, 0xffffffffffffffff, 0x0, 0x0, 0x0⟩,
  ⟨"RST_COUNTS", 0x200010, 0x0, 1, 0x0, 1, 0xffffffffffffffff, 0x0, 0x0, 0x0⟩,
  ⟨"RST_STATUS", 0x200018, 0x0, 1, 0x0, 1, 0xffffffff0001ffff, 0x0, 0x0, 0x0⟩,
  ⟨"RST_CMD", 0x200020, 0x0, 1, 0x0, 1, 0x0, 0x0, 0x0, 0xf0000000ffffffff⟩]

/-- Registers of window 8. -/
def tileRows : List RegRow := [
  ⟨"TILE_CORE_MAP", 0x800040, 0x1000, 16, 0x0, 1, 0x0, 0xffffffff, 0x0, 0x0⟩,
  ⟨"TILE_CORE_STATE", 0x800048, 0x1000, 16, 0x0, 1, 0xfffff, 0x0, 0x0, 0x0⟩,
  ⟨"TILE_LC_CTL", 0x800080, 0x1000, 16, 0x0, 1, 0x0, 0x0, 0x0, 0x3⟩,
  ⟨"TILE_LC_HITS", 0x800088, 0x1000, 16, 0x0, 1, 0xffffffffffffffff, 0x0, 0x0, 0x0⟩,
  ⟨"TILE_LC_MISSES", 0x800090, 0x1000, 16, 0x0, 1, 0xffffffffffffffff, 0x0, 0x0, 0x0⟩,
  ⟨"TILE_LC_ACQ", 0x800098, 0x1000, 16, 0x0, 1, 0xffffffffffffffff, 0x0, 0x0, 0x0⟩,
  ⟨"TILE_LC_PERR", 0x8000a0, 0x1000, 16, 0x0, 1, 0xffffffff, 0x0, 0x0, 0x0⟩,
  ⟨"TILE_DMA_OWNER", 0x800800, 0x1000, 16, 0x10, 128, 0x0, 0x8000000000001fff, 0x0, 0x0⟩,
  ⟨"TILE_DMA_STATUS", 0x800808, 0x1000, 16, 0x10, 128, 0xfff00007ffffffff, 0x0, 0x0, 0x0⟩]

/-- Registers of window 9. -/
def poolRows : List RegRow := [
  ⟨"POOL_SPARE_MAP", 0x900000, 0x1000, 16, 0x0, 1, 0x0, 0xbfbfbfbf, 0x0, 0x0⟩,
  ⟨"POOL_ECC", 0x900008, 0x1000, 16, 0x0, 1, 0xffffffffffffffff, 0x0, 0x0, 0x0⟩,
  ⟨"POOL_POISON", 0x900010, 0x1000, 16, 0x0, 1, 0xffffffffffffffff, 0x0, 0x0, 0x0⟩]

/-- Registers of window 10. -/
def hbmRows : List RegRow := [
  ⟨"HBM_STATUS", 0xa00000, 0x1000, 32, 0x0, 1, 0xf0000000ffffffff, 0x0, 0x0, 0x0⟩,
  ⟨"HBM_ECC", 0xa00008, 0x1000, 32, 0x0, 1, 0xffffffffffffffff, 0x0, 0x0, 0x0⟩,
  ⟨"HBM_POISON", 0xa00010, 0x1000, 32, 0x0, 1, 0xffffffffffffffff, 0x0, 0x0, 0x0⟩,
  ⟨"HBM_SCRUB", 0xa00018, 0x1000, 32, 0x0, 1, 0xffffffffffffffff, 0x0, 0x0, 0x0⟩,
  ⟨"HBM_KEYSTATE", 0xa00020, 0x1000, 32, 0x0, 1, 0xffffffff, 0x0, 0x0, 0x0⟩]

/-- Registers of window 11. -/
def ddrRows : List RegRow := [
  ⟨"DDR_STATUS", 0xb00000, 0x1000, 16, 0x0, 1, 0xf3ffffff00000000, 0x0, 0x0, 0x0⟩,
  ⟨"DDR_ECC", 0xb00008, 0x1000, 16, 0x0, 1, 0xffffffffffffffff, 0x0, 0x0, 0x0⟩,
  ⟨"DDR_POISON", 0xb00010, 0x1000, 16, 0x0, 1, 0xffffffffffffffff, 0x0, 0x0, 0x0⟩,
  ⟨"DDR_TIER_STATUS", 0xb10000, 0x0, 1, 0x0, 1, 0xc000ffffffffffff, 0x0, 0x0, 0x0⟩,
  ⟨"DDR_PAGE_RATE", 0xb10008, 0x0, 1, 0x0, 1, 0xffffffff, 0x0, 0x0, 0x0⟩,
  ⟨"DDR_PAGE_TPG", 0xb10010, 0x0, 1, 0x0, 1, 0xffffffff, 0x0, 0x0, 0x0⟩,
  ⟨"DDR_PAGE_SEG", 0xb10018, 0x0, 1, 0x0, 1, 0xffffffff, 0x0, 0x0, 0x0⟩,
  ⟨"DDR_PAGE_RESERVE", 0xb10020, 0x0, 1, 0x0, 1, 0xffffffff, 0x0, 0x0, 0x0⟩,
  ⟨"DDR_PAGE_URGENT", 0xb10028, 0x0, 1, 0x0, 1, 0xffffffffffffffff, 0x0, 0x0, 0x0⟩]

/-- Registers of window 12. -/
def cmpRows : List RegRow := [
  ⟨"CMP_RING_OWNER", 0xc00100, 0x1000, 16, 0x20, 32, 0x0, 0x8000000000001fff, 0x0, 0x0⟩,
  ⟨"CMP_RING_BASE", 0xc00108, 0x1000, 16, 0x20, 32, 0x0, 0xfffffffff, 0x0, 0x0⟩,
  ⟨"CMP_RING_TAIL", 0xc00110, 0x1000, 16, 0x20, 32, 0x0, 0xfff, 0x0, 0x0⟩,
  ⟨"CMP_RING_HEAD", 0xc00118, 0x1000, 16, 0x20, 32, 0xf0000fffffffffff, 0x0, 0x0, 0x0⟩]

/-- Registers of window 13. -/
def attRows : List RegRow := [
  ⟨"ATT_SEQ_DONE", 0xd00000, 0x1000, 16, 0x40, 8, 0xffffffffffffffff, 0x0, 0x0, 0x0⟩,
  ⟨"ATT_TOKENS", 0xd00008, 0x1000, 16, 0x40, 8, 0xffffffffffffffff, 0x0, 0x0, 0x0⟩,
  ⟨"ATT_EMPTY", 0xd00010, 0x1000, 16, 0x40, 8, 0xffffffffffffffff, 0x0, 0x0, 0x0⟩,
  ⟨"ATT_REFUSED", 0xd00018, 0x1000, 16, 0x40, 8, 0xff000000ffffffff, 0x0, 0x0, 0x0⟩,
  ⟨"ATT_KVW", 0xd00020, 0x1000, 16, 0x40, 8, 0xffffffffffffffff, 0x0, 0x0, 0x0⟩,
  ⟨"ATT_CAR", 0xd00028, 0x1000, 16, 0x40, 8, 0xffffffffffffffff, 0x0, 0x0, 0x0⟩,
  ⟨"ATT_CTL", 0xd00030, 0x1000, 16, 0x40, 8, 0x0, 0x0, 0x0, 0x1⟩]

/-- Registers of window 14. -/
def drvRows : List RegRow := [
  ⟨"DRV_CFG", 0xe00000, 0x1000, 16, 0x0, 1, 0x0, 0xffffffffff, 0x0, 0x0⟩,
  ⟨"DRV_STATE", 0xe00008, 0x1000, 16, 0x0, 1, 0x1ff000007ff, 0x0, 0x0, 0x0⟩,
  ⟨"DRV_RING_OWNER", 0xe00100, 0x1000, 16, 0x20, 8, 0x0, 0x8000000000001fff, 0x0, 0x0⟩,
  ⟨"DRV_RING_BASE", 0xe00108, 0x1000, 16, 0x20, 8, 0x0, 0xfffffffff, 0x0, 0x0⟩,
  ⟨"DRV_RING_TAIL", 0xe00110, 0x1000, 16, 0x20, 8, 0x0, 0x3ff, 0x0, 0x0⟩,
  ⟨"DRV_RING_HEAD", 0xe00118, 0x1000, 16, 0x20, 8, 0xf0000000000003ff, 0x0, 0x0, 0x0⟩,
  ⟨"DRV_ROWS_SENT", 0xe00200, 0x1000, 16, 0x20, 8, 0xffffffffffffffff, 0x0, 0x0, 0x0⟩,
  ⟨"DRV_ROWS_SKIP", 0xe00208, 0x1000, 16, 0x20, 8, 0xffffffffffffffff, 0x0, 0x0, 0x0⟩,
  ⟨"DRV_TMO", 0xe00210, 0x1000, 16, 0x20, 8, 0xffffffff, 0x0, 0x0, 0x0⟩,
  ⟨"DRV_CTL", 0xe00218, 0x1000, 16, 0x20, 8, 0x0, 0x0, 0x0, 0x1⟩]

/-- Registers of window 15. -/
def sadRows : List RegRow := [
  ⟨"SAD_CFG", 0xf00000, 0x0, 1, 0x0, 1, 0xffffffffffff, 0x0, 0x0, 0x0⟩,
  ⟨"SAD_STATE", 0xf00008, 0x0, 1, 0x0, 1, 0x7ff07ffffff, 0x0, 0x0, 0x0⟩,
  ⟨"SAD_PAGEIN", 0xf00010, 0x0, 1, 0x0, 1, 0xffffffffffffffff, 0x0, 0x0, 0x0⟩,
  ⟨"SAD_EVICT", 0xf00018, 0x0, 1, 0x0, 1, 0xffffffffffffffff, 0x0, 0x0, 0x0⟩,
  ⟨"SAD_HOLD_MAX", 0xf00020, 0x0, 1, 0x0, 1, 0xffffffffffffffff, 0x0, 0x0, 0x0⟩,
  ⟨"SAD_CTL", 0xf00028, 0x0, 1, 0x0, 1, 0x0, 0x0, 0x0, 0x1⟩]

/-- Registers of window 16. -/
def coreRows : List RegRow := [
  ⟨"CORE_SEQ_STATUS", 0x1000000, 0x1000, 128, 0x0, 1, 0xffff1f0f00000000, 0x0, 0x0, 0x0⟩,
  ⟨"CORE_SEQ_PC", 0x1000008, 0x1000, 128, 0x0, 1, 0xffffffffffff, 0x0, 0x0, 0x0⟩,
  ⟨"CORE_SEQ_PROGRESS", 0x1000010, 0x1000, 128, 0x0, 1, 0xffffffffffffffff, 0x0, 0x0, 0x0⟩,
  ⟨"CORE_SEQ_CTL", 0x1000018, 0x1000, 128, 0x0, 1, 0x0, 0x0, 0x0, 0x1⟩,
  ⟨"CORE_HITCH_CFG", 0x1000020, 0x1000, 128, 0x0, 1, 0x0, 0x7ffffffffff, 0x0, 0x0⟩,
  ⟨"CORE_HITCH_TMO", 0x1000028, 0x1000, 128, 0x0, 1, 0x0, 0xffffffffff, 0x0, 0x0⟩,
  ⟨"CORE_HITCH_WAIT", 0x1000030, 0x1000, 128, 0x0, 1, 0x80000000000003ff, 0x0, 0x0, 0x0⟩,
  ⟨"CORE_HITCH_TARGET", 0x1000038, 0x1000, 128, 0x0, 1, 0xffffffffffffffff, 0x0, 0x0, 0x0⟩,
  ⟨"CORE_PHYS", 0x1000040, 0x1000, 128, 0x0, 1, 0xf0f, 0x0, 0x0, 0x0⟩,
  ⟨"CORE_SEQ_DISPATCH", 0x1000048, 0x1000, 128, 0x0, 1, 0xffffffffffffffff, 0x0, 0x0, 0x0⟩,
  ⟨"CORE_TASK_ID", 0x1000100, 0x1000, 128, 0x0, 1, 0x0, 0x8000000000001fff, 0x0, 0x0⟩,
  ⟨"CORE_CM_BASE", 0x1000108, 0x1000, 128, 0x0, 1, 0x0, 0x7ff000, 0x0, 0x0⟩,
  ⟨"CORE_CM_BOUND", 0x1000110, 0x1000, 128, 0x0, 1, 0x0, 0x7ff000, 0x0, 0x0⟩,
  ⟨"CORE_POOL_BASE", 0x1000118, 0x1000, 128, 0x0, 1, 0x0, 0xffff0000, 0x0, 0x0⟩,
  ⟨"CORE_POOL_BOUND", 0x1000120, 0x1000, 128, 0x0, 1, 0x0, 0x1ffff0000, 0x0, 0x0⟩,
  ⟨"CORE_BOUND_ERR", 0x1000128, 0x1000, 128, 0x0, 1, 0xc000ffffffffffff, 0x0, 0x0, 0x0⟩,
  ⟨"CORE_CM_STALLCYC", 0x1000130, 0x1000, 128, 0x0, 1, 0xffffffffffffffff, 0x0, 0x0, 0x0⟩,
  ⟨"CORE_NUMSTAT", 0x1000180, 0x1000, 128, 0x0, 1, 0x0, 0x0, 0x7f, 0x0⟩,
  ⟨"CORE_ARR_LOADCYC", 0x10001c0, 0x1000, 128, 0x0, 1, 0xffffffffffffffff, 0x0, 0x0, 0x0⟩,
  ⟨"CORE_ARR_STRMCYC", 0x10001c8, 0x1000, 128, 0x0, 1, 0xffffffffffffffff, 0x0, 0x0, 0x0⟩,
  ⟨"CORE_ARR_STALLCYC", 0x10001d0, 0x1000, 128, 0x0, 1, 0xffffffffffffffff, 0x0, 0x0, 0x0⟩,
  ⟨"CORE_ARR_CTL", 0x10001d8, 0x1000, 128, 0x0, 1, 0x2, 0x0, 0x0, 0x1⟩]

/-- Registers of window 17. -/
def grmRows : List RegRow := [
  ⟨"GRM_STATUS", 0x1100000, 0x1000, 32, 0x0, 1, 0x3, 0x0, 0x0, 0x0⟩,
  ⟨"GRM_ELEMS", 0x1100008, 0x1000, 32, 0x0, 1, 0xffffffffffffffff, 0x0, 0x0, 0x0⟩,
  ⟨"GRM_NONFINITE", 0x1100010, 0x1000, 32, 0x0, 1, 0xffffffffffffffff, 0x0, 0x0, 0x0⟩,
  ⟨"GRM_SKEW", 0x1100018, 0x1000, 32, 0x0, 1, 0xffffffffffffffff, 0x0, 0x0, 0x0⟩,
  ⟨"GRM_CTL", 0x1100020, 0x1000, 32, 0x0, 1, 0x0, 0x0, 0x0, 0x1⟩,
  ⟨"GRM_RING_OWNER", 0x1100100, 0x1000, 32, 0x20, 4, 0x0, 0x8000000000001fff, 0x0, 0x0⟩,
  ⟨"GRM_RING_BASE", 0x1100108, 0x1000, 32, 0x20, 4, 0x0, 0xfffffffff, 0x0, 0x0⟩,
  ⟨"GRM_RING_TAIL", 0x1100110, 0x1000, 32, 0x20, 4, 0x0, 0x3ff, 0x0, 0x0⟩,
  ⟨"GRM_RING_HEAD", 0x1100118, 0x1000, 32, 0x20, 4, 0xf0000000000003ff, 0x0, 0x0, 0x0⟩]

/-- Registers of window 18. -/
def pcrRows : List RegRow := [
  ⟨"PCR_QUERY_IN", 0x1200000, 0x0, 1, 0x0, 1, 0x0, 0xffffffffff, 0x0, 0x0⟩,
  ⟨"PCR_QUERY_OUT", 0x1200008, 0x0, 1, 0x0, 1, 0x80000000ffffffff, 0x0, 0x0, 0x0⟩,
  ⟨"PCR_G_OWNER", 0x1201000, 0x40, 256, 0x0, 1, 0x0, 0x800000000000001f, 0x0, 0x0⟩,
  ⟨"PCR_G_SHAPE", 0x1201008, 0x40, 256, 0x0, 1, 0x0, 0xffe00000ffffffff, 0x0, 0x0⟩,
  ⟨"PCR_G_LEN", 0x1201010, 0x40, 256, 0x0, 1, 0x0, 0xffffffff00000000, 0x0, 0x0⟩,
  ⟨"PCR_G_VALS", 0x1201018, 0x40, 256, 0x0, 1, 0x0, 0xffffffffffffffff, 0x0, 0x0⟩,
  ⟨"PCR_G_GAMMA", 0x1201020, 0x40, 256, 0x0, 1, 0x0, 0xffffffff, 0x0, 0x0⟩,
  ⟨"PCR_G_CTL", 0x1201028, 0x40, 256, 0x0, 1, 0x8000000000000000, 0x0, 0x0, 0x1⟩,
  ⟨"PCR_G_LAST", 0x1201030, 0x40, 256, 0x0, 1, 0xffffffffffffffff, 0x0, 0x0, 0x0⟩]

/-- Registers of window 19. -/
def cmdRows : List RegRow := [
  ⟨"CMD_SYS_SQ", 0x1300000, 0x0, 1, 0x0, 1, 0x0, 0xffffffffffffffff, 0x0, 0x0⟩,
  ⟨"CMD_SYS_CQ", 0x1300008, 0x0, 1, 0x0, 1, 0x0, 0xffffffffffffffff, 0x0, 0x0⟩,
  ⟨"CMD_SYS_CFG", 0x1300010, 0x0, 1, 0x0, 1, 0x0, 0x80000000000000ff, 0x0, 0x0⟩,
  ⟨"CMD_COUNTS", 0x1300018, 0x0, 1, 0x0, 1, 0x1fff0000003f, 0x0, 0x0, 0x0⟩,
  ⟨"CMD_DROPPED", 0x1300020, 0x0, 1, 0x0, 1, 0xffffffffffffffff, 0x0, 0x0, 0x0⟩,
  ⟨"CMD_PURGED", 0x1300028, 0x0, 1, 0x0, 1, 0xffffffffffffffff, 0x0, 0x0, 0x0⟩,
  ⟨"CMD_AGED", 0x1300030, 0x0, 1, 0x0, 1, 0xffffffffffffffff, 0x0, 0x0, 0x0⟩,
  ⟨"CMD_SCRUB_PENDING", 0x1300038, 0x0, 1, 0x0, 1, 0xffffffffffffffff, 0x0, 0x0, 0x0⟩,
  ⟨"CMD_MB_CTL", 0x1301000, 0x8, 64, 0x0, 1, 0x9f00000000000000, 0x0, 0x6, 0x1⟩]

/-- Registers of window 20. -/
def paceRows : List RegRow := [
  ⟨"PACE_ADM", 0x1400000, 0x0, 1, 0x0, 1, 0xffffffff, 0x0, 0x0, 0x0⟩,
  ⟨"PACE_SLOT", 0x1400008, 0x0, 1, 0x0, 1, 0xffffffff, 0x0, 0x0, 0x0⟩,
  ⟨"PACE_FG", 0x1400010, 0x0, 1, 0x0, 1, 0xffff, 0x0, 0x0, 0x0⟩,
  ⟨"PACE_LHOP", 0x1400018, 0x0, 1, 0x0, 1, 0xffffffff, 0x0, 0x0, 0x0⟩,
  ⟨"PACE_COPY", 0x1400020, 0x0, 1, 0x0, 1, 0xffffffff, 0x0, 0x0, 0x0⟩,
  ⟨"PACE_AHEAD", 0x1400028, 0x0, 1, 0x0, 1, 0xffffffffffff, 0x0, 0x0, 0x0⟩,
  ⟨"PACE_STATUS", 0x1400030, 0x0, 1, 0x0, 1, 0xe000000000000000, 0x0, 0x0, 0x0⟩,
  ⟨"PACE_SUSP_START", 0x1400038, 0x0, 1, 0x0, 1, 0xffffffffffffffff, 0x0, 0x0, 0x0⟩,
  ⟨"PACE_SUSP_END", 0x1400040, 0x0, 1, 0x0, 1, 0xffffffffffffffff, 0x0, 0x0, 0x0⟩,
  ⟨"PACE_ACCEPTS", 0x1400048, 0x0, 1, 0x0, 1, 0xffffffffffffffff, 0x0, 0x0, 0x0⟩,
  ⟨"PACE_REJECTS", 0x1400050, 0x0, 1, 0x0, 1, 0xff000000ffffffff, 0x0, 0x0, 0x0⟩,
  ⟨"PACE_LATE", 0x1400058, 0x0, 1, 0x0, 1, 0xffffffffffffffff, 0x0, 0x0, 0x0⟩,
  ⟨"PACE_OVERRUN", 0x1400060, 0x0, 1, 0x0, 1, 0xffffffff, 0x0, 0x0, 0x0⟩]

/-- Registers of window 21. -/
def fabRows : List RegRow := [
  ⟨"FAB_NODE", 0x1500000, 0x0, 1, 0x0, 1, 0x0, 0x8000000000000fff, 0x0, 0x0⟩,
  ⟨"FAB_UNREACH", 0x1500008, 0x0, 1, 0x0, 1, 0x0, 0xffffffffff, 0x0, 0x0⟩,
  ⟨"FAB_COLL_TMO", 0x1500010, 0x0, 1, 0x0, 1, 0x0, 0xffffffffff, 0x0, 0x0⟩,
  ⟨"FAB_LANE_SER", 0x1500018, 0x0, 1, 0x0, 1, 0x0, 0xffffffff, 0x0, 0x0⟩,
  ⟨"FAB_RT_ERR", 0x1500020, 0x0, 1, 0x0, 1, 0xfff, 0x0, 0x8000000000000000, 0x0⟩,
  ⟨"FAB_DROP", 0x1500028, 0x0, 1, 0x0, 1, 0xffffffffffffffff, 0x0, 0x0, 0x0⟩,
  ⟨"FAB_LOST", 0x1500030, 0x0, 1, 0x0, 1, 0xfffffffffff, 0x0, 0x8000000000000000, 0x0⟩,
  ⟨"FAB_PORT_STATUS", 0x1501000, 0x40, 48, 0x0, 1, 0xfffff00000000000, 0x0, 0x0, 0x0⟩,
  ⟨"FAB_PORT_NBR", 0x1501008, 0x40, 48, 0x0, 1, 0xfffffc00ffffffff, 0x0, 0x0, 0x0⟩,
  ⟨"FAB_PORT_ERR", 0x1501010, 0x40, 48, 0x0, 1, 0xffffffffffffffff, 0x0, 0x0, 0x0⟩,
  ⟨"FAB_PORT_CTL", 0x1501018, 0x40, 48, 0x0, 1, 0x0, 0x1, 0x0, 0x6⟩,
  ⟨"FAB_ROUTE", 0x1508000, 0x8, 4095, 0x0, 1, 0x0, 0xffffffffffffffff, 0x0, 0x0⟩,
  ⟨"FAB_COLL_STATE", 0x1510000, 0x40, 16, 0x0, 1, 0xffff000007ff, 0x0, 0x0, 0x0⟩,
  ⟨"FAB_COLL_DONE", 0x1510008, 0x40, 16, 0x0, 1, 0xffffffffffffffff, 0x0, 0x0, 0x0⟩,
  ⟨"FAB_COLL_FAIL", 0x1510010, 0x40, 16, 0x0, 1, 0xffffffffffffffff, 0x0, 0x0, 0x0⟩]

/-- Registers of window 22. -/
def choRows : List RegRow := [
  ⟨"CHO_MODE", 0x1600000, 0x0, 1, 0x0, 1, 0xc000000000000000, 0x0, 0x0, 0x0⟩,
  ⟨"CHO_HB_TMO", 0x1600008, 0x0, 1, 0x0, 1, 0x0, 0xffffffffff, 0x0, 0x0⟩,
  ⟨"CHO_HOLD", 0x1600010, 0x0, 1, 0x0, 1, 0x0, 0xffffffffff, 0x0, 0x0⟩,
  ⟨"CHO_PORT_STATUS", 0x1600100, 0x40, 2, 0x0, 1, 0xff800000ffffffff, 0x0, 0x0, 0x0⟩,
  ⟨"CHO_HB", 0x1600108, 0x40, 2, 0x0, 1, 0x0, 0x0, 0x0, 0xffffffffffffffff⟩,
  ⟨"CHO_HB_LAST", 0x1600110, 0x40, 2, 0x0, 1, 0xffffffffffffffff, 0x0, 0x0, 0x0⟩,
  ⟨"CHO_PORT_ERR", 0x1600118, 0x40, 2, 0x0, 1, 0xffffffffffffffff, 0x0, 0x0, 0x0⟩,
  ⟨"CHO_IRQ_PEND", 0x1600120, 0x40, 2, 0x0, 1, 0xffffffffffffffff, 0x0, 0x0, 0x0⟩,
  ⟨"CHO_PORT_CTL", 0x1600128, 0x40, 2, 0x0, 1, 0x0, 0x1, 0x0, 0x2⟩]

/-- Registers of window 23. -/
def fwRows : List RegRow := [
  ⟨"FW_RUN", 0x1700000, 0x0, 1, 0x0, 1, 0xf0000003ffffffff, 0x0, 0x0, 0x0⟩,
  ⟨"FW_STAGED", 0x1700008, 0x0, 1, 0x0, 1, 0xf0000000ffffffff, 0x0, 0x0, 0x0⟩,
  ⟨"FW_ACT", 0x1700010, 0x0, 1, 0x0, 1, 0xff00000000000000, 0x0, 0x0, 0x0⟩,
  ⟨"FW_ACT_TIME", 0x1700018, 0x0, 1, 0x0, 1, 0xffffffffffffffff, 0x0, 0x0, 0x0⟩,
  ⟨"FW_ACT_END", 0x1700020, 0x0, 1, 0x0, 1, 0xffffffffffffffff, 0x0, 0x0, 0x0⟩,
  ⟨"FW_ACT_DRAIN", 0x1700028, 0x0, 1, 0x0, 1, 0x0, 0xffffffffff, 0x0, 0x0⟩,
  ⟨"FW_ACT_DEFER", 0x1700030, 0x0, 1, 0x0, 1, 0xffffffffff, 0x0, 0x0, 0x0⟩,
  ⟨"FW_TRACE_EN", 0x1700038, 0x0, 1, 0x0, 1, 0x0, 0xffffffffffffffff, 0x0, 0x0⟩,
  ⟨"FW_TRACE_LVL", 0x1700040, 0x0, 1, 0x0, 1, 0x0, 0x3, 0x0, 0x0⟩,
  ⟨"FW_LOG", 0x1700048, 0x0, 1, 0x0, 1, 0xffffffff, 0x0, 0x0, 0x0⟩,
  ⟨"FW_CTRL", 0x1700050, 0x0, 1, 0x0, 1, 0xffff, 0x0, 0x0, 0x0⟩,
  ⟨"FW_SVN", 0x1700058, 0x0, 1, 0x0, 1, 0xffffffff, 0x0, 0x0, 0x0⟩]

/-- Registers of window 24. -/
def pwrRows : List RegRow := [
  ⟨"PWR_STATE", 0x1800000, 0x0, 1, 0x0, 1, 0xfc0000000000ffff, 0x0, 0x0, 0x0⟩,
  ⟨"PWR_CTL", 0x1800008, 0x0, 1, 0x0, 1, 0x0, 0x3, 0x0, 0x0⟩,
  ⟨"PWR_CAP", 0x1800010, 0x0, 1, 0x0, 1, 0x0, 0xffff, 0x0, 0x0⟩,
  ⟨"PWR_LIMITS", 0x1800018, 0x0, 1, 0x0, 1, 0x800000000000ffff, 0x0, 0x0, 0x0⟩,
  ⟨"PWR_INPUT", 0x1800020, 0x0, 1, 0x0, 1, 0xffffffffffffffff, 0x0, 0x0, 0x0⟩,
  ⟨"PWR_ENERGY", 0x1800028, 0x0, 1, 0x0, 1, 0xffffffffffffffff, 0x0, 0x0, 0x0⟩,
  ⟨"PWR_THERM", 0x1800030, 0x0, 1, 0x0, 1, 0xffffffffffff, 0x0, 0x0, 0x0⟩,
  ⟨"PWR_COOL", 0x1800038, 0x0, 1, 0x0, 1, 0xffffffff, 0x0, 0x8000000000000000, 0x0⟩,
  ⟨"PWR_EVENTS", 0x1800040, 0x0, 1, 0x0, 1, 0xffffffffffffffff, 0x0, 0x0, 0x0⟩,
  ⟨"PWR_TEMP", 0x1800100, 0x8, 16, 0x0, 1, 0xffff00000000ffff, 0x0, 0x0, 0x0⟩,
  ⟨"PWR_RAIL", 0x1800200, 0x8, 8, 0x0, 1, 0xffffffff, 0x0, 0x0, 0x0⟩]

/-- Registers of window 25. -/
def secRows : List RegRow := [
  ⟨"SEC_STATUS", 0x1900000, 0x0, 1, 0x0, 1, 0xf80000000000003f, 0x0, 0x0, 0x0⟩,
  ⟨"SEC_KEM_ID", 0x1900008, 0x0, 1, 0x0, 1, 0xffffffffffffffff, 0x0, 0x0, 0x0⟩,
  ⟨"SEC_EXTEND", 0x1900010, 0x0, 1, 0x0, 1, 0x0, 0x0, 0x0, 0x1⟩,
  ⟨"SEC_SVN_CTL", 0x1900018, 0x0, 1, 0x0, 1, 0xc000000000000000, 0x0, 0x0, 0xffff⟩,
  ⟨"SEC_MGMT_CTL", 0x1900020, 0x0, 1, 0x0, 1, 0x0, 0x4, 0x0, 0x3⟩,
  ⟨"SEC_MGMT_ERR", 0x1900028, 0x0, 1, 0x0, 1, 0xffffffff, 0x0, 0x0, 0x0⟩,
  ⟨"SEC_KEYLOAD", 0x1900030, 0x0, 1, 0x0, 1, 0xffffffffffffffff, 0x0, 0x0, 0x0⟩,
  ⟨"SEC_DIGEST", 0x1900040, 0x8, 8, 0x0, 1, 0x0, 0x0, 0x0, 0xffffffffffffffff⟩,
  ⟨"SEC_MGMT_KEY", 0x1900080, 0x8, 4, 0x0, 1, 0x0, 0x0, 0x0, 0xffffffffffffffff⟩,
  ⟨"SEC_MEAS", 0x1900100, 0x40, 6, 0x8, 8, 0xffffffffffffffff, 0x0, 0x0, 0x0⟩]

/-- The rows of a block window (R509): window w holds register offsets w × 0x10_0000 and up. -/
def windowRows : Nat → List RegRow
  | 0 => capRows
  | 1 => aonRows
  | 2 => rstRows
  | 8 => tileRows
  | 9 => poolRows
  | 10 => hbmRows
  | 11 => ddrRows
  | 12 => cmpRows
  | 13 => attRows
  | 14 => drvRows
  | 15 => sadRows
  | 16 => coreRows
  | 17 => grmRows
  | 18 => pcrRows
  | 19 => cmdRows
  | 20 => paceRows
  | 21 => fabRows
  | 22 => choRows
  | 23 => fwRows
  | 24 => pwrRows
  | 25 => secRows
  | _ => []

/-- The instance of a row that lies at an offset, as its two indices. -/
def RegRow.at? (r : RegRow) (off : Nat) : Option (Nat × Nat) :=
  if off < r.base then none
  else
    let d := off - r.base
    let i := if r.n1 ≤ 1 then 0 else d / r.s1
    let d1 := if r.n1 ≤ 1 then d else d % r.s1
    let j := if r.n2 ≤ 1 then 0 else d1 / r.s2
    let d2 := if r.n2 ≤ 1 then d1 else d1 % r.s2
    if d2 = 0 ∧ i < r.n1 ∧ j < r.n2 then some (i, j) else none

/-- The register at an 8-byte-aligned offset, with its indices. -/
def regAt (off : Nat) : Option (RegRow × Nat × Nat) :=
  (windowRows (off / 0x100000)).findSome? fun r => (r.at? off).map fun ij => (r, ij.1, ij.2)

/-- Windows that are mapped (R509): the bases of the register blocks, and the doorbell region of R291. -/
def windowMapped (w : Nat) : Bool := (windowRows w).length > 0 || w == 32

/-- Reset values of Table 19.4's watchdogs. -/
def wdogReset (k : Nat) : Word := [0x05F5E100, 0x05F5E100, 0x017D7840, 0x05F5E100, 0x05F5E100, 0x3B9ACA00, 0x002625A0,
  0x002625A0, 0x0003D090].getD k 0

/-- The reset value of the register at an offset: every register not named here resets to 0 in its table. -/
def resetValue (v : Variant) (off : Nat) : Word :=
  match off / 0x100000 with
  | 1 =>
    if off = Reg.tileClkIdle then 0x61A8
    else if Reg.aonWdog 0 ≤ off ∧ off ≤ Reg.aonWdog 8 then wdogReset ((off - Reg.aonWdog 0) / 8)
    else if off = Reg.aonEscEngine then 0x9C4
    else if off = Reg.aonEscCore then 0x61A8
    else if off = Reg.aonEscTile then 0x3D090
    else 0
  | 14 => if off % 0x1000 = 0 ∧ off < Reg.drvCfg 16 then 0x017D7840 else 0
  | 16 => if off % 0x1000 = 0x28 ∧ off < Reg.coreHitchTmo 128 then 0x017D7840 else 0
  | 19 => if Reg.cmdMbCtl 0 ≤ off ∧ off ≤ Reg.cmdMbCtl 3 ∧ off % 8 = 0 then 0x8000000000000000 else 0
  | 20 =>
    if off = Reg.paceAdm then 0x9C4
    else if off = Reg.paceSlot then 0x186A
    else if off = Reg.paceFg then 0x960
    else if off = Reg.paceLhop then 0xFA
    else if off = Reg.paceCopy then 0x186A0
    else 0
  | 21 =>
    if off = Reg.fabUnreach then 0x02FAF080
    else if off = Reg.fabCollTmo then 0x2CB41780
    else if off = Reg.fabLaneSer then 0x10000
    else 0
  | 22 => if off = Reg.choHbTmo then 0x02FAF080 else if off = Reg.choHold then 0x59682F00 else 0
  | 23 =>
    if off = Reg.fwActDrain then 0x07735940
    else if off = Reg.fwActDefer then 0x0EE6B280
    else if off = Reg.fwTraceLvl then 1
    else 0
  | 24 =>
    if off = Reg.pwrCap then (if v = .sbm2412 then 0x157C else 0x1C20)
    else if off = Reg.pwrLimits then 0x3E8
    else if off = Reg.pwrTherm then 0x03B6041A047E
    else 0
  | _ => 0

/-- The stored value of a register. -/
def Block.reg (m : Block) (off : Nat) : Word :=
  match m.regs.find? (fun e => e.1 == off) with
  | some e => e.2
  | none => resetValue m.fuse.variant off

/-- Sets a register's stored value. -/
def Block.setReg (m : Block) (off : Nat) (w : Word) : Block := { m with regs := Tbl.put m.regs off w }

/-- A field of a register. -/
def Block.fld (m : Block) (off hi lo : Nat) : Nat := field (m.reg off) hi lo

/-- Sets a field of a register. -/
def Block.setFld (m : Block) (off hi lo v : Nat) : Block := m.setReg off (putField (m.reg off) hi lo v)

/-- Raises a wrapping count field. -/
def Block.addFld (m : Block) (off hi lo k : Nat) : Block := m.setFld off hi lo (m.fld off hi lo + k)

/-- Raises a saturating count field. -/
def Block.satFld (m : Block) (off hi lo k : Nat) : Block :=
  m.setFld off hi lo (satAdd (hi + 1 - lo) (m.fld off hi lo) k)

/-- Returns registers to their reset values: those that a test selects. -/
def Block.resetRegs (m : Block) (p : Nat → Bool) : Block := { m with regs := m.regs.filter fun e => !p e.1 }

end Sys2Proof.Machine
end

