-- ==== Sys2Proof/Machine/Ops.lean ====
section
/-! DEFINITION. The named operations over the block's state that the meanings share: accessors, the address map and its
checks (R117 to R119, R129 to R134, R305), home memory with poison (R114, R162, R447), hitches (R90 to R92), stops and
curbs (R98, R443), fault records (R446), completion records and interrupts (R299 to R301, R375), and the sending side of
the fabric (R349 to R352). -/
namespace Sys2Proof.Machine

/- Tables -/

/-- Logical core `n`. -/
def Block.core (m : Block) (n : Nat) : CoreState := Tbl.getD {} m.cores n
/-- Replaces logical core `n`. -/
def Block.setCore (m : Block) (n : Nat) (c : CoreState) : Block := { m with cores := Tbl.put m.cores n c }
/-- Changes logical core `n`. -/
def Block.modCore (m : Block) (n : Nat) (f : CoreState → CoreState) : Block := m.setCore n (f (m.core n))
/-- Tile `t`. -/
def Block.tile (m : Block) (t : Nat) : TileState := Tbl.getD {} m.tiles t
/-- Replaces tile `t`. -/
def Block.setTile (m : Block) (t : Nat) (x : TileState) : Block := { m with tiles := Tbl.put m.tiles t x }
/-- Changes tile `t`. -/
def Block.modTile (m : Block) (t : Nat) (f : TileState → TileState) : Block := m.setTile t (f (m.tile t))
/-- Descriptors held by DMA channel `k` of tile `t`. -/
def Block.chan (m : Block) (t k : Nat) : List CopyJob := Tbl.getD [] m.chans (128 * t + k)
/-- Replaces the descriptors of a channel. -/
def Block.setChan (m : Block) (t k : Nat) (l : List CopyJob) : Block := { m with chans := Tbl.put m.chans (128 * t + k) l }

/-- The next free word (log entry 3), with the counter advanced. -/
def Block.draw (m : Block) : Word × Block := (Config.freeWord m.free, { m with free := m.free + 1 })
/-- `n` free bytes, with the counter advanced. -/
def Block.drawBytes (m : Block) (n : Nat) : List Byte × Block := (Config.freeBytes m.free n, { m with free := m.free + 1 })

/- What the variant has (Tables 0.2, 0.8) -/

/-- Tiles, base dies and cores come in these numbers. -/
def Block.tileCount (m : Block) : Nat := if m.fuse.variant = .sbm2412 then 12 else 16
/-- HBM stacks and Groom positions. -/
def Block.stackCount (m : Block) : Nat := 2 * m.tileCount
/-- Evotrix ports. -/
def Block.portCount (m : Block) : Nat := 3 * m.tileCount
/-- Active cores. -/
def Block.coreCount (m : Block) : Nat := 8 * m.tileCount
/-- The Groom units, the Pacer and the tier are fused off on the serving variant. -/
def Block.tuning (m : Block) : Bool := decide (m.fuse.variant ≠ .sbm3216s)
/-- GENREC_MASK of Table 0.8. -/
def Block.genrecMask (m : Block) : Nat :=
  match m.fuse.variant with
  | .sbm3216 => 0x40100401
  | .sbm3216s => 0
  | .sbm2412 => 0x00500401
/-- Spare lanes per fabric port. -/
def Block.spareLanes (m : Block) : Nat := if m.fuse.variant = .sbm2412 then 1 else 2
/-- Spare pool banks per die. -/
def Block.spareBanks (m : Block) : Nat := if m.fuse.variant = .sbm2412 then 2 else 4

/- Addresses -/

/-- Local address of the shared pool. -/
def poolBase : Nat := 0x200000000000
/-- Local address of core `n`'s window. -/
def coreWindow (n : Nat) : Nat := 0x200100000000 + 0x800000 * n
/-- Local address of the registers. -/
def regBase : Nat := 0x300000000000
/-- Local address of host memory. -/
def hostBase : Nat := 0x400000000000

/-- Where a local address lies (Table 6.1). -/
inductive Region where
  | hbm
  | tier
  | pool
  | core (n w : Nat)
  | reg (off : Nat)
  | host
  | none
  deriving DecidableEq, Repr

/-- The range of Table 6.1 that holds a local address. -/
def Block.region (m : Block) (a : Nat) : Region :=
  if a < 0x1000000000 * m.stackCount then .hbm
  else if 0x100000000000 ≤ a ∧ a < 0x100000000000 + 2 ^ 30 * m.fld Reg.ddrTierStatus 31 0 ∧ m.tuning then .tier
  else if poolBase ≤ a ∧ a < poolBase + 0x10000000 * m.tileCount then .pool
  else if coreWindow 0 ≤ a ∧ a < coreWindow m.coreCount then .core (a / 0x800000 % 0x200) (a % 0x800000)
  else if regBase ≤ a ∧ a < regBase + 0x10000000 then .reg (a % 0x10000000)
  else if hostBase ≤ a ∧ a < 0x800000000000 then .host
  else .none

/-- The node a global address names, when it is not this module (R130). -/
def Block.remoteNode (m : Block) (ga : Nat) : Option Nat :=
  let n := ga / 2 ^ 48 % 4096
  if n = 0xFFF ∨ (m.fld Reg.fabNode 63 63 = 1 ∧ n = m.fld Reg.fabNode 11 0) then none else some n

/-- The local part of a global address. -/
def localPart (ga : Nat) : Nat := ga % 2 ^ 48

/-- This module's assigned node ID, or 0xFFF. -/
def Block.ownNode (m : Block) : Nat := if m.fld Reg.fabNode 63 63 = 1 then m.fld Reg.fabNode 11 0 else 0xFFF

/-- Whether a routing entry holds a present path (R347). -/
def entryPresent (e : Word) : Bool := (List.range 4).any fun i => field e (16 * i + 7) (16 * i + 4) != 0

/-- Whether two runs of bytes overlap. -/
def overlaps (a n b k : Nat) : Bool := decide (a < b + k) && decide (b < a + n)

/-- Whether a run of bytes meets a region that awaits its scrub (R312). -/
def Block.scrubbing (m : Block) (a n : Nat) : Bool := m.cmd.scrubs.any fun s => overlaps a n s.base s.size

/-- Whether a range grants a page (R305); `fabric` for the owner's fabric arrivals. -/
def Range.grants (r : Range) (t page : Nat) (write fabric : Bool) : Bool :=
  decide (r.base ≤ page) && decide (page < r.base + r.size) &&
    (if r.tenant = t then (if write then r.w && (!fabric || r.fabricIn) else r.r)
     else !write && r.readers.testBit t)

/-- Whether every byte lies in ranges that grant a tenant (R305), and in no region that awaits its scrub (R312). Ranges are made of 2 MiB
pages. -/
def Block.rangeOk (m : Block) (t a n : Nat) (write fabric : Bool) : Bool :=
  let first := a / 0x200000
  let last := (a + (n - 1)) / 0x200000
  !m.scrubbing a n && (List.range (last + 1 - first)).all fun i =>
    m.cmd.ranges.any fun r => r.grants t (0x200000 * (first + i)) write fabric

/-- Chotus port `p`. -/
def Block.chotus (m : Block) (p : Nat) : ChotusState := Tbl.getD {} m.cho.chotus p
/-- Changes Chotus port `p`. -/
def Block.modChotus (m : Block) (p : Nat) (f : ChotusState → ChotusState) : Block :=
  { m with cho.chotus := Tbl.put m.cho.chotus p (f (m.chotus p)) }

/-- STATE of Chotus port `p`. -/
def Block.choSt (m : Block) (p : Nat) : Nat := m.fld (Reg.choPortStatus p) 63 60

/-- The Chotus port behind a local host address (R133): the ports' mode decides. With one host behind both ports it is a port that is up,
else one whose host is lost, else one that trains (R366, R367). -/
def Block.hostPortOf (m : Block) (a : Nat) : Nat :=
  match m.fld Reg.choMode 63 62 with
  | 3 => if a.testBit 45 then 1 else 0
  | _ =>
    let first (st : Nat) : Option Nat := [0, 1].find? fun p => m.choSt p == st
    (((first 2).or (first 3)).or (first 1)).getD 0

/-- Whether a trained host stands behind a local host address. -/
def Block.hostUp (m : Block) (a : Nat) : Bool := m.fld Reg.choMode 63 62 != 0 && m.choSt (m.hostPortOf a) == 2

/-- Whether accesses bound for a local host address are held: the mapping is not fixed, or the port that has trained retrains (R365,
R367). -/
def Block.hostHolding (m : Block) (a : Nat) : Bool :=
  m.fld Reg.choMode 63 62 == 0 || (m.choSt (m.hostPortOf a) == 1 && (m.chotus (m.hostPortOf a)).everUp)

/-- The check of R118 on a window offset. -/
def Block.windowOk (m : Block) (n w len tenant : Nat) (ctx : Option Nat) : Bool :=
  let id := m.reg (Reg.coreTaskId n)
  let base := 4096 * m.fld (Reg.coreCmBase n) 22 12
  let size := 4096 * m.fld (Reg.coreCmBound n) 22 12
  bit id 63 && field id 12 8 == tenant && (ctx.all fun c => field id 7 0 == c) &&
    decide (base ≤ w) && decide (w + len ≤ base + size) && decide (w + len ≤ 0x600000)

/-- The check of a master's global access (R118, R119, R129 to R134, R305): the fault kind of Table 19.3, or none. A register
address is refused here; the meanings that may access registers look for it first. -/
def Block.check (m : Block) (tenant ctx ga n : Nat) (write : Bool) : Option Nat :=
  if ga ≥ 2 ^ 60 then some 3
  else
    let a := localPart ga
    match m.remoteNode ga with
    | some node =>
      if !entryPresent (m.reg (Reg.fabRoute node)) then some 3
      else if regBase ≤ a ∧ a < regBase + 0x10000000 then some 4
      else if hostBase ≤ a then some 3
      else none
    | none =>
      match m.region a with
      | .hbm => if m.rangeOk tenant a n write false then none else some 2
      | .pool => if m.rangeOk tenant a n write false then none else some 2
      | .core k w => if m.windowOk k w n tenant (some ctx) then none else some 1
      | .host => if !m.rangeOk tenant a n write false then some 2 else if m.hostUp a || m.hostHolding a then none else some 3
      | .reg _ => some 4
      | .tier => some 3
      | .none => some 3

/- Home memory -/

/-- Whether HBM at an address belongs to a failed stack (R466). -/
def Block.stackFailed (m : Block) (a : Nat) : Bool := m.region a == .hbm && m.flt.failedStacks.contains (a / 0x1000000000)

/-- DDR5 channels used, in ascending order. -/
def Block.channels (m : Block) : List Nat := maskList 16 (m.fld Reg.ddrTierStatus 47 32)

/-- Channel of a tier address: granules interleave over the used channels (R170). -/
def Block.tierChannel (m : Block) (a : Nat) : Nat :=
  let l := m.channels
  if l.length = 0 then 0 else l.getD (a % 0x100000000000 / 4096 % l.length) 0

/-- What a wear-ledger record is about: a summary record (KIND 8) carries the kind it sums up in REASON (log entry 32). -/
def WearRec.about (r : WearRec) : Nat := if r.kind = 8 then r.reason else r.kind

/-- One summary record for each unit: its present mapping, and the sum of its error counts. -/
def summary : List WearRec → List WearRec
  | [] => []
  | r :: rs =>
    let s := summary rs
    let r1 := { r with kind := 8, reason := r.about }
    if r.about ≠ 7 then r1 :: s
    else if s.any (fun x => x.about == 7 && x.unit == r.unit && x.from_ == r.from_) then
      mapIf (fun x => x.about == 7 && x.unit == r.unit && x.from_ == r.from_) (fun x => { x with count := x.count + r.count }) s
    else r1 :: s

/-- Appends a record to the wear ledger; a full area is first erased and summed up (R469). -/
def Block.addWear (m : Block) (kind reason unit from_ to_ count : Nat) : Block :=
  let m1 := if m.flt.wear.length < 262144 then m else { m with flt.wear := summary m.flt.wear }
  { m1 with flt.wear := m1.flt.wear ++ [⟨m.time, m.flt.wearSeq, kind, reason, unit, from_, to_, count⟩]
            flt.wearSeq := m.flt.wearSeq + 1 }

/-- A day of 24 hours in ticks of 40 ns (R470). -/
def day : Nat := 2160000000000

/-- Adds an event to those of the last 24 hours. -/
def noteEvent (now : Nat) (l : List Nat) : List Nat := (l.filter fun x => decide (now < x + day)) ++ [now]

/-- Notes an advance of a master's progress counter, or that it takes up work (R448). Classes of Table 19.4. -/
def Block.beat (m : Block) (cls idx : Nat) : Block := { m with flt.progAt := Tbl.put m.flt.progAt (4096 * cls + idx) m.time }

/-- Counts a poisoning of a granule in its memory's registers (Tables 5.4, 7.3, 7.5) or, for core memory, in the wear
ledger (R114). -/
def Block.countPoison (m : Block) (a : Nat) : Block :=
  match m.region a with
  | .hbm => m.satFld (Reg.hbmPoison (a / 0x1000000000)) 31 0 1
  | .pool => m.satFld (Reg.poolPoison (a % 0x100000000 / 0x10000000)) 31 0 1
  | .tier => m.satFld (Reg.ddrPoison (m.tierChannel a)) 31 0 1
  | _ => m

/-- Counts a masked write discarded at a poisoned granule, or any write to a failed stack (R114, R162, R466). -/
def Block.countDrop (m : Block) (a : Nat) : Block :=
  match m.region a with
  | .hbm => m.satFld (Reg.hbmPoison (a / 0x1000000000)) 63 32 1
  | .pool => m.satFld (Reg.poolPoison (a % 0x100000000 / 0x10000000)) 63 32 1
  | .tier => m.satFld (Reg.ddrPoison (m.tierChannel a)) 63 32 1
  | .core n _ => m.addWear 7 0 (n / 8) n (2 ^ 64 - 1) 1
  | _ => m

/-- Marks a granule poisoned, counting it when it was not. -/
def Block.poisonGranule (m : Block) (g : Nat) : Block :=
  if m.poison.contains g then m else ({ m with poison := insertNat m.poison g }).countPoison (128 * g)

/- Memory errors -/

/-- The register that counts errors of the memory behind an address: HBM_ECC, POOL_ECC or DDR_ECC. -/
def Block.eccReg (m : Block) (a : Nat) : Option Nat :=
  match m.region a with
  | .hbm => some (Reg.hbmEcc (a / 0x1000000000))
  | .pool => some (Reg.poolEcc (a % 0x100000000 / 0x10000000))
  | .tier => some (Reg.ddrEcc (m.tierChannel a))
  | _ => none

/-- Whether an HBM page is retired: the wear ledger holds its address (R166). -/
def Block.pageRetired (m : Block) (a : Nat) : Bool := m.flt.wear.any fun w => w.about == 4 && w.from_ == 0x200000 * (a / 0x200000)

/-- Retires an HBM page at once (Table 19.11 row 7). -/
def Block.retirePage (m : Block) (a count : Nat) : Block :=
  if m.pageRetired a then m
  else
    let s := a / 0x1000000000
    (m.addWear 4 7 s (0x200000 * (a / 0x200000)) (2 ^ 64 - 1) count).satFld (Reg.hbmStatus s) 31 0 1

/-- The thresholds of Table 19.11 that an error of a memory adds to: HBM pages (row 7) and pool banks (rows 5 and 6; R109 gives the
bank). -/
def Block.countError (m : Block) (a kind : Nat) : Block :=
  match m.region a with
  | .hbm =>
    if kind = 2 then m.retirePage a 1
    else
      let l := noteEvent m.time (Tbl.getD [] m.flt.pageCorr (a / 0x200000))
      let m1 := { m with flt.pageCorr := Tbl.put m.flt.pageCorr (a / 0x200000) l }
      if l.length ≥ 16 then m1.retirePage a l.length else m1
  | .pool =>
    let k := a % 0x100000000 / 0x10000000 * 64 + a / 128 % 64
    if kind = 1 then { m with flt.bankCorr := Tbl.put m.flt.bankCorr k (noteEvent m.time (Tbl.getD [] m.flt.bankCorr k)) }
    else { m with flt.bankUncorr := Tbl.put m.flt.bankUncorr k (noteEvent m.time (Tbl.getD [] m.flt.bankUncorr k)) }
  | _ => m

/-- What the code of its memory makes of an error of a granule (R114, R160, R171). -/
def Block.errorClass (m : Block) (e : Nat × List Nat) : EccClass :=
  match m.region (128 * e.1) with
  | .hbm => hbmClass e.2
  | .tier => tierClass e.2
  | _ => dieClass e.2

/-- Counts an error: `kind` 1 corrected, 2 uncorrectable. Errors of core memory are counted in the wear ledger (R114). -/
def Block.noteError (m : Block) (a kind : Nat) : Block :=
  let m1 := match m.eccReg a with
    | some r => if kind = 1 then m.satFld r 31 0 1 else m.satFld r 63 32 1
    | none =>
      match m.region a with
      | .core n _ => (m.addWear 7 kind (n / 8) n (2 ^ 64 - 1) 1).modCore n fun c =>
          if kind = 1 then { c with cmCorr := noteEvent m.time c.cmCorr } else { c with cmUncorr := noteEvent m.time c.cmUncorr }
      | _ => m
  m1.countError a kind

/-- A read finds an error of a granule: a corrected one is counted and written back, a detected one is counted and stored as poison (R114,
R161, R162, R171). Beyond what the code promises the outcome is free: detected, or missed, or taken for a corrected one, with free data. -/
def Block.findError (m : Block) (e : Nat × List Nat) : Block :=
  let a := 128 * e.1
  let m1 := { m with ecc := m.ecc.erase e }
  match m.errorClass e with
  | .corrected => m1.noteError a 1
  | .detected => (m1.noteError a 2).poisonGranule e.1
  | .beyond =>
    let d := m1.draw
    let x := d.2.drawBytes 128
    let m2 := { x.2 with mem := x.2.mem.writeN a ((x.1 ++ List.replicate 128 0).take 128) }
    match d.1.toNat % 3 with
    | 0 => (d.2.noteError a 2).poisonGranule e.1
    | 1 => m2
    | _ => m2.noteError a 1

/-- A failed stack answers every read of a granule with poison, and counts it (R466). -/
def Block.countReads (m : Block) (a n : Nat) : Block :=
  if m.region a ≠ .hbm then m
  else m.flt.failedStacks.foldl
    (fun m s =>
      let k := min ((a + (n - 1)) / 128 + 1) ((s + 1) * 2 ^ 29) - max (a / 128) (s * 2 ^ 29)
      if n = 0 ∨ k = 0 then m else m.satFld (Reg.hbmPoison s) 31 0 k) m

/-- A read of an access finds the errors in its granules. -/
def Block.correct (m0 : Block) (a n : Nat) : Block :=
  let m := m0.countReads a n
  (m.ecc.filter fun e => decide (a / 128 ≤ e.1) && decide (128 * e.1 < a + n)).foldl (fun m e => m.findError e) m

/- Keys (R163) -/

/-- The tenant whose key an HBM or tier granule is stored under: the owner of the range that holds it, else tenant 0. -/
def Block.keyTenant (m : Block) (a : Nat) : Nat :=
  ((m.cmd.ranges.find? fun r => decide (r.base ≤ a) && decide (a < r.base + r.size)).map (·.tenant)).getD 0

/-- The index of the free bytes that a granule written under another key reads as, when it is one. -/
def Block.staleAt (m : Block) (g : Nat) : Option Nat :=
  (m.stale.find? fun s => decide (s.1 ≤ g) && decide (g < s.1 + s.2.1)).map (·.2.2)

/-- What a run of granules leaves of a span. -/
def cutSpan (g n : Nat) (s : Nat × Nat × Nat) : List (Nat × Nat × Nat) :=
  let e := s.1 + s.2.1
  [(s.1, min e g - s.1, s.2.2), (max s.1 (g + n), e - max s.1 (g + n), s.2.2)].filter fun x => x.2.1 != 0

/-- Granules written whole are stored under the key they are read with. -/
def Block.fresh (m : Block) (g n : Nat) : Block := { m with stale := m.stale.flatMap (cutSpan g n) }

/-- The byte that a read gives. -/
def Block.byteAt (m : Block) (a : Nat) : Byte :=
  match m.staleAt (a / 128) with
  | none => m.mem.read a
  | some k => Config.staleByte k a

/-- A write to a part of a granule stored under another key: the rest of it keeps what a read gave. -/
def Block.thaw (m : Block) (g : Nat) : Block :=
  match m.staleAt g with
  | none => m
  | some _ => { m.fresh g 1 with mem := m.mem.writeN (128 * g) ((List.range 128).map fun i => m.byteAt (128 * g + i)) }

/- Writes at home -/

/-- The directory entries of a granule (R371). -/
def Block.hostCopies (m : Block) (g : Nat) : List DirEntry := m.cho.directory.filter fun d => d.gran == g

/-- The port on which the present master's host-bound traffic leaves: MASTER mod 2 in bonded mode, while that port is up (R366). -/
def Block.sendPort (m : Block) (a : Nat) : Nat :=
  let p := m.cho.sender % 2
  if m.fld Reg.choMode 63 62 = 2 ∧ m.choSt p = 2 then p else m.hostPortOf a

/-- Poisoned data sent to a host is counted on its port (R376). -/
def Block.countHostPoison (m : Block) (a : Nat) (bad : Bool) : Block :=
  if bad ∧ m.region a = .host then m.satFld (Reg.choPortErr (m.sendPort a)) 15 0 1 else m

/-- Applies a write to one granule at its home (R136, R137): a failed stack drops it; a whole write clears poison and errors; a masked write
meets the errors of the granule as a read does, and a poisoned granule discards it; poisoned data poisons the granule. -/
def Block.applyGranule (m : Block) (a : Nat) (bs : List Byte) (mask : List Bool) (bad : Bool) : Block :=
  let g := a / 128
  let whole := a % 128 == 0 && bs.length == 128 && mask.all id
  if m.stackFailed a then m.countDrop a
  else if whole then
    let m1 := { (m.countHostPoison a bad).fresh g 1 with mem := m.mem.writeMasked a bs mask, ecc := m.ecc.filter fun e => e.1 != g }
    if bad then m1.poisonGranule g else { m1 with poison := m1.poison.filter (· != g) }
  else
    let m0 := (m.correct (128 * g) 128).thaw g
    if m0.poison.contains g then m0.countDrop a
    else
      let m1 := { m0.countHostPoison a bad with mem := m0.mem.writeMasked a bs mask }
      if bad then m1.poisonGranule g else m1

/-- A master's write to one granule: every host copy is snooped first and the write waits for the answer (R152, R372). A write bound for a
host whose accesses are held waits behind those before it (R151, R367). -/
def Block.writeGranule (m : Block) (a : Nat) (bs : List Byte) (mask : List Bool) (bad : Bool) : Block :=
  let g := a / 128
  if m.region a = .host ∧ m.hostHolding a then { m with cho.hostWrites := m.cho.hostWrites ++ [{ addr := a, bytes := bs, mask := mask, bad := bad }] }
  else match m.hostCopies g with
  | [] => m.applyGranule a bs mask bad
  | d :: ds =>
    { m with
      cho.snoops := m.cho.snoops ++ (⟨g, d.port, m.time, some { addr := a, bytes := bs, mask := mask, bad := bad }⟩ ::
        ds.map fun e => ⟨g, e.port, m.time, none⟩) }

/-- Splits a write at granule boundaries; `fuel` bounds the number of granules. -/
def Block.writeGranules (m : Block) (a : Nat) (bs : List Byte) (mask : List Bool) (bad : Bool) : Nat → Block
  | 0 => m
  | fuel + 1 =>
    match bs with
    | [] => m
    | _ =>
      let k := 128 - a % 128
      (m.writeGranule a (bs.take k) (mask.take k) bad).writeGranules (a + k) (bs.drop k) (mask.drop k) bad fuel

/-- A write at home to local memory, granule by granule (R135). -/
def Block.homeWrite (m : Block) (a : Nat) (bs : List Byte) : Block := m.writeGranules a bs [] false (bs.length / 128 + 2)

/-- A write whose data carries poison or not. -/
def Block.homeWriteP (m : Block) (a : Nat) (bs : List Byte) (bad : Bool) : Block :=
  m.writeGranules a bs [] bad (bs.length / 128 + 2)

/-- The writes to a host that `f` makes, or leaves waiting, are those of a master and of a tenant's context (R309, R366). -/
def Block.owning (m : Block) (code t c : Nat) (f : Block → Block) : Block :=
  let k := m.cho.hostWrites.length
  let m1 := f { m with cho.sender := code }
  { m1 with
    cho.sender := 0
    cho.hostWrites := m1.cho.hostWrites.zipIdx.map fun w => if w.2 < k then w.1 else { w.1 with owner := some (t, c), sender := code } }

/-- Bytes that a held write covers; an operation on a hitch covers 8. -/
def HeldWrite.size (w : HeldWrite) : Nat := if w.hitch.isSome then 8 else w.bytes.length

/-- Whether a write that waits at its home touches `n` bytes at an address. -/
def HeldWrite.meets (w : HeldWrite) (a n : Nat) : Bool := decide (w.addr < a + n) && decide (a < w.addr + w.size)

/-- Whether a write to `n` bytes at an address still waits at its home, for a host copy or for a host (R151, R152). -/
def Block.writeWaits (m : Block) (a n : Nat) : Bool :=
  (m.cho.snoops.any fun s => s.write.any fun w => w.meets a n) || m.cho.hostWrites.any fun w => w.meets a n

/-- Whether a write into core `n`'s window waits at its home. -/
def Block.windowWaits (m : Block) (n : Nat) : Bool := m.writeWaits (coreWindow n) 0x800000

/-- The granules that `n` bytes touch. -/
def granules (a n : Nat) : List Nat := (List.range ((a + (n - 1)) / 128 + 1 - a / 128)).map (a / 128 + ·)

/-- Whether any granule of an access is poisoned, or answered with poison by a failed stack (R466). -/
def Block.poisoned (m : Block) (a n : Nat) : Bool :=
  (granules a n).any fun g => m.poison.contains g || m.stackFailed (128 * g)

/-- Whether an access touches hitch memory (R95, R112). -/
def Block.tagged (m : Block) (a n : Nat) : Bool := (granules a n).any m.tags.contains

/-- An access cut at granule boundaries: offset from its start and bytes of each piece. -/
def pieces (a n : Nat) : List (Nat × Nat) :=
  if n = 0 then []
  else (granules a n).map fun g => (max a (128 * g) - a, min (a + n) (128 * g + 128) - max a (128 * g))

/-- Whether a read waits: a host holds a granule of it exclusive (R372), or it goes to a host whose accesses are held (R367). -/
def Block.heldExclusive (m : Block) (a n : Nat) : Bool :=
  (m.region a == .host && m.hostHolding a) || m.cho.directory.any fun d => d.excl && (granules a n).contains d.gran

/-- Snoops the exclusive host copies under an access, once each (R372). -/
def Block.snoopReads (m : Block) (a n : Nat) : Block :=
  let gs := m.cho.directory.filter fun d => d.excl && (granules a n).contains d.gran
  let new := gs.filter fun d => !m.cho.snoops.any fun s => s.gran == d.gran && s.port == d.port
  { m with cho.snoops := m.cho.snoops ++ new.map fun d => ⟨d.gran, d.port, m.time, none⟩ }

/-- Bytes of local memory. -/
def Block.readMem (m : Block) (a n : Nat) : List Byte :=
  if m.stale.isEmpty then m.mem.readN a n else (List.range n).map fun i => m.byteAt (a + i)

/-- What firmware reads: the errors it meets are corrected or found (R161, R162), and of a poisoned granule the bytes are free (log entry
110). -/
def Block.fwBytes (m : Block) (a n : Nat) : List Byte :=
  let m1 := m.correct a n
  (m1.readMem a n).zipIdx.map fun b => if m1.poisoned (a + b.2) 1 then Config.poisonByte m.free (a + b.2) else b.1

/-- A word that firmware reads. -/
def Block.fwWord (m : Block) (a : Nat) : Word := BitVec.ofNat 64 (leNat (m.fwBytes a 8))

/-- Zeros written over local memory, whole granules, so poison of the region goes (R114), and it stands under its owner's key (R163). Hitch
tags stay. -/
def Block.clearMem (m : Block) (a n : Nat) : Block :=
  { m.fresh (a / 128) (ceilDiv n 128) with
    mem := m.mem.clear a n
    poison := m.poison.filter fun g => !(decide (a / 128 ≤ g) && decide (128 * g < a + n))
    ecc := m.ecc.filter fun e => !(decide (a / 128 ≤ e.1) && decide (128 * e.1 < a + n)) }

/-- The zero-fill of a scrub: hitch tags of the region go as well (R112). -/
def Block.zeroFill (m : Block) (a n : Nat) : Block :=
  let m1 := m.clearMem a n
  { m1 with tags := m1.tags.filter fun g => !(decide (a / 128 ≤ g) && decide (128 * g < a + n)) }

/-- Host copies of granules that `n` bytes touch (R371). -/
def Block.copiesIn (m : Block) (a n : Nat) : List DirEntry :=
  m.cho.directory.filter fun d => decide (a / 128 ≤ d.gran) && decide (128 * d.gran < a + n)

/-- Snoops directory entries, once each. -/
def Block.snoopEntries (m : Block) (l : List DirEntry) : Block :=
  let new := l.filter fun d => !m.cho.snoops.any fun s => s.gran == d.gran && s.port == d.port
  { m with cho.snoops := m.cho.snoops ++ new.map fun d => ⟨d.gran, d.port, m.time, none⟩ }

/- Operand buffers -/

/-- Key of byte 0 of an operand buffer of core `n` in `Block.bufs`. -/
def bufBase (n : Nat) : Space → Nat
  | .stationary => 0x400000 * n
  | .vector => 0x400000 * n + 0x40000
  | .stream => 0x400000 * n + 0x80000
  | _ => 0x400000 * n + 0x100000

/-- Sizes of Table 5.1. -/
def bufSize : Space → Nat
  | .stationary => 0x20000
  | .vector => 0x20000
  | .stream => 0x80000
  | .accumulator => 0x40000
  | _ => 0

/-- Bytes of a row of Table 5.1. -/
def bufRow : Space → Nat
  | .stationary => 256
  | .stream => 256
  | _ => 1024

/-- `n` bytes of a buffer, wrapping at its end (R54, R56, R61). -/
def Block.readBuf (m : Block) (core : Nat) (sp : Space) (off n : Nat) : List Byte :=
  (List.range n).map fun i => m.bufs.read (bufBase core sp + (off + i) % bufSize sp)

/-- Writes bytes to a buffer, wrapping at its end. -/
def Block.writeBuf (m : Block) (core : Nat) (sp : Space) (off : Nat) : List Byte → Block
  | [] => m
  | b :: bs => ({ m with bufs := m.bufs.write (bufBase core sp + off % bufSize sp) b }).writeBuf core sp (off + 1) bs

/-- Whether the rows of a buffer that hold bytes [off, off + n) hold a parity error; the bytes do not run past the buffer's end. -/
def Block.rowsBad (m : Block) (core : Nat) (sp : Space) (off n : Nat) : Bool :=
  n != 0 && m.bufPoison.any fun k =>
    decide (bufBase core sp + off / bufRow sp * bufRow sp ≤ k) && decide (k < bufBase core sp + roundUp (off + n) (bufRow sp))

/-- Whether a read of a buffer, which wraps at its end, meets a row with a parity error (R114, R447). A read of no bytes meets none. -/
def Block.bufBad (m : Block) (core : Nat) (sp : Space) (off n : Nat) : Bool :=
  let o := off % bufSize sp
  m.rowsBad core sp o (min n (bufSize sp - o)) || m.rowsBad core sp 0 (n - (bufSize sp - o))

/- Task windows (R117) -/

/-- Local address behind a task-relative core-memory offset, when the access lies in the window. -/
def Block.cmAddr? (m : Block) (n off len : Nat) : Option Nat :=
  if off + len ≤ 4096 * m.fld (Reg.coreCmBound n) 22 12 then
    some (coreWindow n + 4096 * m.fld (Reg.coreCmBase n) 22 12 + off)
  else none

/-- Local address behind a task-relative pool offset, when the access lies in the window, and in no region that awaits its scrub (R312). An
offset inside the window that lies above the
present dies counts as outside it: KIND 1, recorded in CORE_BOUND_ERR; R109 names no kind (DESIGN CHOICE, log entry 106). -/
def Block.poolAddr? (m : Block) (n off len : Nat) : Option Nat :=
  if off + len ≤ 65536 * m.fld (Reg.corePoolBound n) 32 16 ∧
      m.region (poolBase + 65536 * m.fld (Reg.corePoolBase n) 31 16 + off) = .pool ∧
      !m.scrubbing (poolBase + 65536 * m.fld (Reg.corePoolBase n) 31 16 + off) len then
    some (poolBase + 65536 * m.fld (Reg.corePoolBase n) 31 16 + off)
  else none

/-- Tenant of the task on core `n`. -/
def Block.coreTenant (m : Block) (n : Nat) : Nat := m.fld (Reg.coreTaskId n) 12 8
/-- Context of the task on core `n`. -/
def Block.coreCtx (m : Block) (n : Nat) : Nat := m.fld (Reg.coreTaskId n) 7 0

/- Commands -/

/-- The running command of a queue: started and not completed. -/
def Block.running (m : Block) (q : QueueId) : Option Cmd := m.cmd.cmds.find? fun c => c.q == q && c.started
/-- The queue with an identity. -/
def Block.queue? (m : Block) (q : QueueId) : Option Queue := m.cmd.queues.find? fun x => x.id == q
/-- Changes a queue. -/
def Block.modQueue (m : Block) (q : QueueId) (f : Queue → Queue) : Block :=
  { m with cmd.queues := mapIf (fun x => x.id == q) f m.cmd.queues }
/-- Changes the running command of a queue. -/
def Block.modCmd (m : Block) (q : QueueId) (f : Cmd → Cmd) : Block :=
  { m with cmd.cmds := mapIf (fun c => c.q == q && c.started) f m.cmd.cmds }
/-- A context. -/
def Block.context? (m : Block) (t c : Nat) : Option Context :=
  m.cmd.contexts.find? fun x => x.tenant == t && x.ctx == c && x.exists_
/-- Changes a context. -/
def Block.modContext (m : Block) (t c : Nat) (f : Context → Context) : Block :=
  { m with cmd.contexts := mapIf (fun x => x.tenant == t && x.ctx == c) f m.cmd.contexts }
/-- A packet's fields. -/
def Cmd.opcode (c : Cmd) : Nat := field (wordAt c.packet 0) 63 48
/-- Parameter words P0 to P3. -/
def Cmd.p (c : Cmd) (i : Nat) : Word := wordAt c.packet (4 + i)
/-- The packet's DEADLINE. -/
def Cmd.deadline (c : Cmd) : Nat := (wordAt c.packet 1).toNat
/-- The class of a queue; a queue that does not exist counts as HIGH. -/
def Block.classOf (m : Block) (q : QueueId) : Nat := ((m.queue? q).map (·.cls)).getD 1

/-- Cores that run the task of a queue. -/
def Block.taskCores (m : Block) (q : QueueId) : List Nat :=
  (m.cores.filter fun e => e.2.task == some q).map (·.1)

/- Stops and curbs -/

/-- The sequencer state of Table 4.10. -/
def Block.coreSt (m : Block) (n : Nat) : Nat := m.fld (Reg.coreSeqStatus n) 35 32
/-- Sets the sequencer state. -/
def Block.setCoreSt (m : Block) (n st : Nat) : Block := m.setFld (Reg.coreSeqStatus n) 35 32 st

/-- Whether units of a core still hold or carry out instructions. -/
def CoreState.working (c : CoreState) : Bool :=
  !(c.matQ.isEmpty && c.vecQ.isEmpty && c.sfuQ.isEmpty && c.copyQ.isEmpty && c.loads.isEmpty && c.stores.isEmpty && c.signals.isEmpty)

/-- Whether a channel of its tile holds a descriptor that core `n` submitted. -/
def Block.copying (m : Block) (n : Nat) : Bool := m.chans.any fun e => e.1 / 128 == n / 8 && e.2.any fun j => j.core == n

/-- Whether core `n` runs, or its units still work (R98). -/
def Block.coreLive (m : Block) (n : Nat) : Bool :=
  [1, 2, 3].contains (m.coreSt n) || (m.core n).working || m.copying n

/-- The windows of a core are no task's any more once its task has ended and its units have come to rest (R98, R117). -/
def Block.restCore (m : Block) (n : Nat) : Block :=
  if (m.core n).task.isNone && !m.coreLive n then m.setFld (Reg.coreTaskId n) 63 63 0 else m

/-- A core stops with a cause (R98): the first cause it meets; a core that is idle, stopped or curbed keeps its state.
Instructions in its unit queues run to completion. -/
def Block.stopCore (m : Block) (n cause : Nat) : Block :=
  let s := m.coreSt n
  if s = 1 ∨ s = 2 ∨ s = 3 then
    (((m.setCoreSt n 4).setFld (Reg.coreSeqStatus n) 63 56 cause).setFld (Reg.coreHitchWait n) 63 63 0).modCore n
      fun c => { c with hold := .none }
  else m

/-- The ring HEAD register of a ring master (Table 19.1 types 2 to 4). -/
def ringHead (mtype idx : Nat) : Nat :=
  match mtype with
  | 2 => Reg.cmpRingHead (idx / 32) (idx % 32)
  | 3 => Reg.drvRingHead (idx / 8) (idx % 8)
  | _ => Reg.grmRingHead (idx / 4) (idx % 4)

/-- The ring OWNER register of a ring master. -/
def ringOwner (mtype idx : Nat) : Nat :=
  match mtype with
  | 2 => Reg.cmpRingOwner (idx / 32) (idx % 32)
  | 3 => Reg.drvRingOwner (idx / 8) (idx % 8)
  | _ => Reg.grmRingOwner (idx / 4) (idx % 4)

/-- The ring BASE register of a ring master. -/
def ringBase (mtype idx : Nat) : Nat :=
  match mtype with
  | 2 => Reg.cmpRingBase (idx / 32) (idx % 32)
  | 3 => Reg.drvRingBase (idx / 8) (idx % 8)
  | _ => Reg.grmRingBase (idx / 4) (idx % 4)

/-- The ring TAIL register of a ring master. -/
def ringTail (mtype idx : Nat) : Nat :=
  match mtype with
  | 2 => Reg.cmpRingTail (idx / 32) (idx % 32)
  | 3 => Reg.drvRingTail (idx / 8) (idx % 8)
  | _ => Reg.grmRingTail (idx / 4) (idx % 4)

/-- The command that a context's engine work serves: the first running command of the context (DEDUCED, log entry 13). -/
def Block.commandOf (m : Block) (t c : Nat) : Option QueueId :=
  (m.cmd.cmds.find? fun x => x.started && x.q.tenant == t && x.q.ctx == c).map (·.q)

/-- The command that a master serves (R444). -/
def Block.serves (m : Block) (mtype idx t c : Nat) : Option QueueId :=
  match mtype with
  | 0 => (m.core idx).task
  | 1 => ((m.chan (idx / 128) (idx % 128)).head?.bind fun j => (m.core j.core).task).or (m.commandOf t c)
  | 4 => ((m.eng.groomLists.find? fun (l : QueueId × Nat × Nat × List Nat) =>
      l.2.1 == idx && l.2.2.2.contains (m.fld (ringHead 4 idx) 9 0)).map (·.1)).or (m.commandOf t c)
  | 6 => (m.tile idx).cmdChan
  | _ => m.commandOf t c

/-- Whether a vector instruction may make a store of R145: every one but a load. -/
def storing : Instr → Bool
  | .globalLoad .. => false
  | .coherentPointLoad .. => false
  | _ => true

/-- Whether a vector instruction makes a load of R145. -/
def loading : Instr → Bool
  | .globalLoad .. => true
  | .coherentPointLoad .. => true
  | _ => false

/-- Whether a signal waits for nothing that stands in a core's queues, only for stores that have left it. -/
def CoreState.freeSignal (c : CoreState) (s : PendingSignal) : Bool :=
  s.mats == 0 && !c.vecQ.any fun v => decide (v.1 < s.stamp) && storing v.2

/-- Freezes a master (R442, R443): a core discards the instructions in its unit queues, and with them the signals that were to follow them;
channels and rings keep their descriptors and jobs. -/
def Block.freeze (m : Block) (mtype idx : Nat) : Block :=
  match mtype with
  | 0 =>
    (((m.setCoreSt idx 5).setFld (Reg.coreSeqStatus idx) 63 56 7).setFld (Reg.coreHitchWait idx) 63 63 0).modCore idx
      fun c => { c with matQ := [], vecQ := [], sfuQ := [], copyQ := [], loads := [], signals := c.signals.filter c.freeSignal, att := none, hold := .none }
  | 1 => m.setFld (Reg.tileDmaStatus (idx / 128) (idx % 128)) 63 60 3
  | 5 => m
  | 6 => m.modTile idx fun t => { t with cmdChan := none }
  | _ => m.setFld (ringHead mtype idx) 63 60 3

/-- A curb of a master (R443): the failing access is not performed, the master is frozen, and firmware has the curb to
handle (R444). -/
def Block.curb (m : Block) (mtype idx t c kind addr len : Nat) (remote : Option Nat) : Block :=
  let q := m.serves mtype idx t c
  { m.freeze mtype idx with
    flt.curbs := m.flt.curbs ++ [⟨kind, mtype, idx, t, c, addr, len, remote, q, 0⟩] }

/-- A curb of a core for an access of its task. -/
def Block.curbCore (m : Block) (n kind addr len : Nat) : Block :=
  m.curb 0 n (m.coreTenant n) (m.coreCtx n) kind addr len none

/-- A curb of a core by a window check, recorded in CORE_BOUND_ERR (Table 5.5). `space` is 0 for core memory, 1 for the
pool. -/
def Block.curbWindow (m : Block) (n space off len : Nat) : Block :=
  (m.setReg (Reg.coreBoundErr n)
    (putField (putField (putBit 0 63 true) 62 62 space) 47 0 off)).curbCore n 1 off len

/- Fault records -/

/-- SEQ of a tenant's next fault record. -/
def Block.faultSeq (m : Block) (t : Nat) : Nat := Tbl.getD 0 m.flt.faultSeqs t

/-- Writes a fault record to a tenant's log of 1,024 records; the oldest of the tenant's goes when it is full (R446). -/
def Block.addFault (m : Block) (t : Nat) (r : FaultRec) : Block :=
  let mine := m.flt.faults.filter (·.tenant == t)
  let kept := if mine.length < 1024 then m.flt.faults
    else match mine.head? with
      | some o => m.flt.faults.erase o
      | none => m.flt.faults
  { m with
    flt.faults := kept ++ [{ r with seq := m.faultSeq t, tenant := t, time := m.time }]
    flt.faultSeqs := Tbl.put m.flt.faultSeqs t ((m.faultSeq t + 1) % 2 ^ 32) }

/-- A fault record for a command, or for none. -/
def Block.faultFor (m : Block) (kind mtype idx t c addr len cause flags node : Nat) (q : Option QueueId) : Block :=
  let k := q.bind m.running
  m.addFault t
    { time := m.time, seq := 0, kind := kind, mtype := mtype, mindex := idx, ctx := c, tenant := t
      opcode := (k.map (·.opcode)).getD 0xFFFF
      tag := (k.map fun x => BitVec.ofNat 64 (field (wordAt x.packet 0) 31 0)).getD 0
      addr := addr, len := len, cause := cause, flags := flags, node := node }

/- Interrupts and completion records -/

/-- The host port of a tenant (R368): the port behind its admin submission ring. -/
def Block.hostPort (m : Block) (t : Nat) : Nat :=
  let base := if t = 0 then (m.reg Reg.cmdSysSq).toNat else ((m.queue? ⟨t, 0, 0⟩).map (·.sqBase)).getD hostBase
  m.hostPortOf (localPart base)

/-- The word of an interrupt message (R375). -/
def irqWord (kind t c q mb : Nat) : Nat := kind * 2 ^ 60 + (if kind = 1 then mb else t * 4096 + c * 16 + q)

/-- Sends an interrupt message on a tenant's host port, or records it pending when the port is down (R375). -/
def Block.interrupt (m : Block) (t msg : Nat) : Block :=
  let p := m.hostPort t
  if m.fld (Reg.choPortStatus p) 63 60 = 2 then { m with cho.irqs := m.cho.irqs ++ [(p, msg)] }
  else
    let l := (m.chotus p).pendIrq
    let l' := if l.contains msg then l else l ++ [msg]
    (m.modChotus p fun x => { x with pendIrq := l' }).setReg (Reg.choIrqPend p) (BitVec.ofNat 64 l'.length)

/-- A trace point of subsystem `u` on control core `core` (R402 to R404). The points, their levels and arguments stand in another
manual: whether firmware has a point here, its level and its arguments are free values (log entry 33). -/
def Block.trace (m : Block) (u core : Nat) : Block :=
  let d := m.draw
  let level := field d.1 1 0
  let now := (bit (m.reg Reg.fwTraceEn) u, m.fld Reg.fwTraceLvl 1 0)
  let rule := match m.fw.traceOld with
    | some (t, en, lvl) => if t = m.time then (en.testBit u, lvl) else now
    | none => now
  if !(bit d.1 12) ∨ !(level = 0 ∨ (rule.1 = true ∧ level ≤ rule.2)) then d.2
  else
    let args := (List.range 6).map fun i => Config.freeWord (d.2.free + i)
    let rec_ : LogRec := { time := m.time, seq := m.fld Reg.fwLog 31 0, point := u * 1024 + field d.1 11 2, level := level, core := core, args := args }
    let log := m.fw.log ++ [rec_]
    { d.2 with
      free := d.2.free + 6
      fw.log := if log.length > 262144 then log.drop 1 else log }.addFld Reg.fwLog 31 0 1

/-- A port event (R340, R375): firmware's fabric point, and an interrupt message to tenant 0. -/
def Block.portEvent (m : Block) : Block := (m.interrupt 0 (irqWord 2 0 0 0 0)).trace 5 4

/-- Whether a tenant's host is lost and its hold runs (R378). -/
def Block.hostHeld (m : Block) (t : Nat) : Bool := (m.chotus (m.hostPort t)).lossTick.isSome

/-- Whether a request with a tenant tag is accepted on a port (R368): tenant 0, or a tenant whose host port it is; in bonded mode either
port is. -/
def Block.tagOk (m : Block) (p t : Nat) : Bool :=
  t == 0 || (m.cmd.tenants.any (fun x => x.id == t && x.exists_) && (m.fld Reg.choMode 63 62 == 2 || m.hostPort t == p))

/-- What a request does, when it arrives: a host's port must carry frames, and a request with a tag that is not accepted is dropped and
counted (R368). -/
def Block.byHost (m : Block) (r : Requester) (f : Block → Block) : Block :=
  match r with
  | .host p t =>
    if m.choSt p ≠ 2 ∧ m.choSt p ≠ 3 then m
    else if m.tagOk p t then f m
    else m.satFld (Reg.choPortErr p) 31 16 1
  | _ => f m

/-- Where a queue's next completion record goes. -/
def Queue.slot (q : Queue) : Nat := localPart q.cqBase + 32 * q.cqTail

/-- Host copies of the granule of a queue's next record. -/
def Block.slotCopies (m : Block) (q : Queue) : List DirEntry := m.hostCopies (q.slot / 128)

/-- Whether a queue's next record cannot reach its home yet: it would pass CQ_HEAD (R300), host copies of its granule stand (R152), or the host's
port holds accesses back (R367). -/
def Block.slotWaits (m : Block) (q : Queue) : Bool :=
  (q.cqTail + 1) % 2 ^ q.log2Cq == q.cqHead || !(m.slotCopies q).isEmpty || (m.region q.slot == .host && m.hostHolding q.slot)

/-- Writes a completion record into its ring as one write of 32 bytes; the interrupt follows it (R300). -/
def Block.postRecord (m : Block) (q : Queue) (rec : Completion) (irq : Bool) : Block :=
  let size := 2 ^ q.log2Cq
  let w1 := putBit (wordAt rec 1) 63 q.phase
  let bytes := wordBytes [wordAt rec 0, w1, wordAt rec 2, wordAt rec 3]
  let next := (q.cqTail + 1) % size
  let m1 := (m.homeWrite q.slot bytes).modQueue q.id fun x =>
    { x with cqTail := next, phase := if next = 0 then !x.phase else x.phase }
  if irq && q.irqEn then
    m1.interrupt q.id.tenant (irqWord 0 q.id.tenant q.id.ctx q.id.queue 0)
  else m1

/-- Delivers a record: kept while the tenant's host is lost (R378), held while it cannot reach its home, else written, which retires the
command's stud-book entry (R459). -/
def Block.deliver (m : Block) (qid : QueueId) (rec : Completion) (irq : Bool) (entry : Option Cmd := none) : Block :=
  match m.queue? qid with
  | none => m
  | some q =>
    if m.hostHeld qid.tenant then
      m.modChotus (m.hostPort qid.tenant) fun x =>
        if (x.kept.filter fun k => k.1 == qid).length ≥ 2 ^ q.log2Cq then x else { x with kept := x.kept ++ [(qid, rec, irq)] }
    else if q.held.length > 0 ∨ m.slotWaits q then
      (m.snoopEntries (m.slotCopies q)).modQueue qid fun x => { x with held := x.held ++ [⟨rec, irq, entry⟩] }
    else m.postRecord q rec irq

/-- The status of a command that ends with OK, by the windows that caught it (R332): late only when it ends at or after its
DEADLINE and a window caught it. -/
def Cmd.lateStatus (c : Cmd) (time : Nat) : Nat :=
  match c.pace with
  | some p =>
    if time < c.deadline then 0
    else if p.caughtRecovery then 0x11
    else if p.caughtEmergency then 0x12
    else 0
  | none => 0

/-- The status that stands: a lost peer before FAULTED and OK (R465), a lost object before OK (R466), then lateness. -/
def Cmd.finalStatus (c : Cmd) (time status : Nat) : Nat :=
  if c.peerLost && (status == 0 || status == 0xB) then 0x14
  else if c.objLost && status == 0 then 9
  else if status = 0 then c.lateStatus time
  else status

/-- The completion record of a command (Table 12.7), PHASE left to the ring. -/
def Cmd.record (c : Cmd) (time status result : Nat) : Completion :=
  let w0 := putField (putField (putField 0 63 48 status) 47 32 c.opcode) 31 0 (field (wordAt c.packet 0) 31 0)
  let w1 := putBit (putBit (putBit 0 62 c.deferred) 61 c.promoted) 60 c.replayed
  let w1 := putField (putField w1 47 32 c.sqHead) 16 0 (c.q.tenant * 4096 + c.q.ctx * 16 + c.q.queue)
  let delay := if status = 0x11 ∨ status = 0x12 then min (time - c.deadline) (2 ^ 32 - 1) else 0
  [w0, w1, BitVec.ofNat 64 time, putField (putField 0 63 32 delay) 31 0 result]

/-- Releases the cores of a queue's task, a pulled-up part of it included. The windows are no task's any more, but for a core that still runs
or whose units still work, which keeps them until it rests (R73, R98; DEDUCED, log entry 99). -/
def Block.releaseCores (m : Block) (q : QueueId) : Block :=
  let m1 := (m.taskCores q).foldl
    (fun m n => ((m.modCore n fun c => { c with task := none }).restCore n).modTile (n / 8) fun t => { t with idleFrom := m.time }) m
  let gone (c : CoreState) : Bool := c.saved.any fun s => s.task == some q
  { m1 with cores := m1.cores.map fun e => (e.1, if gone e.2 then { e.2 with saved := none } else e.2) }

/-- A PACED command has its lead tick, unless it has one: a command between the two may have ended earlier (R324). -/
def Cmd.giveLead (c : Cmd) (now : Nat) : Cmd :=
  { c with pace := c.pace.map fun p => { p with lead := some (p.lead.getD (max c.admitted now)) } }

/-- The first PACED command of a list has its lead tick. -/
def leadFirst (now : Nat) : List Cmd → List Cmd
  | [] => []
  | y :: ys => if y.pace.isSome then y.giveLead now :: ys else y :: leadFirst now ys

/-- The command admitted after a PACED command that completes now has its lead tick (R324). -/
def leadNext (c : Cmd) (now : Nat) : List Cmd → List Cmd
  | [] => []
  | x :: xs => if x = c then x :: leadFirst now xs else x :: leadNext c now xs

/-- Whether two entries of the stud book are the same command at different points of its life. -/
def Cmd.same (a b : Cmd) : Bool := a.q == b.q && a.sqHead == b.sqHead && a.admitted == b.admitted

/-- Retires a command's stud-book entry (R459) and moves the lead tick on (R324). -/
def Block.retire (m : Block) (c : Cmd) : Block :=
  let later := (m.cmd.cmds.dropWhile (· != c)).drop 1
  let last := c.pace.isSome && !later.any fun y => y.pace.isSome
  { m with
    cmd.cmds := (if c.pace.isSome then leadNext c m.time m.cmd.cmds else m.cmd.cmds).erase c
    cmd.lastPacedDone := m.cmd.lastPacedDone || last }

/-- Marks a queue ready when its next packet is fetched and none runs (R302). -/
def Block.markReady (m : Block) (q : QueueId) : Block :=
  if m.cmd.cmds.any (fun c => c.q == q && !c.started) && !(m.running q).isSome then
    m.modQueue q fun x => { x with ready := some m.time }
  else m

/-- The module is back in M0; the time away does not count towards R392's 60 s in M0. -/
def Block.toM0 (m : Block) : Block :=
  if m.pwr.pstate = 1 ∨ m.pwr.pstate = 2 then { m with pwr.pstate := 0, fw.runSince := m.fw.runSince + (m.time - m.fw.awayAt) } else m

/-- In M2, a doorbell write, a mailbox GO or an arriving burst asks for M0 (R430). -/
def Block.askWake (m : Block) : Block := if m.pwr.pstate = 2 then { m with pwr.wake := true } else m

/- PACED work and the cores it needs (R329) -/

/-- The cores that a command's program runs on; none for another opcode. -/
def Block.cmdCores (m : Block) (c : Cmd) : List Nat :=
  if c.opcode ≠ 0x0102 then []
  else ((m.cmd.programs.find? fun p => p.tenant == c.q.tenant && p.ctx == c.q.ctx && p.handle == field (c.p 0) 63 32).map (·.slots)).getD []

/-- Whether an accepted, uncompleted PACED command needs a core. -/
def Block.pacedNeeds (m : Block) (n : Nat) : Bool := m.cmd.cmds.any fun c => c.pace.isSome && (m.cmdCores c).contains n

/-- Whether the engines of a tile are paused: a started PACED command that has a core there has pulled up a task. -/
def Block.pausedTile (m : Block) (t : Nat) : Bool :=
  m.cmd.cmds.any fun c => c.pace.isSome && c.started &&
    ((m.cmdCores c).any fun n => n / 8 == t) && (m.cmdCores c).any fun n => (m.core n).saved.isSome

/-- Whether a ring pauses: its tile is paused and the command it serves, if any, is of another class. Groom units stand two to a tile. -/
def Block.ringPaused (m : Block) (mtype idx t c : Nat) : Bool :=
  m.pausedTile (match mtype with
    | 2 => idx / 32
    | 3 => idx / 8
    | _ => idx / 8) &&
  !(m.serves mtype idx t c).any fun q => m.classOf q == 0

/- What completions let go -/

/-- Firmware's own areas (R388): the top 64 MiB of base die 0's pool, the top 8 GiB of stack 1. -/
def firmwareArea (a n : Nat) : Bool := overlaps a n 0x20000C000000 0x4000000 || overlaps a n 0x1E00000000 0x200000000

/-- Whether a retired HBM page lies in a run of bytes (R166): the wear ledger holds its address. -/
def Block.hasRetired (m : Block) (a n : Nat) : Bool :=
  m.flt.wear.any fun w => w.about == 4 && overlaps a n w.from_ 0x200000

/-- Invalidates a tile's line cache; fills from loads issued before it serve no later load (Table 6.4). -/
def Block.invalidateTile (m : Block) (t : Nat) : Block :=
  m.modTile t fun x => { x with lines := [], stamp := x.stamp + 1, floor := max x.floor (x.stamp + 1) }

/-- TILE_LC_CTL.INV on every tile (R144). -/
def Block.invalidateAll (m : Block) : Block := (List.range m.tileCount).foldl Block.invalidateTile m

/-- A paging object by its id. -/
def Block.obj? (m : Block) (id : Nat) : Option PageObj := m.page.objs.find? fun o => o.id == id

/-- The 4 KiB blocks of an object that lie in used channel `e` (R170), the part of the object that this channel's engine moves (R173). -/
def Block.objBlocks (m : Block) (o : PageObj) (e : Nat) : List Nat :=
  (List.range (ceilDiv o.bytes 0x1000)).filter fun k => m.tierChannel (0x100000000000 + o.tier + 0x1000 * k) == e

/-- 64 KiB segments of an object's part in a channel (R174). -/
def Block.objSegs (m : Block) (o : PageObj) (e : Nat) : Nat := ceilDiv (m.objBlocks o e).length 16

/-- The blocks of segment `j` of an object's part in a channel. -/
def Block.segBlocks (m : Block) (o : PageObj) (e j : Nat) : List Nat := ((m.objBlocks o e).drop (16 * j)).take 16

/-- Bytes of block `k` of an object. -/
def blockBytesOf (o : PageObj) (k : Nat) : Nat := min 0x1000 (o.bytes - 0x1000 * k)

/-- Bytes of segment `j` of an object's part in a channel. -/
def Block.segBytes (m : Block) (o : PageObj) (e j : Nat) : Nat := total ((m.segBlocks o e j).map (blockBytesOf o))

/-- Bytes that the engines have moved of a request. -/
def Block.reqMoved (m : Block) (o : PageObj) (r : PageReq) : Nat :=
  total (r.done.map fun x => total ((List.range x.2).map (m.segBytes o x.1)))

/-- Whether every engine has moved its part. -/
def Block.reqDone (m : Block) (o : PageObj) (r : PageReq) : Bool :=
  m.channels.all fun e => decide (m.objSegs o e ≤ Tbl.getD 0 r.done e)

/-- Removes an object and its requests; the bytes of an urgent one are no longer queued. -/
def Block.dropObj (m : Block) (id : Nat) : Block :=
  let left := total ((m.page.urgent.filter fun r => r.obj == id).map fun r =>
    match m.obj? id with
    | some o => o.bytes - min o.bytes (m.reqMoved o r)
    | none => 0)
  { m with
    page.objs := m.page.objs.filter fun o => o.id != id
    page.urgent := m.page.urgent.filter fun r => r.obj != id
    page.background := m.page.background.filter fun r => r.obj != id
  }.setFld Reg.ddrPageUrgent 63 0 ((m.reg Reg.ddrPageUrgent).toNat - left)

/-- Whether an accepted, uncompleted command binds a saddle version (R254). -/
def Block.pinned (m : Block) (s : Saddle) : Bool :=
  m.cmd.cmds.any fun c => c.q.tenant == s.tenant && c.binds.contains (s.handle, s.uid)

/-- The paging object of a saddle version. -/
def Block.saddleObj (m : Block) (s : Saddle) : Option PageObj :=
  m.page.objs.find? fun o => o.kind == .saddle s.tenant s.handle s.uid

/-- Whether a saddle version has HBM pages. -/
def Saddle.inHbm (s : Saddle) : Bool := s.slot.isSome || s.state == .loading

/-- A saddle version's pages leave the tenant's ranges, where they stand at index 64 + uid (R251), the line caches being invalidated first
(R144). -/
def Block.dropPages (m : Block) (s : Saddle) : Block :=
  if s.inHbm then
    { m.invalidateAll with cmd.ranges := m.cmd.ranges.filter fun r => !(r.tenant == s.tenant && r.idx == 64 + s.uid) }
  else m

/-- Frees a saddle version: its slot, object, and the range of its pages, which are scrubbed (R252, R253, R312). -/
def Block.freeSaddle (m : Block) (s : Saddle) : Block :=
  let m1 := match m.saddleObj s with
    | some o => m.dropObj o.id
    | none => m
  let m2 := { m1.dropPages s with page.saddles := m1.page.saddles.erase s }
  if s.inHbm then
    { m2 with cmd.scrubs := m2.cmd.scrubs ++ [⟨s.tenant, none, none, s.addr, roundUp s.bytes 0x200000⟩] }
  else m2

/-- Completes the running command of a queue: its cores are released, its entry retired, its record
delivered, and the queue's next packet made ready. -/
def Block.completeOne (m : Block) (q : QueueId) (status result : Nat) : Block :=
  match m.running q with
  | none => m
  | some c =>
    let st := c.finalStatus m.time status
    let m1 := if st = 0x11 then m.satFld Reg.paceLate 31 0 1 else if st = 0x12 then m.satFld Reg.paceLate 63 32 1 else m
    let m2 := m1.releaseCores q
    let m3 := m2.retire c
    (m3.deliver q (c.record m.time st result) (bit (wordAt c.packet 0) 46) (some c)).markReady q

/-- Saddle versions that wait for their last binding command are freed when none binds them, and an unload that waited completes
(R252, R253); unloaded programs go after their last run (Table 12.9). -/
def Block.letGo (m : Block) : Block :=
  let free := m.page.saddles.filter fun s => (s.old || s.retiring) && !m.pinned s
  let m1 := free.foldl (fun m s =>
    let m1 := m.freeSaddle s
    match s.unloadBy with
    | some q => if m1.page.saddles.any fun x => x.unloadBy == some q then m1 else m1.completeOne q 0 0
    | none => m1) m
  { m1 with cmd.programs := m1.cmd.programs.filter fun (p : Program) => match p.gone with
      | none => true
      | some l => m1.cmd.cmds.any fun (c : Cmd) => l.contains (c.q, c.sqHead) }

/-- Completes the running command of a queue, and lets go what waited for its completion. -/
def Block.complete (m : Block) (q : QueueId) (status result : Nat) : Block := (m.completeOne q status result).letGo

/-- Stops the other cores of a task with FW_STOP and completes its command (R73, R444, R98). -/
def Block.endTask (m : Block) (q : QueueId) (status result : Nat) : Block :=
  ((m.taskCores q).foldl (fun m n => m.stopCore n 8) m).complete q status result

/-- A core stop of KIND 9 (Table 19.3): the task ends on all its slots, the record is written, the command completes
FAULTED, and the context is not held. -/
def Block.faultStop (m : Block) (n cause : Nat) : Block :=
  let m1 := m.stopCore n cause
  match (m.core n).task with
  | none => m1
  | some q =>
    let seq := m1.faultSeq q.tenant
    (m1.faultFor 9 0 n q.tenant q.ctx 0 0 cause 0 0 (some q)).endTask q 0xB seq

/- Hitches -/

/-- Local address of hitch `i` of a context on this module: its pool window, hitch memory at offset 0 (log entry 14). -/
def Block.hitchAddr (m : Block) (t c i : Nat) : Option Nat :=
  match m.context? t c with
  | some x => if i < x.hitches then some (poolBase + 65536 * x.poolBase + 8 * i) else none
  | none => none

/-- Local address of hitch `i` as core `n` names it: CORE_HITCH_CFG in the core's pool window (R90). -/
def Block.coreHitch (m : Block) (n i : Nat) : Option Nat :=
  if i < m.fld (Reg.coreHitchCfg n) 42 32 then
    some (poolBase + 65536 * m.fld (Reg.corePoolBase n) 31 16 + m.fld (Reg.coreHitchCfg n) 31 0 + 8 * i)
  else none

/-- The counter at a hitch. -/
def Block.hitchVal (m : Block) (a : Nat) : Nat := leNat (m.readMem a 8)

/-- Whether a value left at hitch `a` ends a core's wait (R92, R94): it is tested after each operation, inside the window. -/
def Block.waitMet (m : Block) (n : Nat) (c : CoreState) (a v : Nat) : Bool :=
  decide (c.hold = .hwait) && c.waitAddr == a && decide ((m.reg (Reg.coreHitchTarget n)).toNat ≤ v) &&
    decide (m.time < c.waitStart + m.fld (Reg.coreHitchTmo n) 39 0)

/-- The same for a task that is pulled up (R329). -/
def Block.savedMet (m : Block) (n : Nat) (s : SavedTask) (a v : Nat) : Bool :=
  decide (s.hold = .hwait) && s.waitAddr == a && decide ((Tbl.getD 0 s.regs (Reg.coreHitchTarget n)).toNat ≤ v) &&
    decide (m.time < s.waitStart + m.fld (Reg.coreHitchTmo n) 39 0)

/-- What a core sees of a value left at hitch `a`. -/
def Block.seeHitch (m : Block) (a v n : Nat) (c : CoreState) : CoreState :=
  let c1 := if m.waitMet n c a v then { c with met := true } else c
  { c1 with saved := c1.saved.map fun s => if m.savedMet n s a v then { s with met := true } else s }

/-- Leaves a value in a hitch; waiting cores see it. -/
def Block.hitchPut (m : Block) (a v : Nat) : Block :=
  { m with
    mem := m.mem.writeN a (leBytes 8 (v % 2 ^ 64))
    cores := m.cores.map fun e => (e.1, m.seeHitch a (v % 2 ^ 64) e.1 e.2) }

/-- One operation of the bank on a hitch: an add or a set, a masked write of 8 bytes, which a poisoned granule discards (R114). -/
def Block.hitchApply (m : Block) (a : Nat) (add : Bool) (v : Nat) : Block :=
  let m1 := m.correct a 8
  if m1.poison.contains (a / 128) then m1.countDrop a
  else m1.hitchPut a (if add then m1.hitchVal a + v else v)

/-- An operation on a hitch. The bank applies one at a time (R92); one that meets host copies of the granule waits until they have been
given up (R152). -/
def Block.hitchOp (m : Block) (a : Nat) (add : Bool) (v : Nat) : Block :=
  match m.hostCopies (a / 128) with
  | [] => m.hitchApply a add v
  | d :: ds =>
    { m with cho.snoops := m.cho.snoops ++ (⟨a / 128, d.port, m.time, some ⟨a, [], [], false, some (add, v), none, 0⟩⟩ ::
        ds.map fun e => ⟨a / 128, e.port, m.time, none⟩) }

/-- Sets a hitch. -/
def Block.hitchSet (m : Block) (a v : Nat) : Block := m.hitchOp a false v

/-- Adds to a hitch modulo 2^64. -/
def Block.hitchAdd (m : Block) (a v : Nat) : Block := m.hitchOp a true v

/-- A write that waited at its home goes on. -/
def Block.applyHeld (m : Block) (w : HeldWrite) : Block :=
  match w.hitch with
  | none => m.writeGranule w.addr w.bytes w.mask w.bad
  | some h => m.hitchOp w.addr h.1 h.2

/-- An HSIGNAL of core `n` reaches the hitch at an address: the operation consumes the counter it reads, so poison there curbs the core
(R447). -/
def Block.signalAt (m : Block) (n a inc : Nat) : Block :=
  let m1 := m.correct a 8
  if m1.poisoned a 8 then m1.curbCore n 8 a 8 else m1.hitchAdd a inc

/-- Signals hitch `i` as core `n` names it. -/
def Block.coreSignal (m : Block) (n i inc : Nat) : Block :=
  match m.coreHitch n i with
  | some a => m.signalAt n a inc
  | none => m

/-- Signals hitch `i` of a context when it has one (R125, R354). -/
def Block.signal (m : Block) (t c i inc : Nat) : Block :=
  match m.hitchAddr t c i with
  | some a => m.hitchAdd a inc
  | none => m

/-- Performs an act that follows writes. -/
def Block.actAfter (m : Block) : AfterAct → Block
  | .signal t c i inc => m.signal t c i inc

/-- Performs an act once no write waits in its spans of addresses: now, or when they have reached their homes. -/
def Block.following (m : Block) (spans : List (Nat × Nat)) (act : AfterAct) : Block :=
  if spans.any fun x => m.writeWaits x.1 x.2 then { m with cho.after := m.cho.after ++ [⟨spans, act⟩] } else m.actAfter act

/-- The acts whose writes have reached their homes are performed, in their order. -/
def Block.flushAfter (m : Block) : Block :=
  let go := m.cho.after.filter fun x => !x.spans.any fun y => m.writeWaits y.1 y.2
  go.foldl (fun m x => m.actAfter x.act)
    { m with cho.after := m.cho.after.filter fun x => x.spans.any fun y => m.writeWaits y.1 y.2 }

/- Fabric, sending side -/

/-- Master codes in the MASTER field (R351 leaves the values to the module; log entry 15). -/
def Master.code : Master → Nat
  | .core n => n
  | .groom s => 0x80 + s
  | .drover t => 0xA0 + t
  | .coll d => 0xB0 + d
  | .cmdChan t => 0xC0 + t
  | .codec k => 0x200 + k
  | .dma k => 0x800 + k

/-- The master a code names, as a master of Table 19.1: type and index. -/
def masterOf (code : Nat) : Nat × Nat :=
  if code ≥ 0x800 then (1, code - 0x800)
  else if code ≥ 0x200 then (2, code - 0x200)
  else if code ≥ 0xC0 then (6, code - 0xC0)
  else if code ≥ 0xB0 then (5, code - 0xB0)
  else if code ≥ 0xA0 then (3, 8 * (code - 0xA0))
  else if code ≥ 0x80 then (4, 4 * (code - 0x80))
  else (0, code)

/-- A port that carries traffic: up, and so not waiting for ACK_NBR (R341, R349). -/
def Block.portUsable (m : Block) (p : Nat) : Bool := m.fld (Reg.fabPortStatus p) 63 60 == 2

/-- Ports of path `i` of a routing entry (Table 14.6). -/
def pathPorts (e : Word) (i : Nat) : List Nat :=
  let span := match field e (16 * i + 9) (16 * i + 8) with
    | 0 => 1
    | 1 => 2
    | _ => 4
  (List.range span).map (field e (16 * i + 15) (16 * i + 10) + ·)

/-- The weight of path `i` when it is usable, else 0 (R349). -/
def Block.pathWeight (m : Block) (e : Word) (i : Nat) : Nat :=
  if (pathPorts e i).any m.portUsable then field e (16 * i + 7) (16 * i + 4) else 0

/-- Smooth weighted round-robin: every usable path's credit grows by its weight, the largest is taken and pays the sum. -/
def wrrPick (weights : List Nat) (credit : List Int) : Option (Nat × List Int) :=
  let sum : Nat := total weights
  if sum = 0 then none
  else
    let grown := (List.range 4).map fun i => credit.getD i 0 + (weights.getD i 0 : Nat)
    let best := (List.range 4).foldl
      (fun b i => if weights.getD i 0 > 0 ∧ (weights.getD b 0 = 0 ∨ grown.getD i 0 > grown.getD b 0) then i else b) 0
    some (best, modifyAt (fun x => x - (sum : Nat)) grown best)

/-- Chooses the port for a new burst to a node (R349), or none when no path is usable; its protocol engine sends (R448). -/
def Block.pickPort (m : Block) (node : Nat) : Option Nat × Block :=
  let e := m.reg (Reg.fabRoute node)
  match wrrPick ((List.range 4).map (m.pathWeight e)) (Tbl.getD [] m.fab.wrr node) with
  | none => (none, m)
  | some (i, credit) =>
    let ups := (pathPorts e i).filter m.portUsable
    let k := Tbl.getD 0 m.fab.portRr (4 * node + i)
    let m1 := { m with
      fab.wrr := Tbl.put m.fab.wrr node credit
      fab.portRr := Tbl.put m.fab.portRr (4 * node + i) ((k + 1) % 4) }
    match ups[k % ups.length]? with
    | some p => (some p, m1.beat 6 (p / 4))
    | none => (none, m1)

/-- The sending side of a pair. -/
def Block.txPair (m : Block) (master node : Nat) : TxPair :=
  (m.fab.tx.find? fun p => p.master == master && p.node == node).getD { master := master, node := node }

/-- Replaces the sending side of a pair. -/
def Block.setTxPair (m : Block) (p : TxPair) : Block :=
  { m with fab.tx := (m.fab.tx.filter fun x => !(x.master == p.master && x.node == p.node)) ++ [p] }

/-- Marks a node without a usable path from now on, when it is not already (R350). -/
def Block.noteUnreach (m : Block) (node : Nat) : Block :=
  if m.fab.unreach.any (fun e => e.1 == node) then m else { m with fab.unreach := Tbl.put m.fab.unreach node m.time }

/-- Marks the running commands of a context as having met a lost node (R465). -/
def Block.markPeerLost (m : Block) (t c : Nat) : Block :=
  { m with cmd.cmds := mapIf (fun x => x.started && x.q.tenant == t && x.q.ctx == c) (fun x => { x with peerLost := true }) m.cmd.cmds }

/-- Whether a pair may take another burst: at most 4,096 stay unacknowledged (R352). -/
def Block.pairOpen (m : Block) (master node : Nat) : Bool := decide ((m.txPair master node).unacked.length < 4096)

/-- Sends a write, signalled write or signal burst (KIND 0 to 2): numbered, kept until acknowledged, given to a port, or held
while no path is usable; dropped for a lost node (R349 to R352). -/
def Block.sendBurst (m : Block) (b : Burst) : Block :=
  if m.fab.lostNodes.contains b.dstNode && (m.pickPort b.dstNode).1.isNone then
    { m.markPeerLost b.tenant b.ctx with fab.lostDrops := m.fab.lostDrops + 1 }
  else
    let p := m.txPair b.master b.dstNode
    let b := { b with seq := p.nextSeq, srcNode := m.ownNode }
    let pk := m.pickPort b.dstNode
    let m1 := pk.2.setTxPair { p with nextSeq := (p.nextSeq + 1) % 2 ^ 32, unacked := p.unacked ++ [{ burst := b, port := pk.1, sentAt := m.time, sent := pk.1.isSome }] }
    match pk.1 with
    | some _ => { m1 with fab.fabOut := m1.fab.fabOut ++ [b] }
    | none => m1.noteUnreach b.dstNode

/-- A write burst of a master to a remote node. -/
def Block.sendWrite (m : Block) (master tenant ctx node addr : Nat) (data : List Byte) (bad : Bool) : Block :=
  m.sendBurst { kind := 0, srcNode := 0, dstNode := node, tenant := tenant, ctx := ctx, master := master, seq := 0, tag := 0,
                addr := addr, data := data, mask := [], poison := bad, hitch := 0, inc := 0 }

/-- Sends a read request (KIND 3) under a fresh tag and keeps the read until its data returns (R352). -/
def Block.sendRead (m : Block) (master tenant ctx node addr bytes : Nat) : Nat × Block :=
  let tag := m.fab.nextTag
  let lost := m.fab.lostNodes.contains node && (m.pickPort node).1.isNone
  let pk := m.pickPort node
  let r : RemoteRead := { tag := tag, master := master, tenant := tenant, ctx := ctx, node := node, addr := addr
                          bytes := bytes, port := pk.1, data := if lost then some (List.replicate bytes 0, true) else none }
  let m1 := { pk.2 with fab.nextTag := (tag + 1) % 2 ^ 32, fab.reads := m.fab.reads ++ [r] }
  let b : Burst := { kind := 3, srcNode := m.ownNode, dstNode := node, tenant := tenant, ctx := ctx, master := master
                     seq := 0, tag := tag, addr := addr, data := [], mask := [], poison := false, hitch := 0, inc := 0 }
  if lost then (tag, m1.markPeerLost tenant ctx)
  else match pk.1 with
    | some _ => (tag, { m1 with fab.fabOut := m1.fab.fabOut ++ [b] })
    | none => (tag, m1.noteUnreach node)

/- Commit -/

/-- Every memory in canonical form. A block whose memories are canonical is unchanged by it. -/
def Block.settle (m : Block) : Block := { m with mem := m.mem.canon, bufs := m.bufs.canon, mbuf := m.mbuf.canon }

/-- The state after a command's effect on the block: the waiting commands are untouched. -/
def State.commit (s : State) (m : Block) : Host.Outcome State Fault Refusal := .next { s with m := m.settle }

end Sys2Proof.Machine
end

