-- ==== Sys2Proof/Machine/Operands.lean ====
section
/-! DEFINITION. The operand forms: places a core's units read and write (Table 4.1), elements in memory (R27, R33, R34), the two
scale schemes (R29, R31) and block encoding (R30, R32), and the issue of one instruction (R81, R82, R85). -/
namespace Sys2Proof.Machine

/- Places -/

/-- Why an access of a core's unit is not performed. -/
inductive Trap where
  /-- A window check fails (R117): space 0 core memory, 1 pool. -/
  | window (space off len : Nat)
  /-- The data read is poisoned (R447). -/
  | poison (addr len : Nat)
  /-- The instruction names a place its unit does not reach (Table 4.1): a reserved encoding (Table 4.11). -/
  | illegal
  deriving DecidableEq, Repr

/-- What the trap does to the core: a curb, or a stop with cause ILLEGAL. -/
def Block.trap (m : Block) (n : Nat) : Trap → Block
  | .window sp off len => m.curbWindow n sp off len
  | .poison a len => m.curbCore n 8 a len
  | .illegal => m.faultStop n 5

/-- A unit of core `n` comes to read a place: errors of core memory there are found (R114). -/
def Block.sense (m : Block) (n : Nat) (l : Loc) (len : Nat) : Block :=
  match l.space, m.cmAddr? n l.off len with
  | .core, some a => m.correct a len
  | _, _ => m

/-- Bytes that the vector unit, the special-function unit or the sequencer of core `n` reads at a place. Only the matrix array reads the
stationary and stream buffers (Tables 4.1, 5.1). -/
def Block.readLoc (m : Block) (n : Nat) (l : Loc) (len : Nat) : Except Trap (List Byte) :=
  match l.space with
  | .core =>
    match m.cmAddr? n l.off len with
    | none => .error (.window 0 l.off len)
    | some a => if m.poisoned a len then .error (.poison l.off len) else .ok (m.readMem a len)
  | .vector => if m.bufBad n .vector l.off len then .error (.poison l.off len) else .ok (m.readBuf n .vector l.off len)
  | .accumulator =>
    if m.bufBad n .accumulator l.off len then .error (.poison l.off len) else .ok (m.readBuf n .accumulator l.off len)
  | _ => .error .illegal

/-- Whether a unit may write bytes at a place. -/
def Block.canWrite (m : Block) (n : Nat) (l : Loc) (len : Nat) : Except Trap Unit :=
  match l.space with
  | .core =>
    match m.cmAddr? n l.off len with
    | none => .error (.window 0 l.off len)
    | some _ => .ok ()
  | .pool => .error .illegal
  | .glob => .error .illegal
  | .accumulator => .error .illegal
  | _ => .ok ()

/-- Writes bytes at a place that `canWrite` allows. Bytes written anew carry good parity, so poison of a
128-byte part of a buffer row goes when the write covers that part. -/
def Block.writeLoc (m : Block) (n : Nat) (l : Loc) (bs : List Byte) : Block :=
  match l.space with
  | .core =>
    match m.cmAddr? n l.off bs.length with
    | none => m
    | some a => m.homeWrite a bs
  | sp =>
    let m1 := m.writeBuf n sp l.off bs
    { m1 with bufPoison := m1.bufPoison.filter fun k =>
        !(decide (bufBase n sp + l.off ≤ k) && decide (k + 128 ≤ bufBase n sp + l.off + bs.length)) }

/- Elements -/

/-- Bytes that `n` elements of `w` bits take. -/
def elemBytes (w n : Nat) : Nat := (w * n + 7) / 8

/-- Codes of `n` packed elements of `w` bits (R27). -/
def unpack (w n : Nat) (bs : List Byte) : List Nat :=
  let v := leNat bs
  (List.range n).map fun i => (v >>> (w * i)) % 2 ^ w

/-- Packs codes of `w` bits (R27). Bits of the last byte beyond the last element become 0 (DESIGN CHOICE, log entry 29). -/
def pack (w : Nat) (codes : List Nat) : List Byte :=
  let v := codes.foldr (fun c acc => c % 2 ^ w + acc * 2 ^ w) 0
  leBytes (elemBytes w codes.length) v

/-- Block size of a scheme (R28, R31); 1 without one. -/
def blockSize : Scheme → Nat
  | .none => 1
  | .microscaling => 32
  | .fineBlock => 16

/-- A tensor scale that R31 calls bad: NaN, infinite, or with its sign bit set. -/
def badTensorScale (t : F32) : Bool := t.toNat.testBit 31 || t.val.isNan || t.val.isInf

/-- The value of one element under its scales (R29, R31), with the events its decoding raises. A zero block scale or a tensor scale of +0
gives +0 for every element: the sign is not stated (DESIGN CHOICE, log entry 95). -/
def decodeElem (f : Fmt) (s : Scheme) (tscale : F32) (scale code : Nat) : Val × Events :=
  match s with
  | .none => (f.decode code, {})
  | .microscaling =>
    if scale = 0xFF then (.nan, { scaleBad := true })
    else
      let k : Int := (scale : Int) - 127 - (if f = .int8 then 6 else 0)
      ((f.decode code).mul (.fin false 1 k), {})
  | .fineBlock =>
    let b := Fmt.e4m3.decode scale
    if badTensorScale tscale then (.nan, { scaleBad := true })
    else if b.isNan || scale.testBit 7 then (.nan, { scaleBad := true })
    else if b.isZero || tscale.val.isZero then (.zero, {})
    else (((f.decode code).mul b).mul tscale.val, {})

/-- The values of the first `n` elements of a row (R34: pads are not read). -/
def decodeElems (f : Fmt) (s : Scheme) (tscale : F32) (elems scales : List Byte) (n : Nat) : List (Val × Events) :=
  (unpack f.width n elems).zipIdx.map fun ci =>
    decodeElem f s tscale (scales.getD (ci.2 / (blockSize s)) 0).toNat ci.1

/-- The vector unit comes to read a row of `n` elements: errors under its elements and scales are found. -/
def Block.senseRow (m : Block) (core : Nat) (r : Row) (n : Nat) : Block :=
  let m1 := m.sense core r.loc (elemBytes r.fmt.width n)
  if r.scheme = .none then m1 else m1.sense core r.scales (ceilDiv n (blockSize r.scheme))

/-- Reads a row of `n` elements. -/
def Block.readRow (m : Block) (core : Nat) (r : Row) (n : Nat) : Except Trap (List Val × Events) := do
  let elems ← m.readLoc core r.loc (elemBytes r.fmt.width n)
  let scales ← if r.scheme = .none then .ok [] else m.readLoc core r.scales (ceilDiv n (blockSize r.scheme))
  let vs := decodeElems r.fmt r.scheme r.tscale elems scales n
  return (vs.map (·.1), joinEvents (vs.map (·.2)))

/- Block encoding -/

/-- The largest magnitude of a block. -/
def amax (vs : List Val) : Val := vs.foldl (fun a v => if a.lt v.abs then v.abs else a) .zero

/-- The scale byte of a block and what its elements are divided by, m × 2^e; no divisor: every element is zero (R30, R32). -/
def blockScale (t : Fmt) (s : Scheme) (tscale : F32) (vs : List Val) : Nat × Option (Nat × Int) × Events :=
  match s with
  | .none => (0, some (1, 0), {})
  | .microscaling =>
    if vs.any Val.isNan then (0xFF, none, {})
    else
      let sub : Int := if t = .int8 then 6 else 0
      match amax vs with
      | .fin _ a e =>
        if a = 0 then (0, none, {})
        else
          let k := max (-127) (min 127 (floorLog2 a 1 + e - t.emax))
          ((k + 127).toNat, some (1, k - sub), {})
      | _ => (254, some (1, 127 - sub), {})
  | .fineBlock =>
    if badTensorScale tscale then (0x7F, none, { scaleBad := true })
    else if vs.any Val.isNan then (0x7F, none, {})
    else
      match tscale.val, t.largest, amax vs with
      | .fin _ tm te, .fin _ lm le, .fin _ a e =>
        if tm = 0 then (0, none, { underflow := decide (a ≠ 0) })
        else if a = 0 then (0, none, {})
        else
          let p := scaleQ a (lm * tm) (e - le - te)
          if p.1 > 448 * p.2 then
            (0x7E, some (448 * tm, te), { saturated := true })
          else
            let c := (Fmt.e4m3.float.map fun f => f.nearest a (lm * tm) (e - le - te)).getD 0
            if c = 0 then (0, none, { underflow := true })
            else match Fmt.e4m3.decode c with
              | .fin _ bm be => (c, some (bm * tm, be + te), {})
              | _ => (c, none, {})
      | .fin _ tm te, _, _ =>
        if tm = 0 then (0, none, { underflow := true }) else (0x7E, some (448 * tm, te), { saturated := true })
      | _, _, _ => (0x7F, none, { scaleBad := true })

/-- One element of a block, divided by the block's divisor and converted to nearest even (R35, R36). -/
def encodeElem (t : Fmt) (d : Option (Nat × Int)) (v : Val) : Nat × Events :=
  match d with
  | none => (0, {})
  | some (dm, de) =>
    match v with
    | .nan => t.convertNan
    | .inf n => t.convertInf n
    | .fin n a e => t.convertQ n a dm (e - de)

/-- A list in pieces of `k`, the last one short. -/
def chunks {α : Type} (k : Nat) (l : List α) : List (List α) :=
  (List.range (ceilDiv l.length k)).map fun i => (l.drop (i * k)).take k

/-- Encodes a row: element codes, scale bytes and events. The last block is filled with zeros (R33). -/
def encodeRow (t : Fmt) (s : Scheme) (tscale : F32) (vs : List Val) : List Nat × List Byte × Events :=
  match s with
  | .none =>
    let es := vs.map (encodeElem t (some (1, 0)))
    (es.map (·.1), [], joinEvents (es.map (·.2)))
  | _ =>
    let blocks := (chunks (blockSize s) vs).map fun b =>
      let sc := blockScale t s tscale b
      (sc.1, b.map (encodeElem t sc.2.1), sc.2.2)
    let es := blocks.flatMap (·.2.1)
    let pad := List.replicate (roundUp vs.length (blockSize s) - vs.length) 0
    (es.map (·.1) ++ pad, blocks.map (fun b => BitVec.ofNat 8 b.1),
      (joinEvents (blocks.map (·.2.2))).join (joinEvents (es.map (·.2))))

/-- Writes a row of values; the events of the conversion come with it. -/
def Block.writeRow (m : Block) (core : Nat) (r : Row) (vs : List Val) : Except Trap (Block × Events) := do
  let e := encodeRow r.fmt r.scheme r.tscale vs
  let bytes := pack r.fmt.width e.1
  m.canWrite core r.loc bytes.length
  if r.scheme ≠ .none then m.canWrite core r.scales e.2.1.length
  let m1 := m.writeLoc core r.loc bytes
  let m2 := if r.scheme = .none then m1 else m1.writeLoc core r.scales e.2.1
  return (m2, e.2.2)

/- Issue -/

/-- The sequencer's program counter. -/
def Block.pc (m : Block) (n : Nat) : Nat := m.fld (Reg.coreSeqPc n) 47 0
/-- Sets the program counter. -/
def Block.setPc (m : Block) (n pc : Nat) : Block := m.setFld (Reg.coreSeqPc n) 47 0 pc

/-- The instruction is counted and the pc moves past it. -/
def Block.advance (m : Block) (i : Issue) : Block :=
  ((m.setPc i.core (m.pc i.core + i.len)).addFld (Reg.coreSeqProgress i.core) 63 0 1).beat 0 i.core

/-- Whether a core issues: STATE 1, no order instruction holds it (R82, Table 4.10), and no attention pass, which is a piece of program of its
own (log entry 27), is under way. -/
def Block.issuing (m : Block) (n : Nat) : Bool := m.coreSt n == 1 && decide ((m.core n).hold = .none) && (m.core n).att.isNone

/-- Whether a core works on an attention pass. -/
def Block.passing (m : Block) (n : Nat) : Bool := m.coreSt n == 1 && decide ((m.core n).hold = .none) && (m.core n).att.isSome

/-- Issue of one instruction (R81, R85): a core that does not issue is unchanged; a fetch at or beyond the CODE section's end
stops it with ILLEGAL; a fetch outside the window or of poisoned code curbs it; else the instruction runs. R85 speaks of the offset at which
an instruction starts: one that starts inside the section and runs past its end issues (DESIGN CHOICE, log entry 96). -/
def Block.issue (m : Block) (i : Issue) (k : Block → Block) : Block :=
  if !m.issuing i.core then m
  else
    let c := m.core i.core
    let pc := m.pc i.core
    if pc ≥ c.codeSize then m.faultStop i.core 5
    else match m.cmAddr? i.core (c.codeOff + pc) i.len with
      | none => m.curbWindow i.core 0 (c.codeOff + pc) i.len
      | some a =>
        let m1 := m.correct a i.len
        if m1.poisoned a i.len then m1.curbCore i.core 8 (c.codeOff + pc) i.len else k (m1.advance i)

/-- Distinct load instructions outstanding at a core (Table 4.8). -/
def CoreState.loadCount (c : CoreState) : Nat := (c.loads.map (·.stamp)).dedup.length

/-- Takes the tile's next place in issue order. -/
def Block.nextStamp (m : Block) (t : Nat) : Nat × Block :=
  ((m.tile t).stamp + 1, m.modTile t fun x => { x with stamp := x.stamp + 1 })

/-- Scalar register `r` of core `n`. -/
def Block.sreg (m : Block) (n r : Nat) : Word := (m.core n).sregs.getD r 0
/-- Sets a scalar register. -/
def Block.setSreg (m : Block) (n r : Nat) (w : Word) : Block := m.modCore n fun c => { c with sregs := c.sregs.set r w }
/-- A scalar source. -/
def Block.src (m : Block) (n : Nat) : Src → Word
  | .reg r => m.sreg n r
  | .imm v => v

end Sys2Proof.Machine
end

