-- ==== Sys2Proof/Machine/Flags.lean ====
section
/-! DEFINITION. The flag computation: numerical events into CORE_NUMSTAT (R49, Table 2.6). -/
namespace Sys2Proof.Machine

/-- The CORE_NUMSTAT bits of a set of events. -/
def Events.bits (e : Events) : Nat :=
  e.nanIn.toNat + 2 * e.nanMade.toNat + 4 * e.infMade.toNat + 8 * e.saturated.toNat + 16 * e.nanToZero.toNat +
    32 * e.scaleBad.toNat + 64 * e.underflow.toNat

/-- Sets the events' bits in CORE_NUMSTAT of core `n`; bits already set stay (R13, R49). -/
def Block.noteEvents (m : Block) (n : Nat) (e : Events) : Block :=
  m.setReg (Reg.coreNumstat n) (m.reg (Reg.coreNumstat n) ||| BitVec.ofNat 64 (Events.bits e))

/-- A malformed operand or attention descriptor: the core stops with BAD_DESCRIPTOR, and the command completes with the descriptor-error
status; other cores run on (R28, R73, R200). -/
def Block.descriptorStop (m : Block) (n : Nat) : Block :=
  let m1 := m.stopCore n 2
  match (m.core n).task with
  | some q => m1.complete q 4 0
  | none => m1

/-- The outcome of a vector instruction on core `n`: the block with the events noted, or the trap taken. -/
def Block.finish (m : Block) (n : Nat) : Except Trap (Block × Events) → Block
  | .ok (m', e) => m'.noteEvents n e
  | .error t => m.trap n t

end Sys2Proof.Machine
end

