-- ==== Sys2Proof/Machine/Matrix.lean ====
section
/-! DEFINITION. The matrix array (chapter 3): operation descriptors and group entries, their checks (R73, R239), convolution
addresses (R68, R69), the exact column sums with one rounding per stationary load (R42, R43, R56, R60), and the output
stage (R61). A MATMUL waits in the array's queue; it reads its operands and updates the accumulators when the array takes it; its outputs
are written when it completes (log entry 18). -/
namespace Sys2Proof.Machine

/-- Format codes of Table 3.7. -/
def fmtOfCode : Nat → Option Fmt
  | 0 => some .fp32
  | 1 => some .bf16
  | 2 => some .fp16
  | 3 => some .e4m3
  | 4 => some .e5m2
  | 5 => some .e3m2
  | 6 => some .e2m3
  | 7 => some .e2m1
  | 8 => some .int8
  | 9 => some .int4
  | _ => none

/-- Scale scheme codes of Table 3.6. -/
def schemeOfCode : Nat → Option Scheme
  | 0 => some .none
  | 1 => some .microscaling
  | 2 => some .fineBlock
  | _ => none

/-- Convolution fields (words 10 to 13 of Table 3.6). -/
structure Conv where
  g : Nat
  c : Nat
  ih : Nat
  iw : Nat
  padB : Nat
  padT : Nat
  padR : Nat
  padL : Nat
  dh : Nat
  dw : Nat
  sh : Nat
  sw : Nat
  kh : Nat
  kw : Nat
  rowPitch : Nat
  pixPitch : Nat
  groupIdx : Nat
  start : Nat
  deriving DecidableEq, Repr

/-- One product to run: the fields that an operation descriptor and a group entry share. Codes stay numbers until checked. -/
structure Gemm where
  sub : Nat
  m : Nat
  n : Nat
  k : Nat
  sfmt : Nat
  xfmt : Nat
  ssch : Nat
  xsch : Nat
  ofmt : Nat
  acc : Bool
  comp : Bool
  extacc : Bool
  outVb : Bool
  accBase : Nat
  statAddr : Nat
  statScale : Nat
  strmAddr : Nat
  strmPitch : Nat
  strmScale : Nat
  strmSpitch : Nat
  statTs : F32
  strmTs : F32
  outAddr : Nat
  outPitch : Nat
  extBase : Nat
  conv : Option Conv
  reserved : Bool
  deriving DecidableEq, Repr

/-- Whether bits [hi:lo] of a word are zero. -/
def zeroBits (w : Word) (hi lo : Nat) : Bool := field w hi lo == 0

/-- The convolution fields of a descriptor. -/
def convOf (w : List Word) : Conv :=
  let a := wordAt w 10
  let b := wordAt w 11
  let c := wordAt w 12
  let d := wordAt w 13
  { g := field a 63 48, c := field a 47 32, ih := field a 31 16, iw := field a 15 0
    padB := field b 63 56, padT := field b 55 48, padR := field b 47 40, padL := field b 39 32
    dh := field b 31 28, dw := field b 27 24, sh := field b 23 20, sw := field b 19 16
    kh := field b 15 8, kw := field b 7 0
    rowPitch := field c 50 32, pixPitch := field c 18 0, groupIdx := field d 47 32, start := field d 31 0 }

/-- The product that a descriptor describes (Table 3.6), for a SHAPE other than GROUPED. Bits that the table lists neither as a field nor as
reserved count as reserved (DESIGN CHOICE, log entry 103). -/
def gemmOf (w : List Word) : Gemm :=
  let w0 := wordAt w 0
  let shape := field w0 63 60
  let conv := shape == 4
  { sub := if shape = 4 then field w0 59 56 else shape
    sfmt := field w0 55 52, xfmt := field w0 51 48, ssch := field w0 47 46, xsch := field w0 45 44
    ofmt := field w0 43 40, acc := bit w0 39, comp := bit w0 38, extacc := bit w0 37, outVb := bit w0 36
    accBase := field w0 35 28
    m := field (wordAt w 1) 63 52, n := field (wordAt w 1) 51 36, k := field (wordAt w 1) 16 0
    statAddr := field (wordAt w 2) 16 0, statScale := field (wordAt w 2) 48 32
    strmAddr := field (wordAt w 3) 18 0, strmPitch := field (wordAt w 3) 50 32
    strmScale := field (wordAt w 4) 18 0, strmSpitch := field (wordAt w 4) 50 32
    statTs := BitVec.ofNat 32 (field (wordAt w 5) 63 32), strmTs := BitVec.ofNat 32 (field (wordAt w 5) 31 0)
    outAddr := field (wordAt w 6) 47 0, outPitch := field (wordAt w 7) 31 0, extBase := field (wordAt w 8) 47 0
    conv := if conv then some (convOf w) else none
    reserved :=
      !(zeroBits w0 27 0 && (conv || zeroBits w0 59 56) && zeroBits (wordAt w 1) 35 17 &&
        zeroBits (wordAt w 2) 63 49 && zeroBits (wordAt w 2) 31 17 &&
        zeroBits (wordAt w 3) 63 51 && zeroBits (wordAt w 3) 31 19 && zeroBits (wordAt w 4) 63 51 && zeroBits (wordAt w 4) 31 19 &&
        zeroBits (wordAt w 6) 63 48 && zeroBits (wordAt w 7) 63 32 && zeroBits (wordAt w 8) 63 48 && zeroBits (wordAt w 9) 63 0 &&
        (if conv then zeroBits (wordAt w 3) 50 32 && wordAt w 4 == 0 && zeroBits (wordAt w 12) 63 51 &&
            zeroBits (wordAt w 12) 31 19 && zeroBits (wordAt w 13) 63 48
         else wordAt w 10 == 0 && wordAt w 11 == 0 && wordAt w 12 == 0 && wordAt w 13 == 0) &&
        wordAt w 14 == 0 && wordAt w 15 == 0) }

/-- The product that a group entry describes (Table 9.7), with the descriptor's SUBSHAPE. Bits that the table lists neither as a field nor
as reserved count as reserved (DESIGN CHOICE, log entry 103). -/
def gemmOfEntry (sub : Nat) (w : List Word) : Gemm :=
  let w0 := wordAt w 0
  { sub := sub
    m := field w0 63 48, n := field w0 47 32, k := field (wordAt w 1) 16 0
    sfmt := field w0 31 28, xfmt := field w0 27 24, ssch := field w0 23 22, xsch := field w0 21 20, ofmt := field w0 19 16
    acc := bit w0 15, comp := bit w0 14, extacc := bit w0 13, outVb := bit w0 12, accBase := field w0 11 4
    statScale := field (wordAt w 1) 46 30, statAddr := field (wordAt w 6) 16 0
    strmAddr := field (wordAt w 2) 18 0, strmPitch := field (wordAt w 2) 50 32
    strmScale := field (wordAt w 3) 18 0, strmSpitch := field (wordAt w 3) 50 32
    statTs := BitVec.ofNat 32 (field (wordAt w 4) 63 32), strmTs := BitVec.ofNat 32 (field (wordAt w 4) 31 0)
    outAddr := field (wordAt w 5) 47 0, outPitch := field (wordAt w 6) 63 32, extBase := field (wordAt w 7) 47 0
    conv := none
    reserved := !(zeroBits w0 3 0 && zeroBits (wordAt w 1) 63 47 && zeroBits (wordAt w 1) 29 17 &&
      zeroBits (wordAt w 2) 63 51 && zeroBits (wordAt w 2) 31 19 && zeroBits (wordAt w 3) 63 51 && zeroBits (wordAt w 3) 31 19 &&
      zeroBits (wordAt w 6) 31 17 && zeroBits (wordAt w 7) 63 48) }

/-- K_t, N_t and L of a geometry for stationary elements of a width (Tables 3.1, 3.4). -/
def geometry (sub : Nat) (f : Fmt) : Nat × Nat × Nat :=
  let full := match f.width with
    | 16 => (128, 128)
    | 4 => (256, 256)
    | _ => (128, 256)
  match sub with
  | 0 => (full.1, full.2, 128)
  | 1 => (full.1, full.2 / 2, 64)
  | _ => (full.1 / 2, full.2, 64)

/-- Bytes of one stream row of K elements; a scaled row holds whole blocks (R33). -/
def streamRowBytes (f : Fmt) (s : Scheme) (k : Nat) : Nat := elemBytes f.width (roundUp k (blockSize s))

/-- OW of R68. -/
def Conv.ow (c : Conv) : Int := ((c.iw + c.padL + c.padR : Nat) - (c.dw * (c.kw - 1) : Nat) - 1 : Int).fdiv c.sw + 1
/-- OH of R68. -/
def Conv.oh (c : Conv) : Int := ((c.ih + c.padT + c.padB : Nat) - (c.dh * (c.kh - 1) : Nat) - 1 : Int).fdiv c.sh + 1

/-- The conditions of R70, and R73's on the pitches of a convolution. R70 does not say what OW and OH below zero make of a descriptor: the model
counts it malformed (DESIGN CHOICE, log entry 102). -/
def Conv.ok (c : Conv) (g : Gemm) (xw : Nat) : Bool :=
  c.c % 32 == 0 && g.xsch == 0 && g.k == c.kh * c.kw * c.c && decide (c.groupIdx < c.g) &&
    decide (1 ≤ c.sw) && decide (1 ≤ c.sh) && decide (1 ≤ c.dw) && decide (1 ≤ c.dh) &&
    decide (0 ≤ c.ow) && decide (0 ≤ c.oh) && decide (((c.start + g.m : Nat) : Int) ≤ c.oh * c.ow) &&
    decide (c.g * c.c * xw ≤ 8 * c.pixPitch) && decide (c.iw * c.pixPitch ≤ c.rowPitch)

/-- The checks of R73 on one product: false when it is malformed. -/
def Gemm.ok (g : Gemm) : Bool :=
  match fmtOfCode g.sfmt, fmtOfCode g.xfmt, schemeOfCode g.ssch, schemeOfCode g.xsch with
  | some sf, some xf, some ss, some xs =>
    let geo := geometry g.sub sf
    let wide := sf.width == 16
    !g.reserved && decide (g.sub ≤ 2) && sf != .fp32 && xf != .fp32 &&
      [0, 1, 2, 3, 4, 8, 0xE, 0xF].contains g.ofmt && (g.ofmt != 0xE || wide) &&
      (if wide then xf.width == 16 else decide (xf.width ≤ 8)) &&
      !(ss != .none && sf.width == 16) && !(xs != .none && xf.width == 16) &&
      !(ss == .microscaling && sf == .int4) && !(xs == .microscaling && xf == .int4) &&
      decide (g.m ≤ 2048) && decide (1 ≤ g.n) && decide (1 ≤ g.k) && decide (g.k ≤ 65536) &&
      (!g.acc || decide (g.n ≤ geo.2.1)) && (decide (g.n ≤ geo.2.1) || g.ofmt != 0xF) && (!g.comp || wide) &&
      (g.extacc || decide (g.accBase + g.m ≤ 256)) &&
      g.statAddr % 128 == 0 && g.strmAddr % 128 == 0 && g.outAddr % 128 == 0 && g.outPitch % 128 == 0 &&
      g.strmPitch % 128 == 0 && g.extBase % 1024 == 0 && !(g.outVb && decide (g.outAddr ≥ 0x20000)) &&
      (match g.conv with
        | some c => c.ok g xf.width
        | none => decide (streamRowBytes xf xs g.k ≤ g.strmPitch))
  | _, _, _, _ => false

/-- A run of one product: the block so far, the events, and the trap that ended it. -/
structure Run where
  m    : Block
  ev   : Events
  trap : Option Trap

/-- Places in the stationary buffer of the elements and the scales of column `col` of tile `tile` (R54). -/
def Gemm.statPlaces (g : Gemm) (sf : Fmt) (ss : Scheme) (kt nt tile col : Nat) : Nat × Nat :=
  let sper := ceilDiv kt (blockSize ss)
  (g.statAddr + tile * (nt * kt * sf.width / 8) + col * kt * sf.width / 8, g.statScale + tile * (nt * sper) + col * sper)

/-- Whether the bytes that column `col` of a tile is read from, its first `n` elements, meet a parity error: elements beyond are zeros and
are not read (R55, R447). -/
def Block.statBad (m : Block) (core : Nat) (g : Gemm) (sf : Fmt) (ss : Scheme) (kt nt tile n col : Nat) : Bool :=
  let p := g.statPlaces sf ss kt nt tile col
  m.bufBad core .stationary p.1 (elemBytes sf.width n) || (ss != .none && m.bufBad core .stationary p.2 (ceilDiv n (blockSize ss)))

/-- Stationary values of column `col` of tile `tile`, its first `n` elements (R54, R55). -/
def Block.statColumn (m : Block) (core : Nat) (g : Gemm) (sf : Fmt) (ss : Scheme) (kt nt tile col n : Nat) :
    List (Val × Events) :=
  let p := g.statPlaces sf ss kt nt tile col
  decodeElems sf ss g.statTs (m.readBuf core .stationary p.1 (elemBytes sf.width n))
    (if ss = .none then [] else m.readBuf core .stationary p.2 (ceilDiv n (blockSize ss))) n

/-- Where element `k` of output position `p` of a convolution lies: byte offset from STRM_ADDR and bit in it; none where it is padding (R68,
R69). -/
def Conv.place (c : Conv) (xw p k : Nat) : Option (Nat × Nat) :=
  let ow := c.ow.toNat
  let ch := k % c.c
  let kw := k / c.c % c.kw
  let kh := k / c.c / c.kw
  let h : Int := (p / ow * c.sh + kh * c.dh : Nat) - (c.padT : Int)
  let w : Int := (p % ow * c.sw + kw * c.dw : Nat) - (c.padL : Int)
  if h < 0 ∨ h ≥ c.ih ∨ w < 0 ∨ w ≥ c.iw then none
  else
    let bits := (c.groupIdx * c.c + ch) * xw
    some (h.toNat * c.rowPitch + w.toNat * c.pixPitch + bits / 8, bits % 8)

/-- Whether the bytes that the stream elements [from, from + n) of row `row` are read from meet a parity error. Padding is not read. -/
def Block.streamBad (m : Block) (core : Nat) (g : Gemm) (xf : Fmt) (xs : Scheme) (row from_ n : Nat) : Bool :=
  !m.bufPoison.isEmpty &&
    (match g.conv with
    | none =>
      m.bufBad core .stream (g.strmAddr + row * g.strmPitch + elemBytes xf.width from_) (elemBytes xf.width n) ||
        (xs != .none && m.bufBad core .stream (g.strmScale + row * g.strmSpitch + from_ / blockSize xs) (ceilDiv n (blockSize xs)))
    | some c => (List.range n).any fun d =>
      match c.place xf.width (c.start + row) (from_ + d) with
      | none => false
      | some x => m.bufBad core .stream (g.strmAddr + x.1) (elemBytes (x.2 + xf.width) 1))

/-- The stream elements [from, from + n) of row `row` (R56), or of a convolution's output position (R68, R69). A slice starts at a whole
block and a whole byte. -/
def Block.streamSlice (m : Block) (core : Nat) (g : Gemm) (xf : Fmt) (xs : Scheme) (row from_ n : Nat) : List (Val × Events) :=
  match g.conv with
  | none =>
    decodeElems xf xs g.strmTs
      (m.readBuf core .stream (g.strmAddr + row * g.strmPitch + elemBytes xf.width from_) (elemBytes xf.width n))
      (if xs = .none then [] else
        m.readBuf core .stream (g.strmScale + row * g.strmSpitch + from_ / blockSize xs) (ceilDiv n (blockSize xs))) n
  | some c =>
    (List.range n).map fun d =>
      match c.place xf.width (c.start + row) (from_ + d) with
      | none => (.zero, {})
      | some x => (xf.decode (leNat (m.readBuf core .stream (g.strmAddr + x.1) (elemBytes (x.2 + xf.width) 1)) >>> x.2), {})

/-- Where accumulator row `a` of a product lies (R58): the buffer, or core memory with the extended rows. -/
def accLoc (g : Gemm) (a col : Nat) : Loc :=
  if a < 256 then ⟨.accumulator, a * 1024 + 4 * col⟩ else ⟨.core, g.extBase + (a - 256) * 1024 + 4 * col⟩

/-- Reads `n` FP32 values of an accumulator row. -/
def Block.readAcc (m : Block) (core : Nat) (g : Gemm) (a col n : Nat) : Except Trap (List F32) := do
  let bs ← m.readLoc core (accLoc g a col) (4 * n)
  return (unpack 32 n bs).map fun c => BitVec.ofNat 32 c

/-- Writes FP32 values of an accumulator row. -/
def Block.writeAcc (m : Block) (core : Nat) (g : Gemm) (a col : Nat) (vs : List F32) : Except Trap Block := do
  let bs := f32Bytes vs
  match accLoc g a col with
  | ⟨.core, off⟩ => do
    m.canWrite core ⟨.core, off⟩ bs.length
    return m.writeLoc core ⟨.core, off⟩ bs
  | l => return m.writeLoc core l bs

/-- One column sum of one load added to the accumulator's value, exactly, with one rounding (R42). -/
def columnSum (stat strm : List (Val × Events)) (acc : F32) : F32 × Events :=
  let prods := (stat.zip strm).map fun p => p.1.1.mul p.2.1
  let sum := (Val.sum prods).add acc.val
  let r := sum.toF32
  let ops := stat.map (·.1) ++ strm.map (·.1)
  (r, { nanIn := ops.any Val.isNan
        nanMade := r.val.isNan && !ops.any Val.isNan && !acc.val.isNan
        infMade := r.val.isInf && ops.all Val.isFin && acc.val.isFin })

/-- One stream row past one stationary tile (R56, R60); its cycle is counted (R75). -/
def Block.streamRow (m : Block) (core : Nat) (g : Gemm) (cols : List (List (Val × Events))) (strm : List (Val × Events))
    (first : Bool) (row : Nat) : Except Trap (Block × Events) := do
  let col := if g.comp then 128 else 0
  let a := g.accBase + row
  let m := (m.addFld (Reg.coreArrStrmcyc core) 63 0 1).sense core (accLoc g a col) (4 * cols.length)
  let old ← if first && !g.acc then .ok (cols.map fun _ => f32Zero false) else m.readAcc core g a col cols.length
  let rs := (cols.zip old).map fun co => columnSum co.1 strm co.2
  let m1 ← m.writeAcc core g a col (rs.map (·.1))
  return (m1, (joinEvents (rs.map (·.2))).join (joinEvents (strm.map (·.2))))

/-- Folds rows or tiles while nothing traps. -/
def foldRun {α : Type} (l : List α) (f : Block → α → Except Trap (Block × Events)) (r : Run) : Run :=
  l.foldl (fun r a =>
    match r.trap with
    | some _ => r
    | none =>
      match f r.m a with
      | .ok (m, e) => { r with m := m, ev := r.ev.join e }
      | .error t => { r with trap := some t }) r

/-- One stationary load, whose L cycles are counted (R75), and the rows that stream past it: N tile `j`, K tile `i` (R53 to R56). -/
def Block.runTile (core : Nat) (g : Gemm) (sf xf : Fmt) (ss xs : Scheme) (kt nt kTiles j i : Nat) (r : Run) : Run :=
  let tile := j * kTiles + i
  let kn := min kt (g.k - i * kt)
  let nn := min nt (g.n - j * nt)
  if r.trap.isSome then r
  else
    match (List.range nn).find? (r.m.statBad core g sf ss kt nt tile kn) with
    | some col => { r with trap := some (.poison (g.statPlaces sf ss kt nt tile col).1 (elemBytes sf.width kn)) }
    | none =>
      let cols := (List.range nt).map fun c =>
        if c < nn then r.m.statColumn core g sf ss kt nt tile c kn else List.replicate kn (.zero, {})
      let ev := joinEvents (cols.map fun c => joinEvents (c.map (·.2)))
      let m1 := r.m.addFld (Reg.coreArrLoadcyc core) 63 0 (geometry g.sub sf).2.2
      foldRun (List.range g.m) (fun m row =>
        if m.streamBad core g xf xs row (i * kt) kn then .error (.poison (g.strmAddr + row * g.strmPitch) (elemBytes xf.width kn))
        else m.streamRow core g cols (m.streamSlice core g xf xs row (i * kt) kn) (i == 0) row) { r with m := m1, ev := r.ev.join ev }

/-- Where a product's output byte `off` lies. -/
def outLoc (g : Gemm) (off : Nat) : Loc := if g.outVb then ⟨.vector, off⟩ else ⟨.core, off⟩

/-- The output writes of one row of N tile `j` as an FP32 pair (OFMT 0xE). -/
def Block.outputPair (m : Block) (core : Nat) (g : Gemm) (j nn row : Nat) : Except Trap (List (Write × Events)) := do
  let main ← m.readAcc core g (g.accBase + row) 0 nn
  let comp ← m.readAcc core g (g.accBase + row) 128 nn
  let blk := g.outAddr + row * g.outPitch + j * 1024
  return [(⟨outLoc g blk, f32Bytes main⟩, {}), (⟨outLoc g (blk + 512), f32Bytes comp⟩, {})]

/-- The output write of one row of N tile `j` in an element format. -/
def Block.outputRow (m : Block) (core : Nat) (g : Gemm) (f : Fmt) (nt j nn row : Nat) :
    Except Trap (List (Write × Events)) := do
  let vs ← m.readAcc core g (g.accBase + row) (if g.comp then 128 else 0) nn
  let e := encodeRow f .none 0 (vs.map F32.val)
  return [(⟨outLoc g (g.outAddr + row * g.outPitch + j * nt * (f.width / 8)), pack f.width e.1⟩, e.2.2)]

/-- The output stage comes to read the rows of one N tile: errors under extended rows are found. -/
def Block.senseAcc (core : Nat) (g : Gemm) (nn : Nat) (m : Block) : Block :=
  (List.range g.m).foldl (fun m row =>
    (m.sense core (accLoc g (g.accBase + row) 0) (4 * nn)).sense core (accLoc g (g.accBase + row) 128) (4 * nn)) m

/-- The output writes of one N tile (R61), converted under R35 and R36, with the events. -/
def Block.outputTile (core : Nat) (g : Gemm) (nt j : Nat) (r : Run) : Run × List (Write × Events) :=
  let nn := min nt (g.n - j * nt)
  if r.trap.isSome ∨ g.ofmt = 0xF then (r, [])
  else
    let m := if g.extacc then Block.senseAcc core g nn r.m else r.m
    let rows := (List.range g.m).mapM fun row =>
      if g.ofmt = 0xE then m.outputPair core g j nn row
      else m.outputRow core g ((fmtOfCode g.ofmt).getD .fp32) nt j nn row
    match rows with
    | .ok l => ({ r with m := m }, l.flatten)
    | .error t => ({ r with m := m, trap := some t }, [])

/-- Runs one product: N tiles in ascending order, their K tiles in ascending order, and the outputs (R56, R61). -/
def Block.runGemm (core : Nat) (g : Gemm) (r : Run) : Run × List (Write × Events) :=
  match fmtOfCode g.sfmt, fmtOfCode g.xfmt, schemeOfCode g.ssch, schemeOfCode g.xsch with
  | some sf, some xf, some ss, some xs =>
    let geo := geometry g.sub sf
    let kTiles := ceilDiv g.k geo.1
    (List.range (if g.m = 0 then 0 else ceilDiv g.n geo.2.1)).foldl
      (fun acc j =>
        let r1 := (List.range kTiles).foldl (fun r i => Block.runTile core g sf xf ss xs geo.1 geo.2.1 kTiles j i r) acc.1
        let o := Block.outputTile core g geo.2.1 j r1
        (o.1, acc.2 ++ o.2))
      (r, [])
  | _, _, _, _ => (r, [])

/-- A malformed descriptor or entry (R73): the core stops, HALTED is set, and the command completes with the descriptor-error status. Other
cores run on. -/
def Block.badDescriptor (m : Block) (n : Nat) : Block := (m.setFld (Reg.coreArrCtl n) 1 1 1).descriptorStop n

/-- The writes of outputs, each with the events of its conversion; the first one outside the window traps (R74). -/
def Block.putOuts (core : Nat) (outs : List (Write × Events)) (r : Run) : Run :=
  foldRun outs (fun m o => do
    m.canWrite core o.1.loc o.1.bytes.length
    return (m.writeLoc core o.1.loc o.1.bytes, o.2)) r

/-- What the array has done with an instruction: the run so far, the outputs that its completion writes, and whether an entry or the
descriptor was malformed. -/
structure Done where
  run  : Run
  outs : List (Write × Events)
  bad  : Bool

/-- The group walker (R65 to R67): entries in table order. An entry is fetched during the work of the one before it, whose outputs are
then written; a malformed one ends the walk. -/
def walkGroup (core sub addr : Nat) : Nat → Nat → Run → List (Write × Events) → Done
  | 0, _, r, outs => ⟨r, outs, false⟩
  | left + 1, e, r, outs =>
    let m := r.m.sense core ⟨.core, addr + 64 * e⟩ 64
    let r1 := Block.putOuts core outs { r with m := m }
    match m.readLoc core ⟨.core, addr + 64 * e⟩ 64 with
    | .error t => ⟨{ r1 with trap := r1.trap.or (some t) }, [], false⟩
    | .ok bs =>
      let g := gemmOfEntry sub (leWords 8 bs)
      if r1.trap.isSome then ⟨r1, [], false⟩
      else if g.m = 0 then walkGroup core sub addr left (e + 1) r1 []
      else if !g.ok then ⟨r1, [], true⟩
      else
        let o := Block.runGemm core g r1
        if o.1.trap.isSome then ⟨o.1, [], false⟩ else walkGroup core sub addr left (e + 1) o.1 o.2

/-- The checks of R73 that reach a GROUPED descriptor: every other field is reserved. -/
def groupedOk (w : List Word) : Bool :=
  decide (field (wordAt w 0) 59 56 ≤ 2) && zeroBits (wordAt w 0) 55 0 &&
    ((List.range 8).all fun i => wordAt w (i + 1) == 0) && field (wordAt w 9) 47 0 % 128 == 0 &&
    ((List.range 6).all fun i => wordAt w (i + 10) == 0)

/-- Whether a descriptor's own fields make it malformed (R73). Its address must be a multiple of 128 (R72), which R73 does not list: the model
counts a misaligned one as malformed (DESIGN CHOICE, log entry 101). -/
def descriptorOk (op : MatOp) : Bool :=
  let shape := field (wordAt op.words 0) 63 60
  op.aligned && decide (shape ≤ 4) && (if shape = 3 then groupedOk op.words else (gemmOf op.words).ok)

/-- What the array does with an instruction it takes (R56 to R67). -/
def arrayRun (core : Nat) (op : MatOp) (m : Block) : Done :=
  let w := op.words
  if !descriptorOk op then ⟨⟨m, {}, none⟩, [], true⟩
  else if field (wordAt w 0) 63 60 = 3 then
    walkGroup core (field (wordAt w 0) 59 56) (field (wordAt w 9) 47 0) (field (wordAt w 9) 63 48) 0 ⟨m, {}, none⟩ []
  else
    let o := Block.runGemm core (gemmOf w) ⟨m, {}, none⟩
    ⟨o.1, if o.1.trap.isSome then [] else o.2, false⟩

/-- Applies a core's pending signals whose earlier stores and output writes have reached home (R93). -/
def Block.flushSignals (m : Block) (n : Nat) : Block :=
  let c := m.core n
  let ready (s : PendingSignal) : Bool := c.freeSignal s && !(c.stores.any fun x => decide (x.stamp < s.stamp)) && !m.windowWaits n
  if !c.signals.any ready then m
  else
    let m1 := (c.signals.filter ready).foldl (fun m s => m.coreSignal n s.hitch s.inc.toNat) m
    m1.modCore n fun c => { c with signals := c.signals.filter fun s => !ready s }

/-- The matrix instruction at the front of the queue is done with. -/
def Block.popMat (m : Block) (n : Nat) : Block :=
  m.modCore n fun c => { c with matQ := c.matQ.drop 1, signals := c.signals.map fun s => { s with mats := s.mats - 1 } }

/-- The array takes the instruction at the front of the queue when it runs none: the operands are read and the accumulators written now, the
outputs stand with the instruction until it completes. A malformed descriptor or entry ends it at once (R67, R73), and the array takes the
next. -/
def Block.matStart (n : Nat) : Nat → Block → Block
  | 0, m => m
  | fuel + 1, m =>
    match (m.core n).matQ with
    | [] => m
    | op :: rest =>
      if op.started then m
      else
        let d := arrayRun n op m
        let m1 := d.run.m.noteEvents n d.run.ev
        match d.run.trap with
        | some t => m1.trap n t
        | none =>
          if d.bad then Block.matStart n fuel (((m1.popMat n).badDescriptor n).flushSignals n)
          else m1.modCore n fun c =>
            { c with matQ := { op with started := true, outs := d.outs.map (·.1), events := Events.bits (joinEvents (d.outs.map (·.2))) } :: rest }

/-- MATMUL (R72, R80, R81): the sequencer reads the descriptor once and puts the instruction in the array's queue, which holds four beside the
one in the array (Table 4.2); a full queue stalls issue (R82). -/
def matmulEffect (i : Issue) (desc : Nat) (m : Block) : Block :=
  if (m.core i.core).matQ.length ≥ 5 then m
  else m.issue i fun m =>
    let m := m.sense i.core ⟨.core, desc⟩ 128
    match m.readLoc i.core ⟨.core, desc⟩ 128 with
    | .error t => m.trap i.core t
    | .ok bs =>
      Block.matStart i.core 5
        (m.modCore i.core fun c => { c with matQ := c.matQ ++ [{ words := leWords 16 bs, aligned := desc % 128 == 0 }] })

/-- MATMUL_COMPLETE (R57 step 5, R61): the outputs of the instruction in the array are written; one outside the window curbs the
core (R74). The array takes the next instruction. -/
def matmulCompleteEffect (core : Nat) (m : Block) : Block :=
  match (m.core core).matQ with
  | [] => m
  | op :: _ =>
    if !op.started then Block.matStart core 5 m
    else
      let r := Block.putOuts core (op.outs.map fun o => (o, ({} : Events))) ⟨m.popMat core, {}, none⟩
      let m2 := r.m.setReg (Reg.coreNumstat core) (r.m.reg (Reg.coreNumstat core) ||| BitVec.ofNat 64 op.events)
      match r.trap with
      | some t => m2.trap core t
      | none => (Block.matStart core 5 (m2.flushSignals core)).restCore core

/-- MATMUL. -/
def execMatmul (i : Issue) (desc : Nat) (s : State) : Host.Outcome State Fault Refusal := s.commit (matmulEffect i desc s.m)
/-- MATMUL_COMPLETE. -/
def execMatmulComplete (core : Nat) (s : State) : Host.Outcome State Fault Refusal := s.commit (matmulCompleteEffect core s.m)

end Sys2Proof.Machine
end

