-- ==== Sys2Proof/Machine/RegRead.lean ====
section
/-! DEFINITION. Reading registers: who may read each block (R5, R8, R510 and the chapters' access rules), and the registers whose
value the state computes. -/
namespace Sys2Proof.Machine

/-- Whether the unit behind a register window's instance is absent (R8), by the presence values of Table 0.8. -/
def Block.absent (m : Block) (off : Nat) : Bool :=
  let w := off / 0x100000
  let i := off % 0x100000 / 0x1000
  match w with
  | 8 => decide (i ≥ m.tileCount)
  | 9 => decide (i ≥ m.tileCount)
  | 10 => decide (i ≥ m.stackCount)
  | 11 => if off ≥ 0xB10000 then !m.tuning else !m.tuning || decide (i ≥ m.tileCount)
  | 12 => decide (i ≥ m.tileCount)
  | 13 => decide (i ≥ m.tileCount)
  | 14 => decide (i ≥ m.tileCount)
  | 16 => decide (i ≥ m.coreCount)
  | 17 => !m.tuning || decide (i ≥ m.stackCount)
  | 18 => !m.tuning
  | 21 =>
    let o := off % 0x100000
    if 0x1000 ≤ o ∧ o < 0x8000 then decide ((o - 0x1000) / 0x40 ≥ m.portCount)
    else if 0x10000 ≤ o then decide ((o - 0x10000) / 0x40 ≥ m.tileCount)
    else false
  | 24 =>
    let o := off % 0x100000
    0x100 ≤ o && decide (o < 0x200) && decide ((o - 0x100) / 8 ≥ m.tileCount)
  | _ => false

/-- The tenant in whose name a requester acts; firmware and peer firmware act for the system. -/
def Block.requesterTenant (m : Block) (r : Requester) : Nat :=
  match r with
  | .host _ t => t
  | .core n => m.coreTenant n
  | _ => 0

/-- Firmware of this module. -/
def isFw : Requester → Bool
  | .firmware => true
  | _ => false

/-- Host software of tenant 0. -/
def isSysHost : Requester → Bool
  | .host _ t => t == 0
  | _ => false

/-- Host software of any tenant, or a core of the tenant. -/
def Block.ofTenant (m : Block) (r : Requester) (t : Nat) : Bool :=
  match r with
  | .host _ x => x == t
  | .core n => m.coreTenant n == t
  | _ => false

/-- The tenant that owns a resource whose OWNER register is given, when it has an owner. -/
def Block.ownerTenant (m : Block) (owner : Nat) : Option Nat :=
  if m.fld owner 63 63 = 1 then some (m.fld owner 12 8) else none

/-- Whether a requester's tenant owns the resource behind an OWNER register. -/
def Block.owns (m : Block) (r : Requester) (owner : Nat) : Bool :=
  match m.ownerTenant owner with
  | some t => m.ofTenant r t
  | none => false

/-- Whether a requester is a core of the context that owns the resource behind an OWNER register. -/
def Block.ownsAsCore (m : Block) (r : Requester) (owner : Nat) : Bool :=
  match r with
  | .core n => m.fld owner 63 63 == 1 && m.fld owner 12 8 == m.coreTenant n && m.fld owner 7 0 == m.coreCtx n
  | _ => false

/-- Whether a master of a task's tenant may read the task's core registers (R49): the core itself and host software of the
tenant of the task dispatched. -/
def Block.coreReader (m : Block) (r : Requester) (n : Nat) : Bool :=
  match r with
  | .core k => k == n
  | .host _ t => t == 0 || (m.fld (Reg.coreTaskId n) 63 63 == 1 && t == m.coreTenant n)
  | _ => false

/-- Whether a requester may read the register at an offset (R510). Peer firmware reaches the FAB_ block alone (R362). Readers that no chapter
names are taken as (DEDUCED, log entry 20): TILE_ and CORE_ blocks, host software of tenant 0 and the task's own side; ring registers, the
owner; CMD_SYS_SQ, CMD_SYS_CQ and CMD_SYS_CFG, host software of tenant 0; CMD_MB_CTL_k, host software of the tenant that owns the mailbox. -/
def Block.mayRead (m : Block) (r : Requester) (off : Nat) : Bool :=
  if isFw r then true
  else if r == .peer then off / 0x100000 == 21
  else
    let o := off % 0x100000
    let i := o / 0x1000
    match off / 0x100000 with
    | 0 => true
    | 1 => off == Reg.aonTime || isSysHost r
    | 2 => isSysHost r
    | 8 => isSysHost r || (match r with
        | .core n => n / 8 == i
        | .host _ t => (List.range 8).any fun c => m.fld (Reg.coreTaskId (8 * i + c)) 63 63 == 1 && m.coreTenant (8 * i + c) == t
        | _ => false)
    | 9 => isSysHost r
    | 10 => isSysHost r
    | 11 => if off ≥ 0xB10000 then true else m.ofTenant r 0
    | 12 => isSysHost r || m.owns r (Reg.cmpRingOwner i ((o % 0x1000 - 0x100) / 32))
    | 13 =>
      let n := 8 * i + o % 0x1000 / 0x40
      isSysHost r || (m.fld (Reg.coreTaskId n) 63 63 == 1 && m.ofTenant r (m.coreTenant n))
    | 14 =>
      let p := o % 0x1000
      if p < 0x100 then isSysHost r
      else if p < 0x200 then isSysHost r || m.owns r (Reg.drvRingOwner i ((p - 0x100) / 32))
      else isSysHost r || m.owns r (Reg.drvRingOwner i ((p - 0x200) / 32))
    | 15 => isSysHost r
    | 16 => m.coreReader r i
    | 17 =>
      let p := o % 0x1000
      if p < 0x100 then p != 0 && (List.range 4).any fun k => m.owns r (Reg.grmRingOwner i k)
      else m.owns r (Reg.grmRingOwner i ((p - 0x100) / 32))
    | 18 =>
      if o < 0x1000 then off == Reg.pcrQueryOut
      else
        let owner := Reg.pcrGOwner ((o - 0x1000) / 64)
        isSysHost r || (m.fld owner 63 63 == 1 && m.ofTenant r (m.fld owner 4 0))
    | 19 =>
      if off = Reg.cmdCounts then true
      else if o < 0x18 then isSysHost r
      else if o < 0x1000 then m.ofTenant r 0
      else
        let k := (o - 0x1000) / 8
        m.fld (Reg.cmdMbCtl k) 63 63 == 1 && (match r with
          | .host _ t => t == m.fld (Reg.cmdMbCtl k) 60 56
          | _ => false)
    | 20 => true
    | 21 => isSysHost r
    | 22 => isSysHost r
    | 23 => isSysHost r
    | 24 => isSysHost r
    | 25 => off == Reg.secStatus || off == Reg.secKemId || decide (off ≥ Reg.secMeas 0 0) || isSysHost r
    | _ => false

/-- Charge of an accepted PACED command that remains at a tick (R324). -/
def Pace.remaining (p : Pace) (slot now : Nat) : Nat :=
  match p.lead with
  | none => p.slots
  | some l => if now < l then p.slots else max 1 (p.slots - (now - l) / max slot 1)

/-- N_ahead now: the remaining charges of the accepted, uncompleted PACED commands (R324). -/
def Block.ahead (m : Block) : Nat :=
  total (m.cmd.cmds.filterMap fun c => c.pace.map fun p => Pace.remaining p (m.fld Reg.paceSlot 31 0) m.time)

/-- The doorbell word of a queue (Table 12.2). -/
def Queue.word (q : Queue) : Word := BitVec.ofNat 64 (q.cqHead * 2 ^ 48 + q.cqTail * 2 ^ 32 + q.sqHead * 2 ^ 16 + q.sqTail)

/-- The queue a doorbell offset names (R291). -/
def doorbellQueue (off : Nat) : QueueId :=
  let o := off - 0x2000000
  ⟨o / 0x8000, o % 0x8000 / 8 / 16, o % 0x8000 / 8 % 16⟩

/-- A tile's core clock now, in MHz: a brake divides it by 3 (Table 18.6). -/
def TileState.clock (t : TileState) : Nat := if t.braked then t.mhz / 3 else t.mhz

/-- The lowest core clock over the present tiles, in MHz; without the reference every fast clock is gated (R424). -/
def Block.coreMhz (m : Block) : Nat :=
  if !m.pwr.refclk then 0 else ((List.range m.tileCount).map fun t => (m.tile t).clock).foldl min 3000

/-- FW_CTRL: the states of the physical control cores (Table 16.6). -/
def Block.ctrlWord (m : Block) : Nat := total (m.fw.ctrlState.zipIdx.map fun e => e.1 * 2 ^ (2 * e.2))

/-- The number of blown SVN fuses (R488). -/
def Block.minSvn (m : Block) : Nat := m.fuse.svnFuses

/-- The current value of a register, before who reads it is considered. -/
def Block.regValue (m : Block) (off : Nat) : Word :=
  match off / 0x100000 with
  | 1 => if off = Reg.aonTime then BitVec.ofNat 64 m.time else m.reg off
  | 14 =>
    if off % 0x1000 = 8 then
      let t := off % 0x100000 / 0x1000
      BitVec.ofNat 64 ((Tbl.getD [] m.eng.armed t).length * 2 ^ 32 + (Tbl.getD [] m.eng.heldClaims t).length)
    else m.reg off
  | 15 =>
    if off = Reg.sadState then
      BitVec.ofNat 64 ((m.page.saddles.filter fun s => s.slot.isSome).length * 2 ^ 32 +
        (m.page.saddles.filter fun s => s.slot.isSome && m.cmd.cmds.any fun c => c.binds.contains (s.handle, s.uid)).length * 2 ^ 16 +
        (m.cmd.cmds.filter fun c => c.heldAt.isSome).length)
    else m.reg off
  | 19 =>
    if off = Reg.cmdCounts then
      BitVec.ofNat 64 ((m.cmd.contexts.filter (·.exists_)).length * 2 ^ 32 + (m.cmd.tenants.filter (·.exists_)).length)
    else if off = Reg.cmdScrubPending then BitVec.ofNat 64 (total (m.cmd.scrubs.map (·.size)))
    else m.reg off
  | 20 =>
    if off = Reg.paceAhead then
      BitVec.ofNat 64 ((m.cmd.cmds.filter fun c => c.pace.isSome).length * 2 ^ 32 + m.ahead)
    else m.reg off
  | 21 =>
    if 0x10000 ≤ off % 0x100000 ∧ off % 0x40 = 0 then
      let d := (off % 0x100000 - 0x10000) / 0x40
      BitVec.ofNat 64 ((m.eng.colls.filter fun c => c.die == d).length * 2 ^ 32 +
        (m.eng.collHeld.filter fun c => c.1 == d).length)
    else m.reg off
  | 23 =>
    if off = Reg.fwRun then putField (m.reg off) 33 32 m.fw.opt.tries
    else if off = Reg.fwCtrl then BitVec.ofNat 64 m.ctrlWord
    else if off = Reg.fwSvn then BitVec.ofNat 64 m.minSvn
    else m.reg off
  | 24 =>
    if off = Reg.pwrState then
      putField (putField (putField (m.reg off) 63 62 m.pwr.pstate) 61 61 (if m.pwr.emergOpen then 1 else 0)) 15 0 m.coreMhz
    else m.reg off
  | 25 =>
    if off = Reg.secStatus then
      putField (putBit (putBit (putField (m.reg off) 63 62 m.pwr.selfTest) 61 (m.pwr.selfTest != 0 && m.fuse.debugLock)) 59 m.sec.mgmtKey.isSome)
        5 0 m.sec.events.length
    else if off ≥ Reg.secMeas 0 0 then
      BitVec.ofNat 64 (leAt (m.sec.meas.getD ((off - Reg.secMeas 0 0) / 0x40) []) ((off - Reg.secMeas 0 0) % 0x40) 8)
    else m.reg off
  | _ => m.reg off

/-- PCR_QUERY_OUT as a requester reads it (R284): zero before any query, the true value for firmware, and denied to a tenant that does not
own the group queried, or when the writer did not. -/
def Block.queryOut (m : Block) (r : Requester) : Word :=
  let owner := Reg.pcrGOwner (m.fld Reg.pcrQueryIn 39 32)
  if !m.eng.pacerAsked then 0
  else if isFw r then m.reg Reg.pcrQueryOut
  else if !m.eng.pacerDenied && m.fld owner 63 63 == 1 && m.ofTenant r (m.fld owner 4 0) then m.reg Reg.pcrQueryOut
  else 0x8000000000000000

/-- The mailbox whose request or response buffer holds an offset (R313). -/
def mailboxAt (off : Nat) : Option Nat :=
  if 0x1320000 ≤ off ∧ off < 0x13A0000 then some ((off - 0x1320000) / 0x2000) else none

/-- Key of byte 0 of mailbox `k`'s request buffer in `Block.mbuf`; the response buffer stands 0x1000 above it. -/
def mailboxKey (k : Nat) : Nat := 0x2000 * k

/-- Whether a requester may access a mailbox's buffers: firmware and host software of the owning tenant (R313). -/
def Block.mailboxOpen (m : Block) (r : Requester) (k : Nat) : Bool :=
  isFw r || (m.fld (Reg.cmdMbCtl k) 63 63 == 1 && (match r with
    | .host _ t => t == m.fld (Reg.cmdMbCtl k) 60 56
    | _ => false))

/-- The curb of a core's register access that R510 keeps, as a kind of Table 19.3: a mailbox buffer (R313), or a write of
another tenant's doorbell page (R291). -/
def Block.regCurb (m : Block) (n off : Nat) (write : Bool) : Option Nat :=
  if (mailboxAt off).isSome then some 6
  else if write && off / 0x100000 == 32 && (doorbellQueue (off / 8 * 8)).tenant != m.coreTenant n then some 6
  else none

/-- A 64-bit register read at an aligned offset (R8, R13, R509, R510). The doorbell words have no named reader: the tenant of the page reads
them (DEDUCED, log entry 20). -/
def Block.readReg (m : Block) (r : Requester) (off : Nat) : Word :=
  match mailboxAt off with
  | some k => if m.mailboxOpen r k then BitVec.ofNat 64 (leNat (m.mbuf.readN (off - 0x1320000) 8)) else 0
  | none =>
  if off / 0x100000 = 32 then
    match m.queue? (doorbellQueue off) with
    | some q => if isFw r || m.ofTenant r q.id.tenant then Queue.word q else 0
    | none => 0
  else match regAt off with
    | none => 0
    | some row =>
      if m.absent off then 0
      else if !m.mayRead r off then 0
      else
        let v := if off = Reg.pcrQueryOut then m.queryOut r else m.regValue off
        v &&& BitVec.ofNat 64 (row.1.ro ||| row.1.rw ||| row.1.w1c)

/-- An aligned 32-bit read: offset + 4 reaches bits [63:32] (R11). -/
def Block.readHalf (m : Block) (r : Requester) (off : Nat) : Nat :=
  let v := (m.readReg r (off / 8 * 8)).toNat
  if off % 8 = 4 then v / 2 ^ 32 else v % 2 ^ 32

end Sys2Proof.Machine
end

