-- ==== Sys2Proof/Machine/Access.lean ====
section
/-! DEFINITION. A core's loads and stores of global and pool addresses through the tile line cache (R139 to R149), hitch
instructions (R90 to R95) and ordering instructions (R145 to R148). A load or store is one entry for each granule it
touches; the entries share the instruction's place in the tile's issue order (R135). -/
namespace Sys2Proof.Machine

/-- Where an access that passes its checks goes. -/
inductive Target where
  | here (a : Nat)
  | away (node a : Nat)
  | reg (off : Nat)
  deriving DecidableEq, Repr

/-- Whether the register range accepts an access (R11, R509): aligned, 4 or 8 bytes, in a mapped window. -/
def regAccessOk (off len : Nat) : Bool :=
  (len == 4 || len == 8) && decide (off % len = 0) && windowMapped (off / 0x100000)

/-- The checks of an access of core `n` to a global or pool place (R117, R119, R129 to R134, R305): its target, or the core
after the curb. -/
def Block.target (m : Block) (n : Nat) (l : Loc) (len : Nat) (write : Bool) : Except Block Target :=
  match l.space with
  | .pool =>
    match m.poolAddr? n l.off len with
    | some a => .ok (.here a)
    | none => .error (m.curbWindow n 1 l.off len)
  | .glob =>
    match m.remoteNode l.off with
    | some node =>
      match m.check (m.coreTenant n) (m.coreCtx n) l.off len write with
      | none => .ok (.away node (localPart l.off))
      | some k => .error (m.curbCore n k l.off len)
    | none =>
      match decide (l.off < 2 ^ 60), m.region (localPart l.off) with
      | true, .reg off => 
        if !regAccessOk off len then .error (m.curbCore n 4 l.off len)
        else match m.regCurb n off write with
          | some k => .error (m.curbCore n k l.off len)
          | none => .ok (.reg off)
      | _, _ =>
        match m.check (m.coreTenant n) (m.coreCtx n) l.off len write with
        | none => .ok (.here (localPart l.off))
        | some k => .error (m.curbCore n k l.off len)
  | _ => .error (m.faultStop n 5)

/- Loads -/

/-- Whether a line serves a load (R140, R147). -/
def Line.serves (x : Line) (node : Option Nat) (g tenant floor : Nat) : Bool :=
  x.node == node && x.addr == g && x.tenant == tenant && decide (floor ≤ x.stamp)

/-- The line of tile `t` that serves a load. -/
def Block.lineFor (m : Block) (t : Nat) (node : Option Nat) (g tenant floor : Nat) : Option Line :=
  (m.tile t).lines.find? fun x => x.serves node g tenant floor

/-- Whether an address lies in a core's own window, whose loads pass no line cache (R139). -/
def Block.ownWindow (m : Block) (n a : Nat) : Bool :=
  match m.region a with
  | .core k _ => k == n
  | _ => false

/-- Whether a core has an outstanding store, issued before a place in issue order, in the granule of an address. -/
def CoreState.storesBefore (c : CoreState) (node : Option Nat) (g stamp : Nat) : Bool :=
  c.stores.any fun x => decide (x.stamp < stamp) && x.addr / 128 == g && x.remote.map (·.1) == node

/-- Whether a coherent-point load of the core entered before `x` reads the same granule and is outstanding: loads of one granule by one core
read their home in the order of issue (R146, R153 tests 15 and 16). -/
def CoreState.loadsBefore (c : CoreState) (x : Load) : Bool :=
  !x.line && (c.loads.takeWhile (· != x)).any fun y => !y.line && y.node == x.node && y.addr / 128 == x.addr / 128

/-- Whether a load may not yet read its home: an earlier store of its core to the granule is under way (R146), or an earlier coherent-point
load of it. -/
def CoreState.readWaits (c : CoreState) (x : Load) : Bool := c.storesBefore x.node (x.addr / 128) x.stamp || c.loadsBefore x

/-- Whether a core of tile `t` has a store of a tenant to a granule under way: the bytes at its home are then older than a line must show that
tile (R141, R146). -/
def Block.tileStores (m : Block) (t tenant : Nat) (node : Option Nat) (g : Nat) : Bool :=
  (List.range 8).any fun k => m.coreTenant (8 * t + k) == tenant &&
    (m.core (8 * t + k)).stores.any fun x => x.addr / 128 == g && x.remote.map (·.1) == node

/-- Sends the read of a remote load, unless a line serves it or it may not yet read its home. -/
def Block.sendLoad (m : Block) (n : Nat) (x : Load) : Load × Block :=
  match x.node with
  | none => (x, m)
  | some node =>
    let g := x.addr / 128
    if (x.line && (m.lineFor (n / 8) x.node g (m.coreTenant n) x.floor).isSome) || (m.core n).readWaits x then (x, m)
    else
      let r := m.sendRead n (m.coreTenant n) (m.coreCtx n) node (128 * g) 128
      ({ x with tag := some r.1, keep := !m.tileStores (n / 8) (m.coreTenant n) x.node g }, r.2)

/-- Enters one granule of a load. -/
def Block.addLoad (m : Block) (n : Nat) (x : Load) : Block :=
  let r := m.sendLoad n x
  r.2.modCore n fun c => { c with loads := c.loads ++ [r.1] }

/-- The entries of a load issued at `stamp`. `coherent`: the load never uses the line cache (R139, R149); `pool`: its place is a
task-relative pool offset. -/
def Block.enterLoad (m : Block) (n stamp : Nat) (tg : Target) (bytes : Nat) (dst : Loc) (coherent pool : Bool) : Block :=
  let base : Load :=
    { node := none, addr := 0, bytes := bytes, dst := dst, stamp := stamp, floor := (m.tile (n / 8)).floor, line := false, tag := none, pool := pool }
  let part (oc : Nat × Nat) (node : Option Nat) (a : Nat) (line : Bool) : Load :=
    { base with node := node, addr := a + oc.1, bytes := oc.2, dst := ⟨dst.space, dst.off + oc.1⟩, line := line }
  match tg with
  | .reg off => m.addLoad n { base with addr := regBase + off }
  | .here a =>
    (pieces a bytes).foldl
      (fun m oc => m.addLoad n (part oc none a (!coherent && !m.tagged (a + oc.1) oc.2 && !m.ownWindow n a))) m
  | .away node a => (pieces a bytes).foldl (fun m oc => m.addLoad n (part oc (some node) a !coherent)) m

/-- The vector unit takes a load from its queue: the access is checked and its granules entered. At most 64 loads of a core are outstanding;
a further one waits in the queue (Table 4.8). -/
def loadRun (coherent : Bool) (core stamp : Nat) (src : Loc) (bytes : Nat) (dst : Loc) (m : Block) : Option Block :=
  if (m.core core).loadCount ≥ 64 then none
  else some (match m.canWrite core dst bytes with
    | .error t => m.trap core t
    | .ok _ =>
      match m.target core src bytes false with
      | .error m' => m'
      | .ok tg => m.enterLoad core stamp tg bytes dst coherent (src.space == .pool))

/-- Bytes of a granule with the bytes of a store laid over them. -/
def layStore (bs : List Byte) (x : Store) : List Byte :=
  bs.take (x.addr % 128) ++ x.bytes ++ bs.drop (x.addr % 128 + x.bytes.length)

/-- Installs a line, in the place of the line of the same granule and tenant. A set holds 16 lines, and a full one evicts a line that its
access history decides (R139, R140); which lines share a set, and the history, are left free (log entry 28). -/
def Block.installLine (m : Block) (t : Nat) (l : Line) : Block :=
  let old := (m.tile t).lines.filter fun x => !(x.node == l.node && x.addr == l.addr && x.tenant == l.tenant)
  if old.length < 16 then m.modTile t fun x => { x with lines := l :: old }
  else
    let d := m.draw
    d.2.modTile t fun x => { x with lines := l :: removeAt old (d.1.toNat % 16384) }

/-- What an outstanding load meets: nothing yet, or its bytes. -/
inductive Fetch where
  | wait (m : Block)
  | got (m : Block) (bytes : List Byte) (bad : Bool)

/-- A load that read its home, with the whole granule: the read is counted, and the granule installed (R140). It is not installed where the
load bypasses the line cache, where it is poisoned or another module's hitch memory, and where a store of the tile has passed it by, so that
a line never shows a tile less than its own stores (R146; DESIGN CHOICE, log entry 105). -/
def Block.fill (m : Block) (n : Nat) (x : Load) (whole : List Byte) (bad hitch : Bool) : Fetch :=
  let t := n / 8
  let g := x.addr / 128
  let m1 := if x.line && x.keep && !bad && !hitch && !m.tileStores t (m.coreTenant n) x.node g then m.installLine t ⟨x.node, g, m.coreTenant n, whole, x.stamp, false⟩ else m
  .got (m1.addFld (Reg.tileLcMisses t) 63 0 1) (slice whole (x.addr % 128) x.bytes) bad

/-- Serves an outstanding load that no line serves: from a register, from its local home (after every exclusive host copy has been
given up, R372), or from the remote read that carries it. -/
def Block.fetchHome (m : Block) (n : Nat) (x : Load) : Fetch :=
  let g := x.addr / 128
  match x.node with
  | none =>
    if regBase ≤ x.addr ∧ x.addr < regBase + 0x10000000 then
      let off := x.addr % 0x10000000
      .got m (if x.bytes = 8 then leBytes 8 (m.readReg (.core n) off).toNat else leBytes 4 (m.readHalf (.core n) off)) false
    else if (m.core n).readWaits x then .wait m
    else if m.heldExclusive (128 * g) 128 then .wait (m.snoopReads (128 * g) 128)
    else
      let m1 := m.correct (128 * g) 128
      m1.fill n x (m1.readMem (128 * g) 128) (m1.poisoned (128 * g) 128) false
  | some _ =>
    match x.tag with
    | none =>
      let r := m.sendLoad n x
      .wait (r.2.modCore n fun c => { c with loads := mapIf (· == x) (fun _ => r.1) c.loads })
    | some tag =>
      match m.fab.reads.find? fun r => r.tag == tag && r.data.isSome with
      | none => .wait m
      | some r =>
        let d := r.data.getD ([], false)
        ({ m with fab.reads := m.fab.reads.erase r }).fill n x (slice d.1 0 128) d.2 r.hitch

/-- A load finds a parity error in a line: the line goes, and the event is counted (R143). -/
def Block.dropBadLine (m : Block) (t : Nat) (l : Line) : Block :=
  (m.modTile t fun x => { x with lines := x.lines.filter (· != l) }).satFld (Reg.tileLcPerr t) 31 0 1

/-- Serves an outstanding load: from a line without a parity error, else from its home (R140, R143). -/
def Block.fetchLoad (m : Block) (n : Nat) (x : Load) : Fetch :=
  let t := n / 8
  let g := x.addr / 128
  match if x.line then m.lineFor t x.node g (m.coreTenant n) x.floor else none with
  | some l =>
    if l.bad then (m.dropBadLine t l).fetchHome n x
    else .got (m.addFld (Reg.tileLcHits t) 63 0 1) (slice l.bytes (x.addr % 128) x.bytes) false
  | none => m.fetchHome n x

/-- One granule of an outstanding load returns (R140, R147, R149). Poisoned data curbs the core (R447). -/
def loadReturn (core idx : Nat) (m : Block) : Block :=
  match (m.core core).loads[idx]? with
  | none => m
  | some x =>
    match m.fetchLoad core x with
    | .wait m1 => m1
    | .got m1 bs bad =>
      let m2 := m1.modCore core fun c => { c with loads := removeAt c.loads idx }
      if bad then m2.curbCore core 8 x.addr x.bytes
      else match m2.canWrite core x.dst bs.length with
        | .ok _ => m2.writeLoc core x.dst bs
        | .error t => m2.trap core t

/- Stores -/

/-- A store leaving the core: lines of its own tile that hold the granule for the same tenant take its bytes (R141). -/
def Block.updateLines (m : Block) (n : Nat) (x : Store) : Block :=
  let same (l : Line) : Bool := l.addr == x.addr / 128 && l.tenant == m.coreTenant n && l.node == x.remote.map (·.1)
  m.modTile (n / 8) fun t => { t with lines := mapIf same (fun l => { l with bytes := layStore l.bytes x }) t.lines }

/-- Whether a core may send `k` more bursts to a node (R352). -/
def Block.burstRoom (m : Block) (master node k : Nat) : Bool := decide ((m.txPair master node).unacked.length + k ≤ 4096)

/-- The burst of a core's store to another node. `sig`: the hitch and increment of a signalled write (R351, R354). -/
def coreBurst (m : Block) (n node addr : Nat) (bs : List Byte) (sig : Option (Nat × Nat)) : Burst :=
  { kind := if sig.isSome then 1 else 0, srcNode := 0, dstNode := node, tenant := m.coreTenant n, ctx := m.coreCtx n
    master := n, seq := 0, tag := 0, addr := addr, data := bs, mask := [], poison := false
    hitch := (sig.map (·.1)).getD 0, inc := (sig.map (·.2)).getD 0 }

/-- Reads in flight to another module's granule that a store of the tile has passed by are not kept as lines when they return. -/
def Block.passLoads (m : Block) (t tenant : Nat) (node : Option Nat) (g : Nat) : Block :=
  (List.range 8).foldl (fun m k =>
    if m.coreTenant (8 * t + k) = tenant ∧ !(m.core (8 * t + k)).loads.isEmpty then
      m.modCore (8 * t + k) fun c => { c with loads := mapIf (fun x => x.tag.isSome && x.node == node && x.addr / 128 == g) (fun x => { x with keep := false }) c.loads }
    else m) m

/-- Enters one granule of a store: lines of the tile take its bytes as it leaves the core (R141). -/
def Block.enterStore (m : Block) (n stamp addr : Nat) (node : Option Nat) (bs : List Byte) (sig : Option (Nat × Nat)) (pool : Bool) : Block :=
  let m := m.passLoads (n / 8) (m.coreTenant n) node (addr / 128)
  match node with
  | none =>
    let x : Store := { addr := addr, bytes := bs, stamp := stamp, remote := none, pool := pool }
    (m.updateLines n x).modCore n fun c => { c with stores := c.stores ++ [x] }
  | some k =>
    let seq := (m.txPair n k).nextSeq
    let x : Store := { addr := addr, bytes := bs, stamp := stamp, remote := some (k, seq) }
    let m1 := (m.updateLines n x).sendBurst (coreBurst m n k addr bs sig)
    if (m1.txPair n k).nextSeq = seq then m1 else m1.modCore n fun c => { c with stores := c.stores ++ [x] }

/-- The granules of a store to memory; the last one carries the signal of a signalled store. -/
def Block.enterStores (m : Block) (n stamp : Nat) (node : Option Nat) (a : Nat) (bs : List Byte) (sig : Option (Nat × Nat)) (pool : Bool) : Block :=
  let ps := pieces a bs.length
  ps.zipIdx.foldl
    (fun m oci => m.enterStore n stamp (a + oci.1.1) node (slice bs oci.1.1 oci.1.2) (if oci.2 + 1 = ps.length then sig else none) pool) m

/-- The common part of the stores: the source is read, the access checked (R95, R305), the granules entered. -/
def Block.storeInstr (m : Block) (n stamp : Nat) (dst : Loc) (bytes : Nat) (src : Loc) (sig : Option (Nat × Nat)) : Block :=
  let m := m.sense n src bytes
  match m.readLoc n src bytes with
  | .error t => m.trap n t
  | .ok bs =>
    match m.target n dst bytes true with
    | .error m' => m'
    | .ok (.reg off) =>
      m.modCore n fun c => { c with stores := c.stores ++ [{ addr := regBase + off, bytes := bs, stamp := stamp, remote := none }] }
    | .ok (.here a) => if m.tagged a bytes then m.curbCore n 5 dst.off bytes else m.enterStores n stamp none a bs sig (dst.space == .pool)
    | .ok (.away node a) => m.enterStores n stamp (some node) a bs sig false

/-- Whether a store's bursts find room; without room the store waits in the vector queue (R352). -/
def Block.storeRoom (m : Block) (n : Nat) (dst : Loc) (bytes : Nat) : Bool :=
  match dst.space, m.remoteNode dst.off with
  | .glob, some node => m.burstRoom n node (pieces (localPart dst.off) bytes).length
  | _, _ => true

/-- The vector unit takes a store (R79, R141). -/
def storeRun (core stamp : Nat) (dst : Loc) (bytes : Nat) (src : Loc) (m : Block) : Option Block :=
  if !m.storeRoom core dst bytes then none else some (m.storeInstr core stamp dst bytes src none)

/-- The vector unit takes a signalled store (R354): the burst with the store's last granule signals the hitch at the destination. To this
module's own node, which no burst reaches (R130), the signal follows the data as an HSIGNAL does (R93). -/
def signalledStoreRun (core stamp dst bytes : Nat) (src : Loc) (hitch inc : Nat) (m : Block) : Option Block :=
  let l : Loc := ⟨.glob, dst⟩
  if !m.storeRoom core l bytes then none
  else some (match m.remoteNode dst with
    | some _ => m.storeInstr core stamp l bytes src (some (hitch, inc))
    | none =>
      if (m.coreHitch core hitch).isNone then m.faultStop core 4
      else
        let m1 := m.storeInstr core stamp l bytes src none
        if (m1.core core).stores.length = (m.core core).stores.length then m1
        else m1.modCore core fun c => { c with signals := c.signals ++ [⟨hitch, BitVec.ofNat 64 inc, stamp + 1, 0⟩] })

/- Hitch instructions -/

/-- Whether a store or an output write that core `n` has issued may be on its way to its home (R93, R148). -/
def Block.storesOpen (m : Block) (n : Nat) : Bool :=
  let c := m.core n
  !c.stores.isEmpty || !c.matQ.isEmpty || (c.vecQ.any fun v => storing v.2) || m.windowWaits n

/-- HSIGNAL (R91, R93): at once when no earlier store or output write is under way, else it follows them. -/
def hsignalEffect (i : Issue) (hitch : Nat) (v : Src) (m : Block) : Block :=
  m.issue i fun m =>
    match m.coreHitch i.core hitch with
    | none => m.faultStop i.core 4
    | some a =>
      if !m.storesOpen i.core then m.signalAt i.core a (m.src i.core v).toNat
      else
        let p := m.nextStamp (i.core / 8)
        p.2.modCore i.core fun c =>
          { c with signals := c.signals ++ [⟨hitch, m.src i.core v, p.1, c.matQ.length⟩] }

/-- HWAIT (R91, R94): a counter that has reached the target ends the wait at once; else issue is held. -/
def hwaitEffect (i : Issue) (hitch : Nat) (target : Src) (m : Block) : Block :=
  m.issue i fun m =>
    let n := i.core
    match m.coreHitch n hitch with
    | none => m.faultStop n 4
    | some a =>
      let t := m.src n target
      let m0 := m.correct a 8
      let m1 := (m0.setReg (Reg.coreHitchWait n) (BitVec.ofNat 64 hitch)).setReg (Reg.coreHitchTarget n) t
      if m0.poisoned a 8 then m1.curbCore n 8 a 8
      else if t.toNat ≤ m0.hitchVal a then m1
      else ((m1.setFld (Reg.coreHitchWait n) 63 63 1).setCoreSt n 2).modCore n fun c =>
        { c with hold := .hwait, waitStart := m.time, waitAddr := a, met := false }

/-- HWAIT_SATISFIED (R92): the waiting core resumes once an operation has left a value that met its target. -/
def hwaitSatisfiedEffect (core : Nat) (m : Block) : Block :=
  let c := m.core core
  if c.hold = .hwait ∧ c.met then
    ((m.setFld (Reg.coreHitchWait core) 63 63 0).setCoreSt core 1).modCore core fun c => { c with hold := .none, met := false }
  else m

/-- Whether a recovering peer stops a task's hitch timeouts (R464). -/
def Block.peerHeld (m : Block) (q : QueueId) : Bool :=
  (m.running q).any fun c => !c.peers.isEmpty

/-- HITCH_TIMEOUT (R94): at b + TICKS the core stops, unless the wait was met inside its window. -/
def hitchTimeoutEffect (core : Nat) (m : Block) : Block :=
  let c := m.core core
  if c.hold = .hwait ∧ !c.met ∧ m.time ≥ c.waitStart + m.fld (Reg.coreHitchTmo core) 39 0 ∧
      !(c.task.any fun q => m.peerHeld q) then m.faultStop core 3
  else m

/-- HPOLL (R91). -/
def hpollEffect (i : Issue) (hitch rd : Nat) (m : Block) : Block :=
  m.issue i fun m =>
    match m.coreHitch i.core hitch with
    | none => m.faultStop i.core 4
    | some a =>
      let m1 := m.correct a 8
      if m1.poisoned a 8 then m1.curbCore i.core 8 a 8 else m1.setSreg i.core rd (BitVec.ofNat 64 (m1.hitchVal a))

/-- HRESET (R91). It reads nothing, so a poisoned granule curbs no core: the write is discarded there (R114). -/
def hresetEffect (i : Issue) (hitch : Nat) (v : Src) (m : Block) : Block :=
  m.issue i fun m =>
    match m.coreHitch i.core hitch with
    | none => m.faultStop i.core 4
    | some a => m.hitchSet a (m.src i.core v).toNat

/- Ordering instructions -/

/-- What an ACQUIRE or FENCE does once its hold condition is met: no later load of the tile hits a line filled by a load
issued before it (Table 6.2). -/
def Block.acquired (m : Block) (n stamp : Nat) : Block :=
  m.modTile (n / 8) fun t => { t with floor := max t.floor stamp }

/-- Whether the hold condition of an ordering instruction is met (Table 6.2, R145, R148). -/
def Block.orderMet (m : Block) (n : Nat) : Hold → Bool
  | .acquire => (m.core n).loads.isEmpty && !(m.core n).vecQ.any fun v => loading v.2
  | .release => !m.storesOpen n
  | .fence => (m.core n).loads.isEmpty && (!(m.core n).vecQ.any fun v => loading v.2) && !m.storesOpen n
  | _ => false

/-- The common part of ACQUIRE, RELEASE and FENCE: the hold begins. -/
def orderEffect (h : Hold) (i : Issue) (m : Block) : Block :=
  m.issue i fun m =>
    let p := m.nextStamp (i.core / 8)
    let m1 := if h = .release then p.2 else p.2.addFld (Reg.tileLcAcq (i.core / 8)) 63 0 1
    m1.modCore i.core fun c => { c with hold := h, ordStamp := p.1 }

/-- ACQUIRE (R147). -/
def acquireEffect (i : Issue) (m : Block) : Block := orderEffect .acquire i m
/-- RELEASE (R147, R148). -/
def releaseEffect (i : Issue) (m : Block) : Block := orderEffect .release i m
/-- FENCE (R147). -/
def fenceEffect (i : Issue) (m : Block) : Block := orderEffect .fence i m

/-- ORDER_HOLD_END (R147): issue resumes when the hold condition is met. -/
def orderHoldEndEffect (core : Nat) (m : Block) : Block :=
  let c := m.core core
  if m.orderMet core c.hold then
    let m1 := if c.hold = .release then m else m.acquired core c.ordStamp
    m1.modCore core fun c => { c with hold := .none }
  else m

/-- HSIGNAL. -/
def execHsignal (i : Issue) (hitch : Nat) (v : Src) (s : State) : Host.Outcome State Fault Refusal :=
  s.commit (hsignalEffect i hitch v s.m)
/-- HWAIT. -/
def execHwait (i : Issue) (hitch : Nat) (target : Src) (s : State) : Host.Outcome State Fault Refusal :=
  s.commit (hwaitEffect i hitch target s.m)
/-- HWAIT_SATISFIED. -/
def execHwaitSatisfied (core : Nat) (s : State) : Host.Outcome State Fault Refusal := s.commit (hwaitSatisfiedEffect core s.m)
/-- HITCH_TIMEOUT. -/
def execHitchTimeout (core : Nat) (s : State) : Host.Outcome State Fault Refusal := s.commit (hitchTimeoutEffect core s.m)
/-- HPOLL. -/
def execHpoll (i : Issue) (hitch rd : Nat) (s : State) : Host.Outcome State Fault Refusal := s.commit (hpollEffect i hitch rd s.m)
/-- HRESET. -/
def execHreset (i : Issue) (hitch : Nat) (v : Src) (s : State) : Host.Outcome State Fault Refusal :=
  s.commit (hresetEffect i hitch v s.m)
/-- ACQUIRE. -/
def execAcquire (i : Issue) (s : State) : Host.Outcome State Fault Refusal := s.commit (acquireEffect i s.m)
/-- RELEASE. -/
def execRelease (i : Issue) (s : State) : Host.Outcome State Fault Refusal := s.commit (releaseEffect i s.m)
/-- FENCE. -/
def execFence (i : Issue) (s : State) : Host.Outcome State Fault Refusal := s.commit (fenceEffect i s.m)
/-- ORDER_HOLD_END. -/
def execOrderHoldEnd (core : Nat) (s : State) : Host.Outcome State Fault Refusal := s.commit (orderHoldEndEffect core s.m)

end Sys2Proof.Machine
end

