-- ==== Sys2Proof/Machine/Scalar.lean ====
section
/-! DEFINITION. Scalar and control instructions of a core's sequencer (Table 4.2, R82, R83, R85, R96). Encodings, and so the
operand forms and instruction lengths, stand in another manual (log entry 2). -/
namespace Sys2Proof.Machine

/-- A shift: by 64 or more the manual states no result (log entry 4). -/
def shiftBy (f : Word → Nat → Word) (a b : Word) : Word := if b.toNat < 64 then f a b.toNat else Config.wideShift a b

/-- The result of a scalar operation. Comparisons give 1 or 0. -/
def scalarResult (op : ScalarOp) (a b : Word) : Word :=
  match op with
  | .add => a + b
  | .sub => a - b
  | .and => a &&& b
  | .or => a ||| b
  | .xor => a ^^^ b
  | .shl => shiftBy (fun x k => x <<< k) a b
  | .shr => shiftBy (fun x k => x >>> k) a b
  | .sar => shiftBy (fun x k => x.sshiftRight k) a b
  | .eq => if a = b then 1 else 0
  | .ne => if a = b then 0 else 1
  | .ltu => if a < b then 1 else 0
  | .lts => if a.slt b then 1 else 0
  | .mul => a * b
  | .mov => a

/-- Whether a branch is taken. -/
def condHolds (c : Cond) (a b : Word) : Bool :=
  match c with
  | .always => true
  | .eq => a == b
  | .ne => a != b
  | .ltu => a.ult b
  | .lts => a.slt b
  | .geu => !a.ult b
  | .ges => !a.slt b

/-- SCALAR_OP (R80). -/
def scalarOpEffect (i : Issue) (op : ScalarOp) (rd : Nat) (a b : Src) (m : Block) : Block :=
  m.issue i fun m => m.setSreg i.core rd (scalarResult op (m.src i.core a) (m.src i.core b))

/-- BRANCH (R80, R85). -/
def branchEffect (i : Issue) (c : Cond) (a b : Src) (target : Nat) (m : Block) : Block :=
  m.issue i fun m => if condHolds c (m.src i.core a) (m.src i.core b) then m.setPc i.core target else m

/-- LOOP (R85, Table 4.8): the count is the low 32 bits of the register; 0 skips the body; a ninth level stops the core. -/
def loopEffect (i : Issue) (count skipTo : Nat) (m : Block) : Block :=
  m.issue i fun m =>
    if (m.core i.core).loops.length ≥ 8 then m.faultStop i.core 6
    else
      let k := (m.sreg i.core count).toNat % 2 ^ 32
      if k = 0 then m.setPc i.core skipTo
      else m.modCore i.core fun c => { c with loops := ⟨m.pc i.core, k⟩ :: c.loops }

/-- ENDLOOP (R85): runs the body again while runs are left. Outside a loop it is no defined instruction (log entry 17). -/
def endloopEffect (i : Issue) (m : Block) : Block :=
  m.issue i fun m =>
    match (m.core i.core).loops with
    | [] => m.faultStop i.core 5
    | f :: fs =>
      if f.left > 1 then (m.modCore i.core fun c => { c with loops := ⟨f.body, f.left - 1⟩ :: fs }).setPc i.core f.body
      else m.modCore i.core fun c => { c with loops := fs }

/-- CALL (Table 4.8): a seventeenth level stops the core. -/
def callEffect (i : Issue) (target : Nat) (m : Block) : Block :=
  m.issue i fun m =>
    if (m.core i.core).calls.length ≥ 16 then m.faultStop i.core 6
    else (m.modCore i.core fun c => { c with calls := m.pc i.core :: c.calls }).setPc i.core target

/-- RET. Without a CALL it is no defined instruction (log entry 17). -/
def retEffect (i : Issue) (m : Block) : Block :=
  m.issue i fun m =>
    match (m.core i.core).calls with
    | [] => m.faultStop i.core 5
    | r :: rs => (m.modCore i.core fun c => { c with calls := rs }).setPc i.core r

/-- Whether a vector instruction belongs to the group of global loads and stores (Table 4.3): its place is a global address. -/
def globalGroup : Instr → Bool
  | .globalLoad _ src _ _ => src.space == .glob
  | .coherentPointLoad _ src _ _ => src.space == .glob
  | .globalStore _ dst _ _ => dst.space == .glob
  | .signalledStore .. => true
  | _ => false

/-- Whether every instruction of the groups of a DRAIN mask has completed (Table 4.3). A load or store of the pool window is the vector
queue's; the writes of an attention pass count among the core's global stores. -/
def Block.drained (m : Block) (n mask : Nat) : Bool :=
  let c := m.core n
  (!mask.testBit 0 || (c.matQ.isEmpty && !m.windowWaits n)) &&
    (!mask.testBit 1 || (!m.windowWaits n && (c.vecQ.all fun v => globalGroup v.2) && c.loads.all (fun x => !x.pool) && c.stores.all fun x => !x.pool)) &&
    (!mask.testBit 2 || c.sfuQ.isEmpty) &&
    (!mask.testBit 3 || (c.copyQ.isEmpty && !m.copying n)) &&
    (!mask.testBit 4 || ((c.vecQ.all fun v => !globalGroup v.2) && c.loads.all (·.pool) && c.stores.all (·.pool)))

/-- DRAIN (R83): reserved mask bits make it an undefined encoding. -/
def drainEffect (i : Issue) (mask : Nat) (m : Block) : Block :=
  m.issue i fun m =>
    if mask ≥ 32 then m.faultStop i.core 5
    else if m.drained i.core mask then m
    else (m.setCoreSt i.core 3).modCore i.core fun c => { c with hold := .drain, drainMask := mask }

/-- DRAIN_COMPLETE (R83): issue resumes once the groups have completed. -/
def drainCompleteEffect (core : Nat) (m : Block) : Block :=
  if m.coreSt core = 3 ∧ m.drained core (m.core core).drainMask then
    (m.setCoreSt core 1).modCore core fun c => { c with hold := .none }
  else m

/-- The task of a queue ends when every slot has stopped (R85): with status OK, whatever cause a slot stopped for that has not ended the
command before (DEDUCED, log entry 100). -/
def Block.endIfAll (m : Block) (q : QueueId) : Block :=
  let pulled := m.cores.any fun e => e.2.saved.any fun s => s.task == some q
  if !pulled && (m.taskCores q).all fun n => m.coreSt n == 4 then m.complete q 0 0
  else m

/-- END (R85). -/
def endEffect (i : Issue) (m : Block) : Block :=
  m.issue i fun m =>
    let m1 := m.stopCore i.core 1
    match (m.core i.core).task with
    | some q => m1.endIfAll q
    | none => m1

/-- SCALAR_OP. -/
def execScalarOp (i : Issue) (op : ScalarOp) (rd : Nat) (a b : Src) (s : State) : Host.Outcome State Fault Refusal :=
  s.commit (scalarOpEffect i op rd a b s.m)
/-- BRANCH. -/
def execBranch (i : Issue) (c : Cond) (a b : Src) (target : Nat) (s : State) : Host.Outcome State Fault Refusal :=
  s.commit (branchEffect i c a b target s.m)
/-- LOOP. -/
def execLoop (i : Issue) (count skipTo : Nat) (s : State) : Host.Outcome State Fault Refusal :=
  s.commit (loopEffect i count skipTo s.m)
/-- ENDLOOP. -/
def execEndloop (i : Issue) (s : State) : Host.Outcome State Fault Refusal := s.commit (endloopEffect i s.m)
/-- CALL. -/
def execCall (i : Issue) (target : Nat) (s : State) : Host.Outcome State Fault Refusal := s.commit (callEffect i target s.m)
/-- RET. -/
def execRet (i : Issue) (s : State) : Host.Outcome State Fault Refusal := s.commit (retEffect i s.m)
/-- DRAIN. -/
def execDrain (i : Issue) (mask : Nat) (s : State) : Host.Outcome State Fault Refusal := s.commit (drainEffect i mask s.m)
/-- DRAIN_COMPLETE. -/
def execDrainComplete (core : Nat) (s : State) : Host.Outcome State Fault Refusal := s.commit (drainCompleteEffect core s.m)
/-- END. -/
def execEnd (i : Issue) (s : State) : Host.Outcome State Fault Refusal := s.commit (endEffect i s.m)

end Sys2Proof.Machine
end

