-- ==== Sys2Proof/Machine/Copy.lean ====
section
/-! DEFINITION. Copy engines and DMA channels (R120 to R126), and each tile's command channel (R514). Channel 128 of a tile stands
for its command channel in the events that name a channel. -/
namespace Sys2Proof.Machine

/-- Where a granule of a transfer lies, by the space codes of Table 5.7. -/
structure Place where
  space : Nat
  addr  : Nat
  deriving DecidableEq, Repr

/-- Who moves a granule: MASTER code, master of Table 19.1, tenant and context carried, the submitting core. -/
structure Mover where
  code   : Nat
  mtype  : Nat
  idx    : Nat
  tenant : Nat
  ctx    : Nat
  core   : Option Nat
  deriving DecidableEq, Repr

/-- The buffer that a space code names. -/
def bufSpace : Nat → Space
  | 3 => .stationary
  | 4 => .stream
  | _ => .vector

/-- A place resolved: memory of this module, of another node, a buffer, or a failed check. -/
inductive Spot where
  | here (a : Nat)
  | away (node a : Nat)
  | buf (core : Nat) (sp : Space) (off : Nat)
  | bad (kind : Nat)
  deriving DecidableEq, Repr

/-- Resolves a granule's place. Task-relative spaces and buffers are the submitting core's, while the task of the channel's
context is dispatched to it (R102, R117). -/
def Block.spot (m : Block) (v : Mover) (p : Place) (write : Bool) : Spot :=
  if p.space = 0 then
    match m.check v.tenant v.ctx p.addr 128 write with
    | some k => .bad k
    | none => match m.remoteNode p.addr with
      | some node => .away node (localPart p.addr)
      | none => .here (localPart p.addr)
  else match v.core with
    | none => .bad 1
    | some n =>
      if !(m.fld (Reg.coreTaskId n) 63 63 == 1 && m.coreTenant n == v.tenant && m.coreCtx n == v.ctx) then .bad 1
      else if p.space = 1 then (match m.cmAddr? n p.addr 128 with | some a => .here a | none => .bad 1)
      else if p.space = 2 then (match m.poolAddr? n p.addr 128 with | some a => .here a | none => .bad 1)
      else .buf n (bufSpace p.space) p.addr

/-- The outcome of one try to move a granule: it waits (the read tag in flight is kept), its mover was curbed, or it moved. -/
inductive Moved where
  | wait (m : Block) (tag : Option Nat)
  | curbed (m : Block)
  | moved (m : Block)

/-- Reads the granule of a transfer and hands it on, with its poison. Zeros need no source. Table 5.7 admits the stationary buffer as a source,
but Table 5.1 gives it no read port of a copy engine: the bytes read there are free (DESIGN CHOICE, log entry 108). -/
def Block.takeGranule (m : Block) (v : Mover) (src : Option Place) (tag : Option Nat)
    (k : Block → List Byte → Bool → Moved) : Moved :=
  match src with
  | none => k m (List.replicate 128 0) false
  | some p =>
    match m.spot v p false with
    | .bad kind => .curbed (m.curb v.mtype v.idx v.tenant v.ctx kind p.addr 128 (m.remoteNode p.addr))
    | .here a =>
      if m.heldExclusive a 128 then .wait (m.snoopReads a 128) none
      else let m1 := m.correct a 128; k m1 (m1.readMem a 128) (m1.poisoned a 128)
    | .buf n .stationary _ => let d := m.drawBytes 128; k d.2 d.1 (m.bufBad n .stationary p.addr 128)
    | .buf n sp off => k m (m.readBuf n sp off 128) (m.bufBad n sp off 128)
    | .away node a =>
      match tag with
      | none => let r := m.sendRead v.code v.tenant v.ctx node a 128; .wait r.2 (some r.1)
      | some t =>
        match m.fab.reads.find? fun r => r.tag == t && r.data.isSome with
        | none => .wait m (some t)
        | some r =>
          let d := r.data.getD ([], false)
          k { m with fab.reads := m.fab.reads.erase r } (slice d.1 0 128) d.2

/-- Writes the granule of a transfer at its destination (R95, R125, R447). -/
def Block.putGranule (m : Block) (v : Mover) (dst : Place) (bs : List Byte) (bad : Bool) : Moved :=
  match m.spot v dst true with
  | .bad kind => .curbed (m.curb v.mtype v.idx v.tenant v.ctx kind dst.addr 128 (m.remoteNode dst.addr))
  | .here a =>
    if m.tagged a 128 then .curbed (m.curb v.mtype v.idx v.tenant v.ctx 5 dst.addr 128 none)
    else .moved (m.owning v.code v.tenant v.ctx fun m => m.homeWriteP a bs bad)
  | .buf n sp off =>
    let m1 := m.writeLoc n ⟨sp, off⟩ bs
    .moved (if bad then { m1 with bufPoison := insertNat m1.bufPoison (bufBase n sp + off) } else m1)
  | .away node a => .moved (m.sendWrite v.code v.tenant v.ctx node a bs bad)

/-- Whether a remote destination has room for a burst (R352). -/
def Block.putRoom (m : Block) (v : Mover) (dst : Place) : Bool :=
  if dst.space = 0 then
    match m.remoteNode dst.addr with
    | some node => m.pairOpen v.code node
    | none => true
  else true

/-- Moves one granule. -/
def Block.moveGranule (m : Block) (v : Mover) (src : Option Place) (dst : Place) (tag : Option Nat) : Moved :=
  if !m.putRoom v dst then .wait m tag
  else m.takeGranule v src tag fun m1 bs bad => m1.putGranule v dst bs bad

/-- Whether every write of a master to other nodes has been acknowledged. -/
def Block.allAcked (m : Block) (code : Nat) : Bool := m.fab.tx.all fun p => p.master != code || p.unacked.isEmpty

/- Descriptors (Tables 5.6 to 5.8) -/

/-- Bytes of the buffer that a space code names. -/
def spaceLimit (sp : Nat) : Nat := bufSize (bufSpace sp)

/-- Whether rows of a transfer run past the end of an operand buffer. -/
def rowsPast (sp off pitch rows gran : Nat) : Bool :=
  decide (3 ≤ sp) && decide (off + (rows - 1) * pitch + gran * 128 > spaceLimit sp)

/-- Whether core `n` runs a task of a context. -/
def Block.runsFor (m : Block) (n t c : Nat) : Bool := (m.core n).task.any fun q => q.tenant == t && q.ctx == c

/-- CORE_HITCH_CFG.COUNT of the task that submitted a descriptor: while that task is pulled up, the value saved with it (R329). -/
def Block.submitHitches (m : Block) (t c : Nat) (j : CopyJob) : Nat :=
  match (m.core j.core).saved with
  | some s => if m.runsFor j.core t c then m.fld (Reg.coreHitchCfg j.core) 42 32 else field (Tbl.getD 0 s.regs (Reg.coreHitchCfg j.core)) 42 32
  | none => m.fld (Reg.coreHitchCfg j.core) 42 32

/-- The error of a malformed descriptor (R124, Table 5.8), `hitches` the count of its context; 0 when it is well formed. A misaligned address
of the descriptor itself reports 2 whatever else is wrong; else the lowest code stands (DESIGN CHOICE, log entry 115). -/
def CopyJob.error (hitches : Nat) (j : CopyJob) : Nat :=
  let w := wordAt j.words
  let ss := field (w 0) 63 61
  let ds := field (w 0) 60 58
  let zero := bit (w 0) 56
  let rows := field (w 0) 55 40
  let gran := field (w 0) 39 20
  let sp := field (w 3) 31 0
  let dp := field (w 3) 63 32
  if !j.aligned then 2
  else if (!zero && decide (ss ≥ 6)) || decide (ds ≥ 6) || field (w 0) 19 0 != 0 || field (w 4) 63 42 != 0 || w 5 != 0 || w 6 != 0 ||
      w 7 != 0 then 1
  else if (!zero && ((w 1).toNat % 128 != 0 || sp % 128 != 0)) || (w 2).toNat % 128 != 0 || dp % 128 != 0 then 2
  else if rows = 0 ∨ gran = 0 ∨ gran > 8192 then 3
  else if bit (w 0) 57 && decide (field (w 4) 41 32 ≥ hitches) then 4
  else if (!zero && rowsPast ss (w 1).toNat sp rows gran) || rowsPast ds (w 2).toNat dp rows gran then 5
  else 0

/-- Granules of a descriptor. -/
def CopyJob.total (j : CopyJob) : Nat := field (wordAt j.words 0) 55 40 * field (wordAt j.words 0) 39 20

/-- Source of granule `d` of a descriptor; none with ZERO = 1. -/
def CopyJob.src (j : CopyJob) (d : Nat) : Option Place :=
  let w := wordAt j.words
  let gran := field (w 0) 39 20
  if bit (w 0) 56 then none
  else some ⟨field (w 0) 63 61, (w 1).toNat + d / gran * field (w 3) 31 0 + d % gran * 128⟩

/-- Destination of granule `d` of a descriptor. -/
def CopyJob.dst (j : CopyJob) (d : Nat) : Place :=
  let w := wordAt j.words
  let gran := field (w 0) 39 20
  ⟨field (w 0) 60 58, (w 2).toNat + d / gran * field (w 3) 63 32 + d % gran * 128⟩

/- Channels -/

/-- STATE of a channel. -/
def Block.chanSt (m : Block) (t k : Nat) : Nat := m.fld (Reg.tileDmaStatus t k) 63 60

/-- Brings HELD and STATE of a channel in line with the descriptors it holds; a halted or curbed channel keeps its state. -/
def Block.syncChan (m : Block) (t k : Nat) : Block :=
  let n := (m.chan t k).length
  let m1 := m.setFld (Reg.tileDmaStatus t k) 34 32 n
  if m.chanSt t k < 2 then m1.setFld (Reg.tileDmaStatus t k) 63 60 (if n = 0 then 0 else 1) else m1

/-- The cores of a context stop with FW_STOP, and `q` completes with the descriptor-error status; other tasks of the context, all of whose slots
have now stopped, end (R85, R124). -/
def Block.stopContext (m : Block) (t c : Nat) (q : Option QueueId) : Block :=
  let ns := (m.cores.filter fun e => e.2.task.any fun q => q.tenant == t && q.ctx == c).map (·.1)
  let m1 := ns.foldl (fun m n => m.stopCore n 8) m
  let m2 := match q with
    | some q => m1.complete q 4 0
    | none => m1
  ((ns.filterMap fun n => (m.core n).task).dedup.filter fun x => some x != q).foldl (fun m x => m.endIfAll x) m2

/-- A malformed descriptor that has become the channel's first halts the channel; firmware stops the context's cores, and the command that
submitted it ends with the descriptor-error status (R124). -/
def Block.headCheck (m : Block) (t k : Nat) : Block :=
  match m.chan t k with
  | [] => m
  | j :: _ =>
    let o := Reg.tileDmaOwner t k
    let tn := m.fld o 12 8
    let cx := m.fld o 7 0
    let e := j.error (m.submitHitches tn cx j)
    if e = 0 ∨ m.chanSt t k ≥ 2 then m
    else
      let c := m.core j.core
      let q := if m.runsFor j.core tn cx then c.task else (c.saved.bind (·.task)).or c.task
      ((m.setFld (Reg.tileDmaStatus t k) 63 60 2).setFld (Reg.tileDmaStatus t k) 59 52 e).stopContext tn cx q

/-- Whether a channel pauses because the task of its first descriptor's core is pulled up (R329). -/
def Block.chanPaused (m : Block) (t k : Nat) : Bool :=
  let tenant := m.fld (Reg.tileDmaOwner t k) 12 8
  let ctx := m.fld (Reg.tileDmaOwner t k) 7 0
  (m.pausedTile t && !(m.serves 1 (128 * t + k) tenant ctx).any fun q => m.classOf q == 0) ||
    (m.chan t k).head?.any fun j => (m.core j.core).saved.any fun s => s.task.any fun q => q.tenant == tenant && q.ctx == ctx

/-- Whether a channel has work an engine can take. Channel 128 is the command channel. -/
def Block.chanWork (m : Block) (t k : Nat) : Bool :=
  if k = 128 then (m.tile t).cmdChan.isSome else m.chanSt t k == 1 && !(m.chan t k).isEmpty && !m.chanPaused t k

/-- The next channel in round-robin order that has work and no engine (R122). -/
def Block.nextChannel (m : Block) (t : Nat) : Option Nat :=
  let x := m.tile t
  ((List.range 129).map fun i => (x.nextChan + i) % 129).find? fun k => m.chanWork t k && !x.engines.contains (some k)

/-- Engine `e` of a tile takes the next channel: a slice begins (R122). -/
def Block.takeChannel (m : Block) (t e : Nat) : Block :=
  match m.nextChannel t with
  | some k => m.modTile t fun x =>
      { x with engines := x.engines.set e (some k), nextChan := (k + 1) % 129, sliceAt := x.sliceAt.set e m.time, sliceDone := x.sliceDone.set e 0 }
  | none => m.modTile t fun x => { x with engines := x.engines.set e none }

/-- Granules that an engine may still move in its slice of 4 KiB. -/
def TileState.sliceLeft (x : TileState) (e : Nat) : Nat := 32 - x.sliceDone.getD e 0

/-- Whether the slice of engine `e`, which serves channel `k`, has ended: 4 KiB moved, 25 ticks passed, or no work left (R122). -/
def Block.sliceOver (m : Block) (t e k : Nat) : Bool :=
  (m.tile t).sliceLeft e == 0 || decide (m.time ≥ (m.tile t).sliceAt.getD e 0 + 25) || !m.chanWork t k

/-- An engine whose slice has ended takes the next channel in round-robin order, its own again when no other has work. -/
def Block.nextSlice (m : Block) (t e : Nat) : Block :=
  match (m.tile t).engines.getD e none with
  | some k =>
    if m.sliceOver t e k then (m.modTile t fun x => { x with engines := x.engines.set e none }).takeChannel t e else m
  | none => m.takeChannel t e

/-- Each engine without work takes a channel (R122). -/
def Block.assignEngines (m : Block) (t : Nat) : Block :=
  (List.range 4).foldl
    (fun m e => match (m.tile t).engines.getD e none with
      | some k => if m.chanWork t k then m else m.takeChannel t e
      | none => m.takeChannel t e)
    m

/-- A core's copy queue passes descriptors on while the channel of the first has room (R121). -/
def Block.pumpCopies (n : Nat) : Nat → Block → Block
  | 0, m => m
  | fuel + 1, m =>
    match (m.core n).copyQ with
    | [] => m
    | (k, j) :: rest =>
      if (m.chan (n / 8) k).length < 4 then
        let m1 := (m.modCore n fun c => { c with copyQ := rest }).setChan (n / 8) k (m.chan (n / 8) k ++ [j])
        let m2 := if (m.chan (n / 8) k).isEmpty then m1.beat 1 (128 * (n / 8) + k) else m1
        pumpCopies n fuel (((m2.syncChan (n / 8) k).headCheck (n / 8) k))
      else m

/-- Passes the copy queues of a tile's cores on, and gives idle engines work. -/
def Block.pumpTile (m : Block) (t : Nat) : Block :=
  ((List.range 8).foldl (fun m c => Block.pumpCopies (8 * t + c) 8 m) m).assignEngines t

/-- COPY_SUBMIT (R120, R121): an index above 127 or a channel of another owner curbs the core. -/
def copySubmitEffect (i : Issue) (channel desc : Nat) (m : Block) : Block :=
  let n := i.core
  if (m.core n).copyQ.length ≥ 8 then m
  else m.issue i fun m =>
    let owner := Reg.tileDmaOwner (n / 8) channel
    if channel > 127 ∨ !(m.fld owner 63 63 == 1 && m.fld owner 12 8 == m.coreTenant n && m.fld owner 7 0 == m.coreCtx n) then
      m.curbCore n 6 channel 0
    else
      let m := m.sense n ⟨.core, desc⟩ 64
      match m.readLoc n ⟨.core, desc⟩ 64 with
      | .error t => m.trap n t
      | .ok bs =>
        let j : CopyJob := { words := leWords 8 bs, core := n, aligned := desc % 64 == 0 }
        (m.modCore n fun c => { c with copyQ := c.copyQ ++ [(channel, j)] }).pumpTile (n / 8)

/-- The mover of channel `k` of tile `t` for a descriptor. -/
def Block.chanMover (m : Block) (t k : Nat) (j : CopyJob) : Mover :=
  let o := Reg.tileDmaOwner t k
  { code := Master.code (.dma (128 * t + k)), mtype := 1, idx := 128 * t + k, tenant := m.fld o 12 8, ctx := m.fld o 7 0
    core := some j.core }

/-- Whether every granule written to `dst 0`, … , `dst (n - 1)` has reached its home: none waits for a host copy or a host. -/
def Block.placed (m : Block) (v : Mover) (dst : Nat → Place) (n : Nat) : Bool :=
  (m.cho.snoops.isEmpty && m.cho.hostWrites.isEmpty) || (List.range n).all fun d =>
    match m.spot v (dst d) true with
    | .here a => !m.writeWaits a 128
    | _ => true

/-- The first descriptor of a channel completes once its last granule is written, and acknowledged where it went to another module (R125);
its hitch is signalled, and the next descriptor is the channel's first. None where it is not complete. -/
def Block.endHead (m : Block) (t k : Nat) : Option Block :=
  match m.chan t k with
  | [] => none
  | j :: rest =>
    let v := m.chanMover t k j
    if m.chanSt t k ≠ 1 ∨ j.done < j.total ∨ !m.allAcked v.code ∨ !m.placed v j.dst j.total then none
    else
      let m2 := (m.setChan t k rest).addFld (Reg.tileDmaStatus t k) 31 0 1
      let m3 := if bit (wordAt j.words 0) 57 then
          m2.signal v.tenant v.ctx (field (wordAt j.words 4) 41 32) (field (wordAt j.words 4) 31 0) else m2
      some (((m3.syncChan t k).headCheck t k).restCore j.core)

/-- Works on a channel: up to `left` granules in their order, through descriptors that complete on the way (R122); the number moved comes with
the block. `fuel` bounds granules and descriptors together. -/
def Block.moveChan (t k : Nat) : Nat → Nat → Block → Block × Nat
  | 0, _, m => (m, 0)
  | fuel + 1, left, m =>
    match m.chan t k with
    | [] => (m, 0)
    | j :: rest =>
      if m.chanSt t k ≠ 1 ∨ m.chanPaused t k then (m, 0)
      else if j.done ≥ j.total then
        match m.endHead t k with
        | some m1 => Block.moveChan t k fuel left m1
        | none => (m, 0)
      else if left = 0 then (m, 0)
      else match m.moveGranule (m.chanMover t k j) (j.src j.done) (j.dst j.done) j.tag with
        | .wait m1 tag => (m1.setChan t k ({ j with tag := tag } :: rest), 0)
        | .curbed m1 => (m1, 0)
        | .moved m1 =>
          let r := Block.moveChan t k fuel (left - 1) ((m1.setChan t k ({ j with tag := none, done := j.done + 1 } :: rest)).beat 1 (128 * t + k))
          (r.1, r.2 + 1)

/- The command channel (R514) -/

/-- The mover of tile `t`'s command channel for a command. -/
def cmdMover (t : Nat) (q : QueueId) : Mover :=
  { code := Master.code (.cmdChan t), mtype := 6, idx := t, tenant := q.tenant, ctx := q.ctx, core := none }

/-- Granules of a COPY command. -/
def Cmd.copyTotal (c : Cmd) : Nat := field (c.p 2) 47 0 / 128

/-- Moves up to `fuel` granules of the COPY that a command channel serves; the number moved comes with the block. -/
def Block.moveCmd (t : Nat) : Nat → Block → Block × Nat
  | 0, m => (m, 0)
  | fuel + 1, m =>
    match (m.tile t).cmdChan with
    | none => (m, 0)
    | some q =>
      match m.running q with
      | none => (m, 0)
      | some c =>
        let d := (m.tile t).cmdDone
        if d ≥ c.copyTotal then (m, 0)
        else match m.moveGranule (cmdMover t q) (some ⟨0, (c.p 0).toNat + 128 * d⟩) ⟨0, (c.p 1).toNat + 128 * d⟩ (m.tile t).cmdTag with
          | .wait m1 tag => (m1.modTile t fun x => { x with cmdTag := tag }, 0)
          | .curbed m1 => (m1, 0)
          | .moved m1 =>
            let r := Block.moveCmd t fuel (m1.modTile t fun x => { x with cmdTag := none, cmdDone := d + 1 })
            (r.1, r.2 + 1)

/-- Engine `e` works on its channel `k` for up to `n` granules of its slice. -/
def Block.sliceWork (m : Block) (t e k n : Nat) : Block :=
  let left := min n ((m.tile t).sliceLeft e)
  let r := if k = 128 then Block.moveCmd t left m else Block.moveChan t k (left + 5) left m
  r.1.modTile t fun x => { x with sliceDone := x.sliceDone.set e (x.sliceDone.getD e 0 + r.2) }

/-- DMA_SLICE_TIMEOUT (R122): an engine works on its channel, `granules` granules at most, through descriptors that complete on the way. When
4 KiB are moved, 25 ticks have passed or no work is left, the slice has ended, and the engine takes the next channel. -/
def dmaSliceTimeoutEffect (tile engine granules : Nat) (m : Block) : Block :=
  match (m.tile tile).engines[engine]? with
  | none => m
  | some none => m.assignEngines tile
  | some (some k) => ((m.sliceWork tile engine k granules).nextSlice tile engine).pumpTile tile

/-- The engine of a tile that serves a channel, its slice not yet over. -/
def Block.copyEngineOf (m : Block) (t k : Nat) : Option Nat :=
  (List.range 4).find? fun e => (m.tile t).engines.getD e none == some k && !m.sliceOver t e k

/-- A COPY ends once its last granule is written, and acknowledged where it went to another module (R514). -/
def Block.endCmd (m : Block) (t : Nat) : Block :=
  match (m.tile t).cmdChan.bind m.running with
  | none => m
  | some c =>
    let dst (d : Nat) : Place := ⟨0, (c.p 1).toNat + 128 * d⟩
    if (m.tile t).cmdDone ≥ c.copyTotal ∧ m.allAcked (Master.code (.cmdChan t)) ∧ m.placed (cmdMover t c.q) dst c.copyTotal then
      ((m.modTile t fun x => { x with cmdChan := none, cmdDone := 0 }).complete c.q 0 0).assignEngines t
    else m

/-- COPY_DESCRIPTOR_COMPLETE (R125): the engine that serves the channel moves what its slice still allows of the first descriptor; once the last
granule is written, and acknowledged where it went to another module, the descriptor completes and its hitch is signalled. -/
def copyDescriptorCompleteEffect (tile channel : Nat) (m : Block) : Block :=
  let m1 := m.assignEngines tile
  let left := if channel = 128 then ((m1.tile tile).cmdChan.bind m1.running).elim 0 fun c => c.copyTotal - (m1.tile tile).cmdDone
    else ((m1.chan tile channel).head?).elim 0 fun j => j.total - j.done
  let m2 := match m1.copyEngineOf tile channel with
    | some e => m1.sliceWork tile e channel left
    | none => m1
  if channel = 128 then m2.endCmd tile
  else if (m2.chan tile channel).length < (m1.chan tile channel).length then m2.pumpTile tile
  else match m2.endHead tile channel with
    | some m3 => m3.pumpTile tile
    | none => m2

/-- COPY_SUBMIT. -/
def execCopySubmit (i : Issue) (channel desc : Nat) (s : State) : Host.Outcome State Fault Refusal :=
  s.commit (copySubmitEffect i channel desc s.m)
/-- DMA_SLICE_TIMEOUT. -/
def execDmaSliceTimeout (tile engine granules : Nat) (s : State) : Host.Outcome State Fault Refusal :=
  s.commit (dmaSliceTimeoutEffect tile engine granules s.m)
/-- COPY_DESCRIPTOR_COMPLETE. -/
def execCopyDescriptorComplete (tile channel : Nat) (s : State) : Host.Outcome State Fault Refusal :=
  s.commit (copyDescriptorCompleteEffect tile channel s.m)

end Sys2Proof.Machine
end

