-- ==== Sys2Proof/Machine/Paging.lean ====
section
/-! DEFINITION. Paging between HBM and the DDR5 tier (R173 to R177): objects, the two queues, segments and engines; the
saddle store (R249 to R258); KV residency (R205, R209, R297). Where an object lies in HBM or in the tier is firmware's choice;
the model takes the lowest place that is free (log entry 21). -/
namespace Sys2Proof.Machine

/- Objects -/

/-- Changes a paging object. -/
def Block.modObj (m : Block) (id : Nat) (f : PageObj → PageObj) : Block :=
  { m with page.objs := mapIf (fun o => o.id == id) f m.page.objs }

/-- Whether an object has a request in either queue. -/
def Block.queued (m : Block) (id : Nat) : Bool := (m.page.urgent ++ m.page.background).any fun r => r.obj == id

/-- DDR_PAGE_RESERVE in bytes. -/
def Block.reserve (m : Block) : Nat := 2 ^ 20 * m.fld Reg.ddrPageReserve 31 0

/-- Whether the bytes of urgent page-ins stay within the reserve with `n` more (R175). -/
def Block.urgentRoom (m : Block) (n : Nat) : Bool := decide ((m.reg Reg.ddrPageUrgent).toNat + n ≤ m.reserve)

/-- Enqueues an urgent page-in, unless the object is already being paged in or the reserve has no room for it now (R174, R175, R255). -/
def Block.pageInUrgent (m : Block) (id : Nat) : Block :=
  match m.obj? id with
  | none => m
  | some o =>
    if o.resident ∨ m.page.urgent.any (fun r => r.obj == id) ∨ !m.urgentRoom o.bytes then m
    else
      let r : PageReq := { obj := id, pageIn := true, since := m.time }
      { m with page.urgent := m.page.urgent ++ [r] }.addFld Reg.ddrPageUrgent 63 0 o.bytes

/-- Enqueues a background page-out. -/
def Block.pageOutLater (m : Block) (id : Nat) : Block :=
  match m.obj? id with
  | none => m
  | some o =>
    if !o.resident ∨ m.queued id then m
    else { m with page.background := m.page.background ++ [{ obj := id, pageIn := false, since := m.time }] }

/-- Moves bytes between two local places, granule by granule, with their poison (R40, R447). -/
def Block.moveBytes (m : Block) (src dst n : Nat) : Block :=
  (pieces src n).foldl
    (fun m oc =>
      let m1 := m.correct (src + oc.1) oc.2
      m1.homeWriteP (dst + oc.1) (m1.readMem (src + oc.1) oc.2) (m1.poisoned (src + oc.1) oc.2))
    m

/-- Local address of a tier offset. -/
def tierAddr (off : Nat) : Nat := 0x100000000000 + off

/-- Where block `k` of an object comes from. -/
def blockSource (o : PageObj) (pageIn : Bool) (k : Nat) : Nat := if pageIn then tierAddr (o.tier + 0x1000 * k) else o.hbm + 0x1000 * k

/-- Moves segment `j` of the part of an object that lies in channel `e`. -/
def Block.moveSegment (m : Block) (o : PageObj) (pageIn : Bool) (e j : Nat) : Block :=
  (m.segBlocks o e j).foldl (fun m k => m.moveBytes (blockSource o pageIn k) (blockSource o (!pageIn) k) (blockBytesOf o k)) m

/-- The lowest multiple of `unit` at which `n` bytes fit below `top` beside the runs in use. -/
def lowestFree (unit top n : Nat) (used : List (Nat × Nat)) : Option Nat :=
  ((0 :: used.map fun u => roundUp (u.1 + u.2) unit).filter fun a => decide (a + n ≤ top) && used.all fun u => !overlaps a n u.1 u.2).foldl
    (fun r a => match r with
      | none => some a
      | some x => some (min x a))
    none

/-- The tier places of the objects. -/
def Block.tierUsed (m : Block) : List (Nat × Nat) := m.page.objs.map fun o => (o.tier, roundUp o.bytes 0x1000)

/-- A place in the tier for an object. -/
def Block.freeTier (m : Block) (bytes : Nat) : Nat :=
  (lowestFree 0x1000 (2 ^ 64) (roundUp bytes 0x1000) m.tierUsed).getD 0

/-- Whether the tier has a place for an object. -/
def Block.tierFits (m : Block) (bytes : Nat) : Bool :=
  decide (m.freeTier bytes + roundUp bytes 0x1000 ≤ 2 ^ 30 * m.fld Reg.ddrTierStatus 31 0)

/-- A new paging object, with a tier place of its own. -/
def Block.newObj (m : Block) (kind : ObjKind) (tenant hbm bytes : Nat) (resident : Bool) : Nat × Block :=
  let id := m.page.nextObj
  let o : PageObj := { id := id, kind := kind, tenant := tenant, hbm := hbm, tier := m.freeTier bytes, bytes := bytes, resident := resident }
  (id, { m with page.objs := m.page.objs ++ [o], page.nextObj := id + 1 })

/- HBM -/

/-- Bytes of the present stacks. -/
def Block.hbmBytes (m : Block) : Nat := 2 ^ 36 * m.stackCount

/-- HBM in use: tenants' ranges, regions that wait for their scrub, retired pages, failed stacks, firmware's own area. -/
def Block.hbmUsed (m : Block) : List (Nat × Nat) :=
  let ranges := m.cmd.ranges.map fun r => (r.base, r.size)
  let scrubs := m.cmd.scrubs.map fun s => (s.base, s.size)
  let retired := (m.flt.wear.filter fun w => w.about == 4).map fun w => (w.from_, 0x200000)
  let failed := m.flt.failedStacks.map fun s => (2 ^ 36 * s, 2 ^ 36)
  ((0x1E00000000, 0x200000000) :: ranges ++ scrubs ++ retired ++ failed).filter fun u => decide (u.1 < m.hbmBytes)

/-- A run of free whole pages for a saddle image (R166, R251). -/
def Block.freeHbm (m : Block) (bytes : Nat) : Option Nat := lowestFree 0x200000 m.hbmBytes (roundUp bytes 0x200000) m.hbmUsed

/-- Bytes of free HBM. -/
def Block.hbmFree (m : Block) : Nat := m.hbmBytes - total (m.hbmUsed.map (·.2))

/- Saddles -/

/-- Pages at an address are assigned to a saddle version: the line caches are invalidated (R144), the pages join its tenant's ranges (R251)
and are zero-filled under its key (R163). -/
def Block.assignPages (m : Block) (tenant uid a bytes : Nat) : Block :=
  let n := roundUp bytes 0x200000
  let r : Range := { tenant := tenant, idx := 64 + uid, base := a, size := n, readers := 0, r := true, w := true, fabricIn := false }
  let m1 := m.invalidateAll
  ({ m1 with cmd.ranges := m1.cmd.ranges ++ [r] }).clearMem a n

/-- Changes the saddle versions that a test selects. -/
def Block.modSaddle (m : Block) (p : Saddle → Bool) (f : Saddle → Saddle) : Block :=
  { m with page.saddles := mapIf p f m.page.saddles }

/-- The version of a handle that new commands bind (R252, R253). -/
def Block.saddle? (m : Block) (tenant handle : Nat) : Option Saddle :=
  m.page.saddles.find? fun s => s.tenant == tenant && s.handle == handle && !s.old && !s.retiring

/-- A bound version. -/
def Block.saddleAt? (m : Block) (tenant handle uid : Nat) : Option Saddle :=
  m.page.saddles.find? fun s => s.tenant == tenant && s.handle == handle && s.uid == uid

/-- The lowest free slot. -/
def Block.freeSlot (m : Block) : Option Nat :=
  (List.range (m.fld Reg.sadCfg 47 32)).find? fun i => !m.page.saddles.any fun s => s.slot == some i

/-- Bytes of the HBM store in use. -/
def Block.slotBytes (m : Block) : Nat := total ((m.page.saddles.filter Saddle.inHbm).map fun s => roundUp s.bytes 0x200000)

/-- Whether the HBM store has room for an image (R251). -/
def Block.storeFits (m : Block) (bytes : Nat) : Bool :=
  decide (m.slotBytes + roundUp bytes 0x200000 ≤ 2 ^ 30 * m.fld Reg.sadCfg 31 16)

/-- Bytes of the tier store in use: the copies that are there or being written (R257). -/
def Block.tierBytes (m : Block) : Nat := total ((m.page.saddles.filter fun s => s.tierOff.isSome).map (·.bytes))

/-- Whether the tier store has room for a copy. -/
def Block.tierStoreFits (m : Block) (bytes : Nat) : Bool :=
  m.tuning && decide (m.tierBytes + bytes ≤ 2 ^ 30 * m.fld Reg.sadCfg 15 0)

/-- The saddle that is evicted first: unpinned, resident, dispatched least recently (R254). One without a copy in the tier can go only where
the tier store has room for one (R257). -/
def Block.evictable (m : Block) : Option Saddle :=
  (m.page.saddles.filter fun s => s.state == .resident && !m.pinned s && (s.tierOff.isSome || m.tierStoreFits s.bytes)).foldl
    (fun b s => match b with
      | none => some s
      | some x => if s.lastRun < x.lastRun then some s else b)
    none

/-- A saddle leaves its slot for the tier copy, which is current. -/
def Block.leaveSlot (m : Block) (s : Saddle) : Block :=
  let m1 := m.dropPages s
  let m2 := match m1.saddleObj s with
    | some o => m1.modObj o.id fun o => { o with resident := false }
    | none => m1
  (m2.modSaddle (fun x => x.uid == s.uid) fun x => { x with state := .paged, slot := none }).addFld Reg.sadEvict 63 0 1

/-- Eviction (R254): a saddle whose tier copy is current leaves its slot without writing; another is first paged out in the background. -/
def Block.evict (m : Block) (s : Saddle) : Block :=
  if s.tierCurrent then m.leaveSlot s
  else match m.saddleObj s with
    | some o => (m.modSaddle (fun x => x.uid == s.uid) fun x => { x with tierOff := some o.tier }).pageOutLater o.id
    | none => m

/-- A slot with room in the HBM store for an image, after evictions where they are needed; none while they are under way or nothing can be
evicted. `fuel` bounds the evictions. -/
def Block.makeSlot (bytes : Nat) : Nat → Block → Option Nat × Block
  | 0, m => (none, m)
  | fuel + 1, m =>
    match m.freeSlot, m.storeFits bytes, m.evictable with
    | some i, true, _ => (some i, m)
    | _, _, none => (none, m)
    | _, _, some s => if s.tierCurrent then Block.makeSlot bytes fuel (m.evict s) else (none, m.evict s)

/-- Whether every slot holds a pinned saddle (R255). -/
def Block.slotsPinned (m : Block) : Bool :=
  decide (m.fld Reg.sadCfg 47 32 ≤ (m.page.saddles.filter fun s => s.slot.isSome && m.pinned s).length)

/-- Starts the page-in of a bound version that is PAGED: pages, an urgent request, and a slot as soon as there is one (R255). It waits while
every slot holds a pinned saddle, and while the reserve has no room (R175). -/
def Block.loadSaddle (m : Block) (s : Saddle) : Block :=
  match m.saddleObj s, m.freeHbm s.bytes with
  | some o, some a =>
    if s.state ≠ .paged ∨ m.slotsPinned ∨ !m.urgentRoom s.bytes then m
    else
      let k := Block.makeSlot s.bytes (m.page.saddles.length + 1) m
      let m1 := (k.2.assignPages s.tenant s.uid a s.bytes).modSaddle (fun x => x.uid == s.uid)
        fun x => { x with state := .loading, slot := k.1, addr := a }
      (m1.modObj o.id fun o => { o with hbm := a }).pageInUrgent o.id
  | _, _ => m

/-- The bound versions of a command. -/
def Block.boundSaddles (m : Block) (c : Cmd) : List Saddle := c.binds.filterMap fun b => m.saddleAt? c.q.tenant b.1 b.2

/-- Whether every bound saddle is RESIDENT (R255). -/
def Block.saddlesReady (m : Block) (c : Cmd) : Bool := (m.boundSaddles c).all fun s => s.state == .resident

/-- Starts what a command's bound saddles need. -/
def Block.loadBound (m : Block) (c : Cmd) : Block :=
  (m.boundSaddles c).foldl (fun m s => match m.saddleAt? s.tenant s.handle s.uid with
    | some x => m.loadSaddle x
    | none => m) m

/- The saddle table (R245, R246) -/

/-- Word `w` of entry `i` of a saddle table. -/
def Block.tableWord (m : Block) (addr i w : Nat) : Word := m.fwWord (localPart addr + 32 * i + 8 * w)

/-- A table row: handle, first row, rows. -/
def Block.tableRow (m : Block) (addr i : Nat) : Nat × Nat × Nat :=
  (field (m.tableWord addr i 0) 63 32, field (m.tableWord addr i 0) 23 0, field (m.tableWord addr i 1) 63 48)

/-- Whether rows ascend strictly, do not overlap and end in time. -/
def rowsOk (limit : Nat) : List (Nat × Nat × Nat) → Bool
  | [] => true
  | [r] => decide (1 ≤ r.2.2) && decide (r.2.1 + r.2.2 ≤ limit)
  | r :: s :: rest => decide (1 ≤ r.2.2) && decide (r.2.1 < s.2.1) && decide (r.2.1 + r.2.2 ≤ s.2.1) && rowsOk limit (s :: rest)

/-- The check of a saddle table (R246); a handle whose saddle is LOST is registered. -/
def Block.tableBad (m : Block) (tenant addr count rows : Nat) : Bool :=
  if count = 0 ∨ count > 4096 ∨ addr % 128 ≠ 0 ∨ (m.remoteNode addr).isSome then true
  else
    let rs := (List.range count).map (m.tableRow addr)
    let reserved := (List.range count).any fun i =>
      field (m.tableWord addr i 0) 31 24 != 0 || field (m.tableWord addr i 1) 21 0 != 0 || m.tableWord addr i 3 != 0
    reserved || !rowsOk rows rs || decide ((rs.map (·.1)).dedup.length > 1024) ||
      rs.any fun r => (m.saddle? tenant r.1).isNone

/-- The versions that a table binds: one for each distinct handle. -/
def Block.tableBinds (m : Block) (tenant addr count : Nat) : List (Nat × Nat) :=
  (((List.range count).map fun i => (m.tableRow addr i).1).dedup).filterMap fun h =>
    (m.saddle? tenant h).map fun s => (h, s.uid)

/-- The saddle bound to entry `i` of a command's table, as it was found at admission (R248). -/
def Block.entrySaddle (m : Block) (c : Cmd) (i : Nat) : Option Saddle :=
  (c.rows[i]?).bind fun h => (c.binds.find? fun b => b.1 == h).bind fun b => m.saddleAt? c.q.tenant b.1 b.2

/-- Firmware's part of a table: VERSION, SLOT and DESC_ADDR of every entry (R245, R247), by the saddles found at admission (R248). -/
def Block.fillTable (m : Block) (c : Cmd) (addr count : Nat) : Block :=
  (List.range count).foldl
    (fun m i =>
      match m.entrySaddle c i with
      | none => m
      | some s =>
        let w1 := putField (putField (m.tableWord addr i 1) 47 32 s.version) 31 22 (s.slot.getD 0)
        let a := localPart addr + 32 * i
        (m.homeWrite (a + 8) (leBytes 8 w1.toNat)).homeWrite (a + 16) (leBytes 8 (0xFFF * 2 ^ 48 + s.addr)))
    m

/- KV residency (R205, R209, R297) -/

/-- The page-table entries that one KV residency entry names: their local addresses; none when a table is not in this
module or an entry field is out of range (Table 12.5). -/
def Block.kvEntries (m : Block) (e : List Byte) : Option (List Nat) :=
  let la := leAt e 0 8
  let sc := leAt e 8 2
  let gt := leAt e 10 1
  let layers := leAt e 12 4
  if sc = 0 ∨ gt = 0 ∨ leAt e 11 1 ≠ 0 ∨ layers = 0 ∨ layers > 65535 ∨ leAt e 16 16 ≠ 0 ∨ (m.remoteNode la).isSome then none
  else
    let seqs := (List.range sc).map fun s =>
      let base := localPart la + 32 * s
      (field (m.fwWord (base + 8)) 63 44, (m.fwWord (base + 16)).toNat)
    if seqs.any fun x => (m.remoteNode x.2).isSome then none
    else some (seqs.flatMap fun x => (List.range (layers * gt * x.1)).map fun i => localPart x.2 + 8 * i)

/-- The entries that a command's KV list names. -/
def Block.kvList (m : Block) (payload : List Byte) (count : Nat) : Option (List Nat) :=
  (List.range count).foldl
    (fun acc i => match acc, m.kvEntries (slice payload (512 + 32 * i) 32) with
      | some l, some k => some (l ++ k)
      | _, _ => none)
    (some [])

/-- A page-table entry. -/
def Block.kvEntry (m : Block) (a : Nat) : Word := m.fwWord a

/-- The object behind a non-resident entry (R209): its handle is the object's id. -/
def Block.kvObj (m : Block) (a : Nat) : Option PageObj :=
  m.page.objs.find? fun o => o.kind == .kvPage a && o.id == field (m.kvEntry a) 47 0

/-- Non-resident entries of a list, valid ones alone. -/
def Block.kvAbsent (m : Block) (l : List Nat) : List Nat :=
  l.filter fun a => bit (m.kvEntry a) 63 && !bit (m.kvEntry a) 62

/-- The page sizes of Table 8.4. -/
def kvSizes : List Nat := [4096, 8192, 16384, 32768]

/-- Firmware notes a resident page that a command names as an object it may page out. An object of the entry that stands for another page is
forgotten: host software has written the entry since (R209). How firmware learns a page's size, the manual does not say: the size is a free
choice of Table 8.4 (log entry 22). -/
def Block.noteKv (m : Block) (tenant a : Nat) : Block :=
  let e := m.kvEntry a
  if !bit e 63 ∨ !bit e 62 ∨ m.page.objs.any (fun o => o.kind == .kvPage a && o.resident && o.hbm == field e 47 0) then m
  else
    let m1 := (m.page.objs.filter fun o => o.kind == .kvPage a).foldl (fun m o => m.dropObj o.id) m
    let d := m1.draw
    let n := kvSizes.getD (d.1.toNat % 4) 4096
    if m1.tierFits n then (d.2.newObj (.kvPage a) tenant (field e 47 0) n true).2 else d.2

/-- A broken handle: the tier copy, if any, is discarded and VALID cleared (R209). -/
def Block.kvBreak (m : Block) (a : Nat) : Block :=
  let m1 := (m.page.objs.filter fun o => o.kind == .kvPage a).foldl (fun m o => m.dropObj o.id) m
  m1.homeWrite a (leBytes 8 (putBit (m.kvEntry a) 63 false).toNat)

/- The bound of a page-in (R176, R328) -/

/-- The time within which urgent page-ins of `s` bytes complete behind `b` queued bytes. -/
def Block.pageTime (m : Block) (b s : Nat) : Nat :=
  m.fld Reg.ddrPageTpg 31 0 + m.fld Reg.ddrPageSeg 31 0 + ceilDiv (25 * (b + s)) (m.fld Reg.ddrPageRate 31 0)

/- What commands keep in HBM -/

/-- The page-table entries that an accepted TASK_RUN names: those it was bound to, or until then those its KV list names (R209). -/
def Block.kvNames (m : Block) (c : Cmd) : List Nat :=
  if c.bound || c.opcode ≠ 0x102 then c.kv
  else (m.kvList (m.fwBytes (localPart (wordAt c.packet 2).toNat) (field (wordAt c.packet 3) 31 0)) (field (c.p 3) 63 48)).getD []

/-- Whether an accepted command keeps an object in HBM (R177, R209, R254). -/
def Block.objPinned (m : Block) (o : PageObj) : Bool :=
  match o.kind with
  | .saddle t h v => (m.saddleAt? t h v).any m.pinned
  | .kvPage a => m.cmd.cmds.any fun c => (m.kvNames c).contains a
  | .other t => m.cmd.cmds.any fun c => c.q.tenant == t

/- Engines -/

/-- The first request of a queue of which an engine has a segment still to move. -/
def Block.openReq (m : Block) (e : Nat) (l : List PageReq) : Option PageReq :=
  l.find? fun r => (m.obj? r.obj).any fun o => decide (Tbl.getD 0 r.done e < m.objSegs o e)

/-- An engine's next segment by R174: urgent before background, first in first out. Every engine moves the part of an object that lies in
its own channel (R173). -/
def Block.nextSegment (m : Block) (e : Nat) : Option (Nat × Bool × Nat) :=
  match m.openReq e m.page.urgent with
  | some r => some (r.obj, true, Tbl.getD 0 r.done e)
  | none => (m.openReq e m.page.background).map fun r => (r.obj, false, Tbl.getD 0 r.done e)

/-- An engine takes the next segment, while the tier is up; its watchdog's window begins (R448). -/
def Block.takeSegment (m : Block) (e : Nat) : Block :=
  match if m.fld Reg.ddrTierStatus 63 63 = 0 ∨ !m.channels.contains e then none else m.nextSegment e with
  | none => { m with page.engines := Tbl.drop m.page.engines e }
  | some x => { m with page.engines := Tbl.put m.page.engines e x }.beat 7 e

/-- The end of a page-out: the object leaves HBM, unless a command has come to name it meanwhile; then only the tier copy is current (R177). A
saddle's slot is freed; a page-table entry takes the handle (R205, R254). -/
def Block.pagedOut (m : Block) (o : PageObj) : Block :=
  let m1 := { m with page.background := m.page.background.filter fun r => r.obj != o.id }
  match o.kind with
  | .saddle t h v =>
    match m1.saddleAt? t h v with
    | none => m1
    | some x =>
      let m2 := m1.modSaddle (fun s => s.uid == x.uid && s.state == .resident) fun s => { s with tierCurrent := true, tierOff := some o.tier }
      if m.objPinned o ∨ x.state ≠ .resident then m2 else m2.leaveSlot x
  | .kvPage a =>
    if m.objPinned o then m1
    else (m1.modObj o.id fun o => { o with resident := false }).homeWrite a (leBytes 8 (putField (putField (m1.kvEntry a) 62 62 0) 47 0 o.id).toNat)
  | .other _ => if m.objPinned o then m1 else m1.modObj o.id fun o => { o with resident := false }

/-- Counts a segment that an engine has moved. -/
def countSegment (id e : Nat) (l : List PageReq) : List PageReq :=
  mapIf (fun r => r.obj == id) (fun r => { r with done := Tbl.put r.done e (Tbl.getD 0 r.done e + 1) }) l

/-- An engine has moved a segment of a request; the last one of a page-out ends it. -/
def Block.segmentMoved (m : Block) (o : PageObj) (r : PageReq) (urgent : Bool) (e k : Nat) : Block :=
  let m1 := m.moveSegment o r.pageIn e k
  let m2 := if urgent then
      { m1 with page.urgent := countSegment o.id e m1.page.urgent }.setFld Reg.ddrPageUrgent 63 0
        ((m1.reg Reg.ddrPageUrgent).toNat - m.segBytes o e k)
    else { m1 with page.background := countSegment o.id e m1.page.background }
  if !r.pageIn && m.reqDone o { r with done := Tbl.put r.done e (k + 1) } then m2.pagedOut o else m2

/-- PAGING_SEGMENT_COMPLETE (R174): an engine's segment is moved and it takes the next. An engine without a segment takes one. -/
def pagingSegmentCompleteEffect (engine : Nat) (m : Block) : Block :=
  match m.page.engines.find? fun e => e.1 == engine with
  | none => m.takeSegment engine
  | some (_, id, urgent, k) =>
    match m.obj? id, (if urgent then m.page.urgent else m.page.background).find? fun r => r.obj == id with
    | some o, some r =>
      let busy := (m.segBlocks o engine k).filter fun b => m.heldExclusive (blockSource o r.pageIn b) (blockBytesOf o b)
      if busy.isEmpty then (m.segmentMoved o r urgent engine k).takeSegment engine
      else busy.foldl (fun m b => m.snoopReads (blockSource o r.pageIn b) (blockBytesOf o b)) m
    | _, _ => m.takeSegment engine

/-- PAGE_OUT (R174, R175, R177): a background page-out of an object that no command references. Of the saddles, the one that R254 evicts
first. -/
def pageOutEffect (id : Nat) (m : Block) : Block :=
  if m.fld Reg.ddrTierStatus 63 63 = 0 then m
  else match m.obj? id with
    | none => m
    | some o =>
      if m.objPinned o then m
      else match o.kind with
        | .saddle t h v =>
          match m.saddleAt? t h v with
          | some s => if m.evictable = some s then m.evict s else m
          | none => m
        | _ => m.pageOutLater id

/-- PATROL_SCRUB (R161, R171): every granule of a stack, or of a channel of the tier (32 on), is read and corrected; the end of a stack's
patrol is noted. -/
def patrolScrubEffect (stack : Nat) (m : Block) : Block :=
  if stack ≥ 32 then
    (m.ecc.filter fun e => m.region (128 * e.1) == .tier && m.tierChannel (128 * e.1) == stack - 32).foldl (fun m e => m.findError e) m
  else if stack ≥ m.stackCount ∨ m.flt.failedStacks.contains stack then m
  else (m.correct (stack * 0x1000000000) 0x1000000000).setReg (Reg.hbmScrub stack) (BitVec.ofNat 64 m.time)

/-- PAGING_SEGMENT_COMPLETE. -/
def execPagingSegmentComplete (engine : Nat) (s : State) : Host.Outcome State Fault Refusal :=
  s.commit (pagingSegmentCompleteEffect engine s.m)
/-- PAGE_OUT. -/
def execPageOut (obj : Nat) (s : State) : Host.Outcome State Fault Refusal := s.commit (pageOutEffect obj s.m)
/-- PATROL_SCRUB. -/
def execPatrolScrub (stack : Nat) (s : State) : Host.Outcome State Fault Refusal := s.commit (patrolScrubEffect stack s.m)

end Sys2Proof.Machine
end

