-- ==== Sys2Proof/Machine/Queues.lean ====
section
/-! DEFINITION. Submission queues: doorbells (R291), packet checks (R293 to R296), fetching (R292), admission to the pace guarantee
(R320 to R328), and dispatch order (R302, R303). -/
namespace Sys2Proof.Machine

/-- The stud book's room (R459). -/
def bookRoom : Nat := 1048576

/-- Entries that the stud book holds: accepted commands whose record has not reached its home (R459). -/
def Block.booked (m : Block) : Nat :=
  m.cmd.cmds.length + total (m.cmd.queues.map fun q => (q.held.filter fun h => h.entry.isSome).length)

/-- Whether firmware runs and starts work: the module is not in M2 (R431), in recovery (R333) or in reset. -/
def Block.fwRuns (m : Block) : Bool :=
  m.pwr.powered && m.fw.fwUp && m.pwr.pstate != 2 && m.pwr.recovery.isNone && m.pwr.rst.isNone

/-- Whether firmware serves queues now: an activation has not stopped fetching either (Table 16.4). -/
def Block.serving (m : Block) : Bool := m.fwRuns && !m.fw.fetchStop

/-- Whether firmware takes work from a context's queues: it exists and is neither revoked, held (R444) nor being torn down
(Table 12.10). -/
def Block.ctxOpen (m : Block) (t c : Nat) : Bool :=
  match m.context? t c with
  | some x => !x.revoked && !x.held && x.tear.isNone
  | none => false

/-- The system admin queue (R288). -/
def isSystem (q : QueueId) : Bool := q.tenant == 0 && q.ctx == 0 && q.queue == 0
/-- A tenant's admin queue (R288). -/
def isAdmin (q : QueueId) : Bool := q.ctx == 0 && q.queue == 0

/- Packets -/

/-- Where Table 12.4 allows an opcode. -/
inductive Allowed where
  | any | system | admin | work
  deriving DecidableEq, Repr

/-- Table 12.4: where an opcode is allowed, whether PACED may carry it, and the bits of P0 to P3 that it names. -/
def opcodeRow (op : Nat) : Option (Allowed × Bool × List Nat) :=
  let all := 2 ^ 64 - 1
  match op with
  | 0x0000 => some (.any, true, [0, 0, 0, 0])
  | 0x0010 => some (.system, false, [all, all, 0x0FF0000000000000, 0x1F])
  | 0x0011 => some (.system, false, [0, 0, 0, 0x1F])
  | 0x0012 => some (.system, false, [0, 0, 0, 0])
  | 0x0013 => some (.system, false, [all, all, 0xFFFFFFFF0000000B, 0x3F1F])
  | 0x0014 => some (.system, false, [0, 0, 0, 0x3F1F])
  | 0x0015 => some (.system, false, [0x1F3F, 0, 0, 0])
  | 0x0020 => some (.admin, false, [0x07FF00FF, 0xFFFF0000, 0x1FFFF0000, 0x7FF000])
  | 0x0021 => some (.admin, false, [0xFF, 0, 0, 0])
  | 0x0022 => some (.admin, false, [0xFF, 0, 0, 0])
  | 0x0023 => some (.admin, false, [all, all, 0x0FFEFFF000000000, 0xFFFFFFFFFF])
  | 0x0024 => some (.admin, false, [0xFFF, 0, 0, 0])
  | 0x0025 => some (.admin, false, [0xF00FFF00000000FF, 0xFF, 0, 0])
  | 0x0026 => some (.admin, false, [0xF00FFF00000000FF, 0xFF, 0, 0])
  | 0x0100 => some (.work, false, [0xFFFF, 0xFFFFFFFF, 0, 0])
  | 0x0101 => some (.work, false, [0xFFFFFFFF, 0, 0, 0])
  | 0x0102 => some (.work, true, [0xFFFFFFFF00000000, all, 0xFFFFFFFFFF000000, 0xFFFF000000000000])
  | 0x0103 => some (.work, true, [0x3FF, all, 0, 0])
  | 0x0104 => some (.work, true, [all, all, 0xFFFFFFFFFFFF, 0])
  | 0x0110 => some (.work, false, [0, 0, 0, 0])
  | 0x0111 => some (.work, false, [0xFFFFFFFF, 0, 0, 0])
  | 0x0112 => some (.work, false, [0xFFFFFFFF, 0, 0, 0])
  | 0x0120 => some (.work, false, [all, 0x1FFFFF, 0, 0])
  | 0x0130 => some (.work, true, [all, 0, 0, 0])
  | _ => none

/-- A field of a packet's header word or parameter. -/
def Cmd.payloadAddr (c : Cmd) : Nat := (wordAt c.packet 2).toNat
/-- PAYLOAD_BYTES. -/
def Cmd.payloadBytes (c : Cmd) : Nat := field (wordAt c.packet 3) 31 0

/-- Whether the payload lies wholly in ranges that grant the tenant R (R294). -/
def Block.payloadOk (m : Block) (c : Cmd) : Bool :=
  c.payloadBytes == 0 ||
    (c.payloadAddr < 2 ^ 60 && (m.remoteNode c.payloadAddr).isNone &&
      m.rangeOk c.q.tenant (localPart c.payloadAddr) c.payloadBytes false false)

/-- Whether a run of bytes lies wholly in host memory. -/
def inHost (a n : Nat) : Bool := decide (hostBase ≤ a) && decide (a + n ≤ 2 * hostBase)

/-- Ranges of opcode parameters beyond their bit positions: alignments, sizes and limits that Table 12.4 and its rules state. -/
def Block.paramsOk (m : Block) (c : Cmd) (paced : Bool) : Bool :=
  let p (i : Nat) : Nat := (c.p i).toNat
  let f (i hi lo : Nat) : Nat := field (c.p i) hi lo
  let host (a n : Nat) : Bool := a < 2 ^ 60 && (m.remoteNode a).isNone && inHost (localPart a) n
  let logs (sq cq : Nat) : Bool := 4 ≤ sq && decide (sq ≤ 12) && decide (sq ≤ cq) && decide (cq ≤ 12)
  match c.opcode with
  | 0x0010 => p 0 % 4096 == 0 && p 1 % 4096 == 0 && host (p 0) (64 * 2 ^ f 2 59 56) && host (p 1) (32 * 2 ^ f 2 55 52) && logs (f 2 59 56) (f 2 55 52) && p 3 != 0
  | 0x0011 => p 3 != 0
  | 0x0013 => p 0 % 0x200000 == 0 && p 1 % 0x200000 == 0 && p 1 != 0
  | 0x0020 => f 0 7 0 != 0 && f 0 26 16 ≤ 1024 && f 2 32 16 ≤ 65536 && f 3 22 12 ≤ 1536 && 8 * f 0 26 16 ≤ f 2 32 16 * 65536 &&
      decide (f 1 31 16 + f 2 32 16 ≤ m.tileCount * 4096)
  | 0x0021 => p 0 != 0
  | 0x0022 => p 0 != 0
  | 0x0023 => p 0 % 4096 == 0 && p 1 % 4096 == 0 && logs (f 2 59 56) (f 2 55 52)
  | 0x0025 => f 0 63 60 ≤ 4
  | 0x0026 => f 0 63 60 ≤ 4
  | 0x0100 => f 0 15 0 ≤ 4096 && f 1 31 0 % 128 == 0 && decide (f 1 31 0 ≥ 0x280 + 2 * f 0 15 0)
  | 0x0102 => decide (f 3 63 48 ≤ 64) && (p 1 != 0 || f 2 63 24 == 0) &&
      (if c.payloadBytes = 0 then f 3 63 48 == 0 else c.payloadBytes == 512 + 32 * f 3 63 48)
  | 0x0104 => p 0 % 128 == 0 && p 1 % 128 == 0 && p 2 % 128 == 0
  | 0x0120 => p 0 % 128 == 0 && 1 ≤ f 1 15 0 && decide (f 1 15 0 ≤ 4096)
  | 0x0130 => p 0 % 128 == 0
  | _ => !paced || true

/-- Whether a packet breaks Table 12.3 or its opcode's parameters (R294). `paced`: the queue's class is PACED. -/
def Block.packetBad (m : Block) (c : Cmd) (paced : Bool) : Bool :=
  let w0 := wordAt c.packet 0
  let addr := c.payloadAddr
  let n := c.payloadBytes
  match opcodeRow c.opcode with
  | none => true
  | some (_, _, masks) =>
    let masks := if paced && c.opcode == 0x0102 then masks.set 3 0xFFFF00FFFFFFFFFF else masks
    field w0 45 32 != 0 || field (wordAt c.packet 3) 63 32 != 0 || (!paced && c.deadline != 0) || addr % 128 != 0 ||
      decide (n > 0x1000000) || ((n == 0) != (addr == 0)) ||
      (List.range 4).any (fun i => (c.p i).toNat ||| masks.getD i 0 != masks.getD i 0) ||
      !m.paramsOk c paced || !m.payloadOk c

/-- The unit that a packet names, by the kinds of RESOURCE_ASSIGN: out of the map's range is malformed (`none`), else whether
it is present (R8, R9). -/
def Block.unitPresent (m : Block) (kind unit idx : Nat) : Option Bool :=
  match kind with
  | 0 => if unit < 16 ∧ idx < 128 then some (decide (unit < m.tileCount)) else none
  | 1 => if unit < 16 ∧ idx < 32 then some (decide (unit < m.tileCount)) else none
  | 2 => if unit < 16 ∧ idx < 8 then some (decide (unit < m.tileCount)) else none
  | 3 => if unit < 32 ∧ idx < 4 then some (m.tuning && decide (unit < m.stackCount)) else none
  | _ => if unit = 0 then some m.tuning else none

/-- The status with which a packet completes when it is fetched, if it does (R9, R294, R296). -/
def Block.fetchStatus (m : Block) (c : Cmd) (paced : Bool) : Option Nat :=
  if m.packetBad c paced then some 2
  else
    let unit := if c.opcode = 0x25 ∨ c.opcode = 0x26 then m.unitPresent (field (c.p 0) 63 60) (field (c.p 0) 51 40) (field (c.p 0) 7 0)
      else if c.opcode = 0x120 then some (m.tuning && decide (field (c.p 1) 20 16 < m.stackCount))
      else some true
    match unit with
    | none => some 2
    | some false => some 1
    | some true =>
      match opcodeRow c.opcode with
      | none => some 2
      | some (al, _, _) =>
        let ok := match al with
          | .any => true
          | .system => isSystem c.q
          | .admin => isAdmin c.q
          | .work => !isAdmin c.q
        if paced || ok then none else some 3

/- Fetching -/

/-- The packet at a queue's head, and the head after it. -/
def Block.peekPacket (m : Block) (q : Queue) : Packet × Nat :=
  (leWords 8 (m.fwBytes (localPart q.sqBase + 64 * q.sqHead) 64), (q.sqHead + 1) % 2 ^ q.log2Sq)

/-- Completes a packet that is not accepted: its record is delivered at once (R292, R294). -/
def Block.refusePacket (m : Block) (c : Cmd) (status result : Nat) : Block :=
  m.deliver c.q (c.record m.time status result) (bit (wordAt c.packet 0) 46)

/-- The payload of a command, read once (R294). -/
def Block.readPayload (m : Block) (c : Cmd) : List Byte := m.fwBytes (localPart c.payloadAddr) c.payloadBytes

/-- Firmware's read of a command's payload meets the errors there (R161, R162). -/
def Block.sightPayload (m : Block) (c : Cmd) : Block := m.correct (localPart c.payloadAddr) c.payloadBytes

/-- What the saddle table of a TASK_RUN binds, checked once at admission (R246): a version for each handle, and the handle of every entry; or
the status with which the command completes. -/
def Block.saddleNeeds (m : Block) (c : Cmd) : Except Nat (List (Nat × Nat) × List Nat) :=
  let addr := (c.p 1).toNat
  let count := field (c.p 2) 63 48
  if c.opcode ≠ 0x102 ∨ addr = 0 then .ok ([], [])
  else if m.tableBad c.q.tenant addr count (field (c.p 2) 47 24) then .error 4
  else
    let binds := m.tableBinds c.q.tenant addr count
    if binds.any fun b => (m.saddleAt? c.q.tenant b.1 b.2).any fun s => s.state == .lost then .error 9
    else .ok (binds, (List.range count).map fun i => (m.tableRow addr i).1)

/-- Firmware's read of a saddle table meets the errors there (R161, R162). -/
def Block.sightTable (m : Block) (c : Cmd) : Block :=
  if c.opcode ≠ 0x102 ∨ c.p 1 = 0 then m else m.correct (localPart (c.p 1).toNat) (32 * field (c.p 2) 63 48)

/-- The pages that the KV list of a TASK_RUN names, or the status with which the command completes (R297). -/
def Block.kvNeeds (m : Block) (c : Cmd) (payload : List Byte) : Except Nat (List Nat) :=
  if c.opcode ≠ 0x102 then .ok []
  else match m.kvList payload (field (c.p 3) 63 48) with
    | none => .error 4
    | some kv => .ok kv

/-- Firmware's reads of length tables and page-table entries meet the errors there (R161, R162). -/
def Block.sightKv (m : Block) (c : Cmd) (payload : List Byte) (kv : List Nat) : Block :=
  let m1 := (List.range (field (c.p 3) 63 48)).foldl
    (fun m i => m.correct (localPart (leAt payload (512 + 32 * i) 8)) (32 * leAt payload (520 + 32 * i) 2)) m
  kv.foldl (fun m a => m.correct a 8) m1

/-- Holds are over for commands whose saddles are all RESIDENT; the longest is kept (R255, R259). -/
def Block.endHolds (m : Block) : Block :=
  let over_ (c : Cmd) : Bool := c.heldAt.isSome && m.saddlesReady c
  let longest := (m.cmd.cmds.filter over_).foldl (fun k c => max k (m.time - c.heldAt.getD m.time)) (m.reg Reg.sadHoldMax).toNat
  { m.setReg Reg.sadHoldMax (BitVec.ofNat 64 longest) with cmd.cmds := mapIf over_ (fun c => { c with heldAt := none }) m.cmd.cmds }

/-- Starts the page-ins that a newly admitted command's saddles need (R255). -/
def Block.admitSaddles (m : Block) (c : Cmd) : Block :=
  { m with cmd.cmds := mapIf c.same (fun c => { c with heldAt := some m.time }) m.cmd.cmds }.loadBound c |>.endHolds

/-- Starts what held commands still need (R255). -/
def Block.loadHeld (m : Block) : Block := (m.cmd.cmds.filter fun c => c.heldAt.isSome).foldl Block.loadBound m

/-- Accepts a packet of a class below PACED: it enters the stud book, and its saddle table is checked and bound (R246, R254, R255). -/
def Block.accept (m : Block) (c : Cmd) : Block :=
  let m1 := m.sightTable c
  match m1.saddleNeeds c with
  | .error st => m1.refusePacket c st 0
  | .ok b =>
    let c1 := { c with binds := b.1, rows := b.2 }
    (({ m1 with cmd.cmds := m1.cmd.cmds ++ [c1] }).markReady c.q).admitSaddles c1

/-- Takes the next unfetched packet off the doorbells that covered it: the tick of its doorbell, and the doorbells left (R321). -/
def takeBell (now : Nat) : List (Nat × Nat) → Nat × List (Nat × Nat)
  | [] => (now, [])
  | (t, k) :: l => (t, if k ≤ 1 then l else (t, k - 1) :: l)

/-- Fetches one packet of a queue: a PACED one waits for its admission, another is checked and accepted (R292, R459). -/
def Block.fetchOne (m : Block) (q : Queue) : Block :=
  if q.sqHead = q.sqTail then m
  else
    let ph := m.peekPacket q
    let m1 := (m.correct (localPart q.sqBase + 64 * q.sqHead) 64).modQueue q.id fun x => { x with sqHead := ph.2 }
    if q.cls = 0 then
      let b := takeBell m.time q.bells
      m1.modQueue q.id fun x => { x with bells := b.2, waiting := x.waiting ++ [(b.1, ph.2, ph.1)] }
    else
      let c : Cmd := { q := q.id, packet := ph.1, sqHead := ph.2, admitted := m.time }
      match m1.fetchStatus c false with
      | some st => m1.refusePacket c st 0
      | none => m1.accept c

/-- Whether firmware may fetch from a queue whose host is lost: only what was accepted before the loss (R378). -/
def Queue.fetchable (q : Queue) : Bool := q.lossTail.all fun t => q.sqHead != t

/-- PACKET_FETCH (R292, R302): the next packet of a queue whose previous packet has completed. -/
def packetFetchEffect (qid : QueueId) (m : Block) : Block :=
  match m.queue? qid with
  | none => m
  | some q =>
    if !m.serving ∨ !m.ctxOpen qid.tenant qid.ctx ∨ q.destroyBy.isSome ∨ !q.fetchable then m
    else if q.cls = 0 then m.fetchOne q
    else if m.cmd.cmds.any (fun c => c.q == qid) ∨ q.held.length > 0 ∨ m.booked ≥ bookRoom then m
    else m.fetchOne q

/-- Fetches every packet of a PACED queue (R292). -/
def Block.fetchAll (qid : QueueId) : Nat → Block → Block
  | 0, m => m
  | fuel + 1, m => match m.queue? qid with
    | some q => Block.fetchAll qid fuel (m.fetchOne q)
    | none => m

/- Doorbells -/

/-- Whether a doorbell write is accepted from a requester (R291); a core of another tenant is curbed. -/
def Block.doorbellFrom (m : Block) (r : Requester) (q : QueueId) : Except Block Unit :=
  match r with
  | .host _ _ => .ok ()
  | .firmware => .ok ()
  | .core n => if m.coreTenant n = q.tenant then .ok () else .error (m.curbCore n 6 (regBase + 0x2000000 + 0x8000 * q.tenant + 8 * (16 * q.ctx + q.queue)) 8)
  | .peer => .error m

/-- DOORBELL_SQ_TAIL (R291, R292); in M2 it wakes the module (R430). -/
def doorbellSqTailEffect (r : Requester) (qid : QueueId) (index : Nat) (m0 : Block) : Block :=
  let m := if (m0.doorbellFrom r qid).isOk then m0.askWake else m0
  match m.doorbellFrom r qid, m.queue? qid with
  | .error m', _ => m'
  | .ok _, none => m
  | .ok _, some q =>
    let size := 2 ^ q.log2Sq
    let waiting := (q.sqTail + size - q.sqHead) % size
    let step := (index + size - q.sqTail) % size
    if index ≥ size ∨ waiting + step ≥ size then m
    else
      let m1 := m.modQueue qid fun x => { x with sqTail := index, bells := if q.cls = 0 ∧ step ≠ 0 then x.bells ++ [(m.time, step)] else x.bells }
      if q.cls = 0 ∧ m.serving ∧ m.ctxOpen qid.tenant qid.ctx ∧ q.destroyBy.isNone ∧ q.lossTail.isNone then Block.fetchAll qid size m1 else m1

/-- Writes held completion records while they can reach their home (R300). -/
def Block.pumpHeld (qid : QueueId) : Nat → Block → Block
  | 0, m => m
  | fuel + 1, m =>
    match m.queue? qid with
    | none => m
    | some q =>
      match q.held with
      | [] => m
      | h :: hs =>
        if m.hostHeld qid.tenant then m
        else if m.slotWaits q then m.snoopEntries (m.slotCopies q)
        else
          let m1 := m.modQueue qid fun x => { x with held := hs }
          Block.pumpHeld qid fuel (m1.postRecord { q with held := hs } h.record h.irq)

/-- The held records of every ring are tried again. -/
def Block.pumpRings (m : Block) : Block := m.cmd.queues.foldl (fun m q => Block.pumpHeld q.id q.held.length m) m

/-- DOORBELL_CQ_HEAD (R291, R300); in M2 it wakes the module (R430). -/
def doorbellCqHeadEffect (r : Requester) (qid : QueueId) (index : Nat) (m0 : Block) : Block :=
  let m := if (m0.doorbellFrom r qid).isOk then m0.askWake else m0
  match m.doorbellFrom r qid, m.queue? qid with
  | .error m', _ => m'
  | .ok _, none => m
  | .ok _, some q =>
    let size := 2 ^ q.log2Cq
    if index ≥ size ∨ (index + size - q.cqHead) % size > (q.cqTail + size - q.cqHead) % size then m
    else Block.pumpHeld qid size (m.modQueue qid fun x => { x with cqHead := index })

/-- Creates a queue (R288, R289). -/
def Block.addQueue (m : Block) (q : Queue) : Block := { m with cmd.queues := m.cmd.queues ++ [q] }

/-- SYS_ADMIN_ENABLE (R288, R318): CMD_SYS_CFG is written with ENABLE = 1 by firmware, or by host software of tenant 0 while
ENABLE is 0; firmware serves the queue where its rings and sizes are those of R288 and R289. -/
def sysAdminEnableEffect (r : Requester) (log2Cq log2Sq : Nat) (m : Block) : Block :=
  let on := m.fld Reg.cmdSysCfg 63 63
  let cq := log2Cq % 16
  let sq := log2Sq % 16
  if !(isFw r || (isSysHost r && on == 0)) then m
  else
    let m1 := m.setReg Reg.cmdSysCfg (putBit (putField (putField 0 7 4 cq) 3 0 sq) 63 true)
    let ok (a : Word) (n : Nat) : Bool := a.toNat % 4096 == 0 && inHost (localPart a.toNat) n
    if on = 0 ∧ m.fw.fwUp ∧ 4 ≤ sq ∧ sq ≤ cq ∧ cq ≤ 12 ∧ ok (m.reg Reg.cmdSysSq) (64 * 2 ^ sq) ∧ ok (m.reg Reg.cmdSysCq) (32 * 2 ^ cq) ∧ (m.queue? ⟨0, 0, 0⟩).isNone then
      m1.addQueue { id := ⟨0, 0, 0⟩, sqBase := (m.reg Reg.cmdSysSq).toNat, cqBase := (m.reg Reg.cmdSysCq).toNat
                    log2Sq := sq, log2Cq := cq, cls := 1, irqEn := true }
    else m1

/-- Firmware serves the system admin queue no more. -/
def Block.sysOff (m : Block) : Block := { m with cmd.queues := m.cmd.queues.filter fun (q : Queue) => !isSystem q.id }

/- The pace guarantee -/

/-- The largest HOPS among the present paths to a node (R349). -/
def Block.hops (m : Block) (node : Nat) : Nat :=
  let e := m.reg (Reg.fabRoute node)
  ((List.range 4).map fun i => if field e (16 * i + 7) (16 * i + 4) = 0 then 0 else field e (16 * i + 3) (16 * i)).foldl max 0

/-- Word `i` of a collective descriptor in memory. -/
def Block.collWord (m : Block) (c : Cmd) (i : Nat) : Word := m.fwWord (localPart (c.p 0).toNat + 8 * i)

/-- Node ID of rank `i` in a member table. -/
def Block.memberNode (m : Block) (addr i : Nat) : Nat := leNat (m.fwBytes (localPart addr + 2 * i) 2) % 4096

/-- Element size of a DTYPE (Table 3.7 codes 0x0 to 0x2). -/
def dtypeBytes (d : Nat) : Nat := if d = 0 then 4 else 2

/-- Wire bits for an element at a lossy rate code (R180). -/
def rateBits : Nat → Nat
  | 0 => 4
  | 1 => 6
  | 2 => 8
  | _ => 12

/-- Cost terms of a collective (R361, Table 14.10): X and STEPS. -/
def Block.collTerms (m : Block) (c : Cmd) : Nat × Nat :=
  let w := m.collWord c
  let op := field (w 0) 63 60
  let direct := field (w 0) 53 53 == 1
  let n := field (w 1) 31 20
  let segs := field (w 1) 7 0 + 1
  let count := field (w 2) 47 0
  let e := dtypeBytes (field (w 0) 57 54)
  let chunk := if field (w 0) 52 52 = 1 then count / (64 * n) * (8 * rateBits (field (w 0) 51 48) + 2) else count * e / n
  let tableSum (addr : Nat) : Nat := total ((List.range (n * segs)).map fun j =>
    if j / segs = field (w 1) 19 8 then 0 else leNat (m.fwBytes (localPart addr + 16 * j + 8) 4))
  match op with
  | 0 => (2 * (n - 1) * chunk, if direct then 2 else 2 * (n - 1))
  | 1 => ((n - 1) * chunk, if direct then 1 else n - 1)
  | 2 => ((n - 1) * (count * e / n), if direct then 1 else n - 1)
  | _ => (max (tableSum (w 6).toNat) (tableSum (w 7).toNat) + 128 * ((n - 1) * segs), 1)

/-- The largest HOPS that counts for a collective (R361). -/
def Block.collHops (m : Block) (c : Cmd) : Nat :=
  let w := m.collWord c
  let n := field (w 1) 31 20
  let r := field (w 1) 19 8
  if field (w 0) 53 53 = 0 then m.hops (m.memberNode (w 5).toNat ((r + 1) % max n 1))
  else ((List.range n).filter (· != r)).foldl (fun b i => max b (m.hops (m.memberNode (w 5).toNat i))) 0

/-- Cycle cost and hops of a PACED command (Table 13.3). -/
def Block.paceCost (m : Block) (c : Cmd) : Nat × Nat :=
  let fg := m.fld Reg.paceFg 15 0
  let mbs := m.fld Reg.paceCopy 31 0
  match c.opcode with
  | 0x0104 =>
    let host (a : Nat) : Bool := (m.remoteNode a).isNone && decide (localPart a ≥ hostBase)
    let h := match m.remoteNode (c.p 1).toNat with
      | some node => m.hops node
      | none => 0
    (ceilDiv (fg * field (c.p 2) 47 0) mbs, if host (c.p 0).toNat || host (c.p 1).toNat then 1 else h)
  | 0x0102 => (field (c.p 3) 31 0 * 1024, field (c.p 3) 39 32)
  | 0x0130 =>
    let t := m.collTerms c
    (ceilDiv (fg * t.1) mbs + 1024 * t.2, t.2 * m.collHops c)
  | _ => (0, 0)

/-- The PACED packet that is admitted next (R321): the earliest doorbell, then tenant, context and queue, then ring order. Firmware takes
nothing from a queue whose context is held or goes, or that is being destroyed. -/
def Block.nextPaced (m : Block) : Option (Queue × (Nat × Nat × Packet)) :=
  let key (x : Queue × (Nat × Nat × Packet)) : Nat := (x.2.1 * 32 + x.1.id.tenant) * 4096 + x.1.id.ctx * 16 + x.1.id.queue
  ((m.cmd.queues.filter fun q => m.ctxOpen q.id.tenant q.id.ctx && q.destroyBy.isNone).filterMap fun q => q.waiting.head?.map fun w => (q, w)).foldl
    (fun b x => match b with
      | none => some x
      | some y => if key x < key y then some x else b)
    none

/-- A rejected PACED packet (R320). -/
def Block.paceReject (m : Block) (c : Cmd) (reason result : Nat) : Block :=
  ((m.setFld Reg.paceRejects 63 56 reason).satFld Reg.paceRejects 31 0 1).refusePacket c 0x10 result

/-- Bytes of the PAGED saddles that a command binds. -/
def Block.pagedBytes (m : Block) (c : Cmd) : Nat :=
  total ((m.boundSaddles c).map fun s => if s.state = .paged then s.bytes else 0)

/-- Bytes of the non-resident pages that a KV list names, each object once (R328). -/
def Block.kvBytes (m : Block) (kv : List Nat) : Nat := total (((m.kvAbsent kv).filterMap m.kvObj).dedup.map (·.bytes))

/-- Slots that no pinned saddle holds once a command's own saddles are pinned (R254, R255). -/
def Block.slotsFree (m : Block) (c : Cmd) : Nat :=
  let m1 := { m with cmd.cmds := m.cmd.cmds ++ [c] }
  m.fld Reg.sadCfg 47 32 - (m.page.saddles.filter fun s => s.slot.isSome && m1.pinned s).length

/-- B of R328: the urgent bytes queued or in flight, a saddle that is LOADING counted with its full IMAGE_BYTES (R256). -/
def Block.pageAhead (m : Block) : Nat :=
  (m.reg Reg.ddrPageUrgent).toNat + total (m.page.urgent.map fun r => match m.obj? r.obj with
    | some o => (match o.kind with
      | .saddle .. => m.reqMoved o r
      | _ => 0)
    | none => 0)

/-- The bound of a command at `t0 = m.time` (R323): T, work in ticks, charge in slots. -/
def Block.paceBound (m : Block) (c : Cmd) (spill : Nat) : Nat × Nat × Nat :=
  let cost := m.paceCost c
  let adm := m.fld Reg.paceAdm 31 0
  let slot := m.fld Reg.paceSlot 31 0
  let work := ceilDiv (25 * cost.1) (m.fld Reg.paceFg 15 0) + cost.2 * m.fld Reg.paceLhop 31 0 + spill
  (adm + m.ahead * slot + work, work, ceilDiv (adm + work) slot)

/-- Accepts a PACED command whose bound fits (R321, R324, R328). -/
def Block.paceAccept (m : Block) (c : Cmd) (b : Nat × Nat × Nat) : Block :=
  let c1 := { c with pace := some { bound := b.1, work := b.2.1, slots := b.2.2, lead := if m.cmd.lastPacedDone then some m.time else none } }
  let m1 := { m with cmd.cmds := m.cmd.cmds ++ [c1], cmd.lastPacedDone := false }.addFld Reg.paceAccepts 63 0 1
  let m2 := m1.admitSaddles c1
  (m2.kvAbsent c1.kv).foldl (fun m a => match m.kvObj a with
    | some o => m.pageInUrgent o.id
    | none => m) m2

/-- Admits or rejects a command whose opcode and DEADLINE are fit, once its saddles and pages are known (R320, R321, R328). The slots are
counted with the command's own saddles pinned: reason 4 is that they, and those of others, hold every slot before its last PAGED saddle has
one (DEDUCED, log entry 111). -/
def Block.paceDecide (m : Block) (c : Cmd) : Block :=
  let paged := (m.boundSaddles c).filter fun s => s.state == .paged
  let s := m.pagedBytes c + m.kvBytes c.kv
  let b := m.pageAhead
  if paged.length > m.slotsFree c then m.paceReject c 4 0
  else if b + s > m.reserve then m.paceReject c 5 0
  else
    let t := m.paceBound c (if s > 0 then m.pageTime b s else 0)
    if m.time + t.1 ≤ c.deadline then m.paceAccept c t else m.paceReject c 1 (min t.1 (2 ^ 32 - 1))

/-- The admission of a PACED packet that passed R294 and R9 (R320, R333). -/
def Block.paceAdmit (m : Block) (c : Cmd) : Block :=
  if m.pwr.emergOpen then m.paceReject c 6 0
  else if !(opcodeRow c.opcode).any (·.2.1) then m.paceReject c 2 0
  else if isAdmin c.q ∧ c.opcode ≠ 0 then m.refusePacket c 3 0
  else if c.deadline = 0 then m.paceReject c 3 0
  else if m.booked ≥ bookRoom then m.paceReject c 7 0
  else
    let m1 := (m.sightTable c).sightPayload c
    let payload := if c.opcode = 0x102 then m1.readPayload c else []
    match m1.saddleNeeds c, m1.kvNeeds c payload with
    | .error st, _ => m1.refusePacket c st 0
    | _, .error st => m1.refusePacket c st 0
    | .ok b, .ok kv => (m1.sightKv c payload kv).paceDecide { c with binds := b.1, rows := b.2, kv := kv, payload := payload, bound := true }

/-- PACED_ADMISSION (R320, R321): firmware admits the next PACED packet, if it is this queue's. -/
def pacedAdmissionEffect (qid : QueueId) (m : Block) : Block :=
  match m.nextPaced with
  | none => m
  | some (q, w) =>
    if q.id ≠ qid ∨ !m.serving then m
    else
      let m0 := m.modQueue qid fun x => { x with waiting := x.waiting.drop 1 }
      let c : Cmd := { q := qid, packet := w.2.2, sqHead := w.2.1, admitted := m.time }
      match m0.fetchStatus c true with
      | some st => m0.refusePacket c st 0
      | none => m0.paceAdmit c

/- Dispatch order -/

/-- A queue's place in the order of tenant, context and queue. -/
def qkey (q : QueueId) : Nat := q.tenant * 4096 + q.ctx * 16 + q.queue

/-- Whether a ready queue has starved into class HIGH (R303). -/
def Block.starved (m : Block) (q : Queue) : Bool :=
  (q.cls == 2 || q.cls == 3) && (match q.ready with
    | some w => decide (m.time ≥ w + q.starve)
    | none => false)

/-- Promotion of a queue for one dispatch (R303). -/
def Block.promote (m : Block) (q : Queue) : Block :=
  if m.starved q && !q.promoted then (m.modQueue q.id fun x => { x with promoted := true }).addFld Reg.cmdAged 63 0 1 else m

/-- AGING_PROMOTION (R303). -/
def agingPromotionEffect (qid : QueueId) (m : Block) : Block :=
  match m.queue? qid with
  | some q => m.promote q
  | none => m

/-- Whether a core is free for a task of a class below PACED: it runs none, its units have come to rest (R98), it holds no pulled-up task,
and no PACED command needs it (R329). -/
def Block.coreOpen (m : Block) (n : Nat) : Bool :=
  (m.core n).task.isNone && !m.coreLive n && (m.core n).saved.isNone && !m.pacedNeeds n

/-- Whether the cores of a command of another class are free for it. -/
def Block.coresFree (m : Block) (c : Cmd) : Bool := (m.cmdCores c).all m.coreOpen

/-- Whether firmware can dispatch a queue now. -/
def Block.canDispatch (m : Block) (q : Queue) : Bool :=
  q.cls != 0 && q.ready.isSome && q.held.isEmpty && q.destroyBy.isNone && m.ctxOpen q.id.tenant q.id.ctx &&
    (m.cmd.cmds.find? fun c => c.q == q.id && !c.started).any fun c => c.peers.isEmpty && m.coresFree c

/-- The class a queue counts as (R303). -/
def Queue.asClass (q : Queue) : Nat := if q.promoted then 1 else q.cls

/-- The next queue of a class, round-robin (R302). -/
def Block.nextOfClass (m : Block) (k : Nat) : Option Queue :=
  let l := m.cmd.queues.filter fun q => q.asClass == k && m.canDispatch q
  let least (l : List Queue) : Option Queue := l.foldl (fun b x => match b with
    | none => some x
    | some y => if qkey x.id < qkey y.id then some x else b) none
  match m.cmd.lastRun.find? fun e => e.1 == k with
  | none => least l
  | some (_, last) => (least (l.filter fun q => qkey q.id > qkey last)).or (least l)

/-- Starts a queue's fetched command (R459 STARTED): the promotion, if any, is used up. -/
def Block.startQueue (m : Block) (q : Queue) : Block :=
  let m1 := m.modQueue q.id fun x => { x with ready := none, promoted := false }
  let mine := m1.cmd.cmds.filter fun c => c.q == q.id && !c.started
  mine.foldl Block.sightPayload { m1 with
    cmd.cmds := mapIf (fun c => c.q == q.id && !c.started) (fun c => { c with started := true, promoted := q.promoted }) m1.cmd.cmds
    cmd.lastRun := Tbl.put m1.cmd.lastRun q.asClass q.id }

/-- NOP (R295). -/
def nopEffect (q : QueueId) (m : Block) : Block :=
  match m.running q with
  | some c => if c.opcode = 0 ∧ c.wait = .none then m.complete q 0 0 else m
  | none => m

/-- PACKET_FETCH. -/
def execPacketFetch (q : QueueId) (s : State) : Host.Outcome State Fault Refusal := s.commit (packetFetchEffect q s.m)
/-- DOORBELL_SQ_TAIL. -/
def execDoorbellSqTail (r : Requester) (q : QueueId) (index : Nat) (s : State) : Host.Outcome State Fault Refusal :=
  s.commit (s.m.byHost r (doorbellSqTailEffect r q index))
/-- DOORBELL_CQ_HEAD. -/
def execDoorbellCqHead (r : Requester) (q : QueueId) (index : Nat) (s : State) : Host.Outcome State Fault Refusal :=
  s.commit (s.m.byHost r (doorbellCqHeadEffect r q index))
/-- SYS_ADMIN_ENABLE. -/
def execSysAdminEnable (r : Requester) (log2Cq log2Sq : Nat) (s : State) : Host.Outcome State Fault Refusal :=
  s.commit (s.m.byHost r (sysAdminEnableEffect r log2Cq log2Sq))
/-- PACED_ADMISSION. -/
def execPacedAdmission (q : QueueId) (s : State) : Host.Outcome State Fault Refusal := s.commit (pacedAdmissionEffect q s.m)
/-- AGING_PROMOTION. -/
def execAgingPromotion (q : QueueId) (s : State) : Host.Outcome State Fault Refusal := s.commit (agingPromotionEffect q s.m)
/-- NOP. -/
def execNop (q : QueueId) (s : State) : Host.Outcome State Fault Refusal := s.commit (nopEffect q s.m)

end Sys2Proof.Machine
end

