-- ==== Sys2Proof/Machine/Admin.lean ====
section
/-! DEFINITION. The commands of the admin queues: tenants, ranges, keys, mailboxes, contexts, queues and resources (R286 to R289,
R295, R304 to R312, R484 to R487), their shutdowns and deferrals (R307, R308), and teardown (Table 12.10). A command acts once it has
been started by DISPATCH. -/
namespace Sys2Proof.Machine

/-- Runs `k` on the started command of a queue when it has the opcode of the row and waits for nothing. -/
def Block.onCommand (m : Block) (q : QueueId) (opcode : Nat) (k : Cmd → Block) : Block :=
  match m.running q with
  | some c => if c.opcode = opcode ∧ c.wait = .none then k c else m
  | none => m

/-- Sets what a started command waits for. -/
def Block.setWait (m : Block) (q : QueueId) (w : Wait) : Block := m.modCmd q fun c => { c with wait := w }

/-- Holds an enable until an earlier shutdown ends (R308). -/
def Block.defer (m : Block) (q : QueueId) : Block := m.modCmd q fun c => { c with wait := .shutdown, deferred := true }

/-- Whether a tenant exists. -/
def Block.tenantExists (m : Block) (t : Nat) : Bool := m.cmd.tenants.any fun x => x.id == t && x.exists_

/- Line caches, ranges, scrubs -/

/-- Whether a run lies wholly within one of the HBM, pool and host ranges. -/
def Block.rangePlace (m : Block) (a n : Nat) : Bool :=
  let ends := m.region (a + n - 1)
  (m.region a == ends) && (ends == .hbm || ends == .pool || ends == .host)

/-- Whether a tenant's key slot is valid (R164): the tenant's key is in the store. -/
def Block.keyValid (m : Block) (t : Nat) : Bool := m.sec.keys.any fun k => k.1 == t

/-- Fields of RANGE_SET and RANGE_CLEAR. -/
def Cmd.rangeTenant (c : Cmd) : Nat := field (c.p 3) 4 0
/-- The range index. -/
def Cmd.rangeIndex (c : Cmd) : Nat := field (c.p 3) 13 8

/-- RANGE_SET's decision and first part (R304, R306): conflicts are decided, line caches invalidated, the zero fill begins. -/
def Block.rangeSetPerform (m : Block) (c : Cmd) : Block :=
  let t := c.rangeTenant
  let base := (c.p 0).toNat
  let size := (c.p 1).toNat
  let clash := m.cmd.ranges.any fun r =>
    (r.tenant == t && r.idx == c.rangeIndex) || (r.tenant != t && overlaps base size r.base r.size)
  if !m.tenantExists t then m.complete c.q 7 0
  else if !m.keyValid t then m.complete c.q 3 0
  else if clash || m.hasRetired base size || firmwareArea base size then m.complete c.q 8 0
  else m.invalidateAll.setWait c.q .zeroFill

/-- The resource that a RESOURCE_ASSIGN or RESOURCE_RELEASE names: kind, unit, index. -/
def resourceOf (c : Cmd) : Nat × Nat × Nat := (field (c.p 0) 63 60, field (c.p 0) 51 40, field (c.p 0) 7 0)

/-- Whether an enable names an object whose earlier shutdown has not ended (R308, Table 20.6). A pool window over memory that awaits its scrub
is held like a RANGE_SET there (DEDUCED, log entry 24). -/
def Block.blocked (m : Block) (c : Cmd) : Bool :=
  match c.opcode with
  | 0x10 => m.cmd.tenants.any fun t => t.id == field (c.p 3) 4 0 && t.dying
  | 0x12 =>
    let t := (c.payload.getD 1 0).toNat % 32
    m.cmd.scrubs.any fun s => s.tenant == t && s.range.isSome
  | 0x13 => m.cmd.scrubs.any fun s =>
      (s.tenant == c.rangeTenant && s.range == some c.rangeIndex) || overlaps (c.p 0).toNat (c.p 1).toNat s.base s.size
  | 0x20 =>
    let id := field (c.p 0) 7 0
    (m.cmd.scrubs.any fun s => s.tenant == c.q.tenant && s.ctx == some id) ||
      (m.cmd.contexts.any fun x => x.tenant == c.q.tenant && x.ctx == id && x.tear.any fun d => !d.reset) ||
      m.scrubbing (poolBase + field (c.p 1) 31 16 * 65536) (field (c.p 2) 32 16 * 65536)
  | 0x25 => m.cmd.cmds.any fun k => k.started && k.opcode == 0x26 && k.wait == .unit && resourceOf k == resourceOf c
  | _ => false

/-- Runs an enable now, or holds it (R308). -/
def Block.enable (m : Block) (c : Cmd) (k : Block → Cmd → Block) : Block := if m.blocked c then m.defer c.q else k m c

/-- RANGE_SET (R304). -/
def rangeSetEffect (q : QueueId) (m : Block) : Block :=
  m.onCommand q 0x13 fun c =>
    if !m.rangePlace (c.p 0).toNat (c.p 1).toNat then m.complete q 2 0 else m.enable c Block.rangeSetPerform

/-- Zeros are written over local memory once the host copies of it have been given up (R152, R372). -/
def Block.whenBare (m : Block) (a n : Nat) (k : Block → Block) : Block :=
  match m.copiesIn a n with
  | [] => k m
  | l => m.snoopEntries l

/-- RANGE_ZERO_FILL_END (R306): the HBM and pool parts stand zero-filled under the owner's key, and the range is given. Host copies of the
parts are given up first, and the row acts again. -/
def rangeZeroFillEndEffect (q : QueueId) (m : Block) : Block :=
  match m.running q with
  | none => m
  | some c =>
    if c.opcode ≠ 0x13 ∨ c.wait ≠ .zeroFill then m
    else
      let base := (c.p 0).toNat
      let size := (c.p 1).toNat
      let r : Range := { tenant := c.rangeTenant, idx := c.rangeIndex, base := base, size := size, readers := field (c.p 2) 63 32
                         r := bit (c.p 2) 0, w := bit (c.p 2) 1, fabricIn := bit (c.p 2) 3 }
      let give (m : Block) : Block := ({ m with cmd.ranges := m.cmd.ranges ++ [r] }).complete q 0 0
      if m.region base = .host then give m else m.whenBare base size fun m => give (m.clearMem base size)

/-- Clears ranges: accesses are revoked, line caches invalidated, scrubs begin for the parts on the module (R307, R312). -/
def Block.clearRanges (m : Block) (p : Range → Bool) : Block :=
  let gone := m.cmd.ranges.filter p
  let scrubs := (gone.filter fun r => decide (r.base < hostBase)).map fun r => (⟨r.tenant, none, some r.idx, r.base, r.size⟩ : Scrub)
  ({ m with
    cmd.ranges := m.cmd.ranges.filter fun r => !p r
    cmd.scrubs := m.cmd.scrubs ++ scrubs }).invalidateAll

/-- RANGE_CLEAR (R307, R308). -/
def rangeClearEffect (q : QueueId) (m : Block) : Block :=
  m.onCommand q 0x14 fun c =>
    let p (r : Range) : Bool := r.tenant == c.rangeTenant && r.idx == c.rangeIndex
    if m.tenantExists c.rangeTenant && m.cmd.ranges.any p then (m.clearRanges p).complete q 0 0 else m.complete q 7 0

/- Keys -/

/-- Sets or clears a tenant's bit in every present HBM controller (R484). -/
def Block.keyBits (m : Block) (t : Nat) (v : Nat) : Block :=
  (List.range m.stackCount).foldl (fun m s => m.setFld (Reg.hbmKeystate s) t t v) m

/-- Installs a tenant's key in the store and the slots (R484). -/
def Block.installKey (m : Block) (t : Nat) (key : List Byte) : Block :=
  ({ m with sec.keys := Tbl.put m.sec.keys t key }).keyBits t 1

/-- A rejected key load (R487). -/
def Block.rejectKey (m : Block) (c : Cmd) (status : Nat) (stale : Bool) : Block :=
  let m1 := m.satFld Reg.secKeyload 31 0 1
  (if stale then m1.satFld Reg.secKeyload 63 32 1 else m1).complete c.q status 0

/-- The checks and outcome of TENANT_KEY_LOAD, in the order of Table 20.6. -/
def Block.keyLoadPerform (m : Block) (c : Cmd) : Block :=
  let p := c.payload
  let t := leAt p 1 1
  let kem := BitVec.ofNat 64 (leAt p 8 8)
  let key := Config.keyUnwrap m.sec.kemSeed kem t (slice p 0x10 1568) (slice p 0x630 72)
  if c.payloadBytes ≠ 1656 ∨ leAt p 0 1 ≠ 1 ∨ t ≥ 32 ∨ leAt p 2 6 ≠ 0 then m.rejectKey c 2 false
  else if t = 0 then m.rejectKey c 3 false
  else if !m.tenantExists t then m.rejectKey c 7 false
  else if kem ≠ m.reg Reg.secKemId then m.rejectKey c 2 true
  else match key with
    | none => m.rejectKey c 2 false
    | some k =>
      if k.take 32 = k.drop 32 then m.rejectKey c 2 false
      else if m.cmd.ranges.any fun r => r.tenant == t then m.rejectKey c 8 false
      else if m.blocked c then m.defer c.q
      else (m.installKey t k).complete c.q 0 0

/-- TENANT_KEY_LOAD (R486, R487). -/
def tenantKeyLoadEffect (q : QueueId) (m : Block) : Block :=
  m.onCommand q 0x12 fun c =>
    let c1 := { c with payload := m.readPayload c }
    (m.modCmd q fun _ => c1).keyLoadPerform c1

/-- MAILBOX_ASSIGN (R313). -/
def mailboxAssignEffect (q : QueueId) (m : Block) : Block :=
  m.onCommand q 0x15 fun c =>
    let k := field (c.p 0) 5 0
    let t := field (c.p 0) 12 8
    if m.tenantExists t then
      ((m.setFld (Reg.cmdMbCtl k) 63 63 1).setFld (Reg.cmdMbCtl k) 60 56 t).complete q 0 0
    else m.complete q 7 0

/- Contexts -/

/-- A context's pool window as a run of local addresses. -/
def Context.poolAt (x : Context) : Nat := Sys2Proof.Machine.poolBase + x.poolBase * 65536
/-- Bytes of a context's pool window. -/
def Context.poolBytes (x : Context) : Nat := x.poolSize * 65536

/-- The first place in core memory, in 4 KiB units, where a window of a size fits beside the windows in use and those that
await their scrub. Which place a window takes is firmware's choice; the model takes the lowest (log entry 23). -/
def Block.fitWindow (m : Block) (size : Nat) : Option Nat :=
  let used := (m.cmd.contexts.filter fun x => x.exists_ && x.cmSize > 0).map (fun x => (x.cmBase, x.cmSize)) ++
    (m.cmd.scrubs.filterMap fun s => match m.region s.base with
      | .core _ w => some (w / 4096, s.size / 4096)
      | _ => none)
  let cands := 0 :: used.map fun u => u.1 + u.2
  (cands.filter fun b => decide (b + size ≤ 1536) && used.all fun u => !overlaps b size u.1 u.2).foldl
    (fun r b => match r with
      | none => some b
      | some x => some (min x b))
    none

/-- Zero-fills a context's hitches and sets their tags (R112). -/
def Block.tagHitches (m : Block) (base count : Nat) : Block :=
  let n := roundUp (8 * count) 128
  if count = 0 then m
  else
    let m1 := m.zeroFill base n
    { m1 with tags := (granules base n).foldl insertNat m1.tags }

/-- CONTEXT_CREATE's decision and effect (R295, R287, R388). A window over another tenant's window or range is a CONFLICT
(log entry 24). -/
def Block.contextCreatePerform (m : Block) (c : Cmd) : Block :=
  let t := c.q.tenant
  let id := field (c.p 0) 7 0
  let base := field (c.p 1) 31 16
  let size := field (c.p 2) 32 16
  let cm := field (c.p 3) 22 12
  let a := poolBase + base * 65536
  let n := size * 65536
  let clash := size != 0 && (firmwareArea a n ||
    (m.cmd.contexts.any fun x => x.exists_ && x.tenant != t && x.poolSize != 0 && overlaps a n x.poolAt x.poolBytes) ||
    (m.cmd.ranges.any fun r => r.tenant != t && overlaps a n r.base r.size))
  if (m.context? t id).isSome || clash then m.complete c.q 8 0
  else if (m.cmd.contexts.filter (·.exists_)).length ≥ 4096 then m.complete c.q 6 0
  else match if cm = 0 then some 0 else m.fitWindow cm with
    | none => m.complete c.q 6 0
    | some cb =>
      let x : Context := { tenant := t, ctx := id, poolBase := base, poolSize := size, cmBase := cb, cmSize := cm, hitches := field (c.p 0) 26 16 }
      m.whenBare a (8 * x.hitches) fun m =>
        let m1 := { m with cmd.contexts := (m.cmd.contexts.filter fun (y : Context) => !(y.tenant == t && y.ctx == id)) ++ [x] }
        (m1.tagHitches a x.hitches).complete c.q 0 0

/-- CONTEXT_CREATE. -/
def contextCreateEffect (q : QueueId) (m : Block) : Block :=
  m.onCommand q 0x20 fun c => m.enable c Block.contextCreatePerform

/- Teardown -/

/-- Cores that run, or have pulled up, a task of a context. -/
def Block.ctxCores (m : Block) (t c : Nat) : List Nat :=
  (m.cores.filter fun e => e.2.task.any (fun q => q.tenant == t && q.ctx == c)).map (·.1)

/-- Whether a register names a context as an owner. -/
def Block.ownedBy (m : Block) (owner t c : Nat) : Bool :=
  m.fld owner 63 63 == 1 && m.fld owner 12 8 == t && m.fld owner 7 0 == c

/-- Channels of a context, as tile and index. -/
def Block.ctxChannels (m : Block) (t c : Nat) : List (Nat × Nat) :=
  ((List.range 16).flatMap fun i => (List.range 128).map fun k => (i, k)).filter fun ik => m.ownedBy (Reg.tileDmaOwner ik.1 ik.2) t c

/-- Rings of a context: master type of Table 19.1 and index. -/
def Block.ctxRings (m : Block) (t c : Nat) : List (Nat × Nat) :=
  ((List.range 512).map (fun i => (2, i)) ++ (List.range 128).map (fun i => (3, i)) ++ (List.range 128).map fun i => (4, i)).filter
    fun r => m.ownedBy (ringOwner r.1 r.2) t c

/-- A core at the end of step 1 of its teardown (R98, R309): the matrix instructions in its queue run to completion, its stores to local and
host memory reach their homes or stay with the context's outgoing writes; loads, register stores and what is queued for rings and channels go
with the rights that step 2 withdraws (DEDUCED, log entry 99). -/
def Block.drainCore (m : Block) (n : Nat) : Block :=
  let m1 := iter (matmulCompleteEffect n) (m.core n).matQ.length m
  let m2 := m1.owning n (m1.coreTenant n) (m1.coreCtx n) fun m =>
    ((m.core n).stores.filter fun x => x.remote.isNone && (x.addr < regBase || hostBase ≤ x.addr)).foldl (fun m x => m.homeWrite x.addr x.bytes) m
  m2.modCore n fun c => { c with matQ := [], vecQ := [], sfuQ := [], loads := [], stores := [], signals := [], copyQ := [], att := none }

/-- Bursts and reads of a context that other modules have not answered, and its writes that wait for a host: the drain counter (Table
12.10). -/
def Block.outstanding (m : Block) (t c : Nat) : Nat :=
  total (m.fab.tx.map fun p => (p.unacked.filter fun u => u.burst.tenant == t && u.burst.ctx == c).length) +
    (m.fab.reads.filter fun r => r.tenant == t && r.ctx == c && r.data.isNone).length +
    (m.cho.hostWrites.filter fun w => w.owner == some (t, c)).length

/-- Drops the engine work of a ring: codec, Drover and Groom jobs. -/
def Block.dropRing (m : Block) (r : Nat × Nat) : Block :=
  match r.1 with
  | 2 => { m with eng.codecs := Tbl.drop m.eng.codecs r.2 }
  | 3 => { m with eng.xjobs := Tbl.drop m.eng.xjobs r.2 }
  | _ => { m with eng.grooms := Tbl.drop m.eng.grooms r.2 }

/-- Steps 1 and 2 of a teardown (R309): issue stops, channels and rings halt, the ID is revoked, and unless the context is only
reset, windows and ownership are withdrawn. -/
def Block.beginTeardown (m : Block) (t c : Nat) (by_ : Option QueueId) (reset : Bool) : Block :=
  let m1 := (m.ctxCores t c).foldl
    (fun m n => ((m.stopCore n 8).drainCore n).setFld (Reg.coreTaskId n) 63 63 0) m
  let m2 := (m1.ctxChannels t c).foldl
    (fun m ik =>
      let m1 := (m.setChan ik.1 ik.2 []).setFld (Reg.tileDmaStatus ik.1 ik.2) 34 32 0
      if reset then m1 else (m1.setReg (Reg.tileDmaOwner ik.1 ik.2) 0).setReg (Reg.tileDmaStatus ik.1 ik.2) 0) m1
  let m3 := (m2.ctxRings t c).foldl
    (fun m r => let m1 := m.dropRing r; if reset then m1 else m1.setReg (ringOwner r.1 r.2) 0) m2
  let mine (q : QueueId) : Bool := q.tenant == t && q.ctx == c
  let held (h : HeldClaim) : Bool := h.claim.tenant == t && h.claim.ctx == c
  let m4 := { m3 with
    eng.heldClaims := m3.eng.heldClaims.map fun (e : Nat × List HeldClaim) => (e.1, e.2.filter fun (h : HeldClaim) => !held h)
    eng.xout := m3.eng.xout ++ (((m3.eng.heldClaims.flatMap fun (e : Nat × List HeldClaim) => e.2).filter held).map fun (h : HeldClaim) => XMsg.answer h.claim .refused 0 0 0)
    eng.armed := m3.eng.armed.map fun (e : Nat × List Armed) => (e.1, e.2.filter fun (a : Armed) => !(a.tenant == t && a.ctx == c))
    eng.colls := m3.eng.colls.filter fun (x : Coll) => !mine x.q
    eng.groomLists := m3.eng.groomLists.filter fun (x : QueueId × Nat × Nat × List Nat) => !mine x.1
    tiles := m3.tiles.map fun (e : Nat × TileState) => (e.1, if e.2.cmdChan.any mine then { e.2 with cmdChan := none, cmdDone := 0, cmdTag := none } else e.2)
    cores := m3.cores.map fun (e : Nat × CoreState) => (e.1, if e.2.saved.any (fun (s : SavedTask) => s.task.any mine) then { e.2 with saved := none } else e.2) }
  m4.modContext t c fun x =>
    { x with revoked := true, tear := some { by_ := by_, reset := reset, drain := m4.outstanding t c, since := m4.time } }

/-- Every accepted command of a context completes ABORTED (R310). -/
def Block.abortContext (m : Block) (t c : Nat) (except : Option QueueId) : Block :=
  (m.cmd.cmds.filter fun x => x.q.tenant == t && x.q.ctx == c && some x.q != except).foldl
    (fun m x =>
      let m1 := { m with cmd.cmds := mapIf x.same (fun y => { y with started := true }) m.cmd.cmds }
      m1.complete x.q 0xA 0) m

/-- The regions of a torn-down context that are scrubbed: its windows on the cores it used, and its pool window (R312). -/
def Context.regions (x : Context) : List Scrub :=
  (if x.cmSize = 0 then [] else
    x.cores.map fun n => ⟨x.tenant, some x.ctx, none, coreWindow n + x.cmBase * 4096, x.cmSize * 4096⟩) ++
  (if x.poolSize = 0 then [] else [⟨x.tenant, some x.ctx, none, x.poolAt, x.poolBytes⟩])

/-- The rings and masters of a context after its reset (R311). -/
def Block.resetMasters (m : Block) (t c : Nat) : Block :=
  let m1 := (m.ctxChannels t c).foldl (fun m ik => m.setFld (Reg.tileDmaStatus ik.1 ik.2) 63 52 0) m
  let m2 := (m1.ctxRings t c).foldl (fun m r => (m.setFld (ringHead r.1 r.2) 63 60 0).setFld (ringHead r.1 r.2) 11 0 0 |>.setReg (ringTail r.1 r.2) 0) m1
  (m2.cores.filter fun e => m2.coreTenant e.1 == t && m2.coreCtx e.1 == c && (m2.coreSt e.1 == 4 || m2.coreSt e.1 == 5)).foldl
    (fun m e => (m.setCoreSt e.1 0).setFld (Reg.coreArrCtl e.1) 1 1 0) m2

/-- The end of a tenant's shutdown: its keys are zeroised, its Pacer groups cleared, and its number is free (Table 12.9, R285,
R484). -/
def Block.endTenant (m : Block) (t : Nat) : Block :=
  let m1 := ({ m with sec.keys := Tbl.drop m.sec.keys t, cmd.tenants := m.cmd.tenants.filter (fun (x : Tenant) => x.id != t) }).keyBits t 0
  (List.range 256).foldl
    (fun m g =>
      if m.fld (Reg.pcrGOwner g) 63 63 = 1 ∧ m.fld (Reg.pcrGOwner g) 4 0 = t then
        { m.resetRegs (fun o => decide (Reg.pcrGOwner g ≤ o) && decide (o < Reg.pcrGOwner g + 0x40)) with
          eng.pacerActive := Tbl.drop m.eng.pacerActive g }
      else m) m1

/-- Ends the shutdown of every tenant whose scrubs have all ended. -/
def Block.endTenants (m : Block) : Block :=
  (m.cmd.tenants.filter fun (t : Tenant) => t.dying && !t.exists_ && !m.cmd.scrubs.any fun s => s.tenant == t.id).foldl
    (fun m t => m.endTenant t.id) m

/-- Once every context of a dying tenant has been torn down, its saddles and ranges go and TENANT_DESTROY completes. -/
def Block.tenantGone (m : Block) (t : Nat) : Block :=
  if (m.cmd.tenants.any fun x => x.id == t && x.dying && x.exists_) && !m.cmd.contexts.any (fun x => x.tenant == t && x.exists_) then
    let m1 := (m.page.saddles.filter fun s => s.tenant == t).foldl Block.freeSaddle m
    let m2 := m1.clearRanges fun r => r.tenant == t
    let m3 := { m2 with cmd.tenants := mapIf (fun x => x.id == t) (fun x => { x with exists_ := false }) m2.cmd.tenants }
    let by_ := (m3.cmd.cmds.find? fun c => c.started && c.opcode == 0x11 && field (c.p 3) 4 0 == t).map (·.q)
    (match by_ with
      | some q => m3.complete q 0 0
      | none => m3).endTenants
  else m

/-- Step 5 of a teardown: it is complete (R309 to R312). `purged`: entries purged, the RESULT of the command. -/
def Block.finishTeardown (m : Block) (x : Context) (d : Teardown) (purged : Nat) : Block :=
  let t := x.tenant
  let c := x.ctx
  let m1 := m.abortContext t c d.by_
  if d.reset then
    let m2 := (m1.resetMasters t c).tagHitches x.poolAt x.hitches
    let m3 := m2.modContext t c fun y => { y with revoked := false, held := false, tear := none }
    match d.by_ with
    | some q => m3.complete q 0 purged
    | none => m3
  else
    let m2 := { m1 with
      cmd.queues := m1.cmd.queues.filter fun (q : Queue) => !(q.id.tenant == t && q.id.ctx == c)
      cmd.programs := m1.cmd.programs.filter fun (p : Program) => !(p.tenant == t && p.ctx == c)
      cmd.scrubs := m1.cmd.scrubs ++ x.regions }
    let m3 := m2.modContext t c fun y => { y with exists_ := false, tear := none, held := false, cores := [] }
    let m4 := match d.by_ with
      | some q => if (m3.running q).any fun (k : Cmd) => k.opcode == 0x21 then m3.complete q 0 purged else m3
      | none => m3
    m4.tenantGone t

/-- CONTEXT_DESTROY and CONTEXT_RESET begin (R309, R311). -/
def Block.startTeardown (m : Block) (q : QueueId) (reset : Bool) (c : Cmd) : Block :=
  match m.context? q.tenant (field (c.p 0) 7 0) with
  | none => m.complete q 7 0
  | some x => if x.tear.isSome then m else (m.setWait q .teardown).beginTeardown q.tenant x.ctx (some q) reset

/-- CONTEXT_DESTROY. -/
def contextDestroyEffect (q : QueueId) (m : Block) : Block := m.onCommand q 0x21 (m.startTeardown q false)
/-- CONTEXT_RESET. -/
def contextResetEffect (q : QueueId) (m : Block) : Block := m.onCommand q 0x22 (m.startTeardown q true)

/-- TEARDOWN_DRAIN_END (Table 12.10 step 5): the drain counter has reached zero. -/
def teardownDrainEndEffect (tenant ctx : Nat) (m : Block) : Block :=
  match m.context? tenant ctx with
  | none => m
  | some x => match x.tear with
    | some d =>
      if m.outstanding tenant ctx = 0 ∧ !d.purging then m.whenBare x.poolAt (8 * x.hitches) fun m => m.finishTeardown x d 0 else m
    | none => m

/-- TEARDOWN_DRAIN_TIMEOUT: 100 ms after step 2 the purge is ordered. -/
def teardownDrainTimeoutEffect (tenant ctx : Nat) (m : Block) : Block :=
  match m.context? tenant ctx with
  | none => m
  | some x => match x.tear with
    | some d =>
      if d.purging ∨ m.outstanding tenant ctx = 0 ∨ m.time < d.since + 2500000 then m
      else m.modContext tenant ctx fun y => { y with tear := some { d with purging := true, purged := m.outstanding tenant ctx } }
    | none => m

/-- PURGE_END: the context's unacknowledged entries are gone and counted; a purge transaction to each node tells it the next
burst number to expect, so the pair's later bursts are applied (R351 KIND 8). -/
def purgeEndEffect (tenant ctx : Nat) (m : Block) : Block :=
  match m.context? tenant ctx with
  | none => m
  | some x => match x.tear with
    | some d =>
      if !d.purging then m
      else
        let mine (u : TxBurst) : Bool := u.burst.tenant == tenant && u.burst.ctx == ctx
        let notes := m.fab.tx.filterMap fun p =>
          match p.unacked.filter mine with
          | [] => none
          | u :: _ => some { u.burst with kind := 8, seq := ((p.unacked.filter fun v => !mine v).head?.map (·.burst.seq)).getD p.nextSeq, data := [], mask := [] }
        let m1 := { m with
          cho.hostWrites := m.cho.hostWrites.filter fun (w : HeldWrite) => w.owner != some (tenant, ctx)
          fab.tx := m.fab.tx.map fun (p : TxPair) => { p with unacked := p.unacked.filter fun (u : TxBurst) => !mine u }
          fab.reads := m.fab.reads.filter fun (r : RemoteRead) => !(r.tenant == tenant && r.ctx == ctx)
          eng.collOut := m.eng.collOut.filter fun (x : CollOut) => !(x.tenant == tenant && x.ctx == ctx)
          fab.fabOut := m.fab.fabOut ++ notes }
        m1.whenBare x.poolAt (8 * x.hitches) fun m => (m.addFld Reg.cmdPurged 63 0 d.purged).finishTeardown x d d.purged
    | none => m

/-- SCRUB_END (R312): the region stands zero-filled and returns to the free pool, after the line caches are invalidated (R144).
The last scrub of a destroyed tenant ends its shutdown. -/
def scrubEndEffect (idx : Nat) (m : Block) : Block :=
  match m.cmd.scrubs[idx]? with
  | none => m
  | some s => m.whenBare s.base s.size fun m =>
    let m1 := (m.zeroFill s.base s.size).invalidateAll
    ({ m1 with cmd.scrubs := removeAt m1.cmd.scrubs idx }).endTenants

/- Tenants -/

/-- TENANT_CREATE's decision and effect (R288, R287): the tenant, its admin context and its admin queue in class HIGH. -/
def Block.tenantCreatePerform (m : Block) (c : Cmd) : Block :=
  let t := field (c.p 3) 4 0
  if m.tenantExists t then m.complete c.q 8 0
  else if (m.cmd.contexts.filter (·.exists_)).length ≥ 4096 then m.complete c.q 6 0
  else
    let m1 := { m with
      cmd.tenants := m.cmd.tenants ++ [({ id := t } : Tenant)]
      cmd.contexts := (m.cmd.contexts.filter fun (x : Context) => !(x.tenant == t && x.ctx == 0)) ++ [({ tenant := t, ctx := 0 } : Context)] }
    (m1.addQueue { id := ⟨t, 0, 0⟩, sqBase := (c.p 0).toNat, cqBase := (c.p 1).toNat, log2Sq := field (c.p 2) 59 56
                   log2Cq := field (c.p 2) 55 52, cls := 1, irqEn := true }).complete c.q 0 0

/-- TENANT_CREATE. -/
def tenantCreateEffect (q : QueueId) (m : Block) : Block := m.onCommand q 0x10 fun c => m.enable c Block.tenantCreatePerform

/-- Destroys a tenant: every context of it is torn down, one that is being reset included (R307, R309). -/
def Block.destroyTenant (m : Block) (t : Nat) (by_ : Option QueueId) : Block :=
  let m1 := { m with cmd.tenants := mapIf (fun x => x.id == t) (fun x => { x with dying := true }) m.cmd.tenants }
  ((m1.cmd.contexts.filter fun x => x.tenant == t && x.exists_ && x.tear.all fun d => d.reset).foldl
    (fun m x => m.beginTeardown t x.ctx by_ false) m1).tenantGone t

/-- TENANT_DESTROY. -/
def tenantDestroyEffect (q : QueueId) (m : Block) : Block :=
  m.onCommand q 0x11 fun c =>
    let t := field (c.p 3) 4 0
    if !m.tenantExists t ∨ m.cmd.tenants.any (fun x => x.id == t && x.dying) then m.complete q 7 0
    else (m.setWait q .teardown).destroyTenant t (some q)

/- Queues -/

/-- QUEUE_CREATE (R289). -/
def queueCreateEffect (q : QueueId) (m : Block) : Block :=
  m.onCommand q 0x23 fun c =>
    let id : QueueId := ⟨q.tenant, field (c.p 2) 47 40, field (c.p 2) 39 36⟩
    let sq := field (c.p 2) 59 56
    let cq := field (c.p 2) 55 52
    let cls := field (c.p 2) 51 50
    let inRange (a n : Nat) : Bool := (m.remoteNode a).isNone && decide (a < 2 ^ 60) &&
      m.rangeOk q.tenant (localPart a) n false false && m.rangeOk q.tenant (localPart a) n true false
    if (m.context? id.tenant id.ctx).isNone then m.complete q 7 0
    else if !inRange (c.p 0).toNat (64 * 2 ^ sq) || !inRange (c.p 1).toNat (32 * 2 ^ cq) then m.complete q 2 0
    else if (m.queue? id).isSome then m.complete q 8 0
    else
      let st := field (c.p 3) 39 0
      let starve := if st = 0 then (if cls = 2 then 2500000 else 25000000) else max st 25000
      (m.addQueue { id := id, sqBase := (c.p 0).toNat, cqBase := (c.p 1).toNat, log2Sq := sq, log2Cq := cq, cls := cls
                    irqEn := bit (c.p 2) 49, starve := starve }).complete q 0 0

/-- Every packet of a queue that has not started completes ABORTED, fetched or not (Table 12.9). -/
def Block.abortPackets (qid : QueueId) : Nat → Block → Block
  | 0, m => m
  | fuel + 1, m =>
    match m.queue? qid with
    | none => m
    | some q =>
      match q.waiting with
      | w :: ws =>
        let c : Cmd := { q := qid, packet := w.2.2, sqHead := w.2.1, admitted := m.time }
        Block.abortPackets qid fuel ((m.modQueue qid fun x => { x with waiting := ws }).refusePacket c 0xA 0)
      | [] =>
        if q.sqHead = q.sqTail then m
        else
          let ph := m.peekPacket q
          let c : Cmd := { q := qid, packet := ph.1, sqHead := ph.2, admitted := m.time }
          Block.abortPackets qid fuel ((m.modQueue qid fun x => { x with sqHead := ph.2 }).refusePacket c 0xA 0)

/-- QUEUE_DESTROY (Table 12.9): nothing more is fetched or started; once the running packet has completed, later packets end
ABORTED and the queue goes. The row acts again when the packet it waits for has ended. An admin queue is no queue of this command
(log entry 25). -/
def queueDestroyEffect (q : QueueId) (m : Block) : Block :=
  match m.running q with
  | none => m
  | some c =>
    if c.opcode ≠ 0x24 ∨ !(c.wait == .none || c.wait == .unit) then m
    else
      let id : QueueId := ⟨q.tenant, field (c.p 0) 7 0, field (c.p 0) 11 8⟩
      match m.queue? id with
      | none => m.complete q 7 0
      | some x =>
        if isAdmin id then m.complete q 2 0
        else if (m.running id).isSome then (m.modQueue id fun y => { y with destroyBy := some q }).setWait q .unit
        else
          let fetched := m.cmd.cmds.filter fun y => y.q == id
          let m1 := fetched.foldl (fun m y => ({ m with cmd.cmds := m.cmd.cmds.erase y }).refusePacket y 0xA 0) m
          let m2 := Block.abortPackets id (2 ^ x.log2Sq + x.waiting.length) m1
          ({ m2 with cmd.queues := m2.cmd.queues.filter fun (y : Queue) => y.id != id }).complete q 0 0

/- Resources -/

/-- The OWNER register of a resource of RESOURCE_ASSIGN. -/
def resourceOwner (kind unit idx : Nat) : Nat :=
  match kind with
  | 0 => Reg.tileDmaOwner unit idx
  | 1 => Reg.cmpRingOwner unit idx
  | 2 => Reg.drvRingOwner unit idx
  | 3 => Reg.grmRingOwner unit idx
  | _ => Reg.pcrGOwner idx

/-- Zeroes the counters of a Drover ring (R240). -/
def Block.clearDrover (m : Block) (t k : Nat) : Block :=
  ((m.setReg (Reg.drvRowsSent t k) 0).setReg (Reg.drvRowsSkip t k) 0).setReg (Reg.drvTmo t k) 0

/-- Zeroes the counters of a Groom unit (R283). -/
def Block.clearGroom (m : Block) (s : Nat) : Block :=
  ((m.setReg (Reg.grmElems s) 0).setReg (Reg.grmNonfinite s) 0).setReg (Reg.grmSkew s) 0

/-- Where firmware lays a ring in the context's pool window, and its size: firmware's choice, left free within the window
(log entry 26). -/
def Block.placeRing (m : Block) (x : Context) (top entry : Nat) : Word × Block :=
  let d := m.draw
  let n := 4 + d.1.toNat % (top - 3)
  let room := (x.poolBytes - 2 ^ n * entry) / 128 + 1
  (putField (putField 0 35 32 n) 31 0 (d.1.toNat / 16 % room * 128), d.2)

/-- The counters and state of a resource at a change of owner. -/
def Block.clearResource (m : Block) (kind unit idx : Nat) : Block :=
  match kind with
  | 0 => (m.setReg (Reg.tileDmaStatus unit idx) 0).setChan unit idx []
  | 1 => (m.setReg (Reg.cmpRingHead unit idx) 0).setReg (Reg.cmpRingTail unit idx) 0
  | 2 => ((m.setReg (Reg.drvRingHead unit idx) 0).setReg (Reg.drvRingTail unit idx) 0).clearDrover unit idx
  | 3 => ((m.setReg (Reg.grmRingHead unit idx) 0).setReg (Reg.grmRingTail unit idx) 0).clearGroom unit
  | _ => { m.resetRegs (fun o => decide (Reg.pcrGOwner idx ≤ o) && decide (o < Reg.pcrGOwner idx + 0x40)) with
           eng.pacerActive := Tbl.drop m.eng.pacerActive idx }

/-- RESOURCE_ASSIGN's decision and effect (R295, R120, R186, R224, R262, R281). -/
def Block.resourceAssignPerform (m : Block) (c : Cmd) : Block :=
  let kind := field (c.p 0) 63 60
  let unit := field (c.p 0) 51 40
  let idx := field (c.p 0) 7 0
  let ctx := field (c.p 1) 7 0
  let owner := resourceOwner kind unit idx
  match m.context? c.q.tenant ctx with
  | none => m.complete c.q 7 0
  | some x =>
    if m.fld owner 63 63 = 1 then m.complete c.q 8 0
    else
      let m1 := m.clearResource kind unit idx
      let id := if kind = 4 then putBit (putField 0 4 0 c.q.tenant) 63 true
        else putBit (putField (putField 0 12 8 c.q.tenant) 7 0 ctx) 63 true
      let m2 := m1.setReg owner id
      let m3 := match kind with
        | 1 => let r := m2.placeRing x 12 64; r.2.setReg (Reg.cmpRingBase unit idx) r.1
        | 2 => let r := m2.placeRing x 10 128; r.2.setReg (Reg.drvRingBase unit idx) r.1
        | 3 => let r := m2.placeRing x 10 128; r.2.setReg (Reg.grmRingBase unit idx) r.1
        | _ => m2
      m3.complete c.q 0 0

/-- RESOURCE_ASSIGN: held while a release of the resource waits for it to be idle (R308). -/
def resourceAssignEffect (q : QueueId) (m : Block) : Block := m.onCommand q 0x25 fun c => m.enable c Block.resourceAssignPerform

/-- Whether a resource has no work (Table 12.9). -/
def Block.resourceIdle (m : Block) (kind unit idx : Nat) : Bool :=
  match kind with
  | 0 => (m.chan unit idx).isEmpty
  | 1 => m.fld (Reg.cmpRingHead unit idx) 11 0 == m.fld (Reg.cmpRingTail unit idx) 11 0 && !m.eng.codecs.any fun e => e.1 == 32 * unit + idx
  | 2 => m.fld (Reg.drvRingHead unit idx) 9 0 == m.fld (Reg.drvRingTail unit idx) 9 0 && !m.eng.xjobs.any fun e => e.1 == 8 * unit + idx
  | 3 => m.fld (Reg.grmRingHead unit idx) 9 0 == m.fld (Reg.grmRingTail unit idx) 9 0 && !m.eng.grooms.any fun e => e.1 == 4 * unit + idx
  | _ => true

/-- RESOURCE_RELEASE (Table 12.9, R285): after the resource is idle; until then the command waits and the row acts again. -/
def resourceReleaseEffect (q : QueueId) (m : Block) : Block :=
  match m.running q with
  | none => m
  | some c =>
    if c.opcode ≠ 0x26 ∨ !(c.wait == .none || c.wait == .unit) then m
    else
      let kind := field (c.p 0) 63 60
      let unit := field (c.p 0) 51 40
      let idx := field (c.p 0) 7 0
      let owner := resourceOwner kind unit idx
      let mine := if kind = 4 then m.fld owner 63 63 == 1 && m.fld owner 4 0 == q.tenant
        else m.ownedBy owner q.tenant (field (c.p 1) 7 0)
      if !mine then m.complete q 7 0
      else if !m.resourceIdle kind unit idx then m.setWait q .unit
      else ((m.clearResource kind unit idx).setReg owner 0).complete q 0 0

/-- DEFERRED_PERFORM (R308): a held enable is performed once nothing blocks it. -/
def deferredPerformEffect (q : QueueId) (m : Block) : Block :=
  match m.running q with
  | none => m
  | some c =>
    if c.wait ≠ .shutdown ∨ m.blocked c then m
    else
      let m1 := m.setWait q .none
      let c1 := { c with wait := .none }
      match c.opcode with
      | 0x10 => m1.tenantCreatePerform c1
      | 0x12 => m1.keyLoadPerform c1
      | 0x13 => m1.rangeSetPerform c1
      | 0x20 => m1.contextCreatePerform c1
      | 0x25 => m1.resourceAssignPerform c1
      | _ => m

/-- TENANT_CREATE. -/
def execTenantCreate (q : QueueId) (s : State) : Host.Outcome State Fault Refusal := s.commit (tenantCreateEffect q s.m)
/-- TENANT_DESTROY. -/
def execTenantDestroy (q : QueueId) (s : State) : Host.Outcome State Fault Refusal := s.commit (tenantDestroyEffect q s.m)
/-- TENANT_KEY_LOAD. -/
def execTenantKeyLoad (q : QueueId) (s : State) : Host.Outcome State Fault Refusal := s.commit (tenantKeyLoadEffect q s.m)
/-- RANGE_SET. -/
def execRangeSet (q : QueueId) (s : State) : Host.Outcome State Fault Refusal := s.commit (rangeSetEffect q s.m)
/-- RANGE_ZERO_FILL_END. -/
def execRangeZeroFillEnd (q : QueueId) (s : State) : Host.Outcome State Fault Refusal := s.commit (rangeZeroFillEndEffect q s.m)
/-- RANGE_CLEAR. -/
def execRangeClear (q : QueueId) (s : State) : Host.Outcome State Fault Refusal := s.commit (rangeClearEffect q s.m)
/-- MAILBOX_ASSIGN. -/
def execMailboxAssign (q : QueueId) (s : State) : Host.Outcome State Fault Refusal := s.commit (mailboxAssignEffect q s.m)
/-- CONTEXT_CREATE. -/
def execContextCreate (q : QueueId) (s : State) : Host.Outcome State Fault Refusal := s.commit (contextCreateEffect q s.m)
/-- CONTEXT_DESTROY. -/
def execContextDestroy (q : QueueId) (s : State) : Host.Outcome State Fault Refusal := s.commit (contextDestroyEffect q s.m)
/-- CONTEXT_RESET. -/
def execContextReset (q : QueueId) (s : State) : Host.Outcome State Fault Refusal := s.commit (contextResetEffect q s.m)
/-- QUEUE_CREATE. -/
def execQueueCreate (q : QueueId) (s : State) : Host.Outcome State Fault Refusal := s.commit (queueCreateEffect q s.m)
/-- QUEUE_DESTROY. -/
def execQueueDestroy (q : QueueId) (s : State) : Host.Outcome State Fault Refusal := s.commit (queueDestroyEffect q s.m)
/-- RESOURCE_ASSIGN. -/
def execResourceAssign (q : QueueId) (s : State) : Host.Outcome State Fault Refusal := s.commit (resourceAssignEffect q s.m)
/-- RESOURCE_RELEASE. -/
def execResourceRelease (q : QueueId) (s : State) : Host.Outcome State Fault Refusal := s.commit (resourceReleaseEffect q s.m)
/-- TEARDOWN_DRAIN_END. -/
def execTeardownDrainEnd (tenant ctx : Nat) (s : State) : Host.Outcome State Fault Refusal :=
  s.commit (teardownDrainEndEffect tenant ctx s.m)
/-- TEARDOWN_DRAIN_TIMEOUT. -/
def execTeardownDrainTimeout (tenant ctx : Nat) (s : State) : Host.Outcome State Fault Refusal :=
  s.commit (teardownDrainTimeoutEffect tenant ctx s.m)
/-- PURGE_END. -/
def execPurgeEnd (tenant ctx : Nat) (s : State) : Host.Outcome State Fault Refusal := s.commit (purgeEndEffect tenant ctx s.m)
/-- SCRUB_END. -/
def execScrubEnd (idx : Nat) (s : State) : Host.Outcome State Fault Refusal := s.commit (scrubEndEffect idx s.m)
/-- DEFERRED_PERFORM. -/
def execDeferredPerform (q : QueueId) (s : State) : Host.Outcome State Fault Refusal := s.commit (deferredPerformEffect q s.m)

end Sys2Proof.Machine
end

