-- ==== Sys2Proof/Machine/Programs.lean ====
section
/-! DEFINITION. Program images (R86 to R89, R298): checks, placement, relocation, the program store (R456), and unloading
(Table 12.9). -/
namespace Sys2Proof.Machine

/-- One step of CRC-32C (reflected polynomial 0x82F63B78) over one bit. -/
def crcBit (c : Nat) : Nat := if c % 2 = 1 then (c / 2) ^^^ 0x82F63B78 else c / 2

/-- CRC-32C of bytes. -/
def crc32c (bs : List Byte) : Nat := (bs.foldl (fun c b => iter crcBit 8 (c ^^^ b.toNat)) 0xFFFFFFFF) ^^^ 0xFFFFFFFF

/-- The image header (Table 4.4). -/
structure Header where
  magic  : Nat
  major  : Nat
  family : Nat
  step   : Nat
  units  : Nat
  sects  : Nat
  slots  : Nat
  hitches : Nat
  args   : Nat
  crc    : Nat
  entry  : Nat
  cm     : Nat
  pool   : Nat
  table  : Nat
  bytes  : Nat
  rest   : List Byte
  deriving DecidableEq, Repr

/-- Reads a header. -/
def headerOf (b : List Byte) : Header :=
  { magic := leAt b 0 4, major := leAt b 4 2, family := leAt b 8 2, step := leAt b 10 1, units := leAt b 11 1
    sects := leAt b 0xC 2, slots := leAt b 0xE 2, hitches := leAt b 0x10 2, args := leAt b 0x12 2, crc := leAt b 0x14 4
    entry := leAt b 0x18 8, cm := leAt b 0x20 8, pool := leAt b 0x28 8, table := leAt b 0x30 8, bytes := leAt b 0x38 8
    rest := slice b 0x40 64 }

/-- A section table entry (Table 4.5). -/
structure Section where
  type  : Nat
  align : Nat
  res   : Nat
  file  : Nat
  size  : Nat
  mem   : Nat
  deriving DecidableEq, Repr

/-- Reads entry `i` of a section table. -/
def sectionOf (b : List Byte) (table i : Nat) : Section :=
  let o := table + 32 * i
  { type := leAt b o 2, align := leAt b (o + 2) 1, res := leAt b (o + 3) 5, file := leAt b (o + 8) 8, size := leAt b (o + 16) 8
    mem := leAt b (o + 24) 8 }

/-- Sections that are placed: CODE, RODATA, DATA and ZERO (R87). -/
def Section.placed (s : Section) : Bool := decide (1 ≤ s.type) && decide (s.type ≤ 4)

/-- A relocation record (Table 4.6). -/
structure Reloc where
  sect  : Nat
  kind  : Nat
  width : Nat
  sel   : Nat
  off   : Nat
  add   : Int
  deriving DecidableEq, Repr

/-- Reads a relocation record. -/
def relocOf (b : List Byte) (o : Nat) : Reloc :=
  let a := leAt b (o + 12) 4
  { sect := leAt b o 2, kind := leAt b (o + 2) 1, width := leAt b (o + 3) 1, sel := leAt b (o + 4) 4, off := leAt b (o + 8) 4
    add := if a < 2 ^ 31 then (a : Int) else (a : Int) - 2 ^ 32 }

/-- The sections of an image. -/
def sectionsOf (b : List Byte) (h : Header) : List Section := (List.range h.sects).map (sectionOf b h.table)

/-- Every relocation record, in section order (R88). -/
def relocsOf (b : List Byte) (ss : List Section) : List Reloc :=
  ss.flatMap fun s => if s.type = 5 then (List.range (s.size / 16)).map fun i => relocOf b (s.file + 16 * i) else []

/-- What a PROGRAM_LOAD asks for: the parts of its payload (Table 12.6). -/
structure LoadReq where
  image : List Byte
  room  : Nat
  cores : List Nat
  args  : List Byte
  ranks : List Nat
  rankRes : Bool
  deriving DecidableEq, Repr

/-- Reads the payload of a PROGRAM_LOAD. -/
def loadReq (c : Cmd) (payload : List Byte) : LoadReq :=
  let off := field (c.p 1) 31 0
  let n := field (c.p 0) 15 0
  let image := payload.drop off
  let ranks := (List.range n).map fun i => leAt payload (0x280 + 2 * i) 2
  { image := image, room := payload.length - off
    cores := ((List.range (min (headerOf image).slots 128)).map fun i => leAt payload i 1)
    args := slice payload 0x80 512, ranks := ranks.map (· % 4096), rankRes := ranks.any fun r => decide (r ≥ 4096) }

/-- Whether two placed sections overlap. -/
def sectionsClash : List Section → Bool
  | [] => false
  | s :: ss => (s.placed && ss.any fun t => t.placed && overlaps s.mem s.size t.mem t.size) || sectionsClash ss

/-- Whether one section breaks R87 or R89. -/
def Section.bad (h : Header) (s : Section) : Bool :=
  s.type == 0 || decide (s.type > 6) || s.res != 0 || decide (s.align < 7) ||
    (s.placed && (s.mem % 2 ^ s.align != 0 || decide (s.mem + s.size > h.cm))) ||
    (s.type == 4 && s.file != 0) || (s.type != 4 && decide (s.file + s.size > h.bytes)) ||
    (decide (s.type ≥ 5) && s.mem != 0) || (s.type == 5 && s.size % 16 != 0) || (s.type == 1 && decide (s.size > 0x100000))

/-- Whether a relocation record breaks R88 or R89. -/
def Reloc.bad (h : Header) (ranks : Nat) (ss : List Section) (r : Reloc) : Bool :=
  match ss[r.sect]? with
  | none => true
  | some s =>
    decide (s.type ≥ 5) || !(r.width == 2 || r.width == 4 || r.width == 8) || decide (r.off + r.width > s.size) ||
      (match r.kind with
        | 1 => decide (r.sel ≥ h.args)
        | 2 => decide (r.sel ≥ h.slots)
        | 3 => decide (r.sel ≥ h.slots)
        | 4 => false
        | 5 => decide (r.sel ≥ ranks)
        | _ => true)

/-- Whether the logical core can take a slot: present, and with a physical core behind it (R298, R472). -/
def Block.coreUsable (m : Block) (n : Nat) : Bool :=
  decide (n < m.coreCount) && m.fld (Reg.tileCoreMap (n / 8)) (4 * (n % 8) + 3) (4 * (n % 8)) != 0xF

/-- The checks of R89, R96 and R298: true when the image is rejected. -/
def Block.imageBad (m : Block) (x : Context) (r : LoadReq) : Bool :=
  let b := r.image
  let h := headerOf b
  let ss := sectionsOf b h
  let a := roundUp h.cm 128
  if h.magic ≠ 0x4C445242 ∨ h.major ≠ 1 ∨ h.family ≠ 0x1A0C ∨ h.step > m.fuse.stepping ∨ h.units > 3 ∨ h.rest.any (· != 0) then true
  else if h.bytes > r.room ∨ h.sects = 0 ∨ h.sects > 16 ∨ h.slots = 0 ∨ h.slots > 128 ∨ h.hitches > 1024 ∨ h.hitches > x.hitches ∨
      h.args > 64 ∨ h.table % 32 ≠ 0 ∨ h.table + 32 * h.sects > h.bytes then true
  else if crc32c ((b.take h.bytes).take 0x14 ++ [0, 0, 0, 0] ++ (b.take h.bytes).drop 0x18) ≠ h.crc then true
  else if h.cm > x.cmSize * 4096 ∨ a + 512 > x.cmSize * 4096 ∨ h.pool > x.poolSize * 65536 then true
  else if r.rankRes ∨ r.cores.dedup.length ≠ r.cores.length ∨ !r.cores.all m.coreUsable then true
  else if ss.any (Section.bad h) ∨ sectionsClash ss ∨ (ss.filter fun s => s.type == 1).length ≠ 1 then true
  else
    let rs := relocsOf b ss
    decide (rs.length > 65536) || rs.any (Reloc.bad h r.ranks.length ss)

/-- The value of a relocation (Table 4.6). -/
def relocValue (x : Context) (r : LoadReq) (k : Reloc) : Int :=
  let base : Nat := match k.kind with
    | 1 => leAt r.args (8 * k.sel) 8
    | 2 => r.cores.getD k.sel 0
    | 3 => 0xFFF * 2 ^ 48 + coreWindow (r.cores.getD k.sel 0) + x.cmBase * 4096
    | 4 => 0xFFF * 2 ^ 48 + x.poolAt
    | _ => r.ranks.getD k.sel 0
  (base : Int) + k.add

/-- Contents of section `i` after the records that patch it, in order (R88). -/
def sectionBytes (x : Context) (r : LoadReq) (rs : List Reloc) (i : Nat) (s : Section) : List Byte :=
  let raw := if s.type = 4 then List.replicate s.size 0 else slice r.image s.file s.size
  (rs.filter fun k => k.sect == i).foldl
    (fun bs k => bs.take k.off ++ leBytes k.width ((relocValue x r k % 2 ^ 64).toNat) ++ bs.drop (k.off + k.width)) raw

/-- The placed and relocated sections of an image, for each slot. -/
def placeImage (x : Context) (r : LoadReq) : List (Nat × Nat × List Byte) :=
  let ss := sectionsOf r.image (headerOf r.image)
  let rs := relocsOf r.image ss
  let parts := ss.zipIdx.filterMap fun si => if si.1.placed then some (si.1.mem, sectionBytes x r rs si.2 si.1) else none
  (List.range r.cores.length).flatMap fun i => parts.map fun p => (i, p.1, p.2)

/-- Writes a program's sections into core memory (R87). -/
def Block.layProgram (m : Block) (x : Context) (p : Program) : Block :=
  p.placed.foldl
    (fun m q => m.homeWrite (coreWindow (p.slots.getD q.1 0) + x.cmBase * 4096 + q.2.1) q.2.2) m

/-- Bytes that the program store holds (R456). -/
def Block.storeBytes (m : Block) : Nat := total (m.cmd.programs.map fun p => total (p.placed.map fun q => q.2.2.length))

/-- The lowest free handle of a context. -/
def Block.freeHandle (m : Block) (t c : Nat) : Nat :=
  ((List.range 1025).find? fun h => 1 ≤ h && !m.cmd.programs.any fun p => p.tenant == t && p.ctx == c && p.handle == h).getD 1025

/-- PROGRAM_LOAD (R86 to R89, R298, R456). A header that is this family's and names an absent unit ends UNIT_ABSENT (R9). -/
def programLoadEffect (q : QueueId) (m : Block) : Block :=
  m.onCommand q 0x100 fun c =>
    match m.context? q.tenant q.ctx with
    | none => m.complete q 7 0
    | some x =>
      let r := loadReq c (m.readPayload c)
      let h := headerOf r.image
      let needs := h.magic == 0x4C445242 && h.major == 1 && h.family == 0x1A0C && decide (h.units % 4 > 0) && !m.tuning
      if needs then m.complete q 1 0
      else if m.imageBad x r then m.complete q 5 0
      else
        let placed := placeImage x r
        let mine := m.cmd.programs.filter fun p => p.tenant == q.tenant && p.ctx == q.ctx && p.gone.isNone
        if mine.length ≥ 64 ∨ m.storeBytes + total (placed.map fun p => p.2.2.length) > 2 ^ 32 then m.complete q 6 0
        else
          let code := (sectionsOf r.image h).find? fun s => s.type == 1
          let p : Program := { handle := m.freeHandle q.tenant q.ctx, tenant := q.tenant, ctx := q.ctx, slots := r.cores, ranks := r.ranks
                               entry := h.entry, codeOff := (code.map (·.mem)).getD 0, codeSize := (code.map (·.size)).getD 0
                               cmBytes := h.cm, args := r.args, placed := placed }
          let m1 := { m.layProgram x p with cmd.programs := m.cmd.programs ++ [p] }
          let m2 := m1.modContext q.tenant q.ctx fun y => { y with cores := r.cores.foldl insertNat y.cores }
          m2.complete q 0 p.handle

/-- PROGRAM_UNLOAD (Table 12.9): the handle is unknown from now on; the program goes once the accepted runs of it have ended. -/
def programUnloadEffect (q : QueueId) (m : Block) : Block :=
  m.onCommand q 0x101 fun c =>
    let h := field (c.p 0) 31 0
    let p (x : Program) : Bool := x.tenant == q.tenant && x.ctx == q.ctx && x.handle == h && x.gone.isNone
    if !m.cmd.programs.any p then m.complete q 7 0
    else
      let users := (m.cmd.cmds.filter fun k => k.opcode == 0x102 && k.q.tenant == q.tenant && k.q.ctx == q.ctx && field (k.p 0) 63 32 == h).map
        fun k => (k.q, k.sqHead)
      ({ m with cmd.programs := mapIf p (fun x => { x with gone := some users }) m.cmd.programs }).complete q 0 0

/-- The program that a TASK_RUN names: loaded, or unloaded after the command was accepted. -/
def Block.programOf (m : Block) (c : Cmd) : Option Program :=
  m.cmd.programs.find? fun p => p.tenant == c.q.tenant && p.ctx == c.q.ctx && p.handle == field (c.p 0) 63 32 &&
    p.gone.all fun l => l.contains (c.q, c.sqHead)

/-- PROGRAM_LOAD. -/
def execProgramLoad (q : QueueId) (s : State) : Host.Outcome State Fault Refusal := s.commit (programLoadEffect q s.m)
/-- PROGRAM_UNLOAD. -/
def execProgramUnload (q : QueueId) (s : State) : Host.Outcome State Fault Refusal := s.commit (programUnloadEffect q s.m)

end Sys2Proof.Machine
end

