-- ==== Sys2Proof/Machine/Saddles.lean ====
section
/-! DEFINITION. Loading, updating and unloading saddles (R249 to R253, R257, R258), and the end of a page-in (R177, R255). -/
namespace Sys2Proof.Machine

/-- A saddle image's header (Table 10.2). -/
structure SadHeader where
  w : List Word
  deriving DecidableEq, Repr

/-- HANDLE. -/
def SadHeader.handle (h : SadHeader) : Nat := field (wordAt h.w 0) 63 32
/-- RANK. -/
def SadHeader.rank (h : SadHeader) : Nat := field (wordAt h.w 0) 8 0
/-- IMAGE_BYTES. -/
def SadHeader.bytes (h : SadHeader) : Nat := (wordAt h.w 2).toNat
/-- Projections of PROJ_MASK, ascending. -/
def SadHeader.projs (h : SadHeader) : List Nat := maskList 8 (field (wordAt h.w 1) 47 40)

/-- Bytes of a matrix of `rows` rows of `cols` elements (R250). -/
def saddleMatrix (f : Fmt) (s : Scheme) (rows cols : Nat) : Nat :=
  match s with
  | .none => roundUp (elemBytes f.width (rows * cols)) 128
  | _ => rows * roundUp (elemBytes f.width (roundUp cols (blockSize s))) 128 + rows * roundUp (ceilDiv cols (blockSize s)) 128

/-- A format and a scheme that a matrix may have (R28, R73). -/
def matrixFormat (fmt sch : Nat) : Option (Fmt × Scheme) :=
  match fmtOfCode fmt, schemeOfCode sch with
  | some f, some s =>
    if f == .fp32 || (s != .none && f.width == 16) || (s == .microscaling && f == .int4) then none else some (f, s)
  | _, _ => none

/-- Whether a header and its size are sound (R251, R244). `room`: PAYLOAD_BYTES. -/
def SadHeader.sound (h : SadHeader) (room : Nat) : Bool :=
  let w0 := wordAt h.w 0
  let w1 := wordAt h.w 1
  match matrixFormat (field w1 63 60) (field w1 51 50), matrixFormat (field w1 59 56) (field w1 49 48) with
  | some a, some b =>
    let ufmt := field w1 55 52
    let dims (p : Nat) : Nat × Nat := (field (wordAt h.w (4 + p)) 63 32, field (wordAt h.w (4 + p)) 31 0)
    let size := 128 + field w1 15 0 * total (h.projs.map fun p =>
      saddleMatrix a.1 a.2 h.rank (dims p).1 + saddleMatrix b.1 b.2 (dims p).2 h.rank)
    h.handle != 0 && h.handle != 0xFFFFFFFF && zeroBits w0 15 9 && decide (4 ≤ h.rank) && decide (h.rank ≤ 256) &&
      (if b.1.width = 16 then ufmt == 1 || ufmt == 2 else ufmt == 3 || ufmt == 4 || ufmt == 8) &&
      field w1 47 40 != 0 && zeroBits w1 39 16 && field w1 15 0 != 0 &&
      (a.2 == .fineBlock || field (wordAt h.w 3) 63 32 == 0) && (b.2 == .fineBlock || field (wordAt h.w 3) 31 0 == 0) &&
      (List.range 8).all (fun p =>
        if h.projs.contains p then
          decide (1 ≤ (dims p).1) && decide ((dims p).1 ≤ 65536) && decide (1 ≤ (dims p).2) && decide ((dims p).2 ≤ 65535)
        else wordAt h.w (4 + p) == 0) &&
      (List.range 4).all (fun i => wordAt h.w (12 + i) == 0) && h.bytes == size && decide (h.bytes ≤ room)
  | _, _ => false

/-- Keeps a sound image as a new version of a saddle: in a free slot, with pages that leave the paging reserve free (R175), or else in the tier
store; none when neither has room (R251, R257, R258). -/
def Block.keepImage (m : Block) (t handle version : Nat) (image : List Byte) : Option Block :=
  let n := image.length
  let uid := m.page.nextObj
  let img := image.take 2 ++ leBytes 2 version ++ image.drop 4
  let s0 : Saddle := { uid := uid, tenant := t, handle := handle, version := version, bytes := n, addr := 0, slot := none
                       state := .paged, tierOff := none, tierCurrent := false, lastRun := m.time }
  match m.freeSlot, if m.storeFits n && decide (roundUp n 0x200000 + m.reserve ≤ m.hbmFree) then m.freeHbm n else none with
  | some i, some a =>
    let m1 := ((m.newObj (.saddle t handle uid) t a n true).2).assignPages t uid a n
    some ({ m1 with page.saddles := m1.page.saddles ++ [{ s0 with addr := a, slot := some i, state := .resident }] }.homeWrite a img)
  | _, _ =>
    if m.tierStoreFits n && m.tierFits n then
      let off := m.freeTier n
      let m1 := (m.newObj (.saddle t handle uid) t 0 n false).2
      some ({ m1 with page.saddles := m1.page.saddles ++ [{ s0 with tierOff := some off, tierCurrent := true }] }.homeWrite (tierAddr off) img)
    else none

/-- The header at the start of a payload. -/
def sadHeaderOf (payload : List Byte) : SadHeader := ⟨leWords 16 payload⟩

/-- SADDLE_LOAD (R249 to R251). A handle that is registered is a CONFLICT; a LOST one is loaded anew. -/
def saddleLoadEffect (q : QueueId) (m : Block) : Block :=
  m.onCommand q 0x110 fun c =>
    let payload := m.readPayload c
    let h := sadHeaderOf payload
    if !h.sound payload.length then m.complete q 5 0
    else
      let old := m.saddle? q.tenant h.handle
      if old.any fun s => s.state != .lost then m.complete q 8 0
      else match m.keepImage q.tenant h.handle 1 (payload.take h.bytes) with
        | none => m.complete q 6 0
        | some m1 =>
          let m2 := match old with
            | some s => m1.modSaddle (· == s) fun x => { x with old := true }
            | none => m1
          m2.complete q 0 1

/-- SADDLE_UPDATE (R252): a new version in new pages; the old one goes when no command binds it. -/
def saddleUpdateEffect (q : QueueId) (m : Block) : Block :=
  m.onCommand q 0x111 fun c =>
    let payload := m.readPayload c
    let h := sadHeaderOf payload
    match m.saddle? q.tenant (field (c.p 0) 31 0) with
    | none => m.complete q 7 0
    | some s =>
      if s.state = .lost then m.complete q 9 0
      else if !h.sound payload.length ∨ h.handle ≠ s.handle then m.complete q 5 0
      else
        let v := (s.version + 1) % 65536
        match m.keepImage q.tenant s.handle v (payload.take h.bytes) with
        | none => m.complete q 6 0
        | some m1 => (m1.modSaddle (fun x => x.uid == s.uid) fun x => { x with old := true }).complete q 0 v

/-- SADDLE_UNLOAD (R253): the handle is unknown to new commands and every version of it goes; while commands bind one, the unload waits for
the last of them and its record carries DEFERRED. -/
def saddleUnloadEffect (q : QueueId) (m : Block) : Block :=
  m.onCommand q 0x112 fun c =>
    match m.saddle? q.tenant (field (c.p 0) 31 0) with
    | none => m.complete q 7 0
    | some s =>
      if s.state = .lost then m.complete q 9 0
      else
        let mine := m.page.saddles.filter fun x => x.tenant == s.tenant && x.handle == s.handle && !x.retiring
        let m1 := (mine.filter fun x => !m.pinned x).foldl Block.freeSaddle m
        if (mine.filter m.pinned).isEmpty then m1.complete q 0 0
        else
          let m2 := m1.modSaddle (fun x => x.tenant == s.tenant && x.handle == s.handle && !x.retiring) fun x => { x with retiring := true, unloadBy := some q }
          m2.modCmd q fun k => { k with wait := .unit, deferred := true }

/-- A saddle whose image has been written in HBM is RESIDENT once it has a slot (R255). -/
def Block.settleSaddle (m : Block) (o : PageObj) (u : Nat) : Block :=
  match m.page.saddles.find? fun s => s.uid == u && s.state == .loading with
  | none => { m with page.urgent := m.page.urgent.filter fun (r : PageReq) => r.obj != o.id }
  | some s =>
    let k := match s.slot with
      | some i => (some i, m)
      | none => Block.makeSlot 0 (m.page.saddles.length + 1) m
    match k.1 with
    | none => k.2
    | some i =>
      let m1 := { k.2.modObj o.id (fun o => { o with resident := true }) with
        page.urgent := k.2.page.urgent.filter fun (r : PageReq) => r.obj != o.id }
      (m1.modSaddle (fun x => x.uid == u) fun x => { x with state := .resident, slot := some i, tierCurrent := true }).addFld Reg.sadPagein 63 0 1

/-- The end of a page-in: the object is resident (R177, R205, R255). -/
def Block.pagedIn (m : Block) (o : PageObj) : Block :=
  let m1 := { m.modObj o.id (fun o => { o with resident := true }) with
    page.urgent := m.page.urgent.filter fun (r : PageReq) => r.obj != o.id }
  match o.kind with
  | .saddle _ _ u => m.settleSaddle o u
  | .kvPage a => m1.homeWrite a (leBytes 8 (putField (putField (m1.kvEntry a) 62 62 1) 47 0 o.hbm).toNat)
  | .other _ => m1

/-- SADDLE_LOAD. -/
def execSaddleLoad (q : QueueId) (s : State) : Host.Outcome State Fault Refusal := s.commit (saddleLoadEffect q s.m)
/-- SADDLE_UPDATE. -/
def execSaddleUpdate (q : QueueId) (s : State) : Host.Outcome State Fault Refusal := s.commit (saddleUpdateEffect q s.m)
/-- SADDLE_UNLOAD. -/
def execSaddleUnload (q : QueueId) (s : State) : Host.Outcome State Fault Refusal := s.commit (saddleUnloadEffect q s.m)

end Sys2Proof.Machine
end

