-- ==== Sys2Proof/Machine/Tasks.lean ====
section
/-! DEFINITION. Running work: TASK_RUN (R297, R85, R247), HITCH_SIGNAL, COPY (R514), dispatch (R302, R303, R329), the pulling up
and resuming of tasks (R329), overruns (R330) and the end of a suspension (R334). -/
namespace Sys2Proof.Machine

/- Starting a task -/

/-- Zeroes a core's numeric status and counters when a task of another context is dispatched to it (R50, R76, R220). -/
def Block.clearCounts (m : Block) (n : Nat) : Block :=
  let t := n / 8
  let c := n % 8
  [Reg.coreNumstat n, Reg.coreArrLoadcyc n, Reg.coreArrStrmcyc n, Reg.coreArrStallcyc n, Reg.coreCmStallcyc n, Reg.attSeqDone t c, Reg.attTokens t c,
    Reg.attEmpty t c, Reg.attRefused t c, Reg.attKvw t c, Reg.attCar t c].foldl (fun m r => m.setReg r 0) m

/-- Whether an address lies in a context's window on core `n`. -/
def Context.inWindow (x : Context) (n a : Nat) : Bool :=
  let b := coreWindow n + x.cmBase * 4096
  decide (b ≤ a) && decide (a < b + x.cmSize * 4096)

/-- The saved state of a pulled-up task of the context `x`, its window saved with it, once (R329). -/
def SavedTask.keepWindow (m : Block) (x : Context) (n : Nat) (s : SavedTask) : SavedTask :=
  let id := Tbl.getD 0 s.regs (Reg.coreTaskId n)
  if field id 12 8 == x.tenant && field id 7 0 == x.ctx && s.cmHeld == false then
    { s with cmHeld := true, cm := m.mem.filter (fun e => x.inWindow n e.1), cmBad := m.poison.filter (fun g => x.inWindow n (128 * g)) }
  else s

/-- A task dispatched to a core that holds a pulled-up task of the same context has that task's window: its bytes are saved first, once
(R329). -/
def Block.holdWindow (m : Block) (x : Context) (n : Nat) : Block :=
  m.modCore n fun c => { c with saved := c.saved.map (SavedTask.keepWindow m x n) }

/-- Starts slot `slot` of a task on core `n` (R85, R98, R117, R423): windows, hitches, sequencer, argument block, scalar registers. -/
def Block.startCore (m : Block) (c : Cmd) (p : Program) (x : Context) (args : List Byte) (slot n : Nat) : Block :=
  let t := c.q.tenant
  let a := roundUp p.cmBytes 128
  let m0 := m.toM0.holdWindow x n
  let m1 := if (m0.core n).lastCtx = some (t, x.ctx) then m0 else m0.clearCounts n
  let m2 := m1.homeWrite (coreWindow n + x.cmBase * 4096 + a) args
  let regs : List (Nat × Nat) := [
    (Reg.coreTaskId n, 2 ^ 63 + t * 256 + x.ctx), (Reg.coreCmBase n, x.cmBase * 4096), (Reg.coreCmBound n, x.cmSize * 4096),
    (Reg.corePoolBase n, x.poolBase * 65536), (Reg.corePoolBound n, x.poolSize * 65536), (Reg.coreBoundErr n, 0),
    (Reg.coreHitchCfg n, x.hitches * 2 ^ 32), (Reg.coreHitchWait n, 0), (Reg.coreSeqPc n, p.entry), (Reg.coreSeqProgress n, 0),
    (Reg.coreSeqDispatch n, m.time), (Reg.coreSeqStatus n, x.ctx * 2 ^ 48 + t * 2 ^ 40 + 2 ^ 32)]
  let m3 := regs.foldl (fun m r => m.setReg r.1 (BitVec.ofNat 64 r.2)) m2
  let sregs := ([slot, p.slots.length, a].map (BitVec.ofNat 64)) ++ List.replicate 29 (0 : Word)
  (m3.modCore n fun k =>
    { k with
      sregs := sregs, loops := [], calls := [], codeOff := p.codeOff, codeSize := p.codeSize, hold := .none, drainMask := 0, ordStamp := 0
      waitStart := 0, waitAddr := 0, met := false, att := none, task := some c.q, slot := slot, lastCtx := some (t, x.ctx) }).modTile (n / 8)
    fun y => { y with pllOn := true, idleFrom := m.time }

/-- Dispatches a task to the cores of its program, its arguments copied first (R297). -/
def Block.dispatchTask (m : Block) (c : Cmd) (p : Program) (x : Context) : Block :=
  let args := if c.payloadBytes = 0 then p.args else c.payload.take 512
  let m2 := m.modSaddle (fun s => s.tenant == c.q.tenant && c.binds.contains (s.handle, s.uid)) fun s => { s with lastRun := m.time }
  let m3 := { m2 with cmd.programs := mapIf (fun (y : Program) => y == p) (fun y => { y with args := args }) m2.cmd.programs }
  (p.slots.zipIdx.foldl (fun m ni => m.startCore c p x args ni.2 ni.1) m3).modContext c.q.tenant c.q.ctx
    (fun y => { y with cores := p.slots.foldl insertNat y.cores }) |>.setWait c.q .tasks

/-- Fills in the saddle table of a task, once, and dispatches it when the table's writes have reached their homes (R247, R148). -/
def Block.fillAndDispatch (m : Block) (c : Cmd) (p : Program) (x : Context) : Block :=
  let a := localPart (c.p 1).toNat
  let count := field (c.p 2) 63 48
  if c.p 1 = 0 then m.dispatchTask c p x
  else
    let m1 := if c.wait = .table then m else m.fillTable c (c.p 1).toNat count
    if m1.writeWaits a (32 * count) then m1.setWait c.q .table else m1.dispatchTask c p x

/-- Whether the cores of a task are free for it now: for a PACED command one that runs no task and has come to rest is (R98); a command of
another class also finds none that a PACED command needs or that holds a pulled-up task (R329). -/
def Block.slotsOpen (m : Block) (c : Cmd) (p : Program) : Bool :=
  p.slots.all fun n => if c.pace.isSome then (m.core n).task.isNone && !m.coreLive n else m.coreOpen n

/-- The resident pages of a KV list become objects that firmware may page out later (R209). -/
def Block.noteList (m : Block) (c : Cmd) : Block := c.kv.foldl (fun m a => m.noteKv c.q.tenant a) m

/-- Runs a TASK_RUN as far as it can go now: bound once, held until its saddles and pages are resident (R177, R255, R297), then
dispatched when its cores are free. -/
def Block.runTask (m : Block) (c : Cmd) : Block :=
  match m.programOf c, m.context? c.q.tenant c.q.ctx with
  | some p, some x =>
    if !p.slots.all m.coreUsable then
      let seq := m.faultSeq c.q.tenant
      (m.faultFor 11 0 ((p.slots.find? fun n => !m.coreUsable n).getD 0) c.q.tenant c.q.ctx 0 0 0 0 0 (some c.q)).complete c.q 0xB seq
    else
      let payload := if c.bound then c.payload else m.readPayload c
      match if c.bound then .ok c.kv else m.kvNeeds c payload with
      | .error st => m.complete c.q st 0
      | .ok kv =>
        let c1 := { c with bound := true, kv := kv, payload := payload }
        let m1 := (if c.bound then m else m.sightKv c payload kv).modCmd c.q fun _ => c1
        if (m1.boundSaddles c1).any fun s => s.state == .lost then m1.complete c.q 9 0
        else
          let broken := (m1.kvAbsent kv).filter fun a => (m1.kvObj a).isNone
          if !broken.isEmpty then (broken.foldl Block.kvBreak m1).complete c.q 4 0
          else
            let m2 := (m1.noteList c1).loadBound c1
            let m3 := (m2.kvAbsent kv).foldl (fun m a => match m.kvObj a with
              | some o => m.pageInUrgent o.id
              | none => m) m2
            if m3.saddlesReady c1 && (m3.kvAbsent kv).isEmpty then
              if c.wait = .table ∨ m3.slotsOpen c1 p then m3.fillAndDispatch c1 p x else m3.setWait c.q .residency
            else m3.setWait c.q .residency
  | _, _ => m.complete c.q 7 0

/-- TASK_RUN (R297). The row acts again while the command is held. -/
def taskRunEffect (q : QueueId) (m : Block) : Block :=
  match m.running q with
  | none => m
  | some c => if c.opcode = 0x102 ∧ (c.wait = .none ∨ c.wait = .residency ∨ c.wait = .table) then m.runTask c else m

/-- PAGE_IN_COMPLETE (R177, R255): an object whose last granule is written is resident, and the commands it held go on. -/
def pageInCompleteEffect (id : Nat) (m : Block) : Block :=
  match m.obj? id, m.page.urgent.find? fun r => r.obj == id with
  | some o, some r =>
    if !m.reqDone o r then m
    else
      let m1 := ((m.pagedIn o).endHolds).loadHeld
      (m1.cmd.cmds.filter fun c => c.started && c.wait == .residency).foldl (fun m c => taskRunEffect c.q m) m1
  | _, _ => m

/-- HITCH_SIGNAL (R91, R295). -/
def hitchSignalEffect (q : QueueId) (m : Block) : Block :=
  m.onCommand q 0x103 fun c =>
    match m.hitchAddr q.tenant q.ctx (field (c.p 0) 9 0) with
    | none => m.complete q 7 0
    | some a => (m.hitchAdd a (c.p 1).toNat).complete q 0 0

/-- COPY (R514): the command channel of a tile that firmware chooses takes the command when it serves none. -/
def copyEffect (q : QueueId) (tile : Nat) (m : Block) : Block :=
  m.onCommand q 0x104 fun _ =>
    if tile ≥ m.tileCount ∨ (m.tile tile).cmdChan.isSome then m
    else ((m.modTile tile fun x => { x with cmdChan := some q, cmdDone := 0, cmdTag := none }).setWait q .unit).assignEngines tile

/- Pulling up and resuming (R329) -/

/-- Whether a register belongs to the state of core `n`'s task: its CORE_ block but for the map, the limit that firmware sets, and
CORE_NUMSTAT and the array counters, which count on whatever task runs (R49, R75). -/
def taskReg (n off : Nat) : Bool :=
  decide (Reg.coreSeqStatus n ≤ off) && decide (off < Reg.coreSeqStatus n + 0x1000) && off != Reg.corePhys n && off != Reg.coreHitchTmo n &&
    off != Reg.coreNumstat n && off != Reg.coreCmStallcyc n && !(decide (Reg.coreArrLoadcyc n ≤ off) && decide (off ≤ Reg.coreArrCtl n))

/-- Whether a key lies in core `n`'s operand buffers. -/
def inBufs (n k : Nat) : Bool := decide (n * 0x400000 ≤ k) && decide (k < (n + 1) * 0x400000)

/-- Pulls up the task on core `n`: everything that makes it up is saved, and the core is free for a PACED task. -/
def Block.pullUp (m : Block) (n : Nat) : Block :=
  let c := m.core n
  let s : SavedTask :=
    { task := c.task, slot := c.slot, lastCtx := c.lastCtx, regs := m.regs.filter (fun e => taskReg n e.1), sregs := c.sregs, loops := c.loops, calls := c.calls
      codeOff := c.codeOff, codeSize := c.codeSize, matQ := c.matQ, vecQ := c.vecQ, sfuQ := c.sfuQ, copyQ := c.copyQ, loads := c.loads, stores := c.stores
      signals := c.signals, hold := c.hold, drainMask := c.drainMask, ordStamp := c.ordStamp, waitStart := c.waitStart
      waitAddr := c.waitAddr, met := c.met, att := c.att, bufs := m.bufs.filter (fun e => inBufs n e.1), bufBad := m.bufPoison.filter (inBufs n)
      cmHeld := false, cm := [], cmBad := [] }
  let keep : CoreState := { lastCtx := c.lastCtx, cmCorr := c.cmCorr, cmUncorr := c.cmUncorr, hangs := c.hangs, saved := some s }
  (m.resetRegs (taskReg n)).setCore n keep

/-- The watchdogs of a core, and of the channels and rings of its tile that have work, count their windows from now (R448): the pull-up that
paused them is over. Keys are those of `Block.beat`. -/
def Block.restartWindows (m : Block) (n : Nat) : Block :=
  let t := n / 8
  let chans := ((List.range 128).filter fun k => m.chanSt t k == 1).map fun k => 4096 + 128 * t + k
  let rings (cls per : Nat) : List Nat :=
    ((List.range per).filter fun k => m.fld (ringHead cls (per * t + k)) 63 60 == 1).map fun k => 4096 * cls + (per * t + k)
  { m with flt.progAt := (n :: chans ++ rings 2 32 ++ rings 3 8 ++ rings 4 8).foldl (fun p k => Tbl.put p k m.time) m.flt.progAt }

/-- Resumes a pulled-up task where it stopped. After a task of another context the counters are cleared, as at a dispatch (R50, R76, R220). -/
def Block.resumeTask (m : Block) (n : Nat) (s : SavedTask) : Block :=
  let c := m.core n
  let m1 := s.regs.foldl (fun m e => m.setReg e.1 e.2) (m.resetRegs (taskReg n))
  let t := m1.fld (Reg.coreTaskId n) 12 8
  let x := ((m1.context? t (m1.fld (Reg.coreTaskId n) 7 0))).getD { tenant := t, ctx := 0 }
  let m1 := if c.lastCtx = s.lastCtx then m1 else m1.clearCounts n
  let m2 := { m1 with
    bufs := m1.bufs.filter (fun (e : Host.Cell) => !inBufs n e.1) ++ s.bufs
    bufPoison := s.bufBad.foldl insertNat (m1.bufPoison.filter fun k => !inBufs n k)
    mem := if s.cmHeld then m1.mem.filter (fun (e : Host.Cell) => !x.inWindow n e.1) ++ s.cm else m1.mem
    poison := if s.cmHeld then s.cmBad.foldl insertNat (m1.poison.filter fun g => !x.inWindow n (128 * g)) else m1.poison }
  (m2.restartWindows n).setCore n
    { sregs := s.sregs, loops := s.loops, calls := s.calls, codeOff := s.codeOff, codeSize := s.codeSize, matQ := s.matQ, vecQ := s.vecQ
      sfuQ := s.sfuQ, copyQ := s.copyQ
      loads := s.loads, stores := s.stores, signals := s.signals, hold := s.hold, drainMask := s.drainMask, ordStamp := s.ordStamp
      waitStart := s.waitStart, waitAddr := s.waitAddr, met := s.met, att := s.att, task := s.task, slot := s.slot, lastCtx := s.lastCtx
      cmCorr := c.cmCorr, cmUncorr := c.cmUncorr, hangs := c.hangs }

/-- Whether an accepted PACED command may start: its lead tick has passed, its context is open and its ring has room (R329). -/
def Block.leadDue (m : Block) (c : Cmd) : Bool :=
  !c.started && c.peers.isEmpty && (c.pace.any fun p => p.lead.any fun l => decide (l ≤ m.time)) && m.ctxOpen c.q.tenant c.q.ctx &&
    (m.queue? c.q).any fun x => x.held.isEmpty

/-- Starts an accepted PACED command, pulling up the tasks of other classes on its cores. -/
def Block.startPaced (m : Block) (c : Cmd) : Block :=
  let m1 := { m with cmd.cmds := mapIf (fun y => y == c) (fun y => { y with started := true }) m.cmd.cmds }
  ((m.cmdCores c).filter fun n => (m.core n).task.isSome).foldl (fun m n => m.pullUp n) m1

/-- PACED_LEAD_START (R329). -/
def pacedLeadStartEffect (q : QueueId) (m : Block) : Block :=
  match m.cmd.cmds.find? fun c => c.q == q && c.pace.isSome && !c.started with
  | some c => if m.fwRuns && m.leadDue c then m.startPaced c else m
  | none => m

/-- DISPATCH (R302, R303): PACED work whose lead tick has passed, then the ready queues of class 1, 2 and 3. While an activation
drains, accepted PACED commands alone still start (R397). -/
def dispatchEffect (m : Block) : Block :=
  if !m.fwRuns then m
  else match m.cmd.cmds.find? m.leadDue with
    | some c => m.startPaced c
    | none =>
      if !m.serving then m
      else
      let m1 := m.cmd.queues.foldl (fun m q => m.promote q) m.loadHeld
      match (m1.nextOfClass 1).or ((m1.nextOfClass 2).or (m1.nextOfClass 3)) with
      | some q => m1.startQueue q
      | none => m1

/-- PULLED_UP_RESUME (R329): once no accepted PACED command needs the core. -/
def pulledUpResumeEffect (core : Nat) (m : Block) : Block :=
  match (m.core core).saved with
  | some s => if m.serving && (m.core core).task.isNone && !m.pacedNeeds core then m.resumeTask core s else m
  | none => m

/-- The engine work of a command that firmware stops: its copy and its collective. -/
def Block.dropUnits (m : Block) (q : QueueId) : Block :=
  { m with
    tiles := m.tiles.map fun (e : Nat × TileState) => (e.1, if e.2.cmdChan == some q then { e.2 with cmdChan := none, cmdDone := 0, cmdTag := none } else e.2)
    eng.colls := m.eng.colls.filter fun (x : Coll) => x.q != q
    eng.groomLists := m.eng.groomLists.filter fun (x : QueueId × Nat × Nat × List Nat) => x.1 != q }

/-- Whether the time of an accepted PACED command is up: the tick that runs is the last before lead tick + T_adm + W (R319, R330). Inside a
suspension window it is not (R334). -/
def Block.overrun (m : Block) (c : Cmd) : Bool :=
  !m.pwr.emergOpen && m.pwr.recovery.isNone &&
    c.pace.any fun p => p.lead.any fun l => decide (l + m.fld Reg.paceAdm 31 0 + p.work ≤ m.time + 1)

/-- Firmware stops a PACED command whose time is up: its cores stop and it completes ABORTED, before t_0 + T (R322, R330). -/
def Block.stopOverrun (m : Block) (c : Cmd) : Block :=
  let m1 := { m with cmd.cmds := mapIf c.same (fun c => { c with started := true }) m.cmd.cmds }
  ((m1.dropUnits c.q).endTask c.q 0xA 0).satFld Reg.paceOverrun 31 0 1

/-- PACED_OVERRUN_STOP (R330). -/
def pacedOverrunStopEffect (q : QueueId) (m : Block) : Block :=
  match m.running q with
  | none => m
  | some c => if m.overrun c then m.stopOverrun c else m

/-- At the end of a tick firmware has stopped every PACED command whose time is up (R330). -/
def Block.stopOverruns (m : Block) : Block :=
  (m.cmd.cmds.filter m.overrun).foldl (fun m c => if m.cmd.cmds.any c.same then m.stopOverrun c else m) m

/-- Lead ticks that have passed are set to the end tick of a suspension window (R334). -/
def Block.resetLeads (m : Block) (e : Nat) : Block :=
  { m with cmd.cmds := m.cmd.cmds.map fun c => { c with pace := c.pace.map fun p =>
      { p with lead := p.lead.map fun l => if l < e then e else l } } }

/-- SUSPENSION_END (R334). -/
def suspensionEndEffect (m : Block) : Block :=
  if m.fld Reg.paceStatus 63 63 = 1 ∨ m.reg Reg.paceSuspEnd = 0 then m else m.resetLeads (m.reg Reg.paceSuspEnd).toNat

/-- TASK_RUN. -/
def execTaskRun (q : QueueId) (s : State) : Host.Outcome State Fault Refusal := s.commit (taskRunEffect q s.m)
/-- PAGE_IN_COMPLETE. -/
def execPageInComplete (obj : Nat) (s : State) : Host.Outcome State Fault Refusal := s.commit (pageInCompleteEffect obj s.m)
/-- HITCH_SIGNAL. -/
def execHitchSignal (q : QueueId) (s : State) : Host.Outcome State Fault Refusal := s.commit (hitchSignalEffect q s.m)
/-- COPY. -/
def execCopy (q : QueueId) (tile : Nat) (s : State) : Host.Outcome State Fault Refusal := s.commit (copyEffect q tile s.m)
/-- DISPATCH. -/
def execDispatch (s : State) : Host.Outcome State Fault Refusal := s.commit (dispatchEffect s.m)
/-- PACED_LEAD_START. -/
def execPacedLeadStart (q : QueueId) (s : State) : Host.Outcome State Fault Refusal := s.commit (pacedLeadStartEffect q s.m)
/-- PULLED_UP_RESUME. -/
def execPulledUpResume (core : Nat) (s : State) : Host.Outcome State Fault Refusal := s.commit (pulledUpResumeEffect core s.m)
/-- PACED_OVERRUN_STOP. -/
def execPacedOverrunStop (q : QueueId) (s : State) : Host.Outcome State Fault Refusal := s.commit (pacedOverrunStopEffect q s.m)
/-- SUSPENSION_END. -/
def execSuspensionEnd (s : State) : Host.Outcome State Fault Refusal := s.commit (suspensionEndEffect s.m)

end Sys2Proof.Machine
end

