-- ==== Sys2Proof/Machine/Engine.lean ====
section
/-! DEFINITION. What the engines that work on memory by themselves share: reading and writing granules with their checks
(R135, R305, R447), and job rings (R186, R191, R224, R262). -/
namespace Sys2Proof.Machine

/- Engine accesses -/

/-- What an access waits for: the read of a granule of another node, the exclusive copy that a host holds, every host copy of a granule to be
written, room for a burst. -/
inductive Need where
  | remote (node addr : Nat)
  | host (a : Nat)
  | copies (a : Nat)
  | room
  deriving DecidableEq, Repr

/-- The outcome of a read: a failed check (kind of Table 19.3), data still to come, or the bytes with their poison. -/
inductive Got where
  | bad (kind ga n : Nat)
  | need (l : List Need)
  | data (m : Block) (bytes : List Byte) (poison : Bool)

/-- Whether a mover sent a remote read. -/
def Mover.sent (v : Mover) (r : RemoteRead) : Bool := r.master == v.code && r.tenant == v.tenant && r.ctx == v.ctx

/-- The answered read of a master for a granule of another node. -/
def Block.answered (m : Block) (v : Mover) (node a : Nat) : Option RemoteRead :=
  m.fab.reads.find? fun r => v.sent r && r.node == node && r.addr == a && r.data.isSome

/-- Joins the reads of two pieces. -/
def Got.join (a : Got) (b : Block → Got) : Got :=
  match a with
  | .bad k g n => .bad k g n
  | .need l => .need l
  | .data m x p => match b m with
    | .bad k g n => .bad k g n
    | .need l => .need l
    | .data m2 y q => .data m2 (x ++ y) (p || q)

/-- Reads a piece within one granule. -/
def Block.engPiece (m : Block) (v : Mover) (ga n : Nat) : Got :=
  match m.check v.tenant v.ctx ga n false with
  | some k => .bad k ga n
  | none =>
    match m.remoteNode ga with
    | none =>
      let a := localPart ga
      if m.heldExclusive a n then .need [.host a]
      else let m1 := m.correct a n; .data m1 (m1.readMem a n) (m1.poisoned a n)
    | some node =>
      let a := localPart ga
      match m.answered v node (a / 128 * 128) with
      | none => .need [.remote node (a / 128 * 128)]
      | some r => let d := r.data.getD ([], false); .data m (slice d.1 (a % 128) n) d.2

/-- What the pieces of a read still need. -/
def Block.engNeeds (m : Block) (v : Mover) (ga n : Nat) : List Need :=
  (pieces ga n).flatMap fun oc => match m.engPiece v (ga + oc.1) oc.2 with
    | .need l => l
    | _ => []

/-- Reads `n` bytes at a global address. -/
def Block.engRead (m : Block) (v : Mover) (ga n : Nat) : Got :=
  let r := (pieces ga n).foldl (fun (g : Got) oc => g.join fun m => m.engPiece v (ga + oc.1) oc.2) (Got.data m [] false)
  match r with
  | .need _ => .need (m.engNeeds v ga n)
  | x => x

/-- Sends what reads wait for. -/
def Block.request (m : Block) (v : Mover) (l : List Need) : Block :=
  l.foldl
    (fun m x => match x with
      | .host a => m.snoopReads a 1
      | .copies a => m.snoopEntries (m.hostCopies (a / 128))
      | .room => m
      | .remote node a =>
        if m.fab.reads.any fun r => v.sent r && r.node == node && r.addr == a then m
        else (m.sendRead v.code v.tenant v.ctx node a 128).2)
    m

/-- Answered reads of a master are used up. -/
def Block.dropReads (m : Block) (v : Mover) : Block :=
  { m with fab.reads := m.fab.reads.filter fun r => !(v.sent r && r.data.isSome) }

/-- Reads a table or descriptor of an engine and hands its bytes on; what has not arrived is asked for, a failed check or poison curbs
the master (R443, R447). -/
def Block.withRead (m : Block) (v : Mover) (ga n : Nat) (k : Block → List Byte → Block) : Block :=
  match m.engRead v ga n with
  | .bad kind g l => m.curb v.mtype v.idx v.tenant v.ctx kind g l (m.remoteNode g)
  | .need l => m.request v l
  | .data m1 bs p => if p then m1.curb v.mtype v.idx v.tenant v.ctx 8 ga n none else k m1 bs

/-- Writes bytes at a global address, piece by piece, until a check fails; the failing access curbs the master. The flag says
whether all was written. -/
def Block.engWrite (m : Block) (v : Mover) (ga : Nat) (bs : List Byte) (bad : Bool) : Block × Bool :=
  (pieces ga bs.length).foldl
    (fun r oc =>
      if !r.2 then r
      else
        let m := r.1
        let a := ga + oc.1
        let part := slice bs oc.1 oc.2
        match m.check v.tenant v.ctx a oc.2 true with
        | some k => (m.curb v.mtype v.idx v.tenant v.ctx k a oc.2 (m.remoteNode a), false)
        | none =>
          match m.remoteNode a with
          | some node => (m.sendWrite v.code v.tenant v.ctx node (localPart a) part bad, true)
          | none =>
            if m.tagged (localPart a) oc.2 then (m.curb v.mtype v.idx v.tenant v.ctx 5 a oc.2 none, false)
            else (m.owning v.code v.tenant v.ctx fun m => m.homeWriteP (localPart a) part bad, true))
    (m, true)

/-- Poisons the granules that `n` bytes at a global address touch. -/
def Block.engPoison (m : Block) (v : Mover) (ga n : Nat) : Block :=
  match m.remoteNode ga with
  | none => (granules (localPart ga) n).foldl Block.poisonGranule m
  | some node => (pieces (localPart ga) n).foldl
      (fun m oc => m.sendWrite v.code v.tenant v.ctx node (localPart ga + oc.1) (List.replicate oc.2 0) true) m

/- Job rings -/

/-- Bits of HEAD and TAIL of a ring (Tables 7.11, 9.8, 11.6), less one. -/
def ringTop (mtype : Nat) : Nat := if mtype = 2 then 11 else 9
/-- STATE of a ring. -/
def Block.ringSt (m : Block) (mtype idx : Nat) : Nat := m.fld (ringHead mtype idx) 63 60
/-- HEAD of a ring. -/
def Block.headOf (m : Block) (mtype idx : Nat) : Nat := m.fld (ringHead mtype idx) (ringTop mtype) 0
/-- TAIL of a ring. -/
def Block.tailOf (m : Block) (mtype idx : Nat) : Nat := m.fld (ringTail mtype idx) (ringTop mtype) 0
/-- Entries of a ring. -/
def Block.ringSize (m : Block) (mtype idx : Nat) : Nat := 2 ^ m.fld (ringBase mtype idx) 35 32

/-- Tenant and context of the ring's owner, when it has one. -/
def Block.ringOf (m : Block) (mtype idx : Nat) : Option Context :=
  let o := ringOwner mtype idx
  if m.fld o 63 63 = 1 then m.context? (m.fld o 12 8) (m.fld o 7 0) else none

/-- A ring's master: MASTER code, type and index of Table 19.1, and the context whose ID it carries. -/
def ringMover (mtype idx : Nat) (x : Context) : Mover :=
  let code := match mtype with
    | 2 => Master.code (.codec idx)
    | 3 => Master.code (.drover (idx / 8))
    | _ => Master.code (.groom (idx / 4))
  { code := code, mtype := mtype, idx := idx, tenant := x.tenant, ctx := x.ctx, core := none }

/-- Local address of an entry of a ring, whose entries take `size` bytes. -/
def Block.entryAddr (m : Block) (mtype idx : Nat) (x : Context) (size i : Nat) : Nat :=
  x.poolAt + m.fld (ringBase mtype idx) 31 0 + size * i

/-- Takes the entry at HEAD of a ring that has work and is neither halted, curbed nor paused (R329): the ring becomes active. Poison in the
entry curbs the ring (R447). -/
def Block.takeEntry (m : Block) (mtype idx size : Nat) (k : Block → Context → List Word → Block) : Block :=
  match m.ringOf mtype idx with
  | none => m
  | some x =>
    if m.ringSt mtype idx ≥ 2 ∨ m.headOf mtype idx = m.tailOf mtype idx ∨ m.ringPaused mtype idx x.tenant x.ctx then m
    else
      let a := m.entryAddr mtype idx x size (m.headOf mtype idx)
      let m1 := (m.correct a size).setFld (ringHead mtype idx) 63 60 1
      if m1.poisoned a size then m1.curb mtype idx x.tenant x.ctx 8 a size none
      else k m1 x (leWords (size / 8) (m1.readMem a size))

/-- Writes word `w` of the entry at HEAD. -/
def Block.entryWrite (m : Block) (mtype idx : Nat) (x : Context) (size w : Nat) (v : Word) : Block :=
  m.homeWrite (m.entryAddr mtype idx x size (m.headOf mtype idx) + 8 * w) (leBytes 8 v.toNat)

/-- HEAD moves on; a ring without further entries is idle. -/
def Block.nextEntry (m : Block) (mtype idx : Nat) : Block :=
  let h := (m.headOf mtype idx + 1) % m.ringSize mtype idx
  let m1 := m.setFld (ringHead mtype idx) (ringTop mtype) 0 h
  (m1.setFld (ringHead mtype idx) 63 60 (if h = m1.tailOf mtype idx then 0 else 1)).beat mtype idx

/-- A malformed entry: its RESULT reads 3, the ring halts, and the command it serves ends with the descriptor-error status
(R188). -/
def Block.haltRing (m : Block) (mtype idx : Nat) (x : Context) (size w hi : Nat) (word : Word) : Block :=
  let m1 := (m.entryWrite mtype idx x size w (putField word hi (hi - 1) 3)).setFld (ringHead mtype idx) 63 60 2
  match m1.serves mtype idx x.tenant x.ctx with
  | some q => { m1 with eng.groomLists := m1.eng.groomLists.filter fun (l : QueueId × Nat × Nat × List Nat) => l.1 != q }.endTask q 4 0
  | none => m1

/-- A write of TAIL (R191): by firmware or a core of the owning context, of an index that lies in the ring and does not pass HEAD. -/
def Block.writeTail (m : Block) (r : Requester) (mtype idx tail : Nat) : Block :=
  let size := m.ringSize mtype idx
  let used := (m.tailOf mtype idx + size - m.headOf mtype idx) % size
  let step := (tail + size - m.tailOf mtype idx) % size
  if !(isFw r || m.ownsAsCore r (ringOwner mtype idx)) ∨ tail ≥ size ∨ used + step ≥ size then m
  else
    let m1 := m.setFld (ringTail mtype idx) (ringTop mtype) 0 tail
    if used = 0 then m1.beat mtype idx else m1

/-- Signals a hitch of the ring's context when a descriptor asks for it, once word `w` of the entry at an address is home. -/
def Block.signalAfter (m : Block) (b : Bool) (x : Context) (entry w hitch inc : Nat) : Block :=
  if b then m.following [(entry + 8 * w, 8)] (.signal x.tenant x.ctx hitch inc) else m

end Sys2Proof.Machine
end

