-- ==== Sys2Proof/Machine/Vector.lean ====
section
/-! DEFINITION. What the vector unit and the special-function unit do on a core's own places (R45, R47, R77 to R79, R214, R221, R222) once
they take an instruction from their queue (Machine/VecQueue.lean, log entry 18). -/
namespace Sys2Proof.Machine

/-- Element formats that elementwise arithmetic takes: FP32 and BF16, unscaled (Table 4.1). -/
def Row.plain (r : Row) : Bool := r.scheme == .none && (r.fmt == .fp32 || r.fmt == .bf16)

/-- The larger value; NaN prevails and +0 lies above −0 (log entry 19). -/
def valMax (a b : Val) : Val :=
  if a.isNan || b.isNan then .nan else if a.lt b then b else if b.lt a then a else if a.neg? then b else a

/-- The smaller value; NaN prevails and −0 lies below +0 (log entry 19). -/
def valMin (a b : Val) : Val :=
  if a.isNan || b.isNan then .nan else if a.lt b then a else if b.lt a then b else if a.neg? then a else b

/-- 1.0 or +0. -/
def boolVal (b : Bool) : Val := if b then .one else .zero

/-- An elementwise operation, exact; the destination's format rounds it once (Table 2.5). -/
def vecExact (op : VecOp) (a b c : Val) : Val :=
  match op with
  | .add => a.add b
  | .sub => a.sub b
  | .mul => a.mul b
  | .fma => (a.mul b).add c
  | .max => valMax a b
  | .min => valMin a b
  | .cmpEq => boolVal (a.eq b)
  | .cmpLt => boolVal (a.lt b)
  | .cmpLe => boolVal (a.le b)
  | .select => if a.isZero then c else b

/-- Operands that an operation reads. -/
def VecOp.uses (op : VecOp) (a b c : Val) : List Val :=
  match op with
  | .fma => [a, b, c]
  | .select => [a, b, c]
  | _ => [a, b]

/-- One element: the code in the destination's format and the events. UNDERFLOW is set where the rounding into the destination's format makes
a non-zero result zero, as it is in every conversion; Table 2.6 speaks of conversions only (DESIGN CHOICE, log entry 97). -/
def vecElem (f : Fmt) (op : VecOp) (a b c : Val) : Nat × Events :=
  let v := vecExact op a b c
  let r := f.convert v
  let ops := VecOp.uses op a b c
  (r.1, r.2.join { nanIn := ops.any Val.isNan
                   nanMade := v.isNan && !ops.any Val.isNan
                   infMade := v.isInf && ops.all Val.isFin })

/-- The rows of an elementwise instruction. -/
def Block.elementwise (m : Block) (core : Nat) (op : VecOp) (dst a b c : Row) (n : Nat) : Except Trap (Block × Events) := do
  if !([dst, a, b, c].all fun r => Row.plain r) then throw .illegal
  let m := ((m.senseRow core a n).senseRow core b n).senseRow core c n
  let va ← m.readRow core a n
  let vb ← m.readRow core b n
  let vc ← m.readRow core c n
  let es := (va.1.zip (vb.1.zip vc.1)).map fun x => vecElem dst.fmt op x.1 x.2.1 x.2.2
  let bytes := pack dst.fmt.width (es.map (·.1))
  m.canWrite core dst.loc bytes.length
  return (m.writeLoc core dst.loc bytes, joinEvents (es.map (·.2)))

/-- VECTOR_ELEMENTWISE (R79). -/
def vectorElementwiseRun (core : Nat) (op : VecOp) (dst a b c : Row) (n : Nat) (m : Block) : Block :=
  m.finish core (m.elementwise core op dst a b c n)

/-- A conversion of a row (R39, R30, R32). -/
def Block.convertRow (m : Block) (core : Nat) (dst src : Row) (n : Nat) : Except Trap (Block × Events) := do
  let m := m.senseRow core src n
  let v ← m.readRow core src n
  let w ← m.writeRow core dst v.1
  return (w.1, (v.2.join w.2).join { nanIn := v.1.any Val.isNan })

/-- Whether an operand has a form that no scheme of R28 and R31 has: a scaled format wider than 8 bits. -/
def Row.tooWide (r : Row) : Bool := r.scheme != .none && decide (r.fmt.width > 8)

/-- Whether an operand descriptor names INT4 under Microscaling (R28). -/
def Row.malformed (r : Row) : Bool := r.scheme == .microscaling && r.fmt == .int4

/-- VECTOR_CONVERT (Table 2.4). An operand descriptor that names INT4 under Microscaling is malformed: the core stops with BAD_DESCRIPTOR and
the command completes with the descriptor-error status (R28, R73). -/
def vectorConvertRun (core : Nat) (dst src : Row) (n : Nat) (m : Block) : Block :=
  if Row.malformed dst || Row.malformed src then m.descriptorStop core
  else if Row.tooWide dst || Row.tooWide src then m.trap core .illegal
  else m.finish core (m.convertRow core dst src n)

/-- The order in which a sum of `n` terms is formed (R44; log entry 6). -/
def sumPositions (n : Nat) : List Nat :=
  if n ≤ 1 then List.range n
  else if (Config.sumOrder n).isPerm (List.range n) then Config.sumOrder n else List.range n

/-- A sum in FP32, one rounding for each addition, in that order. -/
def f32SumOrdered (vs : List F32) : F32 :=
  match (sumPositions vs.length).map fun k => vs.getD k 0 with
  | [] => 0
  | v :: t => t.foldl f32Add v

/-- A reduction along a row (R79). A sum is formed in FP32, one rounding for each addition; for a BF16 result it is exact and the result's
format rounds it once (Table 2.5). -/
def reduceVals (op : RedOp) (f : Fmt) (vs : List Val) : Val :=
  match vs with
  | [] => .zero
  | v :: t =>
    match op with
    | .max => t.foldl valMax v
    | .min => t.foldl valMin v
    | _ => if f = .bf16 then Val.sum vs else (f32SumOrdered (vs.map Val.toF32)).val

/- Partials (R214) -/

/-- ln in FP32; ln 1 = 0 (R196; log entry 5). -/
def lnOf (l : F32) : F32 := if l = f32One then 0 else Config.lnF32 l

/-- A partial of a row: output, lse, EMPTY, REFUSED. -/
structure Partial where
  o : List F32
  lse : F32
  empty : Bool
  refused : Bool
  deriving DecidableEq, Repr

/-- The merge of partials, in ascending index (R214). -/
def mergePartials (dim : Nat) (ps : List Partial) : Partial :=
  if ps.any (·.refused) then ⟨List.replicate dim 0, f32Inf true, false, true⟩
  else match ps.filter fun p => !p.empty with
    | [] => ⟨List.replicate dim 0, f32Inf true, true, false⟩
    | p0 :: rest =>
      let mx := (rest.foldl (fun a p => valMax a p.lse.val) p0.lse.val).toF32
      let ws := (p0 :: rest).map fun p => f32Exp (f32Sub p.lse mx).val
      let sum := match ws with
        | [] => 0
        | w :: t => t.foldl f32Add w
      let o := (List.range dim).map fun (c : Nat) =>
        let ts := (ws.zip (p0 :: rest)).map fun (x : F32 × Partial) => f32Mul x.1 (x.2.o.getD c 0)
        f32Div (match ts with | [] => 0 | t :: r => r.foldl f32Add t) sum
      ⟨o, f32Add mx (lnOf sum), false, false⟩

/-- A partial as the vector unit holds it (DESIGN CHOICE, log entry 98): dim FP32 outputs, lse, and a word with EMPTY in bit 0 and REFUSED in
bit 1. -/
def partialOf (dim : Nat) (ws : List Nat) : Partial :=
  { o := (ws.take dim).map (BitVec.ofNat 32), lse := BitVec.ofNat 32 (ws.getD dim 0)
    empty := (ws.getD (dim + 1) 0).testBit 0, refused := (ws.getD (dim + 1) 0).testBit 1 }

/-- The words of a partial. -/
def Partial.words (p : Partial) : List Nat := p.o.map (·.toNat) ++ [p.lse.toNat, p.empty.toNat + 2 * p.refused.toNat]

/-- `n` partials of a row merged into one (R214). -/
def Block.mergeRow (m : Block) (core dim : Nat) (dst src : Row) (n : Nat) : Except Trap (Block × Events) := do
  let m := m.sense core src.loc (4 * n * (dim + 2))
  let bs ← m.readLoc core src.loc (4 * n * (dim + 2))
  let ps := (chunks (dim + 2) (unpack 32 (n * (dim + 2)) bs)).map (partialOf dim)
  let r := pack 32 (mergePartials dim ps).words
  m.canWrite core dst.loc r.length
  let live := ps.filter fun p => !p.empty
  return (m.writeLoc core dst.loc r, { nanIn := live.any fun p => p.lse.val.isNan || p.o.any fun x => x.val.isNan })

/-- The reduction of one row into one element, or of the partials of a row. -/
def Block.reduceRow (m : Block) (core : Nat) (op : RedOp) (dst src : Row) (n : Nat) : Except Trap (Block × Events) := do
  if !(Row.plain dst && Row.plain src) then throw .illegal
  match op with
  | .merge dim => if dst.fmt = .fp32 ∧ src.fmt = .fp32 then m.mergeRow core dim dst src n else throw .illegal
  | _ =>
    let m := m.senseRow core src n
    let v ← m.readRow core src n
    let r := reduceVals op dst.fmt v.1
    let w ← m.writeRow core dst [r]
    return (w.1, w.2.join (arithEvents v.1 r))

/-- VECTOR_REDUCE (R79). -/
def vectorReduceRun (core : Nat) (op : RedOp) (dst src : Row) (n : Nat) (m : Block) : Block :=
  m.finish core (m.reduceRow core op dst src n)

/-- Whether score `a` ranks before score `b` by value alone (R221). -/
def ranksBefore (a b : Val) : Bool := !a.isNan && (b.isNan || b.lt a)

/-- The best of the scores left: the first index among equals (R221). -/
def bestScore (l : List (Val × Nat)) : Option (Val × Nat) :=
  match l with
  | [] => none
  | x :: t => some (t.foldl (fun b y => if ranksBefore y.1 b.1 then y else b) x)

/-- The first `k` of a row's scores in rank order. -/
def topkRank : Nat → List (Val × Nat) → List Nat
  | 0, _ => []
  | k + 1, l =>
    match bestScore l with
    | none => []
    | some b => b.2 :: topkRank k (l.filter fun y => y.2 != b.2)

/-- The scores of one row as FP32 patterns. -/
def Block.readScores (m : Block) (core : Nat) (scores : Loc) (bf16 : Bool) (spitch e t : Nat) : Except Trap (List F32) := do
  let w := if bf16 then 16 else 32
  let bs ← m.readLoc core ⟨scores.space, scores.off + t * spitch⟩ (elemBytes w e)
  return (unpack w e bs).map fun c => BitVec.ofNat 32 (if bf16 then c * 65536 else c)

/-- One row of TOPK: its route entry and weight entry (R222). -/
def Block.topkRow (m : Block) (core : Nat) (scores : Loc) (bf16 : Bool) (spitch e k : Nat) (route wgt : Loc) (t : Nat) :
    Except Trap (Block × Events) := do
  let m := m.sense core ⟨scores.space, scores.off + t * spitch⟩ (elemBytes (if bf16 then 16 else 32) e)
  let vs ← m.readScores core scores bf16 spitch e t
  let sel := topkRank k ((vs.map F32.val).zipIdx)
  let entry := (List.range 16).flatMap fun p => leBytes 2 (sel.getD p 0xFFFF)
  let weights := (List.range 16).flatMap fun p =>
    leBytes 4 (match sel[p]? with
      | some x => (vs.getD x 0).toNat
      | none => 0)
  let r : Loc := ⟨route.space, route.off + 32 * t⟩
  let w : Loc := ⟨wgt.space, wgt.off + 64 * t⟩
  m.canWrite core r 32
  m.canWrite core w 64
  return ((m.writeLoc core r entry).writeLoc core w weights, { nanIn := vs.any fun v => (F32.val v).isNan })

/-- Rows in order while nothing traps. -/
def overRows (n : Nat) (f : Block → Nat → Except Trap (Block × Events)) (m : Block) : Block × Events × Option Trap :=
  (List.range n).foldl (fun r t =>
    match r.2.2 with
    | some _ => r
    | none =>
      match f r.1 t with
      | .ok (m', e) => (m', r.2.1.join e, none)
      | .error x => (r.1, r.2.1, some x)) (m, {}, none)

/-- The end of a row-by-row instruction: events, then the trap if one was met. -/
def Block.finishRows (core : Nat) (r : Block × Events × Option Trap) : Block :=
  let m := r.1.noteEvents core r.2.1
  match r.2.2 with
  | some t => m.trap core t
  | none => m

/-- TOPK (R221, R222): operands outside their ranges stop the core with LIMIT. -/
def topkRun (core : Nat) (scores : Loc) (bf16 : Bool) (spitch rows experts k : Nat) (route wgt : Loc) (m : Block) : Block :=
  let size := if bf16 then 2 else 4
  if experts < 1 ∨ experts > 4096 ∨ k < 1 ∨ k > 16 ∨ k > experts ∨ scores.off % 128 ≠ 0 ∨ spitch % 128 ≠ 0 ∨
      spitch < experts * size then m.faultStop core 6
  else Block.finishRows core
    (overRows rows (fun m t => m.topkRow core scores bf16 spitch experts k route wgt t) m)

/-- The largest finite BF16 value with a sign, as a code. -/
def bf16Largest (neg : Bool) : Nat := if neg then 0xFF7F else 0x7F7F

/-- The compensated split of an FP32 value into BF16 codes (R45), with UNDERFLOW where a part that is not zero rounds to zero (Table 2.6). -/
def splitPair (a : F32) : Nat × Nat × Events :=
  match a.val with
  | .nan => (0x7FC0, 0, { nanIn := true })
  | .inf n => ((if n then 0xFF80 else 0x7F80), 0, {})
  | .fin n _ _ =>
    let c := Fmt.bf16.convert a.val
    let big := (Fmt.bf16.decode c.1).isInf
    let hi := if big then bf16Largest n else c.1
    let lo := Fmt.bf16.convert (a.val.sub (Fmt.bf16.decode hi))
    (hi, lo.1, { underflow := (!big && c.2.underflow) || lo.2.underflow })

/-- FP32 patterns at a place. -/
def Block.readF32 (m : Block) (core : Nat) (l : Loc) (n : Nat) : Except Trap (List F32) := do
  let bs ← m.readLoc core l (4 * n)
  return (unpack 32 n bs).map fun c => BitVec.ofNat 32 c

/-- The split of a row. -/
def Block.splitRow (m : Block) (core : Nat) (src hi lo : Loc) (n : Nat) : Except Trap (Block × Events) := do
  let m := m.sense core src (4 * n)
  let vs ← m.readF32 core src n
  let ps := vs.map splitPair
  m.canWrite core hi (2 * n)
  m.canWrite core lo (2 * n)
  return ((m.writeLoc core hi (pack 16 (ps.map (·.1)))).writeLoc core lo (pack 16 (ps.map (·.2.1))), joinEvents (ps.map (·.2.2)))

/-- COMPENSATED_SPLIT (R45). -/
def compensatedSplitRun (core : Nat) (src hi lo : Loc) (n : Nat) (m : Block) : Block := m.finish core (m.splitRow core src hi lo n)

/-- One pair combined: one FP32 addition, the main term alone where it is infinite or NaN (R47). -/
def combinePair (main comp : F32) : F32 :=
  if (F32.val main).isNan then f32Nan else if (F32.val main).isInf then main else f32Add main comp

/-- The combination of a row. -/
def Block.combineRow (m : Block) (core : Nat) (main comp dst : Loc) (n : Nat) : Except Trap (Block × Events) := do
  let m := (m.sense core main (4 * n)).sense core comp (4 * n)
  let a ← m.readF32 core main n
  let b ← m.readF32 core comp n
  let rs := (a.zip b).map fun x => combinePair x.1 x.2
  m.canWrite core dst (4 * n)
  let ev := joinEvents ((a.zip b).map fun x => arithEvents [F32.val x.1, F32.val x.2] (F32.val (combinePair x.1 x.2)))
  return (m.writeLoc core dst (f32Bytes rs), ev)

/-- COMPENSATED_COMBINE (R47). -/
def compensatedCombineRun (core : Nat) (main comp dst : Loc) (n : Nat) (m : Block) : Block :=
  m.finish core (m.combineRow core main comp dst n)

/-- The 32-bit indices of a gather or scatter. -/
def Block.readIdx (m : Block) (core : Nat) (idx : Loc) (n : Nat) : Except Trap (List Nat) := do
  let bs ← m.readLoc core idx (4 * n)
  return unpack 32 n bs

/-- One element gathered. -/
def Block.gatherElem (core : Nat) (dst src : Loc) (esize : Nat) (ks : List Nat) (m : Block) (j : Nat) :
    Except Trap (Block × Events) := do
  let m := m.sense core ⟨src.space, src.off + ks.getD j 0 * esize⟩ esize
  let bs ← m.readLoc core ⟨src.space, src.off + ks.getD j 0 * esize⟩ esize
  m.canWrite core ⟨dst.space, dst.off + j * esize⟩ esize
  return (m.writeLoc core ⟨dst.space, dst.off + j * esize⟩ bs, {})

/-- One element scattered. -/
def Block.scatterElem (core : Nat) (dst src : Loc) (esize : Nat) (ks : List Nat) (m : Block) (j : Nat) :
    Except Trap (Block × Events) := do
  let m := m.sense core ⟨src.space, src.off + j * esize⟩ esize
  let bs ← m.readLoc core ⟨src.space, src.off + j * esize⟩ esize
  m.canWrite core ⟨dst.space, dst.off + ks.getD j 0 * esize⟩ esize
  return (m.writeLoc core ⟨dst.space, dst.off + ks.getD j 0 * esize⟩ bs, {})

/-- GATHER (R79): element j of the destination is the source element that index j names. -/
def gatherRun (core : Nat) (dst src idx : Loc) (esize n : Nat) (m : Block) : Block :=
  let m := m.sense core idx (4 * n)
  match m.readIdx core idx n with
  | .error t => m.trap core t
  | .ok ks => Block.finishRows core (overRows n (Block.gatherElem core dst src esize ks) m)

/-- SCATTER (R79): element j of the source goes to the destination element that index j names, in ascending j. -/
def scatterRun (core : Nat) (dst src idx : Loc) (esize n : Nat) (m : Block) : Block :=
  let m := m.sense core idx (4 * n)
  match m.readIdx core idx n with
  | .error t => m.trap core t
  | .ok ks => Block.finishRows core (overRows n (Block.scatterElem core dst src esize ks) m)

/-- A special function over elements of the vector buffer: FP32 or BF16 in, FP32 out (R78). -/
def Block.sfuRow (m : Block) (core : Nat) (f : Val → F32) (dst src : Nat) (bf16 : Bool) (n : Nat) :
    Except Trap (Block × Events) := do
  let fm : Fmt := if bf16 then .bf16 else .fp32
  let bs ← m.readLoc core ⟨.vector, src⟩ (elemBytes fm.width n)
  let vs := (unpack fm.width n bs).map fm.decode
  let ev := joinEvents (vs.map fun v => arithEvents [v] (F32.val (f v)))
  return (m.writeLoc core ⟨.vector, dst⟩ (f32Bytes (vs.map f)), ev)

/-- EXP. -/
def expRun (core dst src : Nat) (bf16 : Bool) (n : Nat) (m : Block) : Block := m.finish core (m.sfuRow core f32Exp dst src bf16 n)
/-- RSQRT. -/
def rsqrtRun (core dst src : Nat) (bf16 : Bool) (n : Nat) (m : Block) : Block := m.finish core (m.sfuRow core f32Rsqrt dst src bf16 n)
/-- RECIP. -/
def recipRun (core dst src : Nat) (bf16 : Bool) (n : Nat) (m : Block) : Block := m.finish core (m.sfuRow core f32Recip dst src bf16 n)

end Sys2Proof.Machine
end

