-- ==== Sys2Proof/Machine/Attention.lean ====
section
/-! DEFINITION. The attention pass (chapter 8): descriptors and tables, refusals, KV pages and the page writer, the running softmax,
statistics, and the Carousel. A pass is a piece of program: its core issues nothing else until it is done. A pass without the Carousel
runs as one event once what it reads has arrived and what it writes finds room; a Carousel pass goes on from where it waited (log entry 27). -/
namespace Sys2Proof.Machine

/- The monad of a pass -/

/-- Why a pass stops on the way: it waits for data or for room, or an access failed. -/
inductive Halt where
  | need (l : List Need)
  | curb (kind ga n : Nat)
  deriving DecidableEq, Repr

/-- A computation of a pass: the block stands as the last access left it. -/
abbrev AttM := ExceptT Halt (StateM Block)

/-- The core of a pass as a master, and the place of its loads in the tile's issue order. -/
structure Who where
  n     : Nat
  v     : Mover
  stamp : Nat
  floor : Nat
  deriving DecidableEq, Repr

/-- A core as a master. -/
def Block.coreMover (m : Block) (n : Nat) : Mover :=
  { code := n, mtype := 0, idx := n, tenant := m.coreTenant n, ctx := m.coreCtx n, core := some n }

/-- Reads a piece within one granule through the tile line cache (R79, R139); poison curbs the core (R447). -/
def attPiece (k : Who) (ga n : Nat) : AttM (List Byte) := do
  let m ← get
  match m.check k.v.tenant k.v.ctx ga n false with
  | some kind => throw (.curb kind ga n)
  | none =>
    match m.remoteNode ga with
    | some _ =>
      match m.engPiece k.v ga n with
      | .bad kind ga n => throw (.curb kind ga n)
      | .need l => throw (.need l)
      | .data m1 bs p => set m1; if p then throw (.curb 8 ga n) else return bs
    | none =>
      let a := localPart ga
      match m.fetchLoad k.n { node := none, addr := a, bytes := n, dst := ⟨.vector, 0⟩, stamp := k.stamp, floor := k.floor, line := !m.tagged a n, tag := none } with
      | .wait _ => throw (.need [.host a])
      | .got m1 bs bad => set m1; if bad then throw (.curb 8 ga n) else return bs

/-- Reads bytes at a global address. -/
def attRead (k : Who) (ga n : Nat) : AttM (List Byte) :=
  (pieces ga n).foldlM (fun acc oc => do return acc ++ (← attPiece k (ga + oc.1) oc.2)) []

/-- Writes a piece within one granule: a store of the core. A local one is at its home when it returns, and waits for host copies before
that (R152); one to another node stands among the core's stores until it is acknowledged (R148). `sig`: the hitch and increment that a burst
signals. -/
def attStore (k : Who) (ga : Nat) (bs : List Byte) (sig : Option (Nat × Nat)) : AttM Unit := do
  let m ← get
  let a := localPart ga
  match m.check k.v.tenant k.v.ctx ga bs.length true with
  | some kind => throw (.curb kind ga bs.length)
  | none =>
    match m.remoteNode ga with
    | some node => if m.pairOpen k.n node then set (m.enterStore k.n k.stamp a (some node) bs sig false) else throw (.need [.room])
    | none =>
      if m.tagged a bs.length then throw (.curb 5 ga bs.length)
      else if m.region a = .host ∧ m.hostHolding a then throw (.need [.room])
      else if !(m.hostCopies (a / 128)).isEmpty then throw (.need [.copies a])
      else
        let x : Store := { addr := a, bytes := bs, stamp := k.stamp, remote := none }
        set (((m.passLoads (k.n / 8) k.v.tenant none (a / 128)).updateLines k.n x).homeWrite a bs)

/-- Writes bytes at a global address. -/
def attWrite (k : Who) (ga : Nat) (bs : List Byte) : AttM Unit :=
  (pieces ga bs.length).forM fun oc => attStore k (ga + oc.1) (slice bs oc.1 oc.2) none

/-- Changes the block. -/
def attDo (f : Block → Block) : AttM Unit := modify f

/- Descriptors (R197 to R200) -/

/-- The attention descriptor's fields (Table 8.1). -/
structure AttD where
  w : List Word
  deriving DecidableEq, Repr

/-- MODE. -/
def AttD.mode (d : AttD) : Nat := field (wordAt d.w 0) 63 62
/-- APPEND. -/
def AttD.append (d : AttD) : Bool := bit (wordAt d.w 0) 61
/-- PLACE: the array placement. -/
def AttD.array (d : AttD) : Bool := bit (wordAt d.w 0) 60
/-- The KV element format. -/
def AttD.fmt (d : AttD) : Fmt := (fmtOfCode (field (wordAt d.w 0) 59 56)).getD .int8
/-- Head dimension D. -/
def AttD.dim (d : AttD) : Nat := 64 * 2 ^ field (wordAt d.w 0) 55 54
/-- Query heads per group. -/
def AttD.hpg (d : AttD) : Nat := field (wordAt d.w 0) 53 48 + 1
/-- G_TOTAL. -/
def AttD.gTotal (d : AttD) : Nat := field (wordAt d.w 0) 47 40
/-- GROUP_BASE. -/
def AttD.gBase (d : AttD) : Nat := field (wordAt d.w 0) 39 32
/-- GROUP_COUNT. -/
def AttD.gCount (d : AttD) : Nat := field (wordAt d.w 0) 31 24
/-- LAYER. -/
def AttD.layer (d : AttD) : Nat := field (wordAt d.w 0) 15 0
/-- WINDOW. -/
def AttD.window (d : AttD) : Nat := field (wordAt d.w 1) 63 32
/-- SEQ_COUNT. -/
def AttD.seqs (d : AttD) : Nat := field (wordAt d.w 1) 15 0
/-- An address word. -/
def AttD.addr (d : AttD) (i : Nat) : Nat := (wordAt d.w i).toNat
/-- Q_PITCH. -/
def AttD.qPitch (d : AttD) : Nat := field (wordAt d.w 7) 63 32
/-- O_PITCH. -/
def AttD.oPitch (d : AttD) : Nat := field (wordAt d.w 7) 31 0
/-- KV_IN_PITCH. -/
def AttD.kvPitch (d : AttD) : Nat := field (wordAt d.w 8) 31 0
/-- SCALE. -/
def AttD.scale (d : AttD) : F32 := BitVec.ofNat 32 (field (wordAt d.w 8) 63 32)
/-- Heads served, H. -/
def AttD.heads (d : AttD) : Nat := d.hpg * d.gCount
/-- Bytes of a query or output row. -/
def AttD.rowBytes (d : AttD) : Nat := 2 * d.heads * d.dim
/-- Bytes of a page (R202). -/
def AttD.pageBytes (d : AttD) : Nat := 16 * d.dim * d.fmt.width
/-- Bytes of a token's row in a plane of a page. -/
def AttD.tokBytes (d : AttD) : Nat := d.dim * d.fmt.width / 8

/-- Whether the descriptor alone is malformed (R200). -/
def AttD.bad (d : AttD) : Bool :=
  let w := wordAt d.w
  d.mode == 3 || !([3, 7, 8, 9].contains (field (w 0) 59 56)) || field (w 0) 55 54 == 3 || !zeroBits (w 0) 23 16 || !zeroBits (w 1) 31 16 ||
    d.gTotal == 0 || d.gCount == 0 || decide (d.gBase + d.gCount > d.gTotal) || (d.mode != 2 && d.window != 0) ||
    ([2, 3, 4, 5].any fun i => d.addr i % 128 != 0) || (d.append && d.addr 6 % 128 != 0) ||
    d.qPitch % 128 != 0 || d.oPitch % 128 != 0 || decide (d.qPitch < d.rowBytes) || decide (d.oPitch < d.rowBytes) ||
    (d.append && (d.kvPitch % 128 != 0 || decide (d.kvPitch < 4 * d.gCount * d.dim))) || (d.addr 9 != 0 && d.seqs != 1) ||
    (List.range 6).any fun i => w (10 + i) != 0

/-- A length-table entry (Table 8.2). -/
structure AttSeq where
  len    : Nat
  start  : Nat
  ptes   : Nat
  row    : Nat
  count  : Nat
  pt     : Nat
  sc     : Nat
  res    : Bool
  deriving DecidableEq, Repr

/-- Reads an entry. -/
def attSeqOf (bs : List Byte) : AttSeq :=
  let w := leWords 4 bs
  { len := field (wordAt w 0) 63 32, start := field (wordAt w 0) 31 0, ptes := field (wordAt w 1) 63 44, row := field (wordAt w 1) 43 20
    count := field (wordAt w 1) 15 0, pt := (wordAt w 2).toNat, sc := (wordAt w 3).toNat, res := !zeroBits (wordAt w 1) 19 16 }

/-- Whether the query rows of entries follow one another without overlap (R200). -/
def rowsAscend : List AttSeq → Bool
  | s :: t :: rest => decide (s.row ≤ t.row) && decide (s.row + s.count ≤ t.row) && rowsAscend (t :: rest)
  | _ => true

/-- Whether a length table makes the descriptor malformed. -/
def tableMalformed (ss : List AttSeq) : Bool :=
  ss.any (fun s => s.res || s.ptes == 0 || s.pt % 128 != 0 || s.sc % 128 != 0) || !rowsAscend ss

/- Masks (R193) -/

/-- Position of query `i`. -/
def AttSeq.pos (s : AttSeq) (i : Nat) : Nat := s.len - s.count + i

/-- The permitted tokens of query `i`: from, up to. -/
def AttD.permitted (d : AttD) (s : AttSeq) (kvEnd i : Nat) : Nat × Nat :=
  let p := s.pos i
  match d.mode with
  | 0 => (s.start, kvEnd)
  | 1 => (s.start, p + 1)
  | _ => (max s.start (p + 1 - d.window), p + 1)

/-- The smallest run of tokens in [lo, hi) that holds every permitted token there; empty when there is none. -/
def AttD.hull (d : AttD) (s : AttSeq) (kvEnd lo hi : Nat) : Nat × Nat :=
  (List.range s.count).foldl
    (fun acc i =>
      let p := d.permitted s kvEnd i
      let a := max p.1 lo
      let b := min p.2 hi
      if a < b then (if acc.1 < acc.2 then (min acc.1 a, max acc.2 b) else (a, b)) else acc)
    (0, 0)

/-- The pages of a sequence that hold a permitted token or take an append; tokens count from `base`. -/
def AttD.pages (d : AttD) (s : AttSeq) (kvEnd base : Nat) : List Nat :=
  let spans := (List.range s.count).map (d.permitted s kvEnd)
  let spans := if d.append then (s.pos 0, s.pos s.count) :: spans else spans
  (spans.flatMap fun x =>
    if x.1 < x.2 then (List.range ((x.2 - 1 - base) / 64 + 1 - (x.1 - base) / 64)).map fun k => (x.1 - base) / 64 + k else []).dedup

/- Page tables (R201, R203, R205) -/

/-- Row of the tables for group `gi` of those served. -/
def AttD.tableRow (d : AttD) (gi : Nat) : Nat := d.layer * d.gTotal + d.gBase + gi

/-- Address of a page-table entry. -/
def AttD.entryAddr (d : AttD) (s : AttSeq) (gi p : Nat) : Nat := s.pt + 8 * (d.tableRow gi * s.ptes + p)

/-- Address of the scales of a page (R203). -/
def AttD.scaleAddr (d : AttD) (s : AttSeq) (gi p : Nat) : Nat := s.sc + d.tableRow gi * s.ptes * (d.dim / 2) + p * (d.dim / 2)

/-- The checks of Table 8.3: a refusal, or the addresses of the pages, by group and page. -/
def attCheck (k : Who) (d : AttD) (s : AttSeq) (pages : List Nat) : AttM (Except Nat (List ((Nat × Nat) × Nat))) := do
  if s.count > s.len then return .error 1
  if pages.any fun p => decide (p ≥ s.ptes) then return .error 2
  let keys := (List.range d.gCount).flatMap fun g => pages.map fun p => (g, p)
  let es ← keys.foldlM (fun acc gp => do
    let bs ← attRead k (d.entryAddr s gp.1 gp.2) 8
    return acc ++ [(gp, BitVec.ofNat 64 (leNat bs))]) ([] : List ((Nat × Nat) × Word))
  if es.any fun e => !bit e.2 63 then return .error 3
  if es.any fun e => !bit e.2 62 then return .error 4
  if es.any fun e => field e.2 47 0 % 128 != 0 then return .error 5
  return .ok (es.map fun e => (e.1, 0xFFF * 2 ^ 48 + field e.2 47 0))

/-- The address of a page among those checked. -/
def pageAt (ps : List ((Nat × Nat) × Nat)) (gi p : Nat) : Nat := ((ps.find? fun e => e.1 == (gi, p)).map (·.2)).getD 0

/- Elements and the page writer (R204, R206, R207) -/

/-- The value of an element under its FP16 scale. -/
def kvDecode (f : Fmt) (scale code : Nat) : Val :=
  let s := Fmt.fp16.decode scale
  if s.isNan || scale ≥ 0x8000 then .nan else if s.isZero then .zero else (f.decode code).mul s

/-- maxfin of R206. -/
def maxfin (f : Fmt) : Nat := match f with
  | .int8 => 127
  | .int4 => 7
  | .e4m3 => 448
  | _ => 6

/-- rne16 (a / maxfin), held to 65,504. -/
def kvScale (f : Fmt) (a : Val) : Nat × Events :=
  match a with
  | .fin _ m e =>
    let c := (Fmt.fp16.float.map fun t => t.nearest m (maxfin f) e).getD 0
    if c > 0x7BFF then (0x7BFF, { saturated := true }) else (c, { underflow := decide (m ≠ 0 ∧ c = 0) })
  | _ => (0x7E00, {})

/-- An element for a source under a scale. -/
def kvEncode (f : Fmt) (scale : Nat) (v : Val) : Nat × Events :=
  match Fmt.fp16.decode scale, v with
  | .fin _ sm se, .fin n m e => if sm = 0 then (0, {}) else f.convertQ n m sm (e - se)
  | .fin _ _ _, .inf n => f.convertInf n
  | .fin _ _ _, .nan => f.convertNan
  | _, _ => (0, {})

/-- What the writer makes of one block of 16 tokens × 32 channels: scale, codes of the earlier tokens when they are written anew,
codes of the new ones, events (an old scale with its sign bit set decodes the earlier tokens to NaN and is bad, R204), and whether it was rescaled or given a NaN scale. -/
structure KvOut where
  scale   : Nat
  earlier : Option (List (List Nat))
  new     : List (List Nat)
  ev      : Events
  rescale : Bool
  nonfin  : Bool

/-- The KV page writer on one block. `earlier`: codes of the tokens the block holds. -/
def kvWrite (f : Fmt) (old : Nat) (earlier : List (List Nat)) (new : List (List Val)) : KvOut :=
  let zeros := new.map fun t => t.map fun _ => 0
  let flat := new.flatten
  let oldv := Fmt.fp16.decode old
  let enc (sc : Nat) (ts : List (List Val)) : List (List Nat) × Events :=
    let es := ts.map fun t => t.map (kvEncode f sc)
    (es.map fun t => t.map (·.1), joinEvents (es.flatten.map (·.2)))
  let nan : Events := { nanIn := flat.any Val.isNan }
  if !earlier.isEmpty && oldv.isNan then ⟨old, none, zeros, nan, false, false⟩
  else if flat.any fun v => !v.isFin then ⟨0x7E00, none, zeros, nan, false, true⟩
  else
    let a := amax flat
    let fresh := earlier.isEmpty || oldv.isZero
    if !fresh && a.le (oldv.mul (.fin false (maxfin f) 0)) then
      let r := enc old new
      ⟨old, none, r.1, r.2, false, false⟩
    else
      let s := kvScale f a
      let r := enc s.1 new
      if fresh then ⟨s.1, none, r.1, s.2.join r.2, false, false⟩
      else
        let q := enc s.1 (earlier.map fun t => t.map (kvDecode f old))
        ⟨s.1, some q.1, r.1, ((s.2.join r.2).join q.2).join { scaleBad := decide (old ≥ 0x8000) }, true, false⟩

/-- Appends the new tokens of one block of a plane (0 keys, 1 values) of group `gi`: block `tb` of 16 tokens, channel block `c`. -/
def appendBlock (k : Who) (d : AttD) (s : AttSeq) (base gi plane tb c : Nat) (page : Nat) : AttM Unit := do
  let w := d.fmt.width
  let j0 := base + 16 * tb
  let first := s.pos 0
  let toks := (List.range 16).map (j0 + ·)
  let older := toks.filter fun j => decide (j < first)
  let fresh := toks.filter fun j => decide (first ≤ j) && decide (j < s.pos s.count)
  let elemAt (j : Nat) : Nat := page + plane * (8 * d.dim * w) + (j - base) % 64 * d.tokBytes + c * 4 * w
  let sAt := d.scaleAddr s gi (tb / 4) + plane * (d.dim / 4) + 2 * (tb % 4 * (d.dim / 32) + c)
  let new ← fresh.foldlM (fun acc j => do
    let bs ← attRead k (d.addr 6 + (s.row + (j - first)) * d.kvPitch + gi * 4 * d.dim + plane * 2 * d.dim + 64 * c) 64
    return acc ++ [(unpack 16 32 bs).map Fmt.bf16.decode]) ([] : List (List Val))
  let old ← attRead k sAt 2
  let earlier ← older.foldlM (fun acc j => do
    let bs ← attRead k (elemAt j) (4 * w)
    return acc ++ [unpack w 32 bs]) ([] : List (List Nat))
  let o := kvWrite d.fmt (leNat old) earlier new
  attDo fun m =>
    let m1 := m.noteEvents k.n o.ev
    let m2 := if o.rescale then m1.satFld (Reg.attKvw (k.n / 8) (k.n % 8)) 63 32 1 else m1
    if o.nonfin then m2.satFld (Reg.attKvw (k.n / 8) (k.n % 8)) 31 0 1 else m2
  if o.scale ≠ leNat old then attWrite k sAt (leBytes 2 o.scale)
  match o.earlier with
  | some es => (older.zip es).forM fun je => attWrite k (elemAt je.1) (pack w je.2)
  | none => pure ()
  (fresh.zip o.new).forM fun je => attWrite k (elemAt je.1) (pack w je.2)

/-- Appends every query's key and value (R208). -/
def attAppend (k : Who) (d : AttD) (s : AttSeq) (base : Nat) (ps : List ((Nat × Nat) × Nat)) : AttM Unit := do
  if s.count = 0 then return ()
  let lo := (s.pos 0 - base) / 16
  let hi := (s.pos s.count - 1 - base) / 16
  (List.range d.gCount).forM fun gi =>
    (List.range (hi + 1 - lo)).forM fun b =>
      (List.range 2).forM fun plane =>
        (List.range (d.dim / 32)).forM fun c => appendBlock k d s base gi plane (lo + b) c (pageAt ps gi ((lo + b) / 4))

/- The running softmax (R194, R195, R214) -/

/-- A dot product in FP32 on the vector unit (R44; log entry 6). -/
def dotVec (a b : List Val) : F32 :=
  if Config.fusedDot then
    (sumPositions a.length).foldl (fun (s : F32) i => ((((a.getD i .zero).mul (b.getD i .zero)).add s.val).toF32 : F32)) 0
  else f32SumOrdered ((a.zip b).map fun x => (x.1.mul x.2).toF32)

/-- x × y + z in FP32 on the vector unit. -/
def mulAdd (x y z : F32) : F32 := if Config.fusedDot then f32Fma x y z else f32Add (f32Mul x y) z

/-- State of a row: m, l, acc. -/
abbrev RowSt := F32 × F32 × List F32

/-- A row before its first block. -/
def rowStart (dim : Nat) : RowSt := (f32Inf true, 0, List.replicate dim 0)

/-- A dot product of BF16 values on the matrix array, in FULL 16-bit instructions (R42, R211): terms in tiles of 128, numbered from `off`, each
tile's exact sum added to the accumulator with one rounding. -/
def arrayDot (off : Nat) (a b : List Val) : F32 :=
  let ps := (a.zip b).zipIdx.map fun x => ((off + x.2) / 128, x.1.1.mul x.1.2)
  (List.range ((off + ps.length + 127) / 128 - off / 128)).foldl
    (fun (acc : F32) t => ((Val.sum ((ps.filter fun x => x.1 == off / 128 + t).map (·.2))).add acc.val).toF32) 0

/-- A value rounded to BF16. -/
def toBf16 (v : Val) : Val := Fmt.bf16.decode (Fmt.bf16.convert v).1

/-- The dot product of the placement (R210, R211). The array streams BF16: a weight of the softmax is rounded to it (DEDUCED, log entry 107). -/
def AttD.dot (d : AttD) (off : Nat) (a b : List Val) : F32 := if d.array then arrayDot off (a.map toBf16) b else dotVec a b

/-- Events of a dot product. -/
def dotEvents (a b : List Val) (r : F32) : Events := arithEvents (a ++ b) r.val

/-- Folds one block into a row: scores and value rows of its permitted tokens, the first of which is number `off` of the block. -/
def foldRow (d : AttD) (off : Nat) (st : RowSt) (ss : List F32) (vs : List (List Val)) : RowSt × Events :=
  match ss with
  | [] => (st, {})
  | s0 :: rest =>
    let mb := (rest.foldl (fun a b => valMax a b.val) s0.val).toF32
    let mnew := (valMax st.1.val mb.val).toF32
    let c := f32Exp (f32Sub st.1 mnew).val
    let ps := ss.map fun s => f32Exp (f32Sub s mnew).val
    let l := mulAdd st.2.1 c (f32SumOrdered ps)
    let col (k : Nat) : List Val := vs.map fun v => v.getD k .zero
    let sums := st.2.2.zipIdx.map fun (x : F32 × Nat) => d.dot off (ps.map F32.val) (col x.2)
    let acc := (st.2.2.zip sums).map fun x => mulAdd x.1 c x.2
    let ev := [arithEvents (st.1.val :: ss.map F32.val) c.val, joinEvents (ps.map fun p => arithEvents (ss.map F32.val) p.val),
      arithEvents (st.2.1.val :: ps.map F32.val) l.val, joinEvents (sums.zipIdx.map fun x => dotEvents (ps.map F32.val) (col x.2) x.1),
      joinEvents ((st.2.2.zip (sums.zip acc)).map fun x => arithEvents [x.1.val, c.val, x.2.1.val] x.2.2.val)]
    ((mnew, l, acc), joinEvents ev)

/-- The finishing operation on a row: output codes in BF16, the statistics word, whether the row is empty (R195), and events. -/
def finishRow (st : RowSt) : (List Nat × Nat × Bool) × Events :=
  if st.2.1.val.isZero then ((st.2.2.map fun _ => 0, 2 ^ 32 + 0xFF800000, true), {})
  else
    let r := f32Recip st.2.1.val
    let os := st.2.2.map fun a => f32Mul a r
    let cs := os.map fun o => Fmt.bf16.convert o.val
    let lse := f32Add st.1 (lnOf st.2.1)
    ((cs.map (·.1), lse.toNat, false),
      joinEvents (arithEvents [st.1.val, st.2.1.val] lse.val :: (cs.map (·.2) ++ (st.2.2.zip os).map fun x => arithEvents [x.1.val, r.val] x.2.val)))

/- Folding tokens -/

/-- A plane's elements as the pass takes them: under the array placement the images are BF16 (R211). -/
def planeVals (d : AttD) (plane : Nat) (scales elems : List Byte) (t0 n : Nat) : List (List Val) × Events :=
  let w := d.fmt.width
  let codes := unpack w (n * d.dim) elems
  let rows := (List.range n).map fun t => (List.range d.dim).map fun c =>
    let sc := leAt scales (plane * (d.dim / 4) + 2 * ((t0 + t) / 16 * (d.dim / 32) + c / 32)) 2
    let bad := (Fmt.fp16.decode sc).isNan || sc ≥ 0x8000
    let v := kvDecode d.fmt sc (codes.getD (t * d.dim + c) 0)
    let b := Fmt.bf16.convert v
    if d.array then (Fmt.bf16.decode b.1, b.2.join { scaleBad := bad, nanIn := v.isNan }) else (v, ({ scaleBad := bad } : Events))
  (rows.map fun r => r.map (·.1), joinEvents (rows.flatten.map (·.2)))

/-- Folds the tokens [lo, hi) of group `gi`, whose keys and values are given, into the rows of a sequence. Row (i, h) of the
sequence is number i × H + h. -/
def foldTokens (d : AttD) (s : AttSeq) (kvEnd gi lo hi : Nat) (ks vs : List (List Val)) (qs : List (List Val)) (rows : List RowSt) :
    List RowSt × Events :=
  let rs := rows.zipIdx.map fun (x : RowSt × Nat) =>
    let i := x.2 / d.heads
    let h := x.2 % d.heads
    if h / d.hpg ≠ gi then (x.1, ({} : Events))
    else
      let p := d.permitted s kvEnd i
      let a := max p.1 lo
      let b := min p.2 hi
      let q := qs.getD x.2 []
      let sel := fun (l : List (List Val)) => (l.drop (a - lo)).take (b - a)
      if a < b then
        let dots := (sel ks).map fun kv => (d.dot 0 q kv, kv)
        let ss := dots.map fun x => f32Mul d.scale x.1
        let r := foldRow d (a - lo) x.1 ss (sel vs)
        let ev := joinEvents (dots.map fun x => (dotEvents q x.2 x.1).join (arithEvents [d.scale.val, x.1.val] (f32Mul d.scale x.1).val))
        (r.1, ev.join r.2)
      else (x.1, {})
  (rs.map (·.1), joinEvents (rs.map (·.2)))

/-- Cycles of one FULL 16-bit instruction of `t` loads past which `rows` rows stream are counted (R63, R75). -/
def Block.countArray (m : Block) (n t rows : Nat) : Block :=
  (m.addFld (Reg.coreArrLoadcyc n) 63 0 (128 * t)).addFld (Reg.coreArrStrmcyc n) 63 0 (t * rows)

/-- The array instructions of one group of a sequence over `tokens` tokens (R211): chunks of at most 2,048 query rows and 32,768 tokens, two
instructions for each pair. -/
def Block.countPlacement (m : Block) (n : Nat) (d : AttD) (s : AttSeq) (tokens : Nat) : Block :=
  let parts (size total : Nat) : List Nat := (List.range (ceilDiv total size)).map fun i => min size (total - size * i)
  if !d.array then m
  else (parts 2048 (s.count * d.hpg)).foldl (fun m r => (parts 32768 tokens).foldl (fun m t =>
    let l := ceilDiv d.dim 128 * ceilDiv t 128
    (m.countArray n l r).countArray n l r) m) m

/-- The query heads of a sequence as values, in row order. -/
def readQueries (k : Who) (d : AttD) (s : AttSeq) : AttM (List (List Val)) := do
  let rows ← (List.range s.count).foldlM (fun acc i => do
    return acc ++ [← attRead k (d.addr 3 + (s.row + i) * d.qPitch) d.rowBytes]) ([] : List (List Byte))
  return rows.flatMap fun bs => (chunks d.dim (unpack 16 (d.heads * d.dim) bs)).map fun c => c.map Fmt.bf16.decode

/-- Gathers and folds one run of tokens of one page. `pg` and `sa`: addresses of the page and its scales; `first`: the page's first
token. -/
def foldPage (k : Who) (d : AttD) (s : AttSeq) (kvEnd gi pg sa first lo hi : Nat) (qs : List (List Val)) (rows : List RowSt) :
    AttM (List RowSt) := do
  let n := hi - lo
  let t0 := lo - first
  let sc ← attRead k sa (d.dim / 2)
  let ke ← attRead k (pg + t0 * d.tokBytes) (n * d.tokBytes)
  let ve ← attRead k (pg + 8 * d.dim * d.fmt.width + t0 * d.tokBytes) (n * d.tokBytes)
  let kv := planeVals d 0 sc ke t0 n
  let vv := planeVals d 1 sc ve t0 n
  let r := foldTokens d s kvEnd gi lo hi kv.1 vv.1 qs rows
  attDo fun m => (m.noteEvents k.n ((kv.2.join vv.2).join r.2)).addFld (Reg.attTokens (k.n / 8) (k.n % 8)) 63 0 n
  return r.1

/-- Finishes the rows of a sequence; their events are noted. -/
def finishRows (k : Who) (rows : List RowSt) : AttM (List (List Nat × Nat × Bool)) := do
  let fs := rows.map finishRow
  attDo fun m => m.noteEvents k.n (joinEvents (fs.map (·.2)))
  return fs.map (·.1)

/-- Writes the output rows and statistics of a sequence. -/
def attOutput (k : Who) (d : AttD) (s : AttSeq) (outs : List (List Nat × Nat × Bool)) : AttM Unit := do
  (List.range s.count).forM fun i => do
    let row := (List.range d.heads).map fun h => outs.getD (i * d.heads + h) ([], 0, false)
    attWrite k (d.addr 4 + (s.row + i) * d.oPitch) (pack 16 (row.flatMap (·.1)))
    if d.addr 5 ≠ 0 then
      attWrite k (d.addr 5 + 8 * ((s.row + i) * d.heads)) (row.flatMap fun r => leBytes 8 r.2.1)
  attDo fun m => (m.addFld (Reg.attEmpty (k.n / 8) (k.n % 8)) 63 0 (outs.filter (·.2.2)).length).addFld
    (Reg.attSeqDone (k.n / 8) (k.n % 8)) 63 0 1

/-- The outputs of a refused sequence, which is counted (R201). -/
def attRefuse (k : Who) (d : AttD) (s : AttSeq) (reason : Nat) : AttM Unit := do
  attDo fun m => (m.satFld (Reg.attRefused (k.n / 8) (k.n % 8)) 31 0 1).setFld (Reg.attRefused (k.n / 8) (k.n % 8)) 63 56 reason
  attOutput k d s (List.replicate (s.count * d.heads) (List.replicate d.dim 0, 2 ^ 33 + 0xFF800000, false))

/-- One sequence without the Carousel: refused, or appended, folded page by page in ascending order, and finished. The flag says
whether it was refused. -/
def attSequence (k : Who) (d : AttD) (s : AttSeq) : AttM Bool := do
  let pages := if s.count > s.len then [] else d.pages s s.len 0
  match ← attCheck k d s pages with
  | .error r => attRefuse k d s r; return true
  | .ok ps =>
    if d.append then attAppend k d s 0 ps
    let qs ← readQueries k d s
    let start := List.replicate (s.count * d.heads) (rowStart d.dim)
    let u := d.hull s s.len 0 s.len
    let rows ← (List.range d.gCount).foldlM (fun rows gi => do
      attDo fun m => m.countPlacement k.n d s (u.2 - u.1)
      (pages.insertionSort (· ≤ ·)).foldlM (fun rows p => do
        let r := d.hull s s.len (64 * p) (64 * p + 64)
        if r.1 < r.2 then foldPage k d s s.len gi (pageAt ps gi p) (d.scaleAddr s gi p) (64 * p) r.1 r.2 qs rows else return rows) rows) start
    attOutput k d s (← finishRows k rows)
    return false

/-- Reads the length table. -/
def readTable (k : Who) (d : AttD) : AttM (List AttSeq) :=
  (List.range d.seqs).foldlM (fun acc i => do return acc ++ [attSeqOf (← attRead k (d.addr 2 + 32 * i) 32)]) []

/- The Carousel (R215 to R218) -/

/-- A Carousel descriptor (Table 8.6). -/
structure CarD where
  w : List Word
  deriving DecidableEq, Repr

/-- NEXT_NODE. -/
def CarD.next (c : CarD) : Nat := field (wordAt c.w 0) 63 52
/-- PREV_NODE. -/
def CarD.prev (c : CarD) : Nat := field (wordAt c.w 0) 51 40
/-- RING_SIZE. -/
def CarD.size (c : CarD) : Nat := field (wordAt c.w 0) 39 32
/-- RING_POS. -/
def CarD.pos (c : CarD) : Nat := field (wordAt c.w 0) 31 24
/-- SLOTS. -/
def CarD.slots (c : CarD) : Nat := field (wordAt c.w 0) 23 20
/-- OWN_FIRST. -/
def CarD.ownFirst (c : CarD) : Nat := field (wordAt c.w 1) 63 32
/-- OWN_LEN. -/
def CarD.ownLen (c : CarD) : Nat := field (wordAt c.w 1) 31 0
/-- TOTAL_LEN. -/
def CarD.totalLen (c : CarD) : Nat := field (wordAt c.w 2) 31 0
/-- SLOT_ADDR as a global address of this module. -/
def CarD.slotAddr (c : CarD) (i : Nat) : Nat := 0xFFF * 2 ^ 48 + localPart (wordAt c.w 3).toNat + i * field (wordAt c.w 4) 63 32
/-- The slot at the next module. -/
def CarD.peerSlot (c : CarD) (i : Nat) : Nat := c.next * 2 ^ 48 + localPart (wordAt c.w 5).toNat + i * field (wordAt c.w 4) 63 32
/-- ARRIVE_HITCH. -/
def CarD.arrive (c : CarD) : Nat := field (wordAt c.w 4) 19 10
/-- CREDIT_HITCH. -/
def CarD.credit (c : CarD) : Nat := field (wordAt c.w 4) 9 0

/-- Pages of a slice. -/
def slicePages (tokens : Nat) : Nat := ceilDiv tokens 64
/-- SCALE_OFF of a block with so many tokens (R216). -/
def AttD.scaleOff (d : AttD) (tokens : Nat) : Nat := 128 + d.gCount * slicePages tokens * d.pageBytes
/-- Bytes of a block. -/
def AttD.blockBytes (d : AttD) (tokens : Nat) : Nat := d.scaleOff tokens + d.gCount * slicePages tokens * (d.dim / 2)

/-- Whether a Carousel descriptor is malformed. -/
def CarD.bad (c : CarD) (d : AttD) (addr : Nat) : Bool :=
  let w := wordAt c.w
  addr % 64 != 0 || decide (c.size < 2) || decide (c.size > 64) || decide (c.pos ≥ c.size) || decide (c.slots < 2) || decide (c.slots > 4) ||
    !zeroBits (w 0) 19 0 || !zeroBits (w 2) 63 32 || !zeroBits (w 4) 31 20 || w 6 != 0 || w 7 != 0 || (w 3).toNat % 128 != 0 ||
    (w 5).toNat % 128 != 0 || field (w 4) 63 32 % 128 != 0 || decide (field (w 4) 63 32 < d.blockBytes c.ownLen)

/-- The header of a block (Table 8.7). -/
def blockHeader (d : AttD) (first tokens origin transfer : Nat) : List Word :=
  [BitVec.ofNat 64 (first * 2 ^ 32 + tokens),
   BitVec.ofNat 64 (origin * 2 ^ 56 + transfer * 2 ^ 48 + d.layer * 2 ^ 32 + d.gBase * 2 ^ 24 + d.gCount * 2 ^ 16 +
     field (wordAt d.w 0) 59 56 * 2 ^ 12 + field (wordAt d.w 0) 55 54 * 2 ^ 10),
   BitVec.ofNat 64 (d.scaleOff tokens)] ++ List.replicate 13 0

/-- Whether a header is what round `t` of ring position `pos` expects (R218). -/
def headerOk (d : AttD) (c : CarD) (t : Nat) (h : List Word) : Bool :=
  let e := blockHeader d 0 0 ((c.pos + c.size - t) % c.size) t
  wordAt h 1 == wordAt e 1

/-- One piece of a block's body: where it lies at this module, its place in the block, its length. -/
structure BlockSeg where
  src : Nat
  off : Nat
  len : Nat
  deriving DecidableEq, Repr

/-- The pieces of a block of so many tokens whose scale area starts at `so`: each group's pages in page order, then each group's scales (R216).
`page` and `scale` say where those of a group and page lie. -/
def blockSegs (d : AttD) (tokens so : Nat) (page scale : Nat → Nat → Nat) : List BlockSeg :=
  let n := slicePages tokens
  let keys := (List.range d.gCount).flatMap fun g => (List.range n).map fun p => (g, p)
  keys.map (fun gp => ⟨page gp.1 gp.2, 128 + (gp.1 * n + gp.2) * d.pageBytes, d.pageBytes⟩) ++
    keys.map (fun gp => ⟨scale gp.1 gp.2, so + (gp.1 * n + gp.2) * (d.dim / 2), d.dim / 2⟩)

/-- Whether a block, by its header, fits in a slot (R216). -/
def blockFits (d : AttD) (c : CarD) (h : List Word) : Bool :=
  let n := d.gCount * slicePages (field (wordAt h 0) 31 0)
  let slot := field (wordAt c.w 4) 63 32
  decide (128 + n * d.pageBytes ≤ slot) && decide (field (wordAt h 2) 47 0 + n * (d.dim / 2) ≤ slot)

/-- Folds a slice whose pages and scales stand at given addresses, by group and page, as one block (R194). Only pages that hold permitted
tokens are touched, and of those only the tokens up to the last permitted one (R199). -/
def foldSlice (k : Who) (d : AttD) (s : AttSeq) (kvEnd first tokens : Nat) (page scale : Nat → Nat → Nat) (rows : List RowSt) :
    AttM (List RowSt) := do
  let qs ← readQueries k d s
  let u := d.hull s kvEnd first (first + tokens)
  (List.range d.gCount).foldlM (fun rows gi => do
    if u.1 < u.2 then do
      attDo fun m => m.countPlacement k.n d s (u.2 - u.1)
      let parts ← (List.range (slicePages tokens)).foldlM (fun acc p => do
        let base := first + 64 * p
        let n := min 64 (tokens - 64 * p)
        let r := d.hull s kvEnd base (base + n)
        if r.1 < r.2 then do
          let t0 := r.1 - base
          let nn := r.2 - r.1
          let sc ← attRead k (scale gi p) (d.dim / 2)
          let ke ← attRead k (page gi p + t0 * d.tokBytes) (nn * d.tokBytes)
          let ve ← attRead k (page gi p + 8 * d.dim * d.fmt.width + t0 * d.tokBytes) (nn * d.tokBytes)
          let kv := planeVals d 0 sc ke t0 nn
          let vv := planeVals d 1 sc ve t0 nn
          attDo fun m => (m.noteEvents k.n (kv.2.join vv.2)).addFld (Reg.attTokens (k.n / 8) (k.n % 8)) 63 0 nn
          let fill (l : List (List Val)) : List (List Val) := List.replicate t0 [] ++ l ++ List.replicate (n - t0 - nn) []
          return (acc.1 ++ fill kv.1, acc.2 ++ fill vv.1)
        else return (acc.1 ++ List.replicate n [], acc.2 ++ List.replicate n [])) (([], []) : List (List Val) × List (List Val))
      let r := foldTokens d s kvEnd gi first (first + tokens) parts.1 parts.2 qs rows
      attDo fun m => m.noteEvents k.n r.2
      return r.1
    else return rows) rows

/- Running a pass on a core -/

/-- Stops the core with BAD_DESCRIPTOR; the command completes with the descriptor-error status (R200, R218). -/
def Block.attMalformed (m : Block) (n : Nat) : Block := (m.modCore n fun c => { c with att := none }).descriptorStop n

/-- The end of a pass: with a refused sequence the command completes with the descriptor-error status (R201). -/
def Block.attEnd (m : Block) (n : Nat) (refused : Bool) : Block :=
  let m1 := (m.dropReads (m.coreMover n)).modCore n fun c => { c with att := none }
  if refused then
    match (m.core n).task with
    | some q => m1.complete q 4 0
    | none => m1
  else m1

/-- How a step of a pass ends: malformed, finished (with a refused sequence or not), waiting for a hitch, waiting, or to go on at once. -/
inductive Turn where
  | malformed
  | done (refused : Bool)
  | waitFor (hitch target : Nat) (run : AttRun)
  | later (run : AttRun)
  | next (run : AttRun)

/-- A pass without the Carousel: every sequence worked through. -/
def attPass (k : Who) (d : AttD) : AttM Turn := do
  let ss ← readTable k d
  if tableMalformed ss then return .malformed
  let r ← ss.foldlM (fun r s => do return (← attSequence k d s) || r) false
  return .done r

/-- Whether the command of core `n`'s task runs again after a fault that interrupted its collectives (R219, R463). -/
def Block.runsAgain (m : Block) (n : Nat) : Bool := ((m.core n).task.bind m.running).any fun c => c.replayed || c.replays != 0

/-- Sets a hitch of core `n`'s context to zero. -/
def Block.signalZero (m : Block) (n hitch : Nat) : Block :=
  match m.coreHitch n hitch with
  | some a => m.hitchSet a 0
  | none => m

/-- The start of a Carousel pass: the checks, the hitches of a pass that restarts set to zero (R219), the appends, and round 0 with this
module's own slice. -/
def carStart (k : Who) (d : AttD) (r : AttRun) : AttM Turn := do
  let bs ← attRead k (0xFFF * 2 ^ 48 + localPart (d.addr 9)) 64
  let c : CarD := ⟨leWords 8 bs⟩
  let e ← attRead k (d.addr 2) 32
  let s := attSeqOf e
  if tableMalformed [s] || c.bad d (d.addr 9) then return .malformed
  else
    attDo fun m => if m.runsAgain k.n then (m.signalZero k.n c.arrive).signalZero k.n c.credit else m
    let own := List.range (slicePages c.ownLen)
    let app := if d.append && s.count ≤ s.len && s.count > 0 then
        (List.range ((s.pos s.count - 1 - c.ownFirst) / 64 + 1 - (s.pos 0 - c.ownFirst) / 64)).map ((s.pos 0 - c.ownFirst) / 64 + ·)
      else []
    match ← attCheck k d s (own ++ app).dedup with
    | .error x => attRefuse k d s x; return .done true
    | .ok ps =>
      if d.append then attAppend k d s c.ownFirst ps
      return .next { r with car := c.w, seq := e, stage := 1, header := blockHeader d c.ownFirst c.ownLen c.pos 1
                            rows := List.replicate (s.count * d.heads) (rowStart d.dim) }

/-- Where the pages and scales of the block of a round lie: this module's own in round 0, else in the slot that took it in. -/
def carPlaces (k : Who) (d : AttD) (c : CarD) (s : AttSeq) (r : AttRun) : AttM ((Nat → Nat → Nat) × (Nat → Nat → Nat)) := do
  let tokens := field (wordAt r.header 0) 31 0
  if r.round = 0 then
    match ← attCheck k d s (List.range (slicePages tokens)) with
    | .error _ => return (fun _ _ => 0, d.scaleAddr s)
    | .ok ps => return (pageAt ps, d.scaleAddr s)
  else
    let slot := c.slotAddr ((r.round - 1) % c.slots)
    let n := slicePages tokens
    return (fun g p => slot + 128 + (g * n + p) * d.pageBytes, fun g p => slot + field (wordAt r.header 2) 47 0 + (g * n + p) * (d.dim / 2))

/-- Whether the core's writes to a node have been acknowledged. -/
def Block.wroteAll (m : Block) (n node : Nat) : Bool := (m.core n).stores.all fun x => x.remote.map (·.1) != some node

/-- The counter at a hitch of core `n`'s context. -/
def Block.attHitch (m : Block) (n hitch : Nat) : Nat := ((m.coreHitch n hitch).map m.hitchVal).getD 0

/-- A signal of a hitch of the pass's context at a node of the ring. -/
def carSignal (k : Who) (node hitch : Nat) : AttM Unit := do
  let m ← get
  match m.remoteNode (node * 2 ^ 48) with
  | none => set (m.signal k.v.tenant k.v.ctx hitch 1)
  | some x =>
    if m.pairOpen k.n x then set (m.sendBurst { coreBurst m k.n x 0 [] (some (hitch, 1)) with kind := 2 }) else throw (.need [.room])

/-- The wait of a round t ≥ 1 for its block (R217, R218): the hitch, an ACQUIRE, the header, and the credit of the transfer that it starts. -/
def carArrive (k : Who) (d : AttD) (c : CarD) (r : AttRun) : AttM Turn := do
  let m ← get
  let t := r.round
  if m.attHitch k.n c.arrive < t then return .waitFor c.arrive t r
  else
    let p := m.nextStamp (k.n / 8)
    set (p.2.acquired k.n p.1)
    let h := leWords 16 (← attRead { k with stamp := p.1, floor := max k.floor p.1 } (c.slotAddr ((t - 1) % c.slots)) 128)
    if !headerOk d c t h || !blockFits d c h then return .malformed
    else if t + 1 < c.size && decide (m.attHitch k.n c.credit + c.slots < t + 1) then
      return .waitFor c.credit (t + 1 - c.slots) { r with since := some (r.since.getD m.time) }
    else
      match r.since with
      | some b => attDo fun m => m.satFld (Reg.attCar (k.n / 8) (k.n % 8)) 31 0 (m.time - b)
      | none => pure ()
      return .next { r with since := none, header := h, segs := 0, stage := if t + 1 < c.size then 1 else 2 }

/-- One step of a Carousel pass (R217). -/
def carTurn (k : Who) (r : AttRun) : AttM Turn := do
  let d : AttD := ⟨r.w⟩
  let c : CarD := ⟨r.car⟩
  let s := attSeqOf r.seq
  let t := r.round
  let m ← get
  let dst := c.peerSlot (t % c.slots)
  if t ≥ c.size then
    attOutput k d s (← finishRows k r.rows)
    return .done false
  else match r.stage with
    | 0 => carArrive k d c r
    | 1 =>
      let pl ← carPlaces k d c s r
      let so := field (wordAt r.header 2) 47 0
      match (blockSegs d (field (wordAt r.header 0) 31 0) so pl.1 pl.2)[r.segs]? with
      | some g => attWrite k (dst + g.off) (← attRead k g.src g.len); return .next { r with segs := r.segs + 1 }
      | none => return .next { r with stage := 2 }
    | 2 =>
      let pl ← carPlaces k d c s r
      let rows ← foldSlice k d s c.totalLen (field (wordAt r.header 0) 63 32) (field (wordAt r.header 0) 31 0) pl.1 pl.2 r.rows
      return .next { r with rows := rows, stage := if t + 1 < c.size then 3 else 5 }
    | 3 =>
      if !m.wroteAll k.n c.next then return .later r
      else
        let h := r.header.set 1 (putField (wordAt r.header 1) 55 48 (t + 1))
        match m.remoteNode dst with
        | some _ => attStore k dst (wordBytes h) (some (c.arrive, 1))
        | none => attWrite k dst (wordBytes h); carSignal k c.next c.arrive
        return .next { r with stage := 4 }
    | 4 => if m.wroteAll k.n c.next then return .next { r with stage := 5 } else return .later r
    | _ =>
      attDo fun m => m.addFld (Reg.attCar (k.n / 8) (k.n % 8)) 63 32 1
      if t ≥ 1 then carSignal k c.prev c.credit
      return .next { r with round := t + 1, stage := 0 }

/-- Holds the core until a hitch of its context reaches a value (R94, R217). -/
def Block.attWait (m : Block) (n hitch target : Nat) : Block :=
  match m.coreHitch n hitch with
  | none => m.faultStop n 4
  | some a =>
    let m1 := (m.setReg (Reg.coreHitchWait n) (BitVec.ofNat 64 (2 ^ 63 + hitch))).setReg (Reg.coreHitchTarget n) (BitVec.ofNat 64 target)
    (m1.setCoreSt n 2).modCore n fun c => { c with hold := .hwait, waitStart := m.time, waitAddr := a, met := false }

/-- What stops a step of a pass on the way does to the block: requests are sent from the block before it, and the pass stands as it was. -/
def Block.attHalted (m0 m : Block) (k : Who) : Halt → Block
  | .need l => m0.request k.v l
  | .curb kind ga n => m.curb 0 k.n k.v.tenant k.v.ctx kind ga n (m.remoteNode ga)

/-- The master and issue place of core `n` in a pass. -/
def Block.who (m : Block) (n : Nat) : Who := ⟨n, m.coreMover n, (m.tile (n / 8)).stamp, (m.tile (n / 8)).floor⟩

/-- One step of a pass: the whole of one without the Carousel, the start of a Carousel, or a step of its rounds. -/
def attTurn (k : Who) (r : AttRun) : AttM Turn :=
  let d : AttD := ⟨r.w⟩
  if d.addr 9 = 0 then attPass k d else if r.car.isEmpty then carStart k d r else carTurn k r

/-- Goes on with a pass until it waits or ends. -/
def Block.attGo (n : Nat) : Nat → AttRun → Block → Block
  | 0, _, m => m
  | fuel + 1, r, m =>
    let keep (m : Block) (r : AttRun) : Block := m.modCore n fun c => { c with att := some r }
    let m0 := keep m r
    match attTurn (m0.who n) r |>.run m0 with
    | (.error h, m1) => m0.attHalted m1 (m0.who n) h
    | (.ok .malformed, m1) => m1.attMalformed n
    | (.ok (.done refused), m1) => m1.attEnd n refused
    | (.ok (.waitFor hitch target r1), m1) => (keep m1 r1).attWait n hitch target
    | (.ok (.later r1), m1) => keep m1 r1
    | (.ok (.next r1), m1) => Block.attGo n fuel r1 (m1.dropReads (m1.coreMover n))

/-- Steps of a pass taken at most in one event; the pass goes on at the next. -/
def attFuel : Nat := 512

/-- A pass under way goes on when its core is not held (R94). -/
def Block.attResume (m : Block) (n : Nat) : Block :=
  match (m.core n).att with
  | some r => if m.passing n then Block.attGo n attFuel r m else m
  | none => m

/-- ATTENTION_PASS (R192 to R219): it follows the vector instructions before it. The descriptor is read once, whole (R197); a pass under way goes
on. -/
def attentionPassEffect (i : Issue) (desc : Nat) (m : Block) : Block :=
  let n := i.core
  if (m.core n).att.isSome then m.attResume n
  else if !((m.core n).vecQ.isEmpty && (m.core n).sfuQ.isEmpty) then m
  else m.issue i fun m =>
    let m := m.sense n ⟨.core, desc⟩ 128
    match m.readLoc n ⟨.core, desc⟩ 128 with
    | .error t => m.trap n t
    | .ok bs =>
      let d : AttD := ⟨leWords 16 bs⟩
      if desc % 128 ≠ 0 ∨ d.bad then m.attMalformed n
      else if d.seqs = 0 then m
      else Block.attGo n attFuel { w := d.w } ((m.nextStamp (n / 8)).2)

/-- ATTENTION_PASS. -/
def execAttentionPass (i : Issue) (desc : Nat) (s : State) : Host.Outcome State Fault Refusal :=
  s.commit (attentionPassEffect i desc s.m)

end Sys2Proof.Machine
end

