-- ==== Sys2Proof/Machine/Codec.lean ====
section
/-! DEFINITION. Compression engines (R179 to R191): lossy blocks, lossless blocks, codec jobs. A job runs as one event once its
remote sources have arrived; CODEC_JOB_END writes its result. -/
namespace Sys2Proof.Machine

/- Lossy blocks (R180 to R182) -/

/-- Formats of the raw side of a lossy job. -/
def rawFmt (c : Nat) : Fmt := if c = 0 then .fp32 else if c = 1 then .bf16 else .fp16

/-- One step of CRC-4 over x^4 + x + 1. -/
def crc4Bit (r : Nat) (b : Bool) : Nat := ((2 * r) % 16) ^^^ (if (r ≥ 8) != b then 3 else 0)

/-- CRC-4 over the `n` low bits of a number, most significant first. -/
def crc4Bits (r n v : Nat) : Nat := (List.range n).foldl (fun r i => crc4Bit r (v.testBit (n - 1 - i))) r

/-- CHECK of a block (R182). -/
def crc4 (exp rate : Nat) (elems : List Byte) : Nat :=
  elems.foldl (fun r b => crc4Bits r 8 b.toNat) (crc4Bits (crc4Bits 0 8 exp) 4 rate)

/-- The bits of an element at a rate code. -/
def lossyWidth (rate : Nat) : Nat := rateBits rate

/-- The integer x × 2^k to nearest even, clamped to ± lim, as w-bit two's complement. -/
def lossyElem (w : Nat) (k : Int) : Val → Nat
  | .fin neg m e =>
    let p := scaleQ m 1 (e + k)
    let q := min (roundQuot p.1 p.2) (2 ^ (w - 1) - 1)
    if neg then (2 ^ w - q) % 2 ^ w else q
  | _ => 0

/-- Encodes 64 values: header and element bytes (R181). -/
def lossyEncodeBlock (rate : Nat) (vs : List Val) : Nat × List Byte :=
  let w := lossyWidth rate
  let zeros := List.replicate 64 0
  let ec : Nat × List Nat :=
    if vs.any fun v => !v.isFin then (0xFF, zeros)
    else match amax vs with
      | .fin _ m e =>
        if m = 0 then (0, zeros)
        else
          let exp := (max 1 (min 254 (floorLog2 m 1 + e + 1 + 127))).toNat
          (exp, vs.map (lossyElem w ((w : Int) - 1 - ((exp : Int) - 127))))
      | _ => (0xFF, zeros)
  let bytes := pack w ec.2
  (ec.1 * 256 + crc4 ec.1 rate bytes * 16 + rate, bytes)

/-- Decodes a block to the codes of a format; none when it is damaged (R182). -/
def lossyDecodeBlock (rate : Nat) (t : Fmt) (header : Nat) (elems : List Byte) : Option (List Nat) :=
  let w := lossyWidth rate
  let exp := header / 256
  if header / 16 % 16 ≠ crc4 exp (header % 16) elems ∨ header % 16 ≠ rate then none
  else if exp = 0xFF then (if elems.all (· == 0) then some (List.replicate 64 t.convertNan.1) else none)
  else some ((unpack w 64 elems).map fun c =>
    let neg := decide (c ≥ 2 ^ (w - 1))
    (t.convertQ neg (if neg then 2 ^ w - c else c) 1 ((exp : Int) - 127 - ((w : Int) - 1))).1)

/- Lossless blocks (R183 to R185) -/

/-- Kraft sum of code lengths, in units of 2^-15. -/
def kraft (lens : List Nat) : Nat := total (lens.map fun l => if l = 0 then 0 else 2 ^ (15 - l))

/-- The first code of each length 1 to 15 (RFC 1951, section 3.2.2). -/
def firstCodes (lens : List Nat) : List Nat :=
  ((List.range 15).foldl
    (fun acc i =>
      let prev := if i = 0 then 0 else (lens.filter (· == i)).length
      let c := (acc.2 + prev) * 2
      (acc.1 ++ [c], c)) ([], 0)).1

/-- Canonical codes: for each byte value its length and code; length 0 marks an absent one. -/
def canonicalCodes (lens : List Nat) : List (Nat × Nat) :=
  (lens.foldl
    (fun acc l =>
      if l = 0 then (acc.1 ++ [(0, 0)], acc.2)
      else
        let c := acc.2.getD (l - 1) 0
        (acc.1 ++ [(l, c)], acc.2.set (l - 1) (c + 1)))
    ([], firstCodes lens)).1

/-- The bits of bytes, most significant first. -/
def msbBits (bs : List Byte) : List Bool := bs.flatMap fun b => (List.range 8).map fun i => b.toNat.testBit (7 - i)

/-- Bytes of a run of bits, the last one filled with zeros. -/
def bytesOfBits (bits : List Bool) : List Byte :=
  (chunks 8 bits).map fun c => BitVec.ofNat 8 ((c ++ List.replicate (8 - c.length) false).foldl (fun v b => 2 * v + (if b then 1 else 0)) 0)

/-- The symbol with a length and code. -/
def symbolOf (codes : List (Nat × Nat)) (l c : Nat) : Option Nat := (codes.zipIdx.find? fun x => x.1 == (l, c)).map (·.2)

/-- One symbol off the front of a bit string. -/
def nextSymbol (codes : List (Nat × Nat)) : Nat → Nat → Nat → List Bool → Option (Nat × List Bool)
  | 0, _, _, _ => none
  | _, _, _, [] => none
  | fuel + 1, l, c, b :: bs =>
    let c' := 2 * c + (if b then 1 else 0)
    match symbolOf codes (l + 1) c' with
    | some s => some (s, bs)
    | none => nextSymbol codes fuel (l + 1) c' bs

/-- `n` symbols off the front of a bit string. -/
def readSymbols (codes : List (Nat × Nat)) : Nat → List Bool → Option (List Byte × List Bool)
  | 0, bits => some ([], bits)
  | n + 1, bits =>
    match nextSymbol codes 15 0 0 bits with
    | none => none
    | some (s, rest) => (readSymbols codes n rest).map fun r => (BitVec.ofNat 8 s :: r.1, r.2)

/-- Code lengths of a code table (R184). -/
def tableLens (bs : List Byte) : List Nat := bs.flatMap fun b => [b.toNat % 16, b.toNat / 16]

/-- Decodes a prefix-coded block; none when it is damaged (R185). -/
def prefixDecode (bs : List Byte) : Option (List Byte) :=
  let lens := tableLens (bs.take 128)
  if bs.length < 128 ∨ lens.all (· == 0) ∨ kraft lens > 2 ^ 15 then none
  else match readSymbols (canonicalCodes lens) 4096 (msbBits (bs.drop 128)) with
    | none => none
    | some (out, rest) => if rest.length < 8 && !rest.any id then some out else none

/-- A prefix-coded block with the lengths the encoder chooses (log entry 7), when they code the block. -/
def prefixEncode (bs : List Byte) : Option (List Byte) :=
  let lens := ((Config.prefixLengths bs).take 256).map (· % 16)
  if lens.length ≠ 256 ∨ kraft lens > 2 ^ 15 ∨ bs.any (fun b => lens.getD b.toNat 0 == 0) then none
  else
    let codes := canonicalCodes lens
    let table := (List.range 128).map fun j => BitVec.ofNat 8 (lens.getD (2 * j) 0 + 16 * lens.getD (2 * j + 1) 0)
    let bits := bs.flatMap fun b => let c := codes.getD b.toNat (0, 0); (List.range c.1).map fun i => c.2.testBit (c.1 - 1 - i)
    some (table ++ bytesOfBits bits)

/-- Encodes a 4 KiB block: MODE and data (R185). -/
def losslessEncodeBlock (bs : List Byte) : Nat × List Byte :=
  if bs.all (· == 0) then (1, [])
  else match prefixEncode bs with
    | some d => if d.length < 4096 then (2, d) else (0, bs)
    | none => (0, bs)

/-- Whether an index entry is sound (R185). -/
def indexOk (e : Word) (dlen : Nat) : Bool :=
  let elen := field e 52 40
  field e 63 55 == 0 && field e 54 53 != 3 && decide (field e 39 0 + elen ≤ dlen) && !(field e 54 53 == 0 && elen != 4096) &&
    !(field e 54 53 == 1 && elen != 0)

/- Jobs (R187 to R190) -/

/-- A codec job descriptor (Table 7.10). -/
structure CJob where
  w : List Word
  deriving DecidableEq, Repr

/-- OP. -/
def CJob.op (j : CJob) : Nat := field (wordAt j.w 0) 63 60
/-- RATE. -/
def CJob.rate (j : CJob) : Nat := field (wordAt j.w 0) 59 56
/-- Whether the job encodes. -/
def CJob.encode (j : CJob) : Bool := j.op == 0 || j.op == 2
/-- Whether the job is lossy. -/
def CJob.lossy (j : CJob) : Bool := decide (j.op < 2)
/-- The format of the raw side. -/
def CJob.fmt (j : CJob) : Fmt := rawFmt (if j.encode then field (wordAt j.w 0) 55 52 else field (wordAt j.w 0) 51 48)
/-- SUBSTREAMS. -/
def CJob.subs (j : CJob) : Nat := field (wordAt j.w 0) 47 40
/-- SRC. -/
def CJob.src (j : CJob) : Nat := (wordAt j.w 1).toNat
/-- DST. -/
def CJob.dst (j : CJob) : Nat := (wordAt j.w 2).toNat
/-- AUX. -/
def CJob.aux (j : CJob) : Nat := (wordAt j.w 3).toNat
/-- COUNT. -/
def CJob.count (j : CJob) : Nat := field (wordAt j.w 4) 47 0
/-- START. -/
def CJob.start (j : CJob) : Nat := field (wordAt j.w 6) 47 0
/-- The data-region length in bytes. -/
def CJob.dlen (j : CJob) : Nat := (field (wordAt j.w 5) 63 42 * 65536 + field (wordAt j.w 4) 63 48) * 1024
/-- Bytes of a raw block. -/
def CJob.rawBytes (j : CJob) : Nat := if j.lossy then 64 * (j.fmt.width / 8) else 4096
/-- Bytes of a block's elements. -/
def CJob.elemBytes (j : CJob) : Nat := 8 * lossyWidth j.rate
/-- Bytes of a block's header or index entry. -/
def CJob.auxBytes (j : CJob) : Nat := if j.lossy then 2 else 8

/-- The raw side: address and bytes. -/
def CJob.raw (j : CJob) : Nat × Nat := (if j.encode then j.src else j.dst, j.count * j.rawBytes)
/-- The coded side: elements or data region. An encode's data region is taken at its largest. -/
def CJob.coded (j : CJob) : Nat × Nat :=
  let a := if j.encode then j.dst else j.src
  if j.lossy then (a + j.start * j.elemBytes, j.count * j.elemBytes) else (a, if j.encode then j.count * 4096 else j.dlen)
/-- Headers or index entries. -/
def CJob.auxExtent (j : CJob) : Nat × Nat := (j.aux + j.start * j.auxBytes, j.count * j.auxBytes)

/-- The node of a global address, and the local part. One module has two names, its own node ID and 0xFFF (R130). -/
def Block.placeOf (m : Block) (ga : Nat) : Option Nat × Nat := (m.remoteNode ga, localPart ga)

/-- Whether two extents of global addresses overlap: at one node, by their local parts (R188). -/
def Block.extentsMeet (m : Block) (a b : Nat × Nat) : Bool :=
  a.2 != 0 && b.2 != 0 && (m.placeOf a.1).1 == (m.placeOf b.1).1 && overlaps (localPart a.1) a.2 (localPart b.1) b.2

/-- Whether an extent lies in HBM, the shared pool or the core-memory windows of this module (R188). -/
def Block.onModule (m : Block) (e : Nat × Nat) : Bool :=
  let kind (r : Region) : Nat := match r with
    | .hbm => 1
    | .pool => 2
    | .core _ _ => 3
    | _ => 0
  let a := localPart e.1
  (m.remoteNode e.1).isNone && decide (e.1 < 2 ^ 60) && kind (m.region a) != 0 && kind (m.region a) == kind (m.region (a + (e.2 - 1)))

/-- Whether a job is malformed (R188). -/
def Block.cjobBad (m : Block) (j : CJob) : Bool :=
  let w := wordAt j.w
  let fmts := (field (w 0) 55 52, field (w 0) 51 48)
  decide (j.op > 3) || !zeroBits (w 0) 38 0 || !zeroBits (w 6) 63 48 || !zeroBits (w 7) 53 48 ||
    (if j.lossy then decide (j.rate > 3) || decide (fmts.1 > 2) || decide (fmts.2 > 2) || !zeroBits (w 4) 63 48 || !zeroBits (w 5) 63 42
     else j.rate != 0 || fmts != (0, 0) || (j.encode && j.dlen != 0)) ||
    j.src % 128 != 0 || j.dst % 128 != 0 || j.aux % 128 != 0 ||
    j.subs == 0 || decide (j.subs > (if j.encode then 16 else 64)) ||
    m.extentsMeet j.raw j.coded || m.extentsMeet j.raw j.auxExtent || (!j.encode && j.count != 0 && !m.onModule j.raw)

/-- The runs of a job: first block and blocks of each (R189). -/
def CJob.runs (j : CJob) : List (Nat × Nat) :=
  let q := j.count / j.subs
  let r := j.count % j.subs
  (List.range j.subs).map fun i => (i * q + min i r, q + (if i < r then 1 else 0))

/-- What one block gives: a need, a failed check, damage, or its output. -/
inductive BlockOut (α : Type) where
  | need (l : List Need)
  | curb (kind ga n : Nat)
  | damaged (m : Block)
  | good (m : Block) (out : α)

/-- Decodes block `i` of a job. -/
def Block.decodeBlock (m : Block) (v : Mover) (j : CJob) (i : Nat) : BlockOut (List Byte) :=
  let b := j.start + i
  match m.engRead v (j.aux + b * j.auxBytes) j.auxBytes with
  | .bad k g n => .curb k g n
  | .need l => .need l
  | .data m1 h p =>
    if j.lossy then
      match m1.engRead v (j.src + b * j.elemBytes) j.elemBytes with
      | .bad k g n => .curb k g n
      | .need l => .need l
      | .data m2 e q =>
        if p || q then .damaged m2
        else match lossyDecodeBlock j.rate j.fmt (leNat h) e with
          | none => .damaged m2
          | some cs => .good m2 (cs.flatMap fun c => leBytes (j.fmt.width / 8) c)
    else
      let e := BitVec.ofNat 64 (leNat h)
      if p || !indexOk e j.dlen then .damaged m1
      else if field e 54 53 = 1 then .good m1 (List.replicate 4096 0)
      else match m1.engRead v (j.src + field e 39 0) (field e 52 40) with
        | .bad k g n => .curb k g n
        | .need l => .need l
        | .data m2 d q =>
          if q then .damaged m2
          else if field e 54 53 = 0 then .good m2 d
          else match prefixDecode d with
            | none => .damaged m2
            | some out => .good m2 out

/-- Encodes block `i` of a job: mode (lossless) or header (lossy), and bytes. -/
def Block.encodeBlock (m : Block) (v : Mover) (j : CJob) (i : Nat) : BlockOut (Nat × List Byte) :=
  match m.engRead v (j.src + i * j.rawBytes) j.rawBytes with
  | .bad k g n => .curb k g n
  | .need l => .need l
  | .data m1 d p =>
    if p then .damaged m1
    else if j.lossy then
      .good m1 (lossyEncodeBlock j.rate ((unpack j.fmt.width 64 d).map j.fmt.decode))
    else .good m1 (losslessEncodeBlock d)

/-- A job in its course: the block, what it still needs, whether a check has failed, damaged sub-streams, the lowest damaged
block, and the bytes laid in a lossless data region. -/
structure Course where
  m     : Block
  needs : List Need := []
  dead  : Bool := false
  subs  : Nat := 0
  first : Option Nat := none
  dlen  : Nat := 0

/-- Notes a damaged block, the first of its run. -/
def Course.damage (c : Course) (m : Block) (i : Nat) : Course :=
  { c with m := m, subs := c.subs + 1, first := some (match c.first with | none => i | some x => min x i) }

/-- One run of a decode: blocks in order; from the first damaged one on, the destination granules are poisoned (R190). -/
def decodeRun (v : Mover) (j : CJob) (c : Course) (r : Nat × Nat) : Course :=
  ((List.range r.2).foldl
    (fun (cd : Course × Bool) k =>
      let c := cd.1
      let i := r.1 + k
      let out := j.dst + i * j.rawBytes
      if c.dead then cd
      else if cd.2 then
        let w := c.m.engWrite v out (List.replicate j.rawBytes 0) true
        ({ c with m := w.1, dead := !w.2 }, true)
      else match c.m.decodeBlock v j i with
        | .need l => ({ c with needs := c.needs ++ l }, false)
        | .curb kind ga n => ({ c with m := c.m.curb v.mtype v.idx v.tenant v.ctx kind ga n (c.m.remoteNode ga), dead := true }, false)
        | .damaged m =>
          let w := m.engWrite v out (List.replicate j.rawBytes 0) true
          ({ (c.damage m (j.start + i)) with m := w.1, dead := !w.2 }, true)
        | .good m bs =>
          let w := m.engWrite v out bs false
          ({ c with m := w.1, dead := !w.2 }, false))
    (c, false)).1

/-- The blocks of a run of an encode, each with its code, or none from the first poisoned one on. -/
def encodeRun (v : Mover) (j : CJob) (co : Course × List (Option (Nat × List Byte))) (r : Nat × Nat) :
    Course × List (Option (Nat × List Byte)) :=
  let z := (List.range r.2).foldl
    (fun (s : Course × List (Option (Nat × List Byte)) × Bool) k =>
      let c := s.1
      let i := r.1 + k
      if c.dead then s
      else if s.2.2 then (c, s.2.1 ++ [none], true)
      else match c.m.encodeBlock v j i with
        | .need l => ({ c with needs := c.needs ++ l }, s.2.1 ++ [none], false)
        | .curb kind ga n =>
          ({ c with m := c.m.curb v.mtype v.idx v.tenant v.ctx kind ga n (c.m.remoteNode ga), dead := true }, s.2.1, false)
        | .damaged m => (c.damage m (j.start + i), s.2.1 ++ [none], true)
        | .good m b => ({ c with m := m }, s.2.1 ++ [some b], false))
    (co.1, [], false)
  (z.1, co.2 ++ z.2.1)

/-- Groups of neighbouring good outputs: index of the first and their bytes. -/
def joinOuts : Nat → List (Option (List Byte)) → List (Nat × List Byte)
  | _, [] => []
  | i, none :: r => joinOuts (i + 1) r
  | i, some b :: r => match joinOuts (i + 1) r with
    | (k, bs) :: rest => if k = i + 1 then (i, b ++ bs) :: rest else (i, b) :: (k, bs) :: rest
    | [] => [(i, b)]

/-- Writes an encoder's planes, good blocks first, then poisons what the others touch (R190). `width` is a block's bytes. -/
def Course.writePlane (c : Course) (v : Mover) (base width : Nat) (outs : List (Option (List Byte))) : Course :=
  let c1 := (joinOuts 0 outs).foldl
    (fun c g =>
      if c.dead then c
      else
        let w := c.m.engWrite v (base + width * g.1) g.2 false
        { c with m := w.1, dead := !w.2 })
    c
  if c1.dead then c1
  else { c1 with m := outs.zipIdx.foldl (fun m oi => if oi.1.isNone then m.engPoison v (base + width * oi.2) width else m) c1.m }

/-- Index entries and data of a lossless encode: blocks lie one after another in the data region. -/
def layLossless (outs : List (Option (Nat × List Byte))) : List (Option (List Byte)) × List Byte :=
  outs.foldl
    (fun acc o => match o with
      | none => (acc.1 ++ [none], acc.2)
      | some (mode, d) =>
        let e := mode * 2 ^ 53 + d.length * 2 ^ 40 + acc.2.length
        (acc.1 ++ [some (leBytes 8 e)], acc.2 ++ d))
    ([], [])

/-- Runs a whole job. -/
def runCodec (m : Block) (v : Mover) (j : CJob) : Course :=
  if !j.encode then j.runs.foldl (decodeRun v j) { m := m }
  else
    let r := j.runs.foldl (encodeRun v j) ({ m := m }, [])
    if r.1.dead || !r.1.needs.isEmpty then r.1
    else if j.lossy then
      let c1 := r.1.writePlane v (j.dst + j.start * j.elemBytes) j.elemBytes (r.2.map fun o => o.map (·.2))
      if c1.dead then c1 else c1.writePlane v (j.aux + j.start * 2) 2 (r.2.map fun o => o.map fun x => leBytes 2 x.1)
    else
      let l := layLossless r.2
      let w := r.1.m.engWrite v j.dst l.2 false
      let c1 := { r.1 with m := w.1, dead := !w.2, dlen := ceilDiv l.2.length 1024 }
      if c1.dead then c1 else c1.writePlane v (j.aux + j.start * 8) 8 l.1

/-- The common part of the four job rows: the entry at HEAD of a ring, when its OP is the row's (a reserved OP is malformed in any
row), runs; its end is CODEC_JOB_END. -/
def codecEffect (op die ring : Nat) (m : Block) : Block :=
  let idx := 32 * die + ring
  if m.eng.codecs.any fun e => e.1 == idx then m
  else m.takeEntry 2 idx 64 fun m1 x w =>
    let j : CJob := ⟨w⟩
    if j.op ≠ op ∧ j.op ≤ 3 then m
    else if m1.cjobBad j then m1.haltRing 2 idx x 64 7 63 (wordAt w 7)
    else
      let v := ringMover 2 idx x
      let c := runCodec m1 v j
      if !c.dead && !c.needs.isEmpty then m1.request v c.needs
      else
        let m2 := c.m.dropReads v
        if c.dead then m2
        else
          let e : CodecJob := { result := if c.subs = 0 then 1 else 2, dmgSub := c.subs, firstDmg := c.first.getD 0, dlen := c.dlen, encode := op == 2 }
          { m2 with eng.codecs := Tbl.put m2.eng.codecs idx e }.beat 2 idx

/-- LOSSY_ENCODE (R181). -/
def lossyEncodeEffect (die ring : Nat) (m : Block) : Block := codecEffect 0 die ring m
/-- LOSSY_DECODE (R181, R182). -/
def lossyDecodeEffect (die ring : Nat) (m : Block) : Block := codecEffect 1 die ring m
/-- LOSSLESS_ENCODE (R185). -/
def losslessEncodeEffect (die ring : Nat) (m : Block) : Block := codecEffect 2 die ring m
/-- LOSSLESS_DECODE (R184, R185). -/
def losslessDecodeEffect (die ring : Nat) (m : Block) : Block := codecEffect 3 die ring m

/-- What a job writes. -/
def CJob.outputs (j : CJob) : List (Nat × Nat) := if j.encode then [j.coded, j.auxExtent] else [j.raw]

/-- Whether a write to what a job writes on this module still waits at its home (R152). -/
def Block.outputsWait (m : Block) (j : CJob) : Bool :=
  j.outputs.any fun e => (m.remoteNode e.1).isNone && m.writeWaits (localPart e.1) e.2

/-- CODEC_JOB_END (R187, R190), once all the job wrote is at its home: RESULT and, for a lossless encode, DLEN are written, HEAD moves on,
and the hitch is signalled after them; a damaged job gives its tenant a fault record, whose KIND no rule names (a free value, log entry 3). -/
def codecJobEndEffect (die ring : Nat) (m : Block) : Block :=
  let idx := 32 * die + ring
  match m.eng.codecs.find? (fun e => e.1 == idx), m.ringOf 2 idx with
  | some (_, e), some x =>
    let a := m.entryAddr 2 idx x 64 (m.headOf 2 idx)
    let w := leWords 8 (m.readMem a 64)
    if m.ringSt 2 idx ≥ 2 ∨ !m.allAcked (Master.code (.codec idx)) ∨ m.outputsWait ⟨w⟩ then m
    else
      let w7 := putField (putField (putField (wordAt w 7) 63 62 e.result) 61 54 e.dmgSub) 47 0 e.firstDmg
      let m1 := if e.encode then
          (m.entryWrite 2 idx x 64 4 (putField (wordAt w 4) 63 48 (e.dlen % 65536))).entryWrite 2 idx x 64 5
            (putField (wordAt w 5) 63 42 (e.dlen / 65536))
        else m
      let m2 := (m1.entryWrite 2 idx x 64 7 w7).nextEntry 2 idx
      let m3 := { m2 with eng.codecs := Tbl.drop m2.eng.codecs idx }.signalAfter (bit (wordAt w 0) 39) x a 7 (field (wordAt w 5) 41 32)
        (field (wordAt w 5) 31 0)
      if e.result = 2 then
        let d := m3.draw
        (d.2.satFld (Reg.cmpRingHead die ring) 43 12 1).faultFor (d.1.toNat % 256) 2 idx x.tenant x.ctx 0 0 0 0 0 (m3.commandOf x.tenant x.ctx)
      else m3
  | _, _ => m

/-- CMP_RING_TAIL (R186, R191). -/
def cmpRingTailEffect (r : Requester) (die ring tail : Nat) (m : Block) : Block := m.writeTail r 2 (32 * die + ring) tail

/-- CMP_RING_TAIL. -/
def execCmpRingTail (r : Requester) (die ring tail : Nat) (s : State) : Host.Outcome State Fault Refusal :=
  s.commit (s.m.byHost r (cmpRingTailEffect r die ring tail))
/-- LOSSY_ENCODE. -/
def execLossyEncode (die ring : Nat) (s : State) : Host.Outcome State Fault Refusal := s.commit (lossyEncodeEffect die ring s.m)
/-- LOSSY_DECODE. -/
def execLossyDecode (die ring : Nat) (s : State) : Host.Outcome State Fault Refusal := s.commit (lossyDecodeEffect die ring s.m)
/-- LOSSLESS_ENCODE. -/
def execLosslessEncode (die ring : Nat) (s : State) : Host.Outcome State Fault Refusal := s.commit (losslessEncodeEffect die ring s.m)
/-- LOSSLESS_DECODE. -/
def execLosslessDecode (die ring : Nat) (s : State) : Host.Outcome State Fault Refusal := s.commit (losslessDecodeEffect die ring s.m)
/-- CODEC_JOB_END. -/
def execCodecJobEnd (die ring : Nat) (s : State) : Host.Outcome State Fault Refusal := s.commit (codecJobEndEffect die ring s.m)

end Sys2Proof.Machine
end

