-- ==== Sys2Proof/Machine/Drover.lean ====
section
/-! DEFINITION. The Drover (chapter 9): exchange jobs, arming, routing, claims and grants, queue completion, receipts, job end, and
combine. Claims, answers and closes travel as messages (`Engines.xout`); each arrives as a command of its own, also at this module. -/
namespace Sys2Proof.Machine

/- Jobs (R225) -/

/-- An exchange job (Table 9.1). -/
structure XD where
  w : List Word
  deriving DecidableEq, Repr

/-- OP. -/
def XD.op (d : XD) : Nat := field (wordAt d.w 0) 63 60
/-- K. -/
def XD.k (d : XD) : Nat := field (wordAt d.w 0) 59 55
/-- SIGNAL. -/
def XD.sig (d : XD) : Bool := bit (wordAt d.w 0) 54
/-- HITCH. -/
def XD.hitch (d : XD) : Nat := field (wordAt d.w 0) 41 32
/-- INC. -/
def XD.inc (d : XD) : Nat := field (wordAt d.w 0) 31 0
/-- EXPERTS. -/
def XD.experts (d : XD) : Nat := field (wordAt d.w 1) 63 48
/-- PEERS. -/
def XD.peers (d : XD) : Nat := field (wordAt d.w 1) 47 32
/-- EXCH. -/
def XD.exch (d : XD) : Nat := field (wordAt d.w 1) 31 16
/-- HOSTED. -/
def XD.hosted (d : XD) : Nat := field (wordAt d.w 1) 15 0
/-- SRC_PITCH. -/
def XD.srcPitch (d : XD) : Nat := field (wordAt d.w 4) 63 32
/-- ROW_BYTES. -/
def XD.rowBytes (d : XD) : Nat := field (wordAt d.w 4) 31 16
/-- COMB_HITCH. -/
def XD.combHitch (d : XD) : Nat := field (wordAt d.w 4) 9 0
/-- COMB_PITCH. -/
def XD.combPitch (d : XD) : Nat := field (wordAt d.w 8) 63 32
/-- TOKENS. -/
def XD.tokens (d : XD) : Nat := field (wordAt d.w 8) 23 0
/-- An address word: ROUTE_ADDR 2, SRC_ADDR 3, MAP_ADDR 5, RCPT_ADDR 6, COMB_ADDR 7, HOST_ADDR 9. -/
def XD.addr (d : XD) (i : Nat) : Nat := (wordAt d.w i).toNat

/-- A hosted list entry (Table 9.3). -/
structure HostEnt where
  qaddr    : Nat
  gentry   : Nat
  outAddr  : Nat
  outPitch : Nat
  rsv      : Nat
  deriving DecidableEq, Repr

/-- The entries of a hosted list. -/
def hostEnts (n : Nat) (bs : List Byte) : List HostEnt :=
  (List.range n).map fun i =>
    ⟨leAt bs (32 * i) 8, leAt bs (32 * i + 8) 8, leAt bs (32 * i + 16) 8, leAt bs (32 * i + 28) 4, leAt bs (32 * i + 24) 4⟩

/-- Whether a descriptor breaks reason 0x01: reserved values and bits, and fields that the OP does not use. -/
def XD.reserved (d : XD) : Bool :=
  let w := wordAt d.w
  decide (d.op > 1) || !zeroBits (w 0) 53 42 || !zeroBits (w 4) 15 10 || !zeroBits (w 8) 31 24 ||
    ((List.range 5).any fun i => w (11 + i) != 0) ||
    (d.op == 1 && (d.k != 0 || d.experts != 0 || d.peers != 0 || w 2 != 0 || w 3 != 0 || d.srcPitch != 0 || d.combHitch != 0 ||
      w 5 != 0 || w 6 != 0 || w 7 != 0 || d.combPitch != 0 || d.tokens != 0))

/-- Whether a descriptor breaks reason 0x02: the lists need only their entries' alignment (R226). -/
def XD.misaligned (d : XD) : Bool :=
  d.addr 9 % 32 != 0 || (d.op == 0 && (d.addr 5 % 8 != 0 ||
    [d.addr 2, d.addr 3, d.addr 6, d.addr 7, d.srcPitch, d.combPitch].any fun a => a % 128 != 0))

/-- Whether a descriptor breaks reason 0x03. -/
def XD.outOfRange (d : XD) (x : Context) : Bool :=
  decide (d.rowBytes < 128) || d.rowBytes % 128 != 0 || decide (d.rowBytes > 65408) || decide (d.hosted > 256) ||
    (d.sig && decide (d.hitch ≥ x.hitches)) ||
    (d.op == 0 && (d.k == 0 || decide (d.k > 16) || d.experts == 0 || decide (d.experts > 4096) || d.peers == 0 ||
      decide (d.peers > 4095) || decide (d.combHitch ≥ x.hitches)))

/-- Whether an expert map entry breaks reason 0x02 (R226). -/
def Block.mapBad (m : Block) (qaddr : Nat) : Bool :=
  let place := match m.region (localPart qaddr) with
    | .hbm => true
    | .pool => true
    | .core _ _ => true
    | _ => false
  qaddr % 128 != 0 || decide (qaddr ≥ 2 ^ 60) || !place || (match m.remoteNode qaddr with
    | some node => !entryPresent (m.reg (Reg.fabRoute node))
    | none => false)

/-- Whether a hosted list entry breaks reason 0x02 (R226); OUT_PITCH is a pitch of combine. -/
def HostEnt.misaligned (e : HostEnt) (op : Nat) : Bool :=
  e.qaddr % 128 != 0 || e.gentry % 64 != 0 || e.outAddr % 128 != 0 || (op == 1 && e.outPitch % 128 != 0)

/-- Whether a hosted header is malformed (R234). -/
def headerBad (d : XD) (x : Context) (e : HostEnt) (h : List Word) : Bool :=
  let w := wordAt h
  let cap := field (w 0) 63 48
  let rows := field (w 1) 63 32
  field (w 1) 31 16 != d.rowBytes || (e.gentry != 0 && decide (cap > 2048)) || rows % 128 != 0 ||
    decide (rows < roundUp (128 + 16 * cap) 128) || decide (field (w 0) 9 0 ≥ x.hitches) || !zeroBits (w 0) 15 10 ||
    !zeroBits (w 1) 15 0 || !zeroBits (w 2) 31 0 || (List.range 11).any fun i => w (5 + i) != 0

/-- The lowest of several reasons; 0 for none. -/
def lowest (l : List Nat) : Nat := l.foldl (fun a b => if a = 0 ∨ (b ≠ 0 ∧ b < a) then b else a) 0

/- Armed queues -/

/-- The global address of a local address of this module. -/
def ownGlobal (a : Nat) : Nat := 0xFFF * 2 ^ 48 + a

/-- The queue armed at a local address. -/
def Block.armedAt (m : Block) (a : Nat) : Option Armed := (m.eng.armed.flatMap (·.2)).find? fun (q : Armed) => q.qaddr == a
/-- Changes the queue armed at a local address. -/
def Block.modArmed (m : Block) (a : Nat) (f : Armed → Armed) : Block :=
  { m with eng.armed := m.eng.armed.map fun (e : Nat × List Armed) => (e.1, mapIf (fun (q : Armed) => q.qaddr == a) f e.2) }
/-- Disarms the queue at a local address. -/
def Block.disarm (m : Block) (a : Nat) : Block :=
  { m with eng.armed := m.eng.armed.map fun (e : Nat × List Armed) => (e.1, e.2.filter fun (q : Armed) => q.qaddr != a) }

/-- The ring that armed a queue, as a master. -/
def Armed.mover (a : Armed) : Mover := ringMover 3 a.ring { tenant := a.tenant, ctx := a.ctx }

/-- Sends a message. -/
def Block.xsend (m : Block) (x : XMsg) : Block := { m with eng.xout := m.eng.xout ++ [x] }

/-- Serves a claim at an armed queue (R228): the grant, the counts, and the answer. A claim of another row size or tenant is refused
and counted as skipped (R233). -/
def Block.serveClaim (m : Block) (a : Armed) (c : Claim) : Block :=
  let refused := c.rowBytes != a.rowBytes || c.tenant != a.tenant
  let g := if refused then 0 else min c.n (a.capacity - a.fill)
  let m1 := m.modArmed a.qaddr fun q =>
    { q with fill := q.fill + g, claimed := (q.claimed + c.n) % 2 ^ 32, routed := q.routed + c.n, skipped := q.skipped + (c.n - g)
             origins := q.origins ++ [(c.node, c.tenant, c.ctx, c.combHitch)] }
  (m1.addFld (Reg.drvRowsSkip (a.ring / 8) (a.ring % 8)) 63 0 (c.n - g)).xsend
    (.answer c (if refused then .refused else .granted) g a.fill (field (wordAt (leWords 16 a.header) 1) 63 32))

/-- Claims held for a queue that is now armed with their EXCH are served in the order of their arrival (R234). -/
def Block.serveHeld (m : Block) (qaddr exch : Nat) : Block :=
  let mine (h : HeldClaim) : Bool := localPart h.claim.qaddr == qaddr && h.claim.exch == exch
  let l := (m.eng.heldClaims.flatMap (·.2)).filter mine
  let m1 := { m with eng.heldClaims := m.eng.heldClaims.map fun (e : Nat × List HeldClaim) => (e.1, e.2.filter fun h => !mine h) }
  (l.foldl (fun acc h => (acc.filter fun (y : HeldClaim) => decide (y.since ≤ h.since)) ++ [h] ++ acc.filter fun (y : HeldClaim) => decide (y.since > h.since)) []).foldl
    (fun m h => match m.armedAt qaddr with
      | some a => m.serveClaim a h.claim
      | none => m) m1

/-- The completion of a queue (R230): header, then M_G, and its hitch once both are home. -/
def Block.finishQueue (m : Block) (a : Armed) : Block :=
  let w := leWords 16 a.header
  let w0 := putField (putField (wordAt w 0) 47 32 a.fill) 31 16 a.segments
  let w2 := putField (wordAt w 2) 63 32 a.claimed
  let w3 := BitVec.ofNat 64 ((wordAt w 3).toNat + a.routed)
  let w4 := BitVec.ofNat 64 ((wordAt w 4).toNat + a.skipped)
  let bytes := wordBytes ([w0, wordAt w 1, w2, w3, w4] ++ w.drop 5)
  let r1 := m.engWrite a.mover (ownGlobal a.qaddr) bytes false
  if !r1.2 then r1.1
  else
    let r2 := if a.gentry = 0 then r1 else r1.1.engWrite a.mover (a.gentry + 6) (leBytes 2 a.fill) false
    if r2.2 then r2.1.modArmed a.qaddr fun q => { q with complete := true, owed := true } else r2.1

/-- Signals the hitches of completed queues whose writes have all reached their homes. -/
def Block.payQueues (m : Block) : Block :=
  let home (m : Block) (a : Armed) : Bool := m.allAcked a.mover.code &&
    !m.cho.snoops.any fun s => s.write.isSome && (s.gran == a.qaddr / 128 || s.gran == localPart a.gentry / 128)
  ((m.eng.armed.flatMap (·.2)).filter fun a => a.owed && home m a).foldl
    (fun m a => (m.signal a.tenant a.ctx (field (wordAt (leWords 16 a.header) 0) 9 0) 1).modArmed a.qaddr fun q => { q with owed := false }) m

/- Dispatch (R227) -/

/-- The choices of a route table, as token, rank position and expert. -/
def routeChoices (d : XD) (bs : List Byte) : List (Nat × Nat × Nat) :=
  (List.range d.tokens).flatMap fun t => (List.range d.k).map fun c => (t, c, leAt bs (32 * t + 2 * c) 2)

/-- Arms the sound queues of a hosted list; the reasons of the others are collected. -/
def Block.armHosted (m : Block) (idx : Nat) (d : XD) (x : Context) (v : Mover) (ents : List HostEnt) : Block × List Nat × List Nat :=
  ents.foldl
    (fun r e =>
      let m := r.1
      let a := localPart e.qaddr
      if !m.onModule (e.qaddr, 128) then (m, r.2.1 ++ [6], r.2.2)
      else if (m.armedAt a).isSome || decide ((Tbl.getD [] m.eng.armed (idx / 8)).length ≥ 256) then (m, r.2.1 ++ [5], r.2.2)
      else match m.engRead v e.qaddr 128 with
        | .data m1 bs _ =>
          let h := leWords 16 bs
          if headerBad d x e h then (m1, r.2.1 ++ [6], r.2.2)
          else
            let q : Armed := { qaddr := a, exch := d.exch, peers := d.peers, tenant := x.tenant, ctx := x.ctx, ring := idx, gentry := e.gentry
                               outAddr := e.outAddr, outPitch := e.outPitch, capacity := field (wordAt h 0) 63 48, rowBytes := d.rowBytes
                               header := bs }
            ({ m1 with eng.armed := Tbl.put m1.eng.armed (idx / 8) (Tbl.getD [] m1.eng.armed (idx / 8) ++ [q]) }, r.2.1, r.2.2 ++ [a])
        | _ => (m, r.2.1, r.2.2))
    (m, [], [])

/-- Reads of hosted headers that cannot be made yet, or must not be made. -/
def Block.headerReads (m : Block) (v : Mover) (ents : List HostEnt) : List Need × Option (Nat × Nat × Nat) :=
  (ents.filter fun e => m.onModule (e.qaddr, 128)).foldl
    (fun acc e => match m.engRead v e.qaddr 128 with
      | .need l => (acc.1 ++ l, acc.2)
      | .bad k g n => (acc.1, acc.2.or (some (k, g, n)))
      | .data _ _ p => (acc.1, if p then acc.2.or (some (8, e.qaddr, 128)) else acc.2))
    ([], none)

/-- The claim of a segment. -/
def segClaim (m : Block) (x : Context) (d : XD) (s : Seg) : Claim :=
  { qaddr := s.qaddr, node := m.ownNode, tenant := x.tenant, ctx := x.ctx, exch := d.exch, rowBytes := d.rowBytes, combHitch := d.combHitch
    expert := s.expert, n := s.choices.length }

/-- A job that breaks reason 0x01 to 0x03 performs nothing (R233). -/
def Block.refuseJob (m : Block) (idx : Nat) (x : Context) (w : List Word) (reason : Nat) : Block :=
  m.haltRing 3 idx x 128 10 63 (putField (putField (wordAt w 10) 61 8 0) 7 0 reason)

/-- The lists of a job, checked (R226, R233): map addresses and hosted entries are handed on when the job is sound so far. -/
def Block.withLists (m : Block) (idx : Nat) (x : Context) (v : Mover) (d : XD) (k : Block → List Nat → List HostEnt → Block) : Block :=
  let own := (if d.reserved then [1] else []) ++ (if d.misaligned then [2] else []) ++ (if d.outOfRange x then [3] else [])
  if d.reserved then m.refuseJob idx x d.w (lowest own)
  else m.withRead v (d.addr 9) (32 * d.hosted) fun m1 hs =>
    m1.withRead v (d.addr 5) (8 * d.experts) fun m2 ms =>
      let ents := hostEnts d.hosted hs
      let map := (List.range d.experts).map fun e => leAt ms (8 * e) 8
      let reason := lowest (own ++ (if ents.any fun e => e.rsv != 0 then [1] else []) ++
        (if ents.any (fun e => e.misaligned d.op) || map.any m2.mapBad then [2] else []))
      if reason ≠ 0 then m2.refuseJob idx x d.w reason else k m2 map ents

/-- EXCHANGE_DISPATCH (R227): arming, routing, one claim to every expert. -/
def exchangeDispatchEffect (tile ring : Nat) (m : Block) : Block :=
  let idx := 8 * tile + ring
  if m.eng.xjobs.any fun e => e.1 == idx then m
  else m.takeEntry 3 idx 128 fun m1 x w =>
    let d : XD := ⟨w⟩
    let v := ringMover 3 idx x
    if d.op = 1 then m
    else m1.withLists idx x v d fun m2 map ents =>
      let h := m2.headerReads v ents
      match h.2 with
      | some (k, g, n) => m2.curb 3 idx x.tenant x.ctx k g n none
      | none =>
        if !h.1.isEmpty then m2.request v h.1
        else m2.withRead v (d.addr 2) (32 * d.tokens) fun m3 route =>
          let ch := routeChoices d route
          let bad := ch.any fun tc => decide (tc.2.2 ≥ d.experts) && tc.2.2 != 0xFFFF
          let a := m3.armHosted idx d x v ents
          let reason := lowest ((if bad then [4] else []) ++ a.2.1)
          let choices (e : Nat) : List (Nat × Nat) :=
            if reason = 0 then (ch.filter fun tc => tc.2.2 == e).map fun tc => (tc.1, tc.2.1) else []
          let segs := map.zipIdx.map fun qe =>
            ({ expert := qe.2, qaddr := qe.1, choices := choices qe.2, since := m.time, sent := m.time } : Seg)
          let job : XJob := { words := w, exch := d.exch, segs := segs, reason := reason, hosted := a.2.2 }
          let m4 := ({ a.1 with eng.xjobs := Tbl.put a.1.eng.xjobs idx job }.beat 3 idx).dropReads v
          let m5 := segs.foldl (fun m s => m.xsend (.claim (segClaim m x d s))) m4
          a.2.2.foldl (fun m q => m.serveHeld q d.exch) m5

/-- Runs `k` on the dispatch job of a ring that is neither halted nor curbed. -/
def Block.onJob (m : Block) (tile ring : Nat) (k : Nat → Context → XJob → Block) : Block :=
  let idx := 8 * tile + ring
  match m.eng.xjobs.find? (fun e => e.1 == idx), m.ringOf 3 idx with
  | some (_, j), some x => if m.ringSt 3 idx ≥ 2 then m else k idx x j
  | _, _ => m

/-- Changes one segment of a job. -/
def Block.modSeg (m : Block) (idx expert : Nat) (f : Seg → Seg) : Block :=
  { m with eng.xjobs := m.eng.xjobs.map fun (e : Nat × XJob) =>
      if e.1 = idx then (e.1, { e.2 with segs := mapIf (fun (s : Seg) => s.expert == expert) f e.2.segs }) else e }.beat 3 idx

/-- The slot record of a choice (Table 9.5). -/
def slotRecord (m : Block) (d : XD) (t c : Nat) : List Byte :=
  leBytes 8 (d.addr 7 + (t * d.k + c) * d.combPitch) ++ leBytes 8 (m.ownNode * 2 ^ 52 + c * 2 ^ 48 + t)

/-- Moves the granted rows of a segment and its slot records, then sends the close (R227). What a row's source lacks is asked for, and
the segment waits; so does one that a paused ring has not begun (R329). -/
def Block.moveRows (m : Block) (idx : Nat) (x : Context) (j : XJob) (s : Seg) : Block :=
  let d : XD := ⟨j.words⟩
  let v := ringMover 3 idx x
  let rows := (s.choices.take s.grant).zipIdx
  let src (t : Nat) : Nat := d.addr 3 + t * d.srcPitch
  let needs := rows.flatMap fun ti => m.engNeeds v (src ti.1.1) d.rowBytes
  if m.ringPaused 3 idx x.tenant x.ctx then m
  else if !needs.isEmpty then m.request v needs
  else
    let r := rows.foldl
      (fun (r : Block × Bool) ti =>
        if !r.2 then r
        else match r.1.engRead v (src ti.1.1) d.rowBytes with
          | .data m1 bs p =>
            let w1 := m1.engWrite v (s.qaddr + s.rowsOff + (s.base + ti.2) * d.rowBytes) bs p
            if w1.2 then w1.1.engWrite v (s.qaddr + 128 + 16 * (s.base + ti.2)) (slotRecord m d ti.1.1 ti.1.2) false else w1
          | .bad k g n => (r.1.curb 3 idx x.tenant x.ctx k g n (r.1.remoteNode g), false)
          | .need _ => (r.1, false))
      (m, true)
    if !r.2 then r.1
    else ((((r.1.dropReads v).addFld (Reg.drvRowsSent (idx / 8) (idx % 8)) 63 0 s.grant).modSeg idx s.expert fun y => { y with phase := 2 })).xsend
      (.close ((m.remoteNode s.qaddr).getD m.ownNode) s.qaddr d.exch)

/-- A claim refused after ARM_TMO (R234), at its origin. -/
def Block.expireSeg (m : Block) (idx expert : Nat) : Block :=
  let m1 := m.modSeg idx expert fun s => { s with phase := 3 }
  { m1 with eng.xjobs := m1.eng.xjobs.map fun (e : Nat × XJob) => if e.1 = idx then (e.1, { e.2 with timedOut := true }) else e }
    |>.satFld (Reg.drvTmo (idx / 8) (idx % 8)) 31 0 1

/-- GRANT_ARRIVAL (R227, R231, R233, R234): the answer to a claim at its origin. A segment that has its grant and still waits for source
rows goes on. -/
def grantArrivalEffect (tile ring expert : Nat) (answer : ClaimAnswer) (grant base rowsOff : Nat) (m : Block) : Block :=
  m.onJob tile ring fun idx x j =>
    match j.segs.find? fun s => s.expert == expert with
    | none => m
    | some s =>
      if s.phase = 1 then m.moveRows idx x j s
      else if s.phase ≠ 0 then m
      else match answer with
        | .full => m.modSeg idx expert fun y => { y with nacked := true }
        | .held => m.modSeg idx expert fun y => { y with nacked := false }
        | .expired => m.expireSeg idx expert
        | .granted =>
          let s1 := { s with phase := 1, grant := min grant s.choices.length, base := base, rowsOff := rowsOff, nacked := false }
          (m.modSeg idx expert fun _ => s1).moveRows idx x j s1
        | .refused =>
          let s1 := { s with phase := 1, grant := 0, refused := true, nacked := false }
          (m.modSeg idx expert fun _ => s1).moveRows idx x j s1

/-- CLAIM_ARRIVAL (R228, R234): served at a queue armed with its EXCH, held, or turned back when the host holds 1,024 claims. -/
def claimArrivalEffect (tile : Nat) (c : Claim) (m : Block) : Block :=
  let hold : Block :=
    let l := Tbl.getD [] m.eng.heldClaims tile
    if l.length < 1024 then
      { m with eng.heldClaims := Tbl.put m.eng.heldClaims tile (l ++ [({ claim := c, since := m.time } : HeldClaim)]) }.xsend (.answer c .held 0 0 0)
    else m.xsend (.answer c .full 0 0 0)
  match m.armedAt (localPart c.qaddr) with
  | some a => if a.exch = c.exch ∧ !a.complete then m.serveClaim a c else hold
  | none => hold

/-- SEGMENT_CLOSE_ARRIVAL (R230): at PEERS the queue completes. A close for a queue that is not armed is discarded. -/
def segmentCloseArrivalEffect (_tile qaddr exch : Nat) (m : Block) : Block :=
  match m.armedAt (localPart qaddr) with
  | none => m
  | some a =>
    if a.exch ≠ exch ∨ a.complete then m
    else
      let a1 := { a with segments := a.segments + 1 }
      let m1 := m.modArmed a.qaddr fun _ => a1
      if a1.segments = a1.peers then (m1.finishQueue a1).payQueues else m1

/-- The claims of a tile's jobs that are being sent again and have outlived the origin's ARM_TMO are refused (R234). -/
def Block.expireResends (m : Block) (tile : Nat) : Block :=
  (m.eng.xjobs.filter fun (e : Nat × XJob) => e.1 / 8 == tile).foldl
    (fun m e => (e.2.segs.filter fun (s : Seg) => s.phase == 0 && s.nacked && decide (m.time ≥ s.since + m.fld (Reg.drvCfg tile) 39 0)).foldl
      (fun m s => m.expireSeg e.1 s.expert) m) m

/-- CLAIM_ARM_TIMEOUT (R234): a held claim whose host's ARM_TMO has expired is refused, and its origin's job is told, at once when it is
of this module. Without a held claim at the place named, the resent claims of the tile's own jobs are tried. -/
def claimArmTimeoutEffect (tile idx : Nat) (m : Block) : Block :=
  let l := Tbl.getD [] m.eng.heldClaims tile
  match l[idx]? with
  | none => m.expireResends tile
  | some h =>
    if m.time < h.since + m.fld (Reg.drvCfg tile) 39 0 then m
    else
      let m1 := { m with eng.heldClaims := Tbl.put m.eng.heldClaims tile (removeAt l idx) }
      let own := m1.eng.xjobs.find? fun (e : Nat × XJob) => h.claim.node == m1.ownNode && e.2.exch == h.claim.exch &&
        ((m1.ringOf 3 e.1).any fun x => x.tenant == h.claim.tenant && x.ctx == h.claim.ctx) &&
        e.2.segs.any fun (s : Seg) => s.phase == 0 && s.expert == h.claim.expert && s.qaddr == h.claim.qaddr
      match own with
      | some e => m1.expireSeg e.1 h.claim.expert
      | none => m1.xsend (.answer h.claim .expired 0 0 0)

/-- CLAIM_RESEND (R234): a claim that a full host turned back is sent again every 200 µs. -/
def claimResendEffect (tile ring expert : Nat) (m : Block) : Block :=
  m.onJob tile ring fun idx x j =>
    match j.segs.find? fun s => s.expert == expert with
    | none => m
    | some s =>
      if s.phase ≠ 0 ∨ !s.nacked ∨ m.time < s.sent + 5000 then m
      else if m.time ≥ s.since + m.fld (Reg.drvCfg tile) 39 0 then m.expireSeg idx expert
      else (m.modSeg idx expert fun y => { y with sent := m.time }).xsend (.claim (segClaim m x ⟨j.words⟩ s))

/-- The receipt of a choice (R231). -/
def XJob.receipt (j : XJob) (t c : Nat) : Nat :=
  if j.reason ≠ 0 then 3 * 2 ^ 30
  else match j.segs.find? fun s => s.choices.contains (t, c) with
    | none => 0
    | some s =>
      let i := s.choices.idxOf (t, c)
      if s.refused || s.phase == 3 then 3 * 2 ^ 30
      else if i < s.grant then 2 ^ 30 + (s.base + i) % 2 ^ 16
      else 2 * 2 ^ 30

/-- The end of an exchange job: RESULT and REASON, then the hitch; RESULT 3 halts the ring, and a refusal of any kind ends the command
with the descriptor-error status (R232, R233, R240). -/
def Block.endExchange (m : Block) (idx : Nat) (x : Context) (d : XD) (result reason : Nat) (refused : Bool) : Block :=
  let m1 := m.entryWrite 3 idx x 128 10 (BitVec.ofNat 64 (result * 2 ^ 62 + reason))
  let m2 := if result = 3 then m1.setFld (ringHead 3 idx) 63 60 2 else m1.nextEntry 3 idx
  let m3 := { m2 with eng.xjobs := Tbl.drop m2.eng.xjobs idx }.signalAfter d.sig x (m.entryAddr 3 idx x 128 (m.headOf 3 idx)) 10 d.hitch d.inc
  if result = 1 ∧ !refused then m3
  else match m3.commandOf x.tenant x.ctx with
    | some q => m3.endTask q 4 0
    | none => m3

/-- DISPATCH_JOB_END (R232, R234): every segment closed or refused, and, unless a claim was refused after ARM_TMO, every hosted queue
completed; the receipts are written first. -/
def dispatchJobEndEffect (tile ring : Nat) (m : Block) : Block :=
  let m := m.payQueues
  m.onJob tile ring fun idx x j =>
    let d : XD := ⟨j.words⟩
    let done (q : Nat) : Bool := (m.armedAt q).all fun a => a.complete && !a.owed
    match j.segs.find? fun s => s.phase == 1 with
    | some s => m.moveRows idx x j s
    | none =>
      if j.segs.any (fun s => s.phase == 0) || (!j.timedOut && !j.hosted.all done) || !m.allAcked (ringMover 3 idx x).code then m
      else
        let bytes := (List.range d.tokens).flatMap fun t => (List.range d.k).flatMap fun c => leBytes 4 (j.receipt t c)
        let w := m.engWrite (ringMover 3 idx x) (d.addr 6) bytes false
        if !w.2 then w.1
        else
          let result := if j.reason ≠ 0 then 3 else if j.timedOut then 2 else 1
          let m1 := if result = 2 then
              j.hosted.foldl (fun m q => if (m.armedAt q).any (fun a => !a.complete) then m.disarm q else m) w.1
            else w.1
          m1.endExchange idx x d result (if j.reason ≠ 0 then j.reason else if j.timedOut then 7 else 0) (j.segs.any (·.refused))

/- Combine (R236) -/

/-- Writes the output rows of a completed queue to their RETURN addresses. The flag falls when an access fails. -/
def Block.combineRows (m : Block) (idx : Nat) (x : Context) (d : XD) (e : HostEnt) (a : Armed) : Block × Bool :=
  let v := ringMover 3 idx x
  (List.range a.fill).foldl
    (fun (r : Block × Bool) s =>
      if !r.2 then r
      else match r.1.engRead v (ownGlobal (a.qaddr + 128 + 16 * s)) 16 with
        | .data m1 rec _ => match m1.engRead v (e.outAddr + s * e.outPitch) d.rowBytes with
          | .data m2 bs p => m2.engWrite v (leAt rec 0 8) bs p
          | .bad k g n => (m1.curb 3 idx x.tenant x.ctx k g n (m1.remoteNode g), false)
          | .need _ => (m1, false)
        | .bad k g n => (r.1.curb 3 idx x.tenant x.ctx k g n none, false)
        | .need _ => (r.1, false))
    (m, true)

/-- Where a queue's output rows go on this module. -/
def Block.returnSpans (m : Block) (d : XD) (a : Armed) : List (Nat × Nat) :=
  ((List.range a.fill).map fun s => (leNat (m.readMem (a.qaddr + 128 + 16 * s) 8), d.rowBytes)).filter m.onModule |>.map
    fun x => (localPart x.1, x.2)

/-- The closes of a queue: COMB_HITCH of every origin rises by 1, after the rows written there are home (R150, R236). -/
def Block.closeOrigins (m : Block) (v : Mover) (d : XD) (a : Armed) : Block :=
  let spans := m.returnSpans d a
  a.origins.foldl
    (fun m o =>
      if o.1 = m.ownNode then m.following spans (.signal o.2.1 o.2.2.1 o.2.2.2 1)
      else m.sendBurst { kind := 2, srcNode := 0, dstNode := o.1, tenant := o.2.1, ctx := o.2.2.1, master := v.code, seq := 0, tag := 0
                         addr := 0, data := [], mask := [], poison := false, hitch := o.2.2.2, inc := 1 }) m

/-- Why a combine job cannot run: a hosted entry names another node (R226), or a queue that has not completed (Table 9.6); 0 for none. -/
def Block.combineReason (m : Block) (work : List (HostEnt × Option Armed)) : Nat :=
  lowest (work.map fun ea => if !m.onModule (ea.1.qaddr, 128) then 6 else if ea.2.isNone then 8 else 0)

/-- EXCHANGE_COMBINE (R236). A queue whose hitch is still to be signalled keeps the job waiting, and the row acts again (R230). -/
def exchangeCombineEffect (tile ring : Nat) (m0 : Block) : Block :=
  let m := m0.payQueues
  let idx := 8 * tile + ring
  if m.eng.xjobs.any fun e => e.1 == idx then m
  else m.takeEntry 3 idx 128 fun m1 x w =>
    let d : XD := ⟨w⟩
    let v := ringMover 3 idx x
    if d.op = 0 then m
    else m1.withLists idx x v d fun m2 _ ents =>
      let work := ents.map fun e => (e, if m2.onModule (e.qaddr, 128) then
        (m2.armedAt (localPart e.qaddr)).filter fun a => a.complete && a.exch == d.exch && a.tenant == x.tenant else none)
      let reason := m2.combineReason work
      if reason ≠ 0 then m2.endExchange idx x d 3 reason false
      else if work.any fun ea => ea.2.any (·.owed) then m
      else
        let jobs := work.filterMap fun ea => ea.2.map fun a => (ea.1, a)
        let needs := jobs.flatMap fun ea => (List.range ea.2.fill).flatMap fun s =>
          m2.engNeeds v (ownGlobal (ea.2.qaddr + 128 + 16 * s)) 16 ++ m2.engNeeds v (ea.1.outAddr + s * ea.1.outPitch) d.rowBytes
        if !needs.isEmpty then m2.request v needs
        else
          let r := jobs.foldl (fun (r : Block × Bool) ea => if r.2 then r.1.combineRows idx x d ea.1 ea.2 else r) (m2, true)
          if !r.2 then r.1
          else
            let m3 := (r.1.dropReads v).addFld (Reg.drvRowsSent tile ring) 63 0 (total (jobs.map fun ea => ea.2.fill))
            let m4 := jobs.foldl (fun m ea => (m.closeOrigins v d ea.2).disarm ea.2.qaddr) m3
            m4.endExchange idx x d 1 0 false

/-- A queue that the interrupted run had completed: its header has the totals it was armed with again (R235). -/
def Block.uncount (m : Block) (a : Armed) : Block := if a.complete then m.homeWrite (a.qaddr + 24) (slice a.header 24 16) else m

/-- A restarted exchange (R235): the context's queues are disarmed, their totals not counted, and its jobs forgotten, so that each job runs
again from its beginning. -/
def Block.restartExchange (m0 : Block) (t c : Nat) : Block :=
  let m := ((m0.eng.armed.flatMap (·.2)).filter fun (a : Armed) => a.tenant == t && a.ctx == c).foldl Block.uncount m0
  let m1 := { m with eng.armed := m.eng.armed.map fun (e : Nat × List Armed) => (e.1, e.2.filter fun (a : Armed) => !(a.tenant == t && a.ctx == c)) }
  { m1 with eng.xjobs := m1.eng.xjobs.filter fun (e : Nat × XJob) => !((m1.ringOf 3 e.1).any fun x => x.tenant == t && x.ctx == c) }

/-- DRV_RING_TAIL (R224, R240). -/
def drvRingTailEffect (r : Requester) (tile ring tail : Nat) (m : Block) : Block := m.writeTail r 3 (8 * tile + ring) tail

/-- DRV_CLR (R240): by firmware or the tenant that owns the ring. -/
def drvClrEffect (r : Requester) (tile ring : Nat) (m : Block) : Block :=
  if tile < m.tileCount ∧ ring < 8 ∧ (isFw r || m.owns r (Reg.drvRingOwner tile ring)) then m.clearDrover tile ring else m

/-- DRV_RING_TAIL. -/
def execDrvRingTail (r : Requester) (tile ring tail : Nat) (s : State) : Host.Outcome State Fault Refusal :=
  s.commit (s.m.byHost r (drvRingTailEffect r tile ring tail))
/-- DRV_CLR. -/
def execDrvClr (r : Requester) (tile ring : Nat) (s : State) : Host.Outcome State Fault Refusal := s.commit (s.m.byHost r (drvClrEffect r tile ring))
/-- EXCHANGE_DISPATCH. -/
def execExchangeDispatch (tile ring : Nat) (s : State) : Host.Outcome State Fault Refusal := s.commit (exchangeDispatchEffect tile ring s.m)
/-- EXCHANGE_COMBINE. -/
def execExchangeCombine (tile ring : Nat) (s : State) : Host.Outcome State Fault Refusal := s.commit (exchangeCombineEffect tile ring s.m)
/-- CLAIM_ARRIVAL. -/
def execClaimArrival (tile : Nat) (c : Claim) (s : State) : Host.Outcome State Fault Refusal := s.commit (claimArrivalEffect tile c s.m)
/-- GRANT_ARRIVAL. -/
def execGrantArrival (tile ring expert : Nat) (answer : ClaimAnswer) (grant base rowsOff : Nat) (s : State) :
    Host.Outcome State Fault Refusal := s.commit (grantArrivalEffect tile ring expert answer grant base rowsOff s.m)
/-- SEGMENT_CLOSE_ARRIVAL. -/
def execSegmentCloseArrival (tile qaddr exch : Nat) (s : State) : Host.Outcome State Fault Refusal :=
  s.commit (segmentCloseArrivalEffect tile qaddr exch s.m)
/-- CLAIM_ARM_TIMEOUT. -/
def execClaimArmTimeout (tile idx : Nat) (s : State) : Host.Outcome State Fault Refusal := s.commit (claimArmTimeoutEffect tile idx s.m)
/-- CLAIM_RESEND. -/
def execClaimResend (tile ring expert : Nat) (s : State) : Host.Outcome State Fault Refusal := s.commit (claimResendEffect tile ring expert s.m)
/-- DISPATCH_JOB_END. -/
def execDispatchJobEnd (tile ring : Nat) (s : State) : Host.Outcome State Fault Refusal := s.commit (dispatchJobEndEffect tile ring s.m)

end Sys2Proof.Machine
end

