-- ==== Sys2Proof/Machine/Fabric.lean ====
section
/-! DEFINITION. The Evotrix fabric (chapter 14): lanes and ports (R339 to R341), node ID and routing (R346 to R350), transactions in
both directions (R351 to R354). Arriving transactions name the port they arrive on; a port that carries no traffic delivers none. -/
namespace Sys2Proof.Machine

/-- Who may write the FAB_ block (R362). -/
def mayFab (r : Requester) : Bool := isFw r || isSysHost r || r == .peer

/- Paths and resends -/

/-- Whether a destination has a usable path (R349). -/
def Block.nodeUsable (m : Block) (node : Nat) : Bool :=
  (List.range 4).any fun i => decide (m.pathWeight (m.reg (Reg.fabRoute node)) i > 0)

/-- Whether what was given to a port is to be given to another: it has none, or its port carries no traffic. -/
def Block.stranded (m : Block) (port : Option Nat) : Bool := port.all fun p => !m.portUsable p

/-- Sends a kept burst on a usable path, or holds it; a resend is counted on the port that carries it (R352). -/
def Block.route (m : Block) (node : Nat) (u : TxBurst) : TxBurst × Block :=
  let pk := m.pickPort node
  match pk.1 with
  | none => ({ u with port := none }, m.noteUnreach node)
  | some p =>
    let m1 := { pk.2 with fab.fabOut := pk.2.fab.fabOut ++ [u.burst] }
    ({ u with port := some p, sentAt := m.time, sent := true }, if u.sent then m1.satFld (Reg.fabPortErr p) 15 0 1 else m1)

/-- Sends again those bursts of a pair that a test selects. -/
def Block.routePair (m : Block) (p : TxPair) (which : Block → TxBurst → Bool) : Block :=
  let r := p.unacked.foldl
    (fun (r : List TxBurst × Block) u =>
      if which r.2 u then let x := r.2.route p.node u; (r.1 ++ [x.1], x.2) else (r.1 ++ [u], r.2)) ([], m)
  r.2.setTxPair { p with unacked := r.1 }

/-- The request burst of a remote read. -/
def readBurst (m : Block) (r : RemoteRead) : Burst :=
  { kind := 3, srcNode := m.ownNode, dstNode := r.node, tenant := r.tenant, ctx := r.ctx, master := r.master, seq := 0, tag := r.tag
    addr := r.addr, data := [], mask := [], poison := false, hitch := 0, inc := 0 }

/-- Repeats the unanswered reads whose port carries no traffic. -/
def Block.routeReads (m : Block) : Block :=
  let r := m.fab.reads.foldl
    (fun (r : List RemoteRead × Block) x =>
      if x.data.isSome || !r.2.stranded x.port then (r.1 ++ [x], r.2)
      else
        let pk := r.2.pickPort x.node
        match pk.1 with
        | none => (r.1 ++ [{ x with port := none }], r.2.noteUnreach x.node)
        | some p => (r.1 ++ [{ x with port := some p }], { pk.2 with fab.fabOut := pk.2.fab.fabOut ++ [readBurst m x] })) ([], m)
  { r.2 with fab.reads := r.1 }

/-- Sends again the collective segments that a test selects. -/
def Block.routeColl (m : Block) (which : Block → CollOut → Bool) : Block :=
  let r := m.eng.collOut.foldl
    (fun (r : List CollOut × Block) x =>
      if !which r.2 x then (r.1 ++ [x], r.2)
      else
        let pk := r.2.pickPort x.node
        match pk.1 with
        | none => (r.1 ++ [{ x with port := none }], r.2.noteUnreach x.node)
        | some p => (r.1 ++ [{ x with port := some p, sentAt := m.time }], pk.2)) ([], m)
  { r.2 with eng.collOut := r.1 }

/-- When each node's hold for want of a path last ended (R448). -/
def Block.pathsBack (m : Block) : Tbl Nat :=
  (m.fab.unreach.filter fun e => m.nodeUsable e.1).foldl (fun t e => Tbl.put t e.1 m.time) m.fab.pathAt

/-- After a change of ports or routes: a destination that has a usable path again is neither waited for nor lost, and what has lost its
port goes on another (R349, R350, R352). -/
def Block.reroute (m : Block) : Block :=
  let m1 := { m with
    fab.unreach := m.fab.unreach.filter fun e => !m.nodeUsable e.1
    fab.pathAt := m.pathsBack
    fab.lostNodes := m.fab.lostNodes.filter fun n => !m.nodeUsable n }
  let m2 := m1.fab.tx.foldl (fun m p => m.routePair p fun m u => m.stranded u.port) m1
  m2.routeReads.routeColl fun m x => m.stranded x.port

/-- BURST_RESEND_TIMEOUT (R352): no acknowledgement within 200 µs, 5,000 ticks. -/
def burstResendTimeoutEffect (master node seq : Nat) (m : Block) : Block :=
  let due (t : Nat) : Bool := decide (t + 5000 ≤ m.time)
  let m1 := m.routePair (m.txPair master node) fun _ u => u.burst.seq == seq && u.port.isSome && due u.sentAt
  m1.routeColl fun _ x => Master.code (.coll x.die) == master && x.node == node && x.id == seq && x.port.isSome && due x.sentAt

/-- NODE_LOST (R350): the hold has run out without a usable path. Held writes are dropped, held reads return poison, and the commands
they belong to have met a lost node (R465). -/
def nodeLostEffect (node : Nat) (m : Block) : Block :=
  match m.fab.unreach.find? fun e => e.1 == node with
  | none => m
  | some e =>
    if m.nodeUsable node ∨ m.time < e.2 + m.fld Reg.fabUnreach 39 0 then m
    else
      let bursts := (m.fab.tx.filter fun p => p.node == node).flatMap fun p => p.unacked.map (·.burst)
      let outs := m.eng.collOut.filter fun x => x.node == node
      let met := (bursts.map fun b => (b.tenant, b.ctx)) ++
        ((m.fab.reads.filter fun r => r.node == node && r.data.isNone).map fun r => (r.tenant, r.ctx)) ++
        (m.eng.colls.filter fun c => outs.any fun x => x.die == c.die && x.tenant == c.q.tenant && x.ctx == c.q.ctx && x.collId == field (wordAt c.words 1) 63 32).map fun c =>
          (c.q.tenant, c.q.ctx)
      let fail (r : RemoteRead) : RemoteRead :=
        if r.node == node && r.data.isNone then { r with data := some (List.replicate r.bytes 0, true) } else r
      let m1 := met.foldl (fun m tc => m.markPeerLost tc.1 tc.2) m
      let m2 := { m1 with
        fab.tx := m1.fab.tx.map fun (p : TxPair) => if p.node == node then { p with unacked := [] } else p
        fab.reads := m1.fab.reads.map fail
        eng.collOut := m1.eng.collOut.filter fun (x : CollOut) => x.node != node
        fab.unreach := Tbl.drop m1.fab.unreach node
        fab.lostNodes := insertNat m1.fab.lostNodes node
        fab.lostDrops := m1.fab.lostDrops + bursts.length }
      ((m2.setReg Reg.fabLost (putField (putBit (m2.reg Reg.fabLost) 63 true) 11 0 node)).satFld Reg.fabLost 43 12 1).payQueues.trace 5 4

/- Ports and lanes -/

/-- Fabric port `p`. -/
def Block.fport (m : Block) (p : Nat) : FabPort := Tbl.getD {} m.fab.fabPorts p
/-- Replaces fabric port `p`. -/
def Block.setFport (m : Block) (p : Nat) (x : FabPort) : Block := { m with fab.fabPorts := Tbl.put m.fab.fabPorts p x }

/-- STATE of a port. -/
def Block.portSt (m : Block) (p : Nat) : Nat := m.fld (Reg.fabPortStatus p) 63 60

/-- The width that a number of working lanes gives (R340). -/
def laneWidth (n : Nat) : Nat := if n ≥ 8 then 8 else if n ≥ 6 then n else if n ≥ 4 then 4 else 0

/-- Lanes of a port that have not failed. -/
def Block.goodLanes (m : Block) (p : Nat) : List Nat :=
  (List.range (8 + m.spareLanes)).filter fun l => !(m.fld (Reg.fabPortStatus p) 53 44).testBit l

/-- Good lanes of a port that no traffic uses: its spares. -/
def Block.idleLanes (m : Block) (p : Nat) : List Nat := (m.goodLanes p).filter fun l => !(m.fport p).inUse.contains l

/-- Shows the width and the spares of a port that carries frames; fewer than four working lanes drop it. -/
def Block.showLanes (m : Block) (p : Nat) : Block :=
  let n := (m.fport p).inUse.length
  let spares := (m.idleLanes p).length + (if n = 5 then 1 else 0)
  let m1 := (m.setFld (Reg.fabPortStatus p) 59 56 (laneWidth n)).setFld (Reg.fabPortStatus p) 55 54 spares
  if n < 4 then m1.setFld (Reg.fabPortStatus p) 63 60 4 else m1

/-- A port that carries frames steps to another width, or onto a spare: it shows its lanes and raises a port event (R340). -/
def Block.stepLanes (m : Block) (p : Nat) : Block := (m.showLanes p).portEvent

/-- Starts training of a spare when a failed lane waits for one. -/
def Block.trainSpare (m : Block) (p : Nat) : Block :=
  let x := m.fport p
  if x.training.isSome ∨ x.toFix.isEmpty then m else m.setFport p { x with training := (m.idleLanes p).head? }

/-- Records a replaced lane in the wear ledger (R340, Table 19.11 row 4). -/
def Block.laneWear (m : Block) (p old new : Nat) : Block := m.addWear 2 4 p old new (m.fld (Reg.fabPortErr p) 63 32)

/-- A lane of a port in frames stops working (R340). -/
def Block.loseLane (m : Block) (p lane : Nat) : Block :=
  let x := m.fport p
  let m1 := m.setFld (Reg.fabPortStatus p) 53 44 (m.fld (Reg.fabPortStatus p) 53 44 ||| 2 ^ lane)
  let fifth := x.inUse.getD 4 0
  let m2 := if x.inUse.length = 5 ∧ x.inUse.contains lane ∧ lane ≠ fifth then m1.laneWear p lane fifth else m1
  let spare := (m2.idleLanes p).any fun l => !x.inUse.contains l
  let m3 := m2.setFport p { x with
    inUse := x.inUse.filter (· != lane)
    toFix := if x.inUse.contains lane && spare && x.inUse.length != 5 then x.toFix ++ [lane] else x.toFix
    training := if x.training = some lane then none else x.training }
  ((m3.trainSpare p).stepLanes p).reroute

/-- Whether a port carries frames. -/
def Block.inFrames (m : Block) (p : Nat) : Bool := m.portSt p == 2 || m.portSt p == 3

/-- Whether a cause makes a lane fail (R339): corrected symbols do above FAB_LANE_SER.MAX. -/
def Block.laneFails (m : Block) : LaneCause → Bool
  | .symbols n => decide (m.fld Reg.fabLaneSer 31 0 < n)
  | .lock => true
  | .told => true

/-- This end declares a lane failing: its next frames tell the other end (Table 14.3), and the lane stops working. -/
def Block.declareLane (m : Block) (p lane : Nat) : Block :=
  { m with fab.laneTold := m.fab.laneTold ++ [(p, lane)] }.loseLane p lane

/-- LANE_FAILING (R339, R340). -/
def laneFailingEffect (port : Nat) (report : LaneReport) (m : Block) : Block :=
  if !(m.inFrames port && (m.goodLanes port).contains report.lane && m.laneFails report.cause) then m
  else if report.cause = .told then m.loseLane port report.lane
  else m.declareLane port report.lane

/-- SPARE_LANE_TRAINED (Table 14.3 step 4): the port takes the spare into use. -/
def spareLaneTrainedEffect (port : Nat) (m : Block) : Block :=
  let x := m.fport port
  match x.training with
  | none => m
  | some l =>
    if m.portSt port ≠ 2 ∧ m.portSt port ≠ 3 then m
    else
      let m1 := m.setFport port { x with inUse := x.inUse ++ [l], training := none, toFix := x.toFix.drop 1 }
      ((m1.laneWear port (x.toFix.headD 0) l).trainSpare port).stepLanes port

/-- A port leaves its state: it carries nothing until it has trained again. -/
def Block.portOff (m : Block) (p st : Nat) : Block :=
  let m1 := (m.setFld (Reg.fabPortStatus p) 59 54 0).setFld (Reg.fabPortStatus p) 63 60 st
  (m1.setFport p { m1.fport p with inUse := [], training := none, toFix := [], replays := 0 }).reroute

/-- Retrains a port (R340): it is out of every path, and all its lanes are tested again. A port without a cable stays down. -/
def Block.retrainPort (m : Block) (p : Nat) : Block :=
  (m.setFld (Reg.fabPortStatus p) 53 44 0).portOff p (if (m.fport p).cable then 1 else 0)

/-- FAB_PORT_RETRAIN: a write of FAB_PORT_CTL.RETRAIN. A port held down stays down. -/
def fabPortRetrainEffect (r : Requester) (port : Nat) (m : Block) : Block :=
  if !mayFab r ∨ port ≥ m.portCount ∨ m.portSt port = 5 then m else m.retrainPort port

/-- FAB_PORT_TRAINED (R341): the neighbour is recorded; the port carries traffic when it is the one accepted last. `failed`: the
lanes that failed their test. -/
def fabPortTrainedEffect (port : Nat) (nbr : Neighbour) (failed : Nat) (m : Block) : Block :=
  if m.portSt port ≠ 1 then m
  else
    let m1 := m.setFld (Reg.fabPortStatus port) 53 44 (failed % 2 ^ (8 + m.spareLanes))
    let good := (m1.goodLanes port).take 8
    let use := if laneWidth good.length = 0 then [] else good
    let nbrWord := putField (putField (putField (putField 0 63 52 nbr.node) 51 46 nbr.port) 45 42 nbr.bpos) 31 0 nbr.serial
    let m2 := (m1.setReg (Reg.fabPortNbr port) nbrWord).setFport port { m1.fport port with now := some nbr, inUse := use }
    let st := if (m2.fport port).acked = some nbr then 2 else 3
    ((m2.setFld (Reg.fabPortStatus port) 63 60 st).showLanes port).reroute

/-- ACK_NBR: a write of FAB_PORT_CTL.ACK_NBR accepts the present neighbour (R341). -/
def ackNbrEffect (r : Requester) (port : Nat) (m : Block) : Block :=
  if !mayFab r ∨ (m.portSt port ≠ 2 ∧ m.portSt port ≠ 3) then m
  else
    ((m.setFport port { m.fport port with acked := (m.fport port).now }).setFld (Reg.fabPortStatus port) 63 60 2).reroute

/-- FAB_PORT_DISABLE: a write of FAB_PORT_CTL.DISABLE holds the port down, or releases it to train. -/
def fabPortDisableEffect (r : Requester) (port : Nat) (disable : Bool) (m : Block) : Block :=
  if !mayFab r ∨ port ≥ m.portCount then m
  else
    let m1 := m.setFld (Reg.fabPortCtl port) 0 0 (if disable then 1 else 0)
    if disable then m1.portOff port 5 else if m.portSt port = 5 then m1.retrainPort port else m1

/-- The ports of a connector (R18). -/
def Block.connectorPorts (m : Block) (c : Nat) : List Nat := ((List.range 4).map (4 * c + ·)).filter (· < m.portCount)

/-- CABLE_UNPLUG (R505): every lane of the connector's ports is lost and the ports are dropped. -/
def cableUnplugEffect (connector : Nat) (m : Block) : Block :=
  (m.connectorPorts connector).foldl
    (fun m p =>
      let m1 := m.setFport p { m.fport p with cable := false }
      if m.portSt p = 5 then m1
      else
        let m2 := (m1.portOff p 4).setFld (Reg.fabPortStatus p) 53 44 (2 ^ (8 + m.spareLanes) - 1)
        if m.inFrames p then m2.portEvent else m2) m

/-- CABLE_PLUG (R505): the connector's ports retrain. -/
def cablePlugEffect (connector : Nat) (m : Block) : Block :=
  (m.connectorPorts connector).foldl
    (fun m p =>
      let m1 := m.setFport p { m.fport p with cable := true }
      if m.portSt p = 5 then m1 else m1.retrainPort p) m

/-- The working lane of a port with the most corrected symbols in a frame; of equals the first in use (log entry 112). -/
def Block.worstLane (m : Block) (p : Nat) (symbols : List Nat) : Nat :=
  let n (l : Nat) : Nat := symbols.getD l 0
  (m.fport p).inUse.foldl (fun a l => if n a < n l then l else a) ((m.fport p).inUse.headD 0)

/-- FRAME_REPLAY (R339): a lost frame is counted, with the codewords corrected on the port since it last was; the third replay in a row that
is lost too makes the lane with the most corrected symbols in it fail. -/
def frameReplayEffect (f : LostFrame) (m : Block) : Block :=
  if !m.inFrames f.port then m
  else
    let m1 := (m.satFld (Reg.fabPortErr f.port) 31 16 1).satFld (Reg.fabPortErr f.port) 63 32 f.codewords
    let x := m1.fport f.port
    let n := if f.again then x.replays + 1 else 0
    if n < 3 then m1.setFport f.port { x with replays := n }
    else (m1.setFport f.port { x with replays := 0 }).declareLane f.port (m1.worstLane f.port f.symbols)

/- Node ID and routing -/

/-- NODE_ASSIGN (R346): the first write that sets VALID takes effect until the next module cold reset. -/
def nodeAssignEffect (r : Requester) (node : Nat) (m : Block) : Block :=
  if !mayFab r ∨ m.fld Reg.fabNode 63 63 = 1 ∨ node ≥ 0xFFF then m else m.setReg Reg.fabNode (putBit (BitVec.ofNat 64 node) 63 true)

/-- Whether a present path of an entry breaks R348. -/
def Block.pathBad (m : Block) (e : Word) (i : Nat) : Bool :=
  let f (hi lo : Nat) : Nat := field e (16 * i + hi) (16 * i + lo)
  let span := 2 ^ f 9 8
  f 7 4 != 0 && (f 9 8 == 3 || f 15 10 % span != 0 || decide (f 15 10 + span > m.portCount) || f 3 0 == 0)

/-- ROUTING_ENTRY_WRITE (R348). -/
def routingEntryWriteEffect (r : Requester) (node : Nat) (entry : Word) (m : Block) : Block :=
  if !mayFab r ∨ node ≥ 0xFFF then m
  else if (List.range 4).any (m.pathBad entry) then m.setReg Reg.fabRtErr (putBit (BitVec.ofNat 64 node) 63 true)
  else (m.setReg (Reg.fabRoute node) entry).reroute

/- Transactions -/

/-- The header of a transaction of `granules` granules (Table 14.7). -/
def Burst.header (b : Burst) (granules : Nat) : List Word :=
  let signal := b.kind == 1 || b.kind == 2
  [putField (putField (putField (putField (putField (putField (putField (putField 0 63 60 b.kind) 59 48 b.srcNode) 47 36 b.dstNode) 35 31 b.tenant)
     30 23 b.ctx) 22 11 b.master) 10 6 (granules - 1)) 5 5 (if b.mask.isEmpty then 0 else 1),
   putField (putField 0 63 32 b.seq) 31 0 b.tag,
   putField 0 47 0 b.addr,
   if signal then putField (putField 0 41 32 b.hitch) 31 0 b.inc else 0]

/-- The answer to a burst: an acknowledgement, or a negative one that names the fault kind in TAG (0: no room). -/
def answerBurst (m : Block) (b : Burst) (kind tag : Nat) : Burst :=
  { kind := kind, srcNode := m.ownNode, dstNode := b.srcNode, tenant := b.tenant, ctx := b.ctx, master := b.master, seq := b.seq
    tag := tag, addr := b.addr, data := [], mask := [], poison := false, hitch := 0, inc := 0 }

/-- Sends an answer. -/
def Block.reply (m : Block) (b : Burst) : Block := { m with fab.fabOut := m.fab.fabOut ++ [b] }

/-- Whether a context ID is revoked (R309). -/
def Block.revoked (m : Block) (t c : Nat) : Bool := m.cmd.contexts.any fun x => x.tenant == t && x.ctx == c && x.revoked

/-- The check of an arriving access (R353 step 3, R118, R305): the fault kind, or none. -/
def Block.arrivalCheck (m : Block) (t c a n : Nat) (write : Bool) : Option Nat :=
  match m.region a, m.region (a + (n - 1)) with
  | .hbm, .hbm => if m.rangeOk t a n write true then (if write && m.tagged a n then some 5 else none) else some 2
  | .pool, .pool => if m.rangeOk t a n write true then (if write && m.tagged a n then some 5 else none) else some 2
  | .core k w, .core _ _ => if m.windowOk k w n t (some c) then none else some 1
  | .reg _, _ => some 4
  | _, _ => some 3

/-- The receiving side of a pair. -/
def Block.rxPair (m : Block) (master node : Nat) : RxPair :=
  (m.fab.rx.find? fun p => p.master == master && p.node == node).getD { master := master, node := node }
/-- Replaces the receiving side of a pair. -/
def Block.setRxPair (m : Block) (p : RxPair) : Block :=
  { m with fab.rx := (m.fab.rx.filter fun x => !(x.master == p.master && x.node == p.node)) ++ [p] }

/-- Applies a burst that is next in order and has no host copies under it (R353, R354), and answers it. -/
def Block.applyBurst (m : Block) (b : Burst) : Block :=
  if m.revoked b.tenant b.ctx then (m.addFld Reg.cmdDropped 63 0 1).reply (answerBurst m b 5 0)
  else
    match if b.kind ≤ 1 then m.arrivalCheck b.tenant b.ctx b.addr b.data.length true else none with
    | some k => m.reply (answerBurst m b 6 k)
    | none =>
      let m1 := if b.kind ≤ 1 then m.writeGranules b.addr b.data b.mask b.poison (b.data.length / 128 + 2) else m
      if b.kind = 0 then m1.reply (answerBurst m b 5 0)
      else match m1.hitchAddr b.tenant b.ctx b.hitch with
        | some a => (m1.hitchAdd a b.inc).reply (answerBurst m b 5 0)
        | none => (m1.satFld Reg.fabDrop 31 0 1).reply (answerBurst m b 6 7)

/-- Snoops every host copy under an access, once each (R372). -/
def Block.snoopCopies (m : Block) (a n : Nat) : Block :=
  let gs := m.cho.directory.filter fun d => (granules a n).contains d.gran
  let new := gs.filter fun d => !m.cho.snoops.any fun s => s.gran == d.gran && s.port == d.port
  { m with cho.snoops := m.cho.snoops ++ new.map fun d => ⟨d.gran, d.port, m.time, none⟩ }

/-- What a burst writes: its data, and the hitch it signals. -/
def Block.burstWrites (m : Block) (b : Burst) : List (Nat × Nat) :=
  (if b.kind ≤ 1 ∧ !b.data.isEmpty then [(b.addr, b.data.length)] else []) ++
  (if b.kind = 0 then [] else ((m.hitchAddr b.tenant b.ctx b.hitch).map fun a => (a, 8)).toList)

/-- What of a burst's writes waits for host copies (R152). A burst that its checks turn away waits for none. -/
def Block.burstHeld (m : Block) (b : Burst) : List (Nat × Nat) :=
  if m.revoked b.tenant b.ctx ∨ (b.kind ≤ 1 ∧ (m.arrivalCheck b.tenant b.ctx b.addr b.data.length true).isSome) then []
  else (m.burstWrites b).filter fun w => (granules w.1 w.2).any fun g => !(m.hostCopies g).isEmpty

/-- Applies the bursts of a pair that are next in order; `fuel` bounds their number. -/
def Block.pumpPair (master node : Nat) : Nat → Block → Block
  | 0, m => m
  | fuel + 1, m =>
    let p := m.rxPair master node
    match p.early.find? fun e => e.2.seq == p.expect with
    | none => m
    | some e =>
      let held := m.burstHeld e.2
      if !held.isEmpty then held.foldl (fun (m : Block) w => m.snoopCopies w.1 w.2) m
      else Block.pumpPair master node fuel
        ((m.applyBurst e.2).setRxPair { p with expect := (p.expect + 1) % 2 ^ 32, early := p.early.filter (· != e) })

/-- Read data for each granule of a request. -/
def Block.answerRead (m : Block) (b : Burst) (n : Nat) (data : Nat → Block × List Byte × Bool) : Block :=
  (List.range n).foldl
    (fun m i =>
      let d := data i
      let a := b.addr + 128 * i
      m.reply { answerBurst m b 4 b.tag with addr := a, data := d.2.1, poison := d.2.2, tagged := m.tagged a 128 }) m

/-- The master of firmware, which signals hitches and reads a peer's registers (log entry 15). -/
def fwMaster : Nat := 0xFFF

/-- Peer firmware reads a register of this module (R134): the word leads the granule of its answer (log entry 113). -/
def Block.peerRead (m : Block) (b : Burst) (off : Nat) : Block :=
  m.reply { answerBurst m b 4 b.tag with data := leBytes 8 (m.readReg .peer (off / 8 * 8)).toNat ++ List.replicate 120 0 }

/-- The register that a read request of peer firmware names. -/
def Block.peerReg (m : Block) (b : Burst) : Option Nat :=
  match m.region b.addr with
  | .reg off => if b.master = fwMaster then some off else none
  | _ => none

/-- Serves a read request, or holds it until the host gives its exclusive copies up (R353, R372). -/
def Block.serveRead (m : Block) (b : Burst) (n : Nat) : Block :=
  match m.peerReg b with
  | some off => m.peerRead b off
  | none =>
  if m.revoked b.tenant b.ctx then m.answerRead b n fun _ => (m, List.replicate 128 0, true)
  else match m.arrivalCheck b.tenant b.ctx b.addr (128 * n) false with
    | some k => m.reply (answerBurst m b 6 k)
    | none =>
      if m.heldExclusive b.addr (128 * n) then
        { m.snoopReads b.addr (128 * n) with fab.readsIn := m.fab.readsIn ++ [(b, n)] }
      else
        let m1 := m.correct b.addr (128 * n)
        m1.answerRead b n fun i => (m1, m1.readMem (b.addr + 128 * i) 128, m1.poisoned (b.addr + 128 * i) 128)

/-- What waits for host copies goes on: called whenever a copy has gone. -/
def Block.pumpFabric (m : Block) : Block :=
  let m1 := m.fab.rx.foldl (fun m p => Block.pumpPair p.master p.node p.early.length m) m
  m1.fab.readsIn.foldl (fun m e => m.serveRead e.1 e.2) { m1 with fab.readsIn := [] }

/-- Room that a burst takes in a reorder store: header, byte masks and data (log entry 31). -/
def burstBytes (b : Burst) : Nat := 32 + b.data.length + b.mask.length / 8

/-- What the reorder store of an engine holds: its early bursts, without those next in order. -/
def Block.storeUsed (m : Block) (eng : Nat) : Nat :=
  total (m.fab.rx.map fun p => total ((p.early.filter fun e => e.1 == eng && e.2.seq != p.expect).map fun e => burstBytes e.2))

/-- Whether a burst is for this module (R353 step 1). -/
def Block.forUs (m : Block) (b : Burst) : Bool := m.fld Reg.fabNode 63 63 == 1 && b.dstNode == m.ownNode

/-- An arriving write, signalled write or signal (R352, R353): applied in SEQ order, held when early, discarded when already applied. In M2
the sending port holds it and the module wakes (R430, R431). -/
def Block.arrive (m : Block) (port : Nat) (b : Burst) : Block :=
  if !m.portUsable port then m
  else if m.pwr.pstate = 2 then m.askWake
  else if !m.forUs b then m.satFld Reg.fabDrop 63 32 1
  else
    let p := m.rxPair b.master b.srcNode
    let ahead := (b.seq + 2 ^ 32 - p.expect) % 2 ^ 32
    if ahead ≥ 2 ^ 31 then m.reply (answerBurst m b 5 0)
    else if p.early.any fun e => e.2.seq == b.seq then m
    else if ahead ≠ 0 ∧ m.storeUsed (port / 4) + burstBytes b > 0x800000 then m.reply (answerBurst m b 6 0)
    else
      let m1 := m.setRxPair { p with early := p.early ++ [(port / 4, b)] }
      Block.pumpPair b.master b.srcNode (p.early.length + 1) m1

/-- FABRIC_WRITE (KIND 0). -/
def fabricWriteEffect (port : Nat) (b : Burst) (m : Block) : Block := m.arrive port { b with kind := 0 }
/-- SIGNALLED_WRITE (KIND 1). -/
def signalledWriteEffect (port : Nat) (b : Burst) (m : Block) : Block := m.arrive port { b with kind := 1 }
/-- FABRIC_SIGNAL (KIND 2). -/
def fabricSignalEffect (port : Nat) (b : Burst) (m : Block) : Block := m.arrive port { b with kind := 2 }

/-- READ_REQUEST (KIND 3), of 1 to 32 granules. -/
def readRequestEffect (port : Nat) (b : Burst) (n : Nat) (m : Block) : Block :=
  if !m.portUsable port then m
  else if m.pwr.pstate = 2 then m.askWake
  else if !m.forUs b then m.satFld Reg.fabDrop 63 32 1
  else m.serveRead b n

/-- READ_DATA (KIND 4): a duplicate is discarded by TAG; data for a revoked context ends its read. -/
def readDataEffect (port : Nat) (b : Burst) (m : Block) : Block :=
  if !m.portUsable port ∨ !m.forUs b then m
  else match m.fab.reads.find? fun r => r.tag == b.tag && r.node == b.srcNode && r.data.isNone with
    | none => m
    | some r =>
      if m.revoked r.tenant r.ctx then { m with fab.reads := m.fab.reads.filter (· != r) }
      else { m with fab.reads := mapIf (· == r) (fun x => { x with data := some (slice b.data 0 x.bytes, b.poison), hitch := b.tagged }) m.fab.reads }

/-- A kept burst is no longer unacknowledged, and queues whose last write it was are paid (R230). -/
def Block.release (m : Block) (master node seq : Nat) : Block :=
  { m with
    fab.tx := m.fab.tx.map fun (p : TxPair) =>
      if p.master == master && p.node == node then { p with unacked := p.unacked.filter fun u => u.burst.seq != seq } else p
    eng.collOut := m.eng.collOut.filter fun (x : CollOut) => !(Master.code (.coll x.die) == master && x.node == node && x.id == seq) }.payQueues

/-- ACKNOWLEDGEMENT (KIND 5): the burst is kept no longer, which lowers its context's drain counter. -/
def acknowledgementEffect (port master node seq : Nat) (m : Block) : Block :=
  if m.portUsable port then m.release master node seq else m

/-- The issuing master behind a MASTER field: type and index of Table 19.1. Of a Drover or a Groom unit it is the ring of the context,
the active one first. -/
def Block.issuer (m : Block) (code t c : Nat) : Nat × Nat :=
  let x := masterOf code
  let rings (n : Nat) : List Nat := ((List.range n).map (x.2 + ·)).filter fun i => m.ownedBy (ringOwner x.1 i) t c
  let pick (n : Nat) : Nat := (((rings n).find? fun i => m.ringSt x.1 i == 1).or (rings n).head?).getD x.2
  match x.1 with
  | 3 => (3, pick 8)
  | 4 => (4, pick 4)
  | _ => x

/-- A destination has refused an access (R353, R354, R445): the issuing master is curbed here, as a fabric source. -/
def Block.curbSource (m : Block) (code t c kind addr len node : Nat) : Block :=
  let x := m.issuer code t c
  let q := m.serves x.1 x.2 t c
  { m.freeze x.1 x.2 with flt.curbs := m.flt.curbs ++ [⟨kind, 5, code, t, c, addr, len, some node, q, 0⟩] }

/-- NEGATIVE_ACKNOWLEDGEMENT (KIND 6): without a fault kind the burst is sent again; with one its master is curbed. `read`: it answers
the read request with tag `id`. -/
def negativeAcknowledgementEffect (port master node : Nat) (read : Bool) (id kind : Nat) (m : Block) : Block :=
  if !m.portUsable port then m
  else if read then
    match m.fab.reads.find? fun r => r.tag == id && r.master == master && r.node == node && r.data.isNone with
    | none => m
    | some r => ({ m with fab.reads := m.fab.reads.filter (· != r) }).curbSource master r.tenant r.ctx kind r.addr r.bytes node
  else if kind = 0 then
    (m.routePair (m.txPair master node) fun _ u => u.burst.seq == id).routeColl fun _ x =>
      Master.code (.coll x.die) == master && x.node == node && x.id == id
  else match (m.txPair master node).unacked.find? fun u => u.burst.seq == id with
    | none => m
    | some u => (m.release master node id).curbSource master u.burst.tenant u.burst.ctx kind u.burst.addr u.burst.data.length node

/-- PURGE (KIND 8): the source keeps nothing of the context any more; what is held early of it goes, and the pair goes on with the
burst number the purge names (R309). -/
def purgeEffect (port : Nat) (b : Burst) (m : Block) : Block :=
  if !m.portUsable port ∨ !m.forUs b then m
  else
    let p := m.rxPair b.master b.srcNode
    let ahead := (b.seq + 2 ^ 32 - p.expect) % 2 ^ 32
    let left := p.early.filter fun e => !(e.2.tenant == b.tenant && e.2.ctx == b.ctx)
    let m1 := m.setRxPair { p with early := left, expect := if ahead < 2 ^ 31 then b.seq else p.expect }
    Block.pumpPair b.master b.srcNode left.length m1

/-- FABRIC_WRITE. -/
def execFabricWrite (port : Nat) (b : Burst) (s : State) : Host.Outcome State Fault Refusal := s.commit (fabricWriteEffect port b s.m)
/-- SIGNALLED_WRITE. -/
def execSignalledWrite (port : Nat) (b : Burst) (s : State) : Host.Outcome State Fault Refusal := s.commit (signalledWriteEffect port b s.m)
/-- FABRIC_SIGNAL. -/
def execFabricSignal (port : Nat) (b : Burst) (s : State) : Host.Outcome State Fault Refusal := s.commit (fabricSignalEffect port b s.m)
/-- READ_REQUEST. -/
def execReadRequest (port : Nat) (b : Burst) (granules : Nat) (s : State) : Host.Outcome State Fault Refusal :=
  s.commit (readRequestEffect port b granules s.m)
/-- READ_DATA. -/
def execReadData (port : Nat) (b : Burst) (s : State) : Host.Outcome State Fault Refusal := s.commit (readDataEffect port b s.m)
/-- ACKNOWLEDGEMENT. -/
def execAcknowledgement (port master node seq : Nat) (s : State) : Host.Outcome State Fault Refusal :=
  s.commit (acknowledgementEffect port master node seq s.m)
/-- NEGATIVE_ACKNOWLEDGEMENT. -/
def execNegativeAcknowledgement (port master node : Nat) (read : Bool) (id kind : Nat) (s : State) : Host.Outcome State Fault Refusal :=
  s.commit (negativeAcknowledgementEffect port master node read id kind s.m)
/-- PURGE. -/
def execPurge (port : Nat) (b : Burst) (s : State) : Host.Outcome State Fault Refusal := s.commit (purgeEffect port b s.m)
/-- BURST_RESEND_TIMEOUT. -/
def execBurstResendTimeout (master node seq : Nat) (s : State) : Host.Outcome State Fault Refusal :=
  s.commit (burstResendTimeoutEffect master node seq s.m)
/-- LANE_FAILING. -/
def execLaneFailing (port : Nat) (report : LaneReport) (s : State) : Host.Outcome State Fault Refusal :=
  s.commit (laneFailingEffect port report s.m)
/-- SPARE_LANE_TRAINED. -/
def execSpareLaneTrained (port : Nat) (s : State) : Host.Outcome State Fault Refusal := s.commit (spareLaneTrainedEffect port s.m)
/-- FAB_PORT_RETRAIN. -/
def execFabPortRetrain (r : Requester) (port : Nat) (s : State) : Host.Outcome State Fault Refusal := s.commit (s.m.byHost r (fabPortRetrainEffect r port))
/-- FAB_PORT_TRAINED. -/
def execFabPortTrained (port : Nat) (nbr : Neighbour) (failed : Nat) (s : State) : Host.Outcome State Fault Refusal :=
  s.commit (fabPortTrainedEffect port nbr failed s.m)
/-- ACK_NBR. -/
def execAckNbr (r : Requester) (port : Nat) (s : State) : Host.Outcome State Fault Refusal := s.commit (s.m.byHost r (ackNbrEffect r port))
/-- FAB_PORT_DISABLE. -/
def execFabPortDisable (r : Requester) (port : Nat) (disable : Bool) (s : State) : Host.Outcome State Fault Refusal :=
  s.commit (s.m.byHost r (fabPortDisableEffect r port disable))
/-- NODE_ASSIGN. -/
def execNodeAssign (r : Requester) (node : Nat) (s : State) : Host.Outcome State Fault Refusal := s.commit (s.m.byHost r (nodeAssignEffect r node))
/-- ROUTING_ENTRY_WRITE. -/
def execRoutingEntryWrite (r : Requester) (node : Nat) (entry : Word) (s : State) : Host.Outcome State Fault Refusal :=
  s.commit (s.m.byHost r (routingEntryWriteEffect r node entry))
/-- NODE_LOST. -/
def execNodeLost (node : Nat) (s : State) : Host.Outcome State Fault Refusal := s.commit (nodeLostEffect node s.m)
/-- CABLE_UNPLUG. -/
def execCableUnplug (connector : Nat) (s : State) : Host.Outcome State Fault Refusal := s.commit (cableUnplugEffect connector s.m)
/-- CABLE_PLUG. -/
def execCablePlug (connector : Nat) (s : State) : Host.Outcome State Fault Refusal := s.commit (cablePlugEffect connector s.m)
/-- FRAME_REPLAY. -/
def execFrameReplay (frame : LostFrame) (s : State) : Host.Outcome State Fault Refusal := s.commit (frameReplayEffect frame s.m)

end Sys2Proof.Machine
end

