-- ==== Sys2Proof/Machine/Collective.lean ====
section
/-! DEFINITION. Collectives (R355 to R360): the command, the four operations of a collective engine, segments, aborts, timeouts and the
end; and what a peer's recovery does to commands (R464). An engine reads its whole source when the operation starts. -/
namespace Sys2Proof.Machine

/- Descriptor fields (Table 14.8) -/

/-- OP. -/
def Coll.op (c : Coll) : Nat := field (wordAt c.words 0) 63 60
/-- RED. -/
def Coll.red (c : Coll) : Nat := field (wordAt c.words 0) 59 58
/-- DTYPE. -/
def Coll.dtype (c : Coll) : Nat := field (wordAt c.words 0) 57 54
/-- ALG 1. -/
def Coll.direct (c : Coll) : Bool := bit (wordAt c.words 0) 53
/-- CMPR. -/
def Coll.cmpr (c : Coll) : Bool := bit (wordAt c.words 0) 52
/-- RATE. -/
def Coll.rate (c : Coll) : Nat := field (wordAt c.words 0) 51 48
/-- COLL_ID. -/
def Coll.id (c : Coll) : Nat := field (wordAt c.words 1) 63 32
/-- MEMBERS. -/
def Coll.n (c : Coll) : Nat := field (wordAt c.words 1) 31 20
/-- MY_RANK. -/
def Coll.rank (c : Coll) : Nat := field (wordAt c.words 1) 19 8
/-- Segments per member of an all-to-all. -/
def Coll.segs (c : Coll) : Nat := field (wordAt c.words 1) 7 0 + 1
/-- COUNT. -/
def Coll.count (c : Coll) : Nat := field (wordAt c.words 2) 47 0
/-- SRC. -/
def Coll.srcAddr (c : Coll) : Nat := (wordAt c.words 3).toNat
/-- DST. -/
def Coll.dst (c : Coll) : Nat := (wordAt c.words 4).toNat
/-- Element size. -/
def Coll.esize (c : Coll) : Nat := dtypeBytes c.dtype
/-- Elements of a chunk. -/
def Coll.chunk (c : Coll) : Nat := c.count / c.n
/-- Bytes of a chunk. -/
def Coll.chunkBytes (c : Coll) : Nat := c.chunk * c.esize
/-- The rank after this one in ring order. -/
def Coll.next (c : Coll) : Nat := (c.rank + 1) % c.n
/-- The other ranks. -/
def Coll.others (c : Coll) : List Nat := (List.range c.n).filter (· != c.rank)
/-- The engine as a master. -/
def Coll.mover (c : Coll) : Mover :=
  { code := Master.code (.coll c.die), mtype := 5, idx := c.die, tenant := c.q.tenant, ctx := c.q.ctx, core := none }

/-- An entry of the send table: offset and BYTES. -/
def Block.sendEntry (m : Block) (c : Coll) (j : Nat) : Nat × Nat :=
  let a := localPart (wordAt c.words 6).toNat + 16 * j
  (leNat (m.readMem a 8), leNat (m.readMem (a + 8) 4))
/-- An entry of the receive table: offset and CAPACITY. -/
def Block.recvEntry (m : Block) (c : Coll) (j : Nat) : Nat × Nat :=
  let a := localPart (wordAt c.words 7).toNat + 16 * j
  (leNat (m.readMem a 8), leNat (m.readMem (a + 8) 4))

/-- Whether an extent lies in this module's HBM or pool, in ranges that grant the tenant (R355). -/
def Block.collExtent (m : Block) (c : Coll) (a n : Nat) (write : Bool) : Bool :=
  n == 0 || (m.onModule (a, n) && (m.check c.q.tenant c.q.ctx a n write).isNone)

/-- Reason 0x01: a reserved value or a reserved bit that is not zero. -/
def Block.collReserved (m : Block) (c : Coll) : Bool :=
  decide (c.op > 3) || c.red == 3 || bit (wordAt c.words 0) 42 || field (wordAt c.words 2) 63 48 != 0 ||
    (List.range 7).any (fun i => (wordAt c.words (9 + i)) != 0) ||
    (if c.op < 2 then decide (c.dtype > 2) || (c.cmpr && decide (c.rate > 3))
      else c.red != 0 || c.dtype != 0 || c.cmpr || c.rate != 0) ||
    (if c.op = 3 then c.count != 0 || (List.range (c.n * c.segs)).any (fun j => (m.sendEntry c j).2 % 128 != 0) else c.segs != 1)

/-- Reason 0x02: an address that is not a multiple of 128 or lies outside the tenant's ranges. -/
def Block.collAddrs (m : Block) (c : Coll) : Bool :=
  let ext := m.collExtent c
  let table := 16 * (c.n * c.segs)
  !(c.srcAddr % 128 == 0 && c.dst % 128 == 0 && ext (wordAt c.words 5).toNat (2 * c.n) false &&
    (match c.op with
      | 0 => ext c.srcAddr (c.count * c.esize) false && ext c.dst (c.count * c.esize) true
      | 1 => ext c.srcAddr (c.count * c.esize) false && ext c.dst c.chunkBytes true
      | 2 => ext c.srcAddr c.chunkBytes false && ext c.dst (c.count * c.esize) true
      | _ => ext (wordAt c.words 6).toNat table false && ext (wordAt c.words 7).toNat table false && ext (wordAt c.words 7).toNat table true &&
          (List.range (c.n * c.segs)).all fun j =>
            ext (c.srcAddr + (m.sendEntry c j).1) (m.sendEntry c j).2 false && ext (c.dst + (m.recvEntry c j).1) (m.recvEntry c j).2 true))

/-- Reason 0x03: COUNT, MEMBERS, MY_RANK, ENGINE or ALG out of range. -/
def Block.collRange (m : Block) (c : Coll) : Bool :=
  decide (c.n < 2) || decide (c.rank ≥ c.n) || decide (c.die ≥ m.tileCount) || (c.op == 3 && !c.direct) ||
    (c.op != 3 && c.count % (if c.cmpr then 64 * c.n else c.n) != 0)

/-- The reason a descriptor is refused for, the lowest that applies; 0 for none. -/
def Block.collRefusal (m : Block) (c : Coll) : Nat :=
  if m.collReserved c then 1 else if m.collAddrs c then 2 else if m.collRange c then 3 else 0

/- Segments on the wire -/

/-- Values of elements of DTYPE. -/
def Coll.values (c : Coll) (bs : List Byte) : List F32 := (chunks c.esize bs).map fun b => ((rawFmt c.dtype).decode (leNat b)).toF32
/-- Elements of DTYPE for values (R35). -/
def Coll.elems (c : Coll) (vs : List F32) : List Byte := vs.flatMap fun v => leBytes c.esize ((rawFmt c.dtype).convert v.val).1

/-- A chunk as it crosses the wire: elements, or a lossy stream (R358). -/
def Coll.toWire (c : Coll) (vs : List F32) : List Byte :=
  if c.cmpr then (chunks 64 vs).flatMap fun b => let e := lossyEncodeBlock c.rate (b.map F32.val); leBytes 2 e.1 ++ e.2
  else c.elems vs

/-- The values of a chunk from the wire, and the elements of its damaged blocks. -/
def Coll.ofWire (c : Coll) (bs : List Byte) : List F32 × List (Nat × Nat) :=
  if c.cmpr then
    let bb := 2 + 8 * lossyWidth c.rate
    ((chunks bb (slice bs 0 (c.chunk / 64 * bb))).zipIdx.foldl
      (fun r bi => match lossyDecodeBlock c.rate .fp32 (leNat (bi.1.take 2)) (bi.1.drop 2) with
        | none => (r.1 ++ List.replicate 64 0, r.2 ++ [(64 * bi.2, 64)])
        | some cs => (r.1 ++ cs.map (BitVec.ofNat 32), r.2)) ([], []))
  else (c.values (slice bs 0 c.chunkBytes), [])

/-- RED of two values, in FP32. -/
def Coll.combine (c : Coll) (a b : F32) : F32 :=
  match c.red with
  | 0 => f32Add a b
  | 1 => (valMax a.val b.val).toF32
  | _ => (valMin a.val b.val).toF32

/-- This member's contribution to a chunk. -/
def Coll.own (c : Coll) (i : Nat) : List F32 := c.values (slice c.src (i * c.chunkBytes) c.chunkBytes)

/-- The poisoned elements of the contribution to a chunk. -/
def Coll.ownBad (c : Coll) (i : Nat) : List (Nat × Nat) :=
  c.srcBad.filterMap fun x =>
    let base := i * c.chunkBytes
    let lo := max x.1 base
    let hi := min (x.1 + x.2) (base + c.chunkBytes)
    if lo < hi then some ((lo - base) / c.esize, ceilDiv (hi - base) c.esize - (lo - base) / c.esize) else none

/-- A segment of a collective (R359). -/
def Coll.segment (c : Coll) (step seg : Nat) (data : List Byte) (bad : List (Nat × Nat)) : CollSeg :=
  { tenant := c.q.tenant, ctx := c.q.ctx, collId := c.id, op := c.op, red := c.red, dtype := c.dtype, n := c.n, count := c.count % 2 ^ 32
    cmpr := c.cmpr, rate := c.rate, rank := c.rank, seg := seg, step := step, data := data, bad := bad }

/-- Whether a segment differs from the local descriptor, or comes from a rank that sends none here (R356, R359). -/
def Coll.differs (c : Coll) (s : CollSeg) : Bool :=
  s.op != c.op || s.red != c.red || s.dtype != c.dtype || s.n != c.n || s.count != c.count % 2 ^ 32 || s.cmpr != c.cmpr || s.rate != c.rate ||
    decide (s.rank ≥ c.n) || s.rank == c.rank || (!c.direct && s.rank != (c.rank + c.n - 1) % c.n) ||
    (match c.op with
      | 3 => decide (s.seg ≥ c.segs)
      | 2 => s.step != 1 || decide (s.seg ≥ c.n) || (c.direct && s.seg != s.rank)
      | op => decide (s.step > 1) || (op == 1 && s.step == 1) || decide (s.seg ≥ c.n) ||
          (c.direct && s.seg != (if s.step = 0 then c.rank else s.rank)))

/- Engine actions -/

/-- The collective of a context at an engine. -/
def Block.coll? (m : Block) (die t x id : Nat) : Option Coll :=
  m.eng.colls.find? fun c => c.die == die && c.q.tenant == t && c.q.ctx == x && c.id == id
/-- Replaces the collective of a command. -/
def Block.setColl (m : Block) (c : Coll) : Block := { m with eng.colls := mapIf (fun x => x.q == c.q) (fun _ => c) m.eng.colls }

/-- Sends a segment, or an abort, to a rank; towards a lost node it is dropped (R350). -/
def Block.collSend (m : Block) (c : Coll) (rank : Nat) (seg : Option CollSeg) : Block :=
  let node := c.members.getD rank 0
  let pk := m.pickPort node
  if m.fab.lostNodes.contains node ∧ pk.1.isNone then m.markPeerLost c.q.tenant c.q.ctx
  else
    let out : CollOut := { die := c.die, tenant := c.q.tenant, ctx := c.q.ctx, node := node, id := m.eng.collNext, collId := c.id
                           seg := seg, port := pk.1, sentAt := m.time }
    let m1 := { pk.2 with eng.collOut := pk.2.eng.collOut ++ [out], eng.collNext := (m.eng.collNext + 1) % 2 ^ 32 }
    if pk.1.isNone then m1.noteUnreach node else m1.beat 5 c.die

/-- Ends a collective with a reason, unless it has one. -/
def Block.collFail (m : Block) (c : Coll) (reason : Nat) : Block := if c.reason ≠ 0 then m else m.setColl { c with reason := reason }

/-- A disagreement: every member is told, this one included (R359). -/
def Block.collAbort (m : Block) (c : Coll) : Block := (c.others.foldl (fun m i => m.collSend c i none) m).collFail c 4

/-- Writes bytes at a global address of this module, granule by granule; granules that a poisoned extent feeds are poisoned. None when a
check fails: nothing is written. -/
def Block.collPut (m : Block) (c : Coll) (ga : Nat) (bs : List Byte) (bad : List (Nat × Nat)) : Option Block :=
  let ps := pieces ga bs.length
  if ps.any fun p => !m.collExtent c (ga + p.1) p.2 true || m.tagged (localPart ga + p.1) p.2 then none
  else some (ps.foldl
    (fun m p => m.writeGranule (localPart ga + p.1) (slice bs p.1 p.2) [] (bad.any fun x => overlaps x.1 x.2 p.1 p.2)) m)

/-- Poisoned elements as bytes. -/
def Coll.toBytes (c : Coll) (bad : List (Nat × Nat)) : List (Nat × Nat) := bad.map fun x => (x.1 * c.esize, x.2 * c.esize)

/-- Lays a finished chunk at an offset of the destination; a failed check ends the collective. -/
def Block.collLay (m : Block) (c : Coll) (chunk off : Nat) (bs : List Byte) (bad : List (Nat × Nat)) : Block :=
  match m.collPut c (c.dst + off) bs bad with
  | none => m.collFail c 2
  | some m1 => m1.setColl { c with have_ := chunk :: c.have_ }

/-- The own chunk is reduced: it is part of the result, and an all-reduce spreads it (R356). -/
def Block.collReduced (m : Block) (c : Coll) (vs : List F32) (bad : List (Nat × Nat)) : Block :=
  let m1 := m.collLay c c.rank (if c.op = 0 then c.rank * c.chunkBytes else 0) (c.elems vs) (c.toBytes bad)
  if c.op ≠ 0 then m1
  else (if c.direct then c.others else [c.next]).foldl (fun m i => m.collSend c i (some (c.segment 1 c.rank (c.toWire vs) bad))) m1

/-- A chunk on its way to its owner is combined with the own contribution, and kept, or sent on along the ring (R356). -/
def Block.takePartial (m : Block) (c : Coll) (s : CollSeg) (vs : List F32) (bad : List (Nat × Nat)) : Block :=
  if c.direct then
    let base := if c.arrived = 0 then (c.own c.rank, c.ownBad c.rank) else (c.acc, c.accBad)
    let c1 := { c with acc := List.zipWith c.combine base.1 vs, accBad := base.2 ++ bad, arrived := c.arrived + 1 }
    let m1 := m.setColl c1
    if c1.arrived = c.n - 1 then m1.collReduced c1 c1.acc c1.accBad else m1
  else
    let out := List.zipWith c.combine (c.own s.seg) vs
    let bad := c.ownBad s.seg ++ bad
    if s.seg = c.rank then m.collReduced c out bad
    else m.collSend c c.next (some (c.segment 0 s.seg (c.toWire out) bad))

/-- A finished chunk is laid down, and sent on along the ring until it has gone round. -/
def Block.takeFinished (m : Block) (c : Coll) (s : CollSeg) (vs : List F32) (bad : List (Nat × Nat)) : Block :=
  let plain := c.op = 2
  let m1 := m.collLay c s.seg (s.seg * c.chunkBytes) (if plain then slice s.data 0 c.chunkBytes else c.elems vs) (if plain then s.bad else c.toBytes bad)
  if c.direct ∨ s.seg = c.next then m1
  else m1.collSend c c.next (some (c.segment 1 s.seg (if plain then s.data else c.toWire vs) bad))

/-- Lays a segment of an all-to-all down: at most CAPACITY bytes, and its full length in RECEIVED (R357). -/
def Block.laySegment (m : Block) (c : Coll) (rank k : Nat) (data : List Byte) (bad : List (Nat × Nat)) : Block :=
  let j := rank * c.segs + k
  let e := m.recvEntry c j
  let c1 := if data.length > e.2 then { c with tooBig := true } else c
  match m.collPut c (c.dst + e.1) (data.take e.2) bad with
  | none => m.collFail c 2
  | some m1 =>
    match m1.collPut c ((wordAt c.words 7).toNat + 16 * j + 12) (leBytes 4 data.length) [] with
    | none => m1.collFail c 2
    | some m2 => m2.setColl c1

/-- Takes a segment into its collective. A segment seen before is not taken again. -/
def Block.collTake (m : Block) (c : Coll) (s : CollSeg) : Block :=
  let key := (s.rank, s.seg, s.step)
  if c.reason ≠ 0 ∨ c.seen.contains key then m
  else if c.differs s then m.collAbort c
  else
    let c1 := { c with seen := key :: c.seen }
    if c.op = 3 then (m.setColl c1).laySegment c1 s.rank s.seg s.data s.bad
    else
      let w := if c.op = 2 then ([], []) else c.ofWire s.data
      let c2 := { c1 with damaged := c1.damaged || !w.2.isEmpty }
      if s.step = 0 then (m.setColl c2).takePartial c2 s w.1 (s.bad ++ w.2) else (m.setColl c2).takeFinished c2 s w.1 (s.bad ++ w.2)

/-- The source extents of a collective. -/
def Block.collSources (m : Block) (c : Coll) : List (Nat × Nat) :=
  match c.op with
  | 3 => (List.range (c.n * c.segs)).map fun j => (c.srcAddr + (m.sendEntry c j).1, (m.sendEntry c j).2)
  | 2 => [(c.srcAddr, c.chunkBytes)]
  | _ => [(c.srcAddr, c.count * c.esize)]

/-- Poisoned parts of an extent, as offsets from `at_`. -/
def Block.badParts (m : Block) (a n at_ : Nat) : List (Nat × Nat) :=
  (pieces a n).filterMap fun p => if m.poisoned (a + p.1) p.2 then some (at_ + p.1, p.2) else none

/-- The first segments of a collective whose source has been read. -/
def Block.collFirst (m : Block) (c : Coll) : Block :=
  match c.op with
  | 3 =>
    (List.range (c.n * c.segs)).foldl
      (fun (r : Block × Nat) j =>
        let b := (m.sendEntry c j).2
        let data := slice c.src r.2 b
        let bad := c.srcBad.filterMap fun x => if r.2 ≤ x.1 ∧ x.1 < r.2 + b then some (x.1 - r.2, x.2) else none
        let i := j / c.segs
        let cur := (r.1.eng.colls.find? fun x => x.q == c.q).getD c
        (if i = c.rank then r.1.laySegment cur i (j % c.segs) data bad else r.1.collSend c i (some (c.segment 0 (j % c.segs) data bad)), r.2 + b))
      (m, 0) |>.1
  | 2 =>
    let m1 := m.collLay c c.rank (c.rank * c.chunkBytes) c.src c.srcBad
    (if c.direct then c.others else [c.next]).foldl (fun m i => m.collSend c i (some (c.segment 1 c.rank c.src c.srcBad))) m1
  | _ =>
    let send (m : Block) (peer chunk : Nat) : Block := m.collSend c peer (some (c.segment 0 chunk (c.toWire (c.own chunk)) (c.ownBad chunk)))
    if c.direct then c.others.foldl (fun m i => send m i i) m else send m c.next ((c.rank + c.n - 1) % c.n)

/-- Segments that were held for a collective are taken once it has started (R359). -/
def Block.collCatchUp (m : Block) (c : Coll) : Block :=
  let mine (e : Nat × CollSeg) : Bool := e.1 == c.die && e.2.tenant == c.q.tenant && e.2.ctx == c.q.ctx && e.2.collId == c.id
  (m.eng.collHeld.filter mine).foldl
    (fun m e => match m.eng.colls.find? fun x => x.q == c.q with
      | none => m
      | some x => m.collTake x e.2)
    { m with eng.collHeld := m.eng.collHeld.filter fun e => !mine e }

/-- An engine starts the first collective of an operation that waits at it: it reads the source, once no host holds a part of it
exclusive, and sends its first segments. -/
def runCollective (op die : Nat) (m : Block) : Block :=
  match m.eng.colls.find? fun c => c.die == die && c.op == op && !c.started && c.reason == 0 with
  | none => m
  | some c =>
    let ext := (m.collSources c).filter fun e => e.2 != 0
    match ext.foldl (fun (g : Got) e => g.join fun m => m.engRead c.mover e.1 e.2) (.data m [] false) with
    | .bad _ _ _ => m.collFail c 2
    | .need _ => m.request c.mover (ext.flatMap fun e => m.engNeeds c.mover e.1 e.2)
    | .data m1 bs _ =>
      let bad := ext.foldl (fun (r : List (Nat × Nat) × Nat) e => (r.1 ++ m1.badParts (localPart e.1) e.2 r.2, r.2 + e.2)) ([], 0)
      let c1 := { c with started := true, src := bs, srcBad := bad.1 }
      ((m1.setColl c1).collFirst c1).collCatchUp c1

/-- ALL_REDUCE. -/
def allReduceEffect (die : Nat) (m : Block) : Block := runCollective 0 die m
/-- REDUCE_SCATTER. -/
def reduceScatterEffect (die : Nat) (m : Block) : Block := runCollective 1 die m
/-- ALL_GATHER. -/
def allGatherEffect (die : Nat) (m : Block) : Block := runCollective 2 die m
/-- ALL_TO_ALL. -/
def allToAllEffect (die : Nat) (m : Block) : Block := runCollective 3 die m

/-- COLLECTIVE (R355): the engine takes the descriptor; one that is refused ends at once, and tells the members (R359). -/
def collectiveEffect (q : QueueId) (m : Block) : Block :=
  m.onCommand q 0x130 fun k =>
    let ga := (k.p 0).toNat
    let a := localPart ga
    if (m.remoteNode ga).isSome || (m.check q.tenant q.ctx ga 128 false).isSome || (m.check q.tenant q.ctx ga 128 true).isSome then m.complete q 2 0
    else if m.heldExclusive a 128 then m.snoopReads a 128
    else
      let m0 := m.correct a 128
      if m0.poisoned a 128 then m0.complete q 2 0 else
      let w := leWords 16 (m0.readMem a 128)
      let c0 : Coll := { die := field (wordAt w 0) 46 43, q := q, words := w, addr := ga, members := [], start := m0.time }
      let sound := decide (2 ≤ c0.n) && m0.collExtent c0 (wordAt w 5).toNat (2 * c0.n) false
      let c1 := { c0 with members := if sound then (List.range c0.n).map (m0.memberNode (wordAt w 5).toNat) else [] }
      let reason := m0.collRefusal c1
      let m1 := { m0.setWait q .unit with eng.colls := m0.eng.colls ++ [{ c1 with reason := reason }] }
      if reason ≠ 0 ∧ sound then c1.others.foldl (fun m i => m.collSend c1 i none) m1 else m1

/-- COLLECTIVE_SEGMENT (R359): an arriving segment is taken, or held for a collective that has not started, 1,024 at an engine. -/
def collectiveSegmentEffect (die node master seq : Nat) (s : CollSeg) (m : Block) : Block :=
  let answer (m : Block) (kind : Nat) : Block :=
    m.reply { kind := kind, srcNode := m.ownNode, dstNode := node, tenant := s.tenant, ctx := s.ctx, master := master, seq := seq, tag := 0
              addr := 0, data := [], mask := [], poison := false, hitch := 0, inc := 0 }
  if die ≥ m.tileCount then m
  else if m.pwr.pstate = 2 then m.askWake
  else if m.revoked s.tenant s.ctx then answer (m.addFld Reg.cmdDropped 63 0 1) 5
  else
    match m.coll? die s.tenant s.ctx s.collId with
    | some c =>
      if c.started ∨ c.reason ≠ 0 then answer ((m.collTake c s).beat 5 die) 5
      else if (m.eng.collHeld.filter fun e => e.1 == die).length ≥ 1024 then answer m 6
      else answer { m with eng.collHeld := m.eng.collHeld ++ [(die, s)] } 5
    | none =>
      if (m.eng.collHeld.filter fun e => e.1 == die).length ≥ 1024 then answer m 6
      else answer { m with eng.collHeld := m.eng.collHeld ++ [(die, s)] } 5

/-- COLLECTIVE_ABORT (R359). -/
def collectiveAbortEffect (die tenant ctx collId : Nat) (m : Block) : Block :=
  match m.coll? die tenant ctx collId with
  | none => m
  | some c => m.collFail c 4

/-- COLLECTIVE_TIMEOUT (R359): the timer does not count while a recovering peer holds the command (R464). -/
def collectiveTimeoutEffect (q : QueueId) (m : Block) : Block :=
  match m.eng.colls.find? fun c => c.q == q with
  | none => m
  | some c => if m.time < c.start + m.fld Reg.fabCollTmo 39 0 ∨ m.peerHeld q then m else m.collFail c 7

/-- Whether this member's part is done (R356, R357). -/
def Coll.done (c : Coll) : Bool :=
  c.started && (match c.op with
    | 3 => c.seen.length == (c.n - 1) * c.segs
    | 1 => !c.have_.isEmpty
    | _ => c.have_.length == c.n)

/-- Whether a CollOut belongs to a collective. -/
def Coll.owns (c : Coll) (x : CollOut) : Bool := x.die == c.die && x.tenant == c.q.tenant && x.ctx == c.q.ctx && x.collId == c.id

/-- RESULT of a reason (Table 14.9). -/
def collResult (reason : Nat) : Nat := if reason = 0 ∨ reason = 5 ∨ reason = 6 then 1 else if reason = 7 then 2 else 3
/-- Completion status of a reason (Table 14.9). -/
def collStatus (reason : Nat) : Nat := if reason = 0 then 0 else if reason = 6 then 0xB else if reason = 7 then 0x14 else 4

/-- What a collective writes. -/
def Block.collOutputs (m : Block) (c : Coll) : List (Nat × Nat) :=
  match c.op with
  | 0 => [(c.dst, c.count * c.esize)]
  | 1 => [(c.dst, c.chunkBytes)]
  | 2 => [(c.dst, c.count * c.esize)]
  | _ => ((wordAt c.words 7).toNat, 16 * (c.n * c.segs)) :: (List.range (c.n * c.segs)).map fun j => (c.dst + (m.recvEntry c j).1, (m.recvEntry c j).2)

/-- COLLECTIVE_END (R360): once the output is at its home and the sends are acknowledged. RESULT is written when no host copy of its granule
is left, so that the hitch and the completion follow it (R152). -/
def collectiveEndEffect (q : QueueId) (m : Block) : Block :=
  match m.eng.colls.find? fun c => c.q == q with
  | none => m
  | some c =>
    let waits := (m.collOutputs c).any fun e => m.writeWaits (localPart e.1) e.2
    let copies := m.hostCopies ((localPart c.addr + 64) / 128)
    if c.reason = 0 ∧ !(c.done && !waits && !m.eng.collOut.any fun x => c.owns x && x.seg.isSome) then m
    else if !copies.isEmpty then m.snoopEntries copies
    else
      let reason := if c.reason ≠ 0 then c.reason else if c.damaged then 6 else if c.tooBig then 5 else 0
      let m1 := { m with
        eng.colls := m.eng.colls.filter fun (x : Coll) => x.q != q
        eng.collOut := m.eng.collOut.filter fun (x : CollOut) => !(c.owns x && x.seg.isSome) }
      let word := leBytes 8 (collResult reason * 2 ^ 62 + reason * 2 ^ 56)
      let m2 := (m1.collPut c (c.addr + 64) word []).getD m1
      let m3 := if bit (wordAt c.words 0) 47 then m2.signal q.tenant q.ctx (field (wordAt c.words 0) 41 32) (field (wordAt c.words 0) 31 0) else m2
      let m4 := if c.die < m.tileCount then m3.addFld (Reg.fabCollDone c.die) 63 0 1 else m3
      let m5 := if c.die ≥ m.tileCount then m4
        else if reason = 7 then m4.satFld (Reg.fabCollFail c.die) 63 32 1
        else if reason = 4 then m4.satFld (Reg.fabCollFail c.die) 31 0 1
        else m4
      m5.complete q (collStatus reason) 0

/- Peers in recovery (R464) -/

/-- Whether a command names a node: a collective by its member table, a task by its program's rank table. -/
def Block.namesNode (m : Block) (c : Cmd) (node : Nat) : Bool :=
  match c.opcode with
  | 0x130 =>
    let n := field (m.collWord c 1) 31 20
    (List.range n).any fun i => m.memberNode (m.collWord c 5).toNat i == node
  | 0x102 => (m.programOf c).any fun p => p.ranks.contains node
  | _ => false

/-- RECOVERING_RECEIVED: the first RECOVERING from a node holds the commands that name it. -/
def recoveringReceivedEffect (node : Nat) (m : Block) : Block :=
  if m.fab.recovering.any fun e => e.1 == node then m
  else { m with
    fab.recovering := m.fab.recovering ++ [(node, m.time)]
    cmd.cmds := mapIf (fun c => m.namesNode c node) (fun c => { c with peers := c.peers ++ [(node, m.time)] }) m.cmd.cmds }

/-- Takes the hold of a node off a command. -/
def Cmd.unhold (c : Cmd) (node : Nat) : Cmd := { c with peers := c.peers.filter fun p => p.1 != node }

/-- Stops a started command's cores and engine work, so that it can run again from its start. What stands in the cores' queues runs to
completion first (R98). -/
def Block.stopWork (m : Block) (q : QueueId) : Block :=
  let m1 := (m.taskCores q).foldl (fun m n => m.stopCore n 8) m
  let old := m1.eng.colls.filter fun c => c.q == q
  let heldFor (e : Nat × CollSeg) : Bool :=
    old.any fun c => e.1 == c.die && e.2.tenant == q.tenant && e.2.ctx == q.ctx && e.2.collId == c.id
  let m2 := { m1.releaseCores q with
    eng.collOut := m1.eng.collOut.filter fun (x : CollOut) => !old.any fun c => c.owns x
    eng.collHeld := m1.eng.collHeld.filter fun (e : Nat × CollSeg) => !heldFor e }
  m2.dropUnits q

/-- Runs a started command again from its start, marked REPLAYED. What it bound when it was accepted stays bound (R252, R254). -/
def Block.rerun (m : Block) (c : Cmd) : Block :=
  let m1 := (m.stopWork c.q).modCmd c.q fun x => { x with replayed := true, wait := .none, peerLost := false }
  let m2 := if c.opcode = 0x102 then m1.restartExchange c.q.tenant c.q.ctx else m1
  match c.opcode with
  | 0x102 => taskRunEffect c.q m2
  | 0x130 => collectiveEffect c.q m2
  | _ => m2

/-- REJOIN_RECEIVED: inside the hold the held commands run again from their start. -/
def rejoinReceivedEffect (node : Nat) (m : Block) : Block :=
  match m.fab.recovering.find? fun e => e.1 == node with
  | none => m
  | some e =>
    if m.time ≥ e.2 + m.fld Reg.fabCollTmo 39 0 then m
    else
      let held := m.cmd.cmds.filter fun c => c.peers.any fun p => p.1 == node
      let m1 := { m with
        fab.recovering := m.fab.recovering.filter fun e => e.1 != node
        cmd.cmds := m.cmd.cmds.map fun (c : Cmd) => c.unhold node }
      (held.filter (·.started)).foldl (fun m c => match m.running c.q with
        | some x => m.rerun x
        | none => m) m1

/-- A held command completes PEER_LOST, whether it has started or not. -/
def Block.endHeld (m : Block) (c : Cmd) : Block :=
  let mine := (m.cmd.cmds.filter c.same).map fun x => { x with started := true }
  let m1 := { m with cmd.cmds := mine ++ m.cmd.cmds.filter fun x => !c.same x }
  if c.started then (m1.stopWork c.q).endTask c.q 0x14 0 else m1.complete c.q 0x14 0

/-- PEER_HOLD_EXPIRY: the held commands complete PEER_LOST. -/
def peerHoldExpiryEffect (node : Nat) (m : Block) : Block :=
  match m.fab.recovering.find? fun e => e.1 == node with
  | none => m
  | some e =>
    if m.time < e.2 + m.fld Reg.fabCollTmo 39 0 then m
    else
      let held := m.cmd.cmds.filter fun c => c.peers.any fun p => p.1 == node
      let m1 := { m with fab.recovering := m.fab.recovering.filter fun e => e.1 != node }
      held.foldl Block.endHeld m1

/-- COLLECTIVE. -/
def execCollective (q : QueueId) (s : State) : Host.Outcome State Fault Refusal := s.commit (collectiveEffect q s.m)
/-- ALL_REDUCE. -/
def execAllReduce (die : Nat) (s : State) : Host.Outcome State Fault Refusal := s.commit (allReduceEffect die s.m)
/-- REDUCE_SCATTER. -/
def execReduceScatter (die : Nat) (s : State) : Host.Outcome State Fault Refusal := s.commit (reduceScatterEffect die s.m)
/-- ALL_GATHER. -/
def execAllGather (die : Nat) (s : State) : Host.Outcome State Fault Refusal := s.commit (allGatherEffect die s.m)
/-- ALL_TO_ALL. -/
def execAllToAll (die : Nat) (s : State) : Host.Outcome State Fault Refusal := s.commit (allToAllEffect die s.m)
/-- COLLECTIVE_SEGMENT. -/
def execCollectiveSegment (die node master seq : Nat) (seg : CollSeg) (s : State) : Host.Outcome State Fault Refusal :=
  s.commit (collectiveSegmentEffect die node master seq seg s.m)
/-- COLLECTIVE_ABORT. -/
def execCollectiveAbort (die tenant ctx collId : Nat) (s : State) : Host.Outcome State Fault Refusal :=
  s.commit (collectiveAbortEffect die tenant ctx collId s.m)
/-- COLLECTIVE_TIMEOUT. -/
def execCollectiveTimeout (q : QueueId) (s : State) : Host.Outcome State Fault Refusal := s.commit (collectiveTimeoutEffect q s.m)
/-- COLLECTIVE_END. -/
def execCollectiveEnd (q : QueueId) (s : State) : Host.Outcome State Fault Refusal := s.commit (collectiveEndEffect q s.m)
/-- RECOVERING_RECEIVED. -/
def execRecoveringReceived (node : Nat) (s : State) : Host.Outcome State Fault Refusal := s.commit (recoveringReceivedEffect node s.m)
/-- REJOIN_RECEIVED. -/
def execRejoinReceived (node : Nat) (s : State) : Host.Outcome State Fault Refusal := s.commit (rejoinReceivedEffect node s.m)
/-- PEER_HOLD_EXPIRY. -/
def execPeerHoldExpiry (node : Nat) (s : State) : Host.Outcome State Fault Refusal := s.commit (peerHoldExpiryEffect node s.m)

end Sys2Proof.Machine
end

