-- ==== Sys2Proof/Machine/Chotus.lean ====
section
/-! DEFINITION. Chotus Link (R363 to R379): port training and modes, host requests with their checks, coherence with the hosts' caches,
lane failures, heartbeats and the loss of a host. -/
namespace Sys2Proof.Machine

/- Ports and modes -/

/-- Width that a mask of working lanes gives (R364); 0: failed. -/
def chotusWidth (lanes : Nat) : Nat :=
  let group (lo n : Nat) : Bool := (List.range n).all fun i => lanes.testBit (lo + i)
  if group 0 16 then 16
  else if group 0 8 || group 8 8 then 8
  else if (List.range 4).any fun k => group (4 * k) 4 then 4
  else 0

/-- A write that was held for a host leaves; to a port without a host it is lost. -/
def Block.sendHeld (m : Block) (w : HeldWrite) : Block :=
  if m.hostUp w.addr then { { m with cho.sender := w.sender }.applyGranule w.addr w.bytes w.mask w.bad with cho.sender := 0 } else m

/-- Writes that were held for a host go on in their order once its accesses are no longer held. -/
def Block.flushHost (m : Block) : Block :=
  let go := m.cho.hostWrites.filter fun w => !m.hostHolding w.addr
  (go.foldl Block.sendHeld { m with cho.hostWrites := m.cho.hostWrites.filter fun w => m.hostHolding w.addr }).flushAfter.pumpRings

/-- A port has returned: it sends the pending interrupts of queues and mailboxes (R375). -/
def Block.sendPending (m : Block) (p : Nat) : Block :=
  let due := (m.chotus p).pendIrq.filter fun w => decide (w / 2 ^ 60 ≤ 1)
  ({ m with cho.irqs := m.cho.irqs ++ due.map fun w => (p, w) }.modChotus p fun x => { x with pendIrq := [] }).setReg
    (Reg.choIrqPend p) 0

/-- Whether a port may join the mapping that stands (R365). -/
def Block.joins (m : Block) (p hostId : Nat) : Bool :=
  match m.fld Reg.choMode 63 62 with
  | 0 => true
  | 3 => m.cho.modeIds.getD p 0 == hostId
  | _ => m.cho.modeIds.getD 0 0 == hostId

/-- CHOTUS_PORT_TRAINING (R364, R365, R367): a port in training reaches its width and comes up, is failed, or is kept down because it does
not match the mapping. -/
def chotusPortTrainingEffect (p hostId lanes : Nat) (m : Block) : Block :=
  if p ≥ 2 ∨ m.choSt p ≠ 1 then m
  else
    let w := chotusWidth lanes
    if w = 0 then (m.setReg (Reg.choPortStatus p) (putField 0 63 60 4)).flushHost
    else if !m.joins p hostId then
      ((m.setReg (Reg.choPortStatus p) 0).modChotus p fun x => { x with barred := true }).flushHost
    else
      let st := if (m.chotus p).lossTick.isSome then 3 else 2
      let m1 := (m.setReg (Reg.choPortStatus p) (putField (putField (putField 0 63 60 st) 59 55 w) 31 0 hostId)).setReg (Reg.choHbLast p)
        (BitVec.ofNat 64 m.time)
      let m2 := m1.modChotus p fun x => { x with everUp := true }
      let m3 := if m2.fld Reg.choMode 63 62 = 1 ∧ m2.choSt 0 = 2 ∧ m2.choSt 1 = 2 then m2.setFld Reg.choMode 63 62 2 else m2
      let m4 := if m3.cho.modeOpen then { m3 with cho.modeOpen := false, cho.modeTick := m3.time + 2500000 } else m3
      (if st = 2 then m4.sendPending p else m4).flushHost

/-- CHOTUS_MODE_FIX (R365): at step 5 of training, or at the end of the window of 100 ms that the first later port opens. -/
def chotusModeFixEffect (m : Block) : Block :=
  let id (p : Nat) : Nat := m.fld (Reg.choPortStatus p) 31 0
  if m.fld Reg.choMode 63 62 ≠ 0 ∨ m.cho.modeOpen ∨ m.time < m.cho.modeTick ∨ m.pwr.rst.isSome ∨ !m.pwr.powered then m
  else match m.choSt 0 == 2, m.choSt 1 == 2 with
    | false, false => { m with cho.modeOpen := true }
    | true, false => { m with cho.modeIds := [id 0] }.setFld Reg.choMode 63 62 1 |>.flushHost
    | false, true => { m with cho.modeIds := [id 1] }.setFld Reg.choMode 63 62 1 |>.flushHost
    | true, true => { m with cho.modeIds := [id 0, id 1] }.setFld Reg.choMode 63 62 (if id 0 = id 1 then 2 else 3) |>.flushHost

/-- A port leaves its state. -/
def Block.chotusDown (m : Block) (p st : Nat) : Block :=
  ((m.setFld (Reg.choPortStatus p) 59 55 0).setFld (Reg.choPortStatus p) 63 60 st).flushHost

/-- A port retrains: its traffic is held, and the retrain counted (R367). -/
def Block.chotusRetrain (m : Block) (p : Nat) : Block := (m.satFld (Reg.choPortErr p) 47 32 1).chotusDown p 1

/-- CHOTUS_LANE_FAIL (R367): the port retrains on the lanes that still work. -/
def chotusLaneFailEffect (p _lanes : Nat) (m : Block) : Block := if p < 2 ∧ (m.choSt p = 2 ∨ m.choSt p = 3) then m.chotusRetrain p else m

/-- LINK_LEVEL_REPLAY (R376): counted; a replay that fails eight times retrains the port. -/
def linkLevelReplayEffect (p failures : Nat) (m : Block) : Block :=
  if p ≥ 2 ∨ (m.choSt p ≠ 2 ∧ m.choSt p ≠ 3) then m
  else
    let m1 := m.satFld (Reg.choPortErr p) 63 48 1
    if failures ≥ 8 then m1.chotusRetrain p else m1

/-- CHOTUS_PORT_RETRAIN: a write of CHO_PORT_CTL.RETRAIN. A port held down stays down. -/
def chotusPortRetrainEffect (r : Requester) (p : Nat) (m : Block) : Block :=
  if !(isFw r || isSysHost r) ∨ p ≥ 2 ∨ m.fld (Reg.choPortCtl p) 0 0 = 1 ∨ (m.chotus p).barred then m else m.chotusRetrain p

/-- CHOTUS_PORT_DISABLE: a write of CHO_PORT_CTL.DISABLE holds the port down, or releases it to train. -/
def chotusPortDisableEffect (r : Requester) (p : Nat) (disable : Bool) (m : Block) : Block :=
  if !(isFw r || isSysHost r) ∨ p ≥ 2 then m
  else
    let was := m.fld (Reg.choPortCtl p) 0 0
    let m1 := m.setFld (Reg.choPortCtl p) 0 0 (if disable then 1 else 0)
    if disable then m1.chotusDown p 0 else if was = 1 ∧ !(m.chotus p).barred then m1.chotusDown p 1 else m1

/- Host requests -/

/-- The base die that is home to a granule. -/
def dieOf (m : Block) (g : Nat) : Nat :=
  match m.region (128 * g) with
  | .hbm => 128 * g / 0x2000000000
  | _ => 128 * g % 0x100000000 / 0x10000000

/-- Whether a host's access to module memory passes (R369). -/
def Block.hostCheck (m : Block) (t a n : Nat) (write : Bool) : Bool :=
  match m.region a, m.region (a + (n - 1)) with
  | .hbm, .hbm => m.rangeOk t a n write false && !(write && m.tagged a n)
  | .pool, .pool => m.rangeOk t a n write false && !(write && m.tagged a n)
  | .core k w, .core _ _ => m.windowOk k w n t none
  | _, _ => false

/-- Sends data to a host; poisoned granules are counted (R376). -/
def Block.toHost (m : Block) (p : Nat) (data : List Byte) (bad : Bool) (count : Nat) : Block :=
  let m1 := { m with cho.hostOut := m.cho.hostOut ++ [(p, data, bad)] }
  if bad then m1.satFld (Reg.choPortErr p) 15 0 count else m1

/-- A request that a check refuses: dropped and counted; a read is answered with poison (R368, R369). -/
def Block.dropHost (m : Block) (p : Nat) (op : HostOp) : Block :=
  let m1 := m.satFld (Reg.choPortErr p) 31 16 1
  match op with
  | .write _ => m1
  | .read n => m1.toHost p (List.replicate n 0) true 0
  | .readReg half => m1.toHost p (List.replicate (if half then 4 else 8) 0) true 0
  | .cacheShared => m1.toHost p (List.replicate 128 0) true 0
  | .cacheExclusive => m1.toHost p (List.replicate 128 0) true 0

/-- Copies that other hosts hold of an access; `all` counts shared ones too. -/
def Block.otherCopies (m : Block) (p a n : Nat) (all : Bool) : List DirEntry :=
  m.cho.directory.filter fun d => d.port != p && (all || d.excl) && (granules a n).contains d.gran

/-- A host's read of memory that has passed its check. -/
def Block.hostRead (m : Block) (p a n : Nat) : Block :=
  let m1 := m.correct a n
  m1.toHost p (m1.readMem a n) (m1.poisoned a n) ((granules a n).filter fun g => m1.poison.contains g || m1.stackFailed (128 * g)).length

/-- Grants a host a granule (R371): the die's directory holds 1,048,576 entries, and the least recently granted one is invalidated first
when it is full. -/
def Block.grantCopy (m : Block) (p t a : Nat) (excl : Bool) (op : HostOp) : Block :=
  let g := a / 128
  let die := dieOf m g
  let mine := m.cho.directory.filter fun d => dieOf m d.gran == die
  let known := m.cho.directory.any fun d => d.gran == g && d.port == p
  let rest := m.cho.directory.filter fun d => !(d.gran == g && d.port == p)
  if !known ∧ mine.length ≥ 1048576 then
    { m.snoopEntries (mine.take 1) with cho.hostIn := m.cho.hostIn ++ [(p, t, a, op)] }
  else ({ m with cho.directory := rest ++ [({ gran := g, port := p, excl := excl } : DirEntry)] }).hostRead p (128 * g) 128

/-- The sixteen words of a granule of registers as a host reads them: a request to cache them is served uncached (R371). -/
def Block.regGranule (m : Block) (r : Requester) (off : Nat) : List Byte :=
  (List.range 16).flatMap fun i => leBytes 8 (m.readReg r (off / 128 * 128 + 8 * i)).toNat

/-- Serves a host's request to cache a granule that no host may cache: it is answered and not kept (R371). -/
def Block.serveUncached (m : Block) (p t a : Nat) (op : HostOp) : Block :=
  match m.region a with
  | .reg off => m.toHost p (m.regGranule (.host p t) off) false 0
  | _ => if m.hostCheck t (a / 128 * 128) 128 false then m.hostRead p (a / 128 * 128) 128 else m.dropHost p op

/-- Serves an accepted host request (R369 to R372). A request that meets another host's copy waits for its invalidation. -/
def Block.serveHost (m : Block) (p t a : Nat) (op : HostOp) : Block :=
  let wait (l : List DirEntry) : Block := { m.snoopEntries l with cho.hostIn := m.cho.hostIn ++ [(p, t, a, op)] }
  let onCopies (l : List DirEntry) (k : Block) : Block := if l.isEmpty then k else wait l
  let memory : Bool := m.region a == .hbm || m.region a == .pool
  match op with
  | .readReg half =>
    match m.region a with
    | .reg off =>
      let v := if half then m.readHalf (.host p t) off else (m.readReg (.host p t) off).toNat
      if off % (if half then 4 else 8) ≠ 0 then m.toHost p (List.replicate (if half then 4 else 8) 0) false 0
      else m.toHost p (leBytes (if half then 4 else 8) v) false 0
    | _ => m.dropHost p op
  | .read n => if !m.hostCheck t a n false then m.dropHost p op else onCopies (m.otherCopies p a n false) (m.hostRead p a n)
  | .write data =>
    if !m.hostCheck t a data.length true then m.dropHost p op
    else onCopies (m.otherCopies p a data.length true)
      ((pieces a data.length).foldl (fun m x => m.applyGranule (a + x.1) (slice data x.1 x.2) [] false) m)
  | .cacheShared =>
    if !memory then m.serveUncached p t a op
    else if !m.hostCheck t (a / 128 * 128) 128 false then m.dropHost p op
    else onCopies (m.otherCopies p a 1 false) (m.grantCopy p t a false op)
  | .cacheExclusive =>
    if !memory then m.serveUncached p t a op
    else if !m.hostCheck t (a / 128 * 128) 128 true then m.dropHost p op
    else onCopies (m.otherCopies p a 1 true) (m.grantCopy p t a true op)

/-- HOST_REQUEST (R368). -/
def hostRequestEffect (p t a : Nat) (op : HostOp) (m : Block) : Block :=
  if p ≥ 2 ∨ (m.choSt p ≠ 2 ∧ m.choSt p ≠ 3) then m
  else if m.tagOk p t then m.serveHost p t a op
  else m.dropHost p op

/-- Host requests that waited are tried again. -/
def Block.pumpHosts (m : Block) : Block :=
  m.cho.hostIn.foldl (fun m e => m.serveHost e.1 e.2.1 e.2.2.1 e.2.2.2) { m with cho.hostIn := [] }

/-- A host copy is gone: its data applied if it was dirty, or the granule poisoned if that is lost; writes that waited for the last copy of
the granule are applied in their order (R372). -/
def Block.copyGone (m : Block) (g p : Nat) (dirty : Option (List Byte)) (lost : Bool) : Block :=
  let excl := m.cho.directory.any fun d => d.gran == g && d.port == p && d.excl
  let gone (s : Snoop) : Bool := s.gran == g && s.port == p
  let writes := (m.cho.snoops.filter gone).filterMap (·.write)
  let m1 := { m with
    cho.directory := m.cho.directory.filter fun d => !(d.gran == g && d.port == p)
    cho.snoops := m.cho.snoops.filter fun s => !gone s }
  let m2 := match dirty with
    | some bs => if excl && !lost then m1.applyGranule (128 * g) (slice bs 0 128) [] false else m1
    | none => m1
  let m3 := if excl && lost then m2.poisonGranule g else m2
  match m3.cho.snoops.find? fun s => s.gran == g with
  | some s => { m3 with cho.snoops := m3.cho.snoops ++ writes.map fun w => ⟨g, s.port, s.since, some w⟩ }
  | none => writes.foldl Block.applyHeld m3

/-- What waits for host copies goes on. -/
def Block.pumpAll (m : Block) : Block := m.flushAfter.pumpRings.pumpFabric.pumpHosts.payQueues

/-- SNOOP_RESPONSE (R372). -/
def snoopResponseEffect (port addr : Nat) (dirty : Option (List Byte)) (m : Block) : Block :=
  let g := addr / 128
  if m.cho.snoops.any fun s => s.gran == g && s.port == port then (m.copyGone g port dirty false).pumpAll else m

/-- SNOOP_TIMEOUT (R376): a snoop unanswered for 1 ms, 25,000 ticks, fails the port; what the host held is dropped, and granules it held
exclusive are poisoned. -/
def snoopTimeoutEffect (port : Nat) (m : Block) : Block :=
  if port ≥ 2 ∨ !m.cho.snoops.any fun s => s.port == port && decide (s.since + 25000 ≤ m.time) then m
  else
    let m1 := m.chotusDown port 4
    ((m1.cho.directory.filter fun d => d.port == port).foldl (fun m d => m.copyGone d.gran port none true) m1).pumpAll

/- Losing a host -/

/-- The ports whose heartbeat counts for a port: both in bonded mode (R366). -/
def Block.hostPorts (m : Block) (p : Nat) : List Nat := if m.fld Reg.choMode 63 62 = 2 then [0, 1] else [p]

/-- Whether a queue's submission ring lies in module memory. -/
def ringOnModule (q : Queue) : Bool := decide (localPart q.sqBase < hostBase)

/-- Raises an I3C event bit; an in-band interrupt follows when events are enabled (R381). -/
def Block.i3cEvent (m : Block) (b : Nat) : Block :=
  let m1 := { m with cho.i3cEvents := m.cho.i3cEvents ||| 2 ^ b }
  if m.cho.i3cEnable && !m.cho.i3cEvents.testBit b then { m1 with cho.i3cOut := m1.cho.i3cOut ++ [b] } else m1

/-- HOST_LOST (R377, R378, R398): no heartbeat in [last, last + TMO), declared by firmware that runs and stamped with that tick. -/
def hostLostEffect (p : Nat) (m : Block) : Block :=
  let ports := m.hostPorts p
  let last := (ports.map fun k => (m.reg (Reg.choHbLast k)).toNat).foldl max 0
  let due := last + m.fld Reg.choHbTmo 39 0
  let x := m.chotus p
  if p ≥ 2 ∨ !m.fwRuns ∨ !x.everUp ∨ x.lossTick.isSome ∨ x.noFurther ∨ m.time < due then m
  else
    let mine (q : Queue) : Bool := ports.contains (m.hostPort q.id.tenant)
    let m1 := ports.foldl
      (fun m k => (if m.choSt k = 2 then m.setFld (Reg.choPortStatus k) 63 60 3 else m).modChotus k fun y => { y with lossTick := some due }) m
    { m1 with
      cmd.queues := mapIf mine (fun q => { q with lossTail := some (if ringOnModule q then q.sqTail else q.sqHead) }) m1.cmd.queues }.i3cEvent 2

/-- The end of a hold by a heartbeat: kept records go to their rings in order, pending interrupts are sent, fetching resumes. -/
def Block.hostBack (m : Block) (p : Nat) : Block :=
  let kept := (m.chotus p).kept
  let m1 := (m.modChotus p fun x => { x with lossTick := none, kept := [] })
  let m2 := if m1.choSt p = 3 then m1.setFld (Reg.choPortStatus p) 63 60 2 else m1
  let m3 := { m2 with
    cmd.queues := m2.cmd.queues.map fun (q : Queue) => if m2.hostHeld q.id.tenant then q else { q with lossTail := none } }
  (kept.foldl (fun m k => m.deliver k.1 k.2.1 k.2.2) m3).sendPending p

/-- HEARTBEAT_WRITE (R377 to R379): by any host tenant accepted on the port. -/
def heartbeatWriteEffect (r : Requester) (p : Nat) (m : Block) : Block :=
  match r with
  | .host q _ =>
    if p ≥ 2 ∨ !(m.hostPorts p).contains q then m
    else
      let m1 := (m.setReg (Reg.choHbLast p) (BitVec.ofNat 64 m.time)).modChotus p fun x => { x with noFurther := false }
      (m.hostPorts p).foldl
        (fun m k => match (m.chotus k).lossTick with
          | some l => if m.time < l + m.fld Reg.choHold 39 0 then m.hostBack k else m
          | none => m) m1
  | _ => m

/-- HOST_HOLD_EXPIRY (R378 step 4): the tenants of the lost host are destroyed; tenant 0 loses the contexts whose rings lie there. -/
def hostHoldExpiryEffect (p : Nat) (m : Block) : Block :=
  match (m.chotus p).lossTick with
  | none => m
  | some l =>
    if m.time < l + m.fld Reg.choHold 39 0 then m
    else
      let ports := m.hostPorts p
      let inHost (a : Nat) : Bool := decide (hostBase ≤ localPart a) && ports.contains (m.hostPortOf (localPart a))
      let doomed := (m.cmd.tenants.filter fun t => t.id != 0 && t.exists_ && !t.dying && ports.contains (m.hostPort t.id)).map (·.id)
      let ctxs := (m.cmd.contexts.filter fun x => x.tenant == 0 && x.exists_ && x.tear.isNone &&
        (m.cmd.queues.any fun q => q.id.tenant == 0 && q.id.ctx == x.ctx && (inHost q.sqBase || inHost q.cqBase))).map (·.ctx)
      let sys := inHost (m.reg Reg.cmdSysSq).toNat
      let m1 := ports.foldl
        (fun m k =>
          let m1 := m.modChotus k fun x => { x with lossTick := none, noFurther := true, kept := [], pendIrq := [] }
          let m2 := m1.setReg (Reg.choIrqPend k) 0
          if m2.choSt k = 3 then m2.setFld (Reg.choPortStatus k) 63 60 2 else m2) m
      let m2 := doomed.foldl (fun m t => m.destroyTenant t none) m1
      let m3 := ctxs.foldl (fun m c => m.beginTeardown 0 c none false) m2
      if sys then m3.sysOff.setFld Reg.cmdSysCfg 63 63 0 else m3

/-- CHOTUS_PORT_TRAINING. -/
def execChotusPortTraining (port hostId lanes : Nat) (s : State) : Host.Outcome State Fault Refusal :=
  s.commit (chotusPortTrainingEffect port hostId lanes s.m)
/-- CHOTUS_MODE_FIX. -/
def execChotusModeFix (s : State) : Host.Outcome State Fault Refusal := s.commit (chotusModeFixEffect s.m)
/-- HOST_REQUEST. -/
def execHostRequest (port tag addr : Nat) (op : HostOp) (s : State) : Host.Outcome State Fault Refusal :=
  s.commit (hostRequestEffect port tag addr op s.m)
/-- SNOOP_RESPONSE. -/
def execSnoopResponse (port addr : Nat) (dirty : Option (List Byte)) (s : State) : Host.Outcome State Fault Refusal :=
  s.commit (snoopResponseEffect port addr dirty s.m)
/-- SNOOP_TIMEOUT. -/
def execSnoopTimeout (port : Nat) (s : State) : Host.Outcome State Fault Refusal := s.commit (snoopTimeoutEffect port s.m)
/-- CHOTUS_LANE_FAIL. -/
def execChotusLaneFail (port lanes : Nat) (s : State) : Host.Outcome State Fault Refusal := s.commit (chotusLaneFailEffect port lanes s.m)
/-- LINK_LEVEL_REPLAY. -/
def execLinkLevelReplay (port failures : Nat) (s : State) : Host.Outcome State Fault Refusal :=
  s.commit (linkLevelReplayEffect port failures s.m)
/-- CHOTUS_PORT_RETRAIN. -/
def execChotusPortRetrain (r : Requester) (port : Nat) (s : State) : Host.Outcome State Fault Refusal :=
  s.commit (s.m.byHost r (chotusPortRetrainEffect r port))
/-- CHOTUS_PORT_DISABLE. -/
def execChotusPortDisable (r : Requester) (port : Nat) (disable : Bool) (s : State) : Host.Outcome State Fault Refusal :=
  s.commit (s.m.byHost r (chotusPortDisableEffect r port disable))
/-- HEARTBEAT_WRITE. -/
def execHeartbeatWrite (r : Requester) (port : Nat) (s : State) : Host.Outcome State Fault Refusal :=
  s.commit (s.m.byHost r (heartbeatWriteEffect r port))
/-- HOST_LOST. -/
def execHostLost (port : Nat) (s : State) : Host.Outcome State Fault Refusal := s.commit (hostLostEffect port s.m)
/-- HOST_HOLD_EXPIRY. -/
def execHostHoldExpiry (port : Nat) (s : State) : Host.Outcome State Fault Refusal := s.commit (hostHoldExpiryEffect port s.m)

end Sys2Proof.Machine
end

