-- ==== Sys2Proof/Machine/Sha3.lean ====
section
/-! DEFINITION. SHA3-512 (FIPS 202) and KMAC256 (NIST SP 800-185), which R389, R480, R482, R485 and R489 name. The manual states neither
standard; both are taken from it (PRESUMED, log entry 9). -/
namespace Sys2Proof.Machine

/-- A 64-bit lane turned left by `n` places. -/
def laneTurn (n : Nat) (v : Nat) : Nat := (v * 2 ^ n + v / 2 ^ (64 - n)) % 2 ^ 64

/-- The state of Keccak-f[1600] as five planes of five lanes: plane y, and in it lane x. -/
abbrev Planes := List (List Nat)

/-- Theta: each lane takes the parity of the column before it and of the turned column after it. -/
def Planes.theta (p : Planes) : Planes :=
  let parity := p.foldl (List.zipWith Nat.xor) (List.replicate 5 0)
  p.map (List.zipWith Nat.xor (List.zipWith Nat.xor (parity.rotateRight 1) ((parity.rotateLeft 1).map (laneTurn 1))))

/-- The walk over the 24 lanes that rho and pi move, from (1, 0) by (x, y) to (y, 2x + 3y), each lane as x + 5y. -/
def laneWalk : Nat → Nat → Nat → List Nat
  | 0, _, _ => []
  | n + 1, x, y => (x + 5 * y) :: laneWalk n y ((2 * x + 3 * y) % 5)

/-- Rho and pi together: along the walk each lane goes to the next one's place, turned by the triangular numbers 1, 3, 6, … in order. -/
def Planes.rhoPi (p : Planes) : Planes :=
  let old := p.flatten
  let walk := laneWalk 25 1 0
  let moved := (List.range 24).foldl
    (fun l t => l.set (walk.getD (t + 1) 0) (laneTurn ((t + 1) * (t + 2) / 2 % 64) (old.getD (walk.getD t 0) 0))) old
  (List.range 5).map fun y => (moved.drop (5 * y)).take 5

/-- Chi: each lane of a plane takes the lane two on where the lane one on has a 0. -/
def Planes.chi (p : Planes) : Planes :=
  p.map fun r => List.zipWith Nat.xor r (List.zipWith (fun one two => two - (one &&& two)) (r.rotateLeft 1) (r.rotateLeft 2))

/-- Iota's shift register, x^8 + x^6 + x^5 + x^4 + 1, one place on. -/
def iotaNext (r : Nat) : Nat := if r < 128 then 2 * r else (2 * r - 256) ^^^ 0x71

/-- A round's constant, whose bit 2^j - 1 is the register's bit at step j, and the register seven steps on. -/
def iotaConst (r : Nat) : Nat × Nat :=
  (List.range 7).foldl (fun (k, r) j => (k + r % 2 * 2 ^ (2 ^ j - 1), iotaNext r)) (0, r)

/-- Iota: the first lane of the first plane takes the round's constant. -/
def Planes.iota (k : Nat) : Planes → Planes
  | (v :: r) :: p => ((v ^^^ k) :: r) :: p
  | p => p

/-- `n` rounds of Keccak-f[1600], iota's register at `r`. -/
def Planes.rounds : Nat → Nat → Planes → Planes
  | 0, _, p => p
  | n + 1, r, p => Planes.rounds n (iotaConst r).2 (p.theta.rhoPi.chi.iota (iotaConst r).1)

/-- One block of the sponge taken into the state, lane by lane from its first byte, and the 24 rounds after it. -/
def Planes.absorb (p : Planes) (block : List Byte) : Planes :=
  Planes.rounds 24 1 <| (List.range 5).map fun y =>
    (List.range 5).map fun x => (p.getD y []).getD x 0 ^^^ leAt block (8 * (x + 5 * y)) 8

/-- The sponge: input padded after a domain suffix, output of at most one block. -/
def sponge (rate suffix : Nat) (bs : List Byte) (out : Nat) : List Byte :=
  let n := bs.length / rate + 1
  let pad := n * rate - bs.length
  let tail := if pad = 1 then [BitVec.ofNat 8 (suffix + 0x80)]
    else [BitVec.ofNat 8 suffix] ++ List.replicate (pad - 2) 0 ++ [0x80]
  let input := bs ++ tail
  let p := (List.range n).foldl (fun (p : Planes) k => p.absorb (slice input (rate * k) rate)) (List.replicate 5 (List.replicate 5 0))
  (p.flatten.flatMap (leBytes 8)).take out

/-- SHA3-512. -/
def sha3 (bs : List Byte) : List Byte := sponge 72 0x06 bs 64

/-- Big-endian bytes of a length below 2^16, with their count before them. -/
def leftEncode (n : Nat) : List Byte := if n < 256 then [1, BitVec.ofNat 8 n] else [2, BitVec.ofNat 8 (n / 256), BitVec.ofNat 8 n]

/-- A string with its bit length before it. -/
def encodeString (bs : List Byte) : List Byte := leftEncode (8 * bs.length) ++ bs

/-- Padding to whole blocks of 136 bytes, the block size before it. -/
def bytepad (bs : List Byte) : List Byte :=
  let x := leftEncode 136 ++ bs
  x ++ List.replicate (roundUp x.length 136 - x.length) 0

/-- ASCII bytes of a text. -/
def ascii (s : String) : List Byte := s.toList.map fun c => BitVec.ofNat 8 c.toNat

/-- KMAC256 with an output of 256 bits and the customisation string of R489. -/
def kmac256 (key msg : List Byte) : List Byte :=
  sponge 136 0x04 (bytepad (encodeString (ascii "KMAC") ++ encodeString (ascii "LLYN-MGMT")) ++ bytepad (encodeString key) ++ msg ++ [1, 0, 2]) 32

end Sys2Proof.Machine
end

