-- ==== Sys2Proof/Machine/Security.lean ====
section
/-! DEFINITION. The root of trust (chapter 20): measurement registers and their event log (R480, R481), the ML-KEM key pair (R485),
firmware security versions (R488), and the management key (R489). -/
namespace Sys2Proof.Machine

/-- Extends measurement register `r` with a digest, and logs the event (R480, R481). `source` is 0 for the ROM, 1 for firmware. -/
def Block.extend (m : Block) (r source : Nat) (d : List Byte) : Block :=
  let m1 := { m with sec.meas := modifyAt (fun (x : List Byte) => sha3 (x ++ d)) m.sec.meas r }
  if m1.sec.events.length < 32 then
    { m1 with sec.events := m1.sec.events ++ [{ reg := r, source := source, time := m1.time, digest := d }] }
  else m1.setFld Reg.secStatus 60 60 1

/-- Measurement registers and event log after a module reset (R480, R481). -/
def Block.clearMeas (m : Block) : Block :=
  { m with sec.meas := List.replicate 6 (List.replicate 64 0), sec.events := [] }.setFld Reg.secStatus 60 60 0

/-- The ML-KEM-1024 encapsulation key (R485). -/
def Block.kemKey (m : Block) : List Byte := slice (Config.mlKemPublic m.sec.kemSeed) 0 1568

/-- Draws the ML-KEM-1024 key pair (R485). -/
def Block.drawKem (m : Block) : Block :=
  let d := m.drawBytes 64
  let m1 := { d.2 with sec.kemSeed := slice d.1 0 64 }
  m1.setReg Reg.secKemId (BitVec.ofNat 64 (leAt (sha3 m1.kemKey) 0 8))

/-- Draws tenant 0's key of 64 bytes (R164, R484). -/
def Block.drawKey (m : Block) : Block :=
  let d := m.drawBytes 64
  d.2.installKey 0 (slice d.1 0 64)

/-- What the ROM measures into M_1 (Table 20.2): CAP_ID, FW_SVN, AON_STRAPS and the state of DEBUG_LOCK. -/
def Block.platform (m : Block) : List Byte :=
  wordBytes [m.reg Reg.capId, BitVec.ofNat 64 m.minSvn, m.reg Reg.aonStraps, if m.fuse.debugLock then 1 else 0]

/-- The ROM's extensions of M_0 and M_1 (Table 20.2). -/
def Block.measureRom (m : Block) : Block := (m.extend 0 0 (sha3 Config.bootRom)).extend 1 0 (sha3 m.platform)

/-- SEC_EXTEND (R480, R491): firmware extends M_4 or M_5 with SEC_DIGEST. -/
def secExtendEffect (r : Requester) (reg : Nat) (m : Block) : Block :=
  if isFw r then m.extend (4 + reg % 2) 1 (wordBytes m.sec.digest) else m

/-- Whether the module lies inside a suspension window (R332). -/
def Block.suspended (m : Block) : Bool := m.fld Reg.paceStatus 63 63 == 1 || m.pwr.emergOpen || m.pwr.recovery.isSome

/-- Whether a commit of the security version is refused (R488). -/
def Block.svnRefused (m : Block) : Bool :=
  decide (m.fld Reg.fwRun 63 62 > 1) || m.fld Reg.fwRun 61 61 == 1 || m.fld Reg.fwRun 60 60 == 1 || m.suspended

/-- SVN_COMMIT (R488): a write of the confirmation value starts a commit, or sets COMMIT_ERR. A commit in progress goes on. -/
def svnCommitEffect (r : Requester) (confirm : Nat) (m : Block) : Block :=
  if !(isFw r || isSysHost r) ∨ confirm ≠ 0x5356 ∨ m.sec.svnBusy then m
  else if m.svnRefused then m.setFld Reg.secSvnCtl 63 63 1
  else { m with sec.svnBusy := true }.setFld Reg.secSvnCtl 63 62 1   -- BUSY; COMMIT_ERR is of the last commit

/-- SVN_COMMIT_COMPLETE (R488): fuses are blown up to the lesser of 64 and the running image's SVN, never fewer than before. -/
def svnCommitCompleteEffect (m : Block) : Block :=
  if !m.sec.svnBusy then m
  else { m with sec.svnBusy := false, fuse.svnFuses := max m.fuse.svnFuses (min 64 m.fw.runSvn) }.setFld Reg.secSvnCtl 62 62 0

/-- MGMT_KEY_SET (R489): the key written to SEC_MGMT_KEY is taken, and both counters start again at 1. -/
def mgmtKeySetEffect (r : Requester) (m : Block) : Block :=
  if isFw r || isSysHost r then { m with sec.mgmtKey := some (wordBytes m.sec.mgmtWords), sec.mgmtRx := 0, sec.mgmtTx := 1 } else m

/-- MGMT_KEY_CLEAR (R489): the key is zeroised. -/
def mgmtKeyClearEffect (r : Requester) (m : Block) : Block :=
  if isFw r || isSysHost r then { m with sec.mgmtKey := none, sec.mgmtWords := List.replicate 4 0 } else m

/-- SEC_EXTEND. -/
def execSecExtend (r : Requester) (reg : Nat) (s : State) : Host.Outcome State Fault Refusal := s.commit (s.m.byHost r (secExtendEffect r reg))
/-- SVN_COMMIT. -/
def execSvnCommit (r : Requester) (confirm : Nat) (s : State) : Host.Outcome State Fault Refusal :=
  s.commit (s.m.byHost r (svnCommitEffect r confirm))
/-- SVN_COMMIT_COMPLETE. -/
def execSvnCommitComplete (s : State) : Host.Outcome State Fault Refusal := s.commit (svnCommitCompleteEffect s.m)
/-- MGMT_KEY_SET. -/
def execMgmtKeySet (r : Requester) (s : State) : Host.Outcome State Fault Refusal := s.commit (s.m.byHost r (mgmtKeySetEffect r))
/-- MGMT_KEY_CLEAR. -/
def execMgmtKeyClear (r : Requester) (s : State) : Host.Outcome State Fault Refusal := s.commit (s.m.byHost r (mgmtKeyClearEffect r))

end Sys2Proof.Machine
end

