-- ==== Sys2Proof/Machine/Firmware.lean ====
section
/-! DEFINITION. Fjonu firmware (chapter 16): images and their checks (R389, R390), how an image starts (R391, R392), staging (R394 to
R396), activation (R397 to R400), and the log ring (R402 to R404). -/
namespace Sys2Proof.Machine

/- Images -/

/-- Table 16.2: where a field of an image lies. -/
def imgField (img : List Byte) (off n : Nat) : Nat := leAt img off n

/-- VERSION of an image. -/
def imgVersion (img : List Byte) : Nat := imgField img 8 4
/-- SVN of an image. -/
def imgSvn (img : List Byte) : Nat := imgField img 0xC 4
/-- DIGEST of an image. -/
def imgDigest (img : List Byte) : List Byte := slice img 0x40 64

/-- CAP_ID.VARIANT (Table 0.3). -/
def Variant.code : Variant → Nat
  | .sbm3216 => 1
  | .sbm3216s => 2
  | .sbm2412 => 3

/-- Whether bytes [off, off + n) are all zero. -/
def zeroAt (img : List Byte) (off n : Nat) : Bool := (slice img off n).all (· == 0)

/-- R390: an image is sound. -/
def Block.sound (m : Block) (img : List Byte) : Bool :=
  let bytes := imgField img 0x18 8
  let res := imgField img 0x14 4
  let vars := imgField img 0x10 1
  decide (img.length ≥ bytes) &&
  decide (imgField img 0 4 = 0x554E4A46) && decide (imgField img 4 2 = 1) && decide (imgField img 6 2 = 0x1A0C) &&
  zeroAt img 0x12 2 && zeroAt img 0x20 32 && zeroAt img 0x1CB3 845 &&
  vars.testBit m.fuse.variant.code && decide (vars % 16 = vars) && !vars.testBit 0 && decide (imgField img 0x11 1 ≤ m.fuse.stepping) &&
  decide (0x100000 ≤ res) && decide (res ≤ 0x300000) && decide (res % 128 = 0) &&
  decide (bytes ≤ 0x4000000) && decide (0x2000 + res < bytes) &&
  decide (m.minSvn ≤ imgSvn img) &&
  (sha3 (slice img 0x80 2592) == Config.firmwareKeyDigest) &&
  (sha3 (slice img 0 0x40 ++ slice img 0x2000 (bytes - 0x2000)) == imgDigest img) &&
  Config.mlDsaVerify (slice img 0x80 2592) (imgDigest img) (slice img 0xAA0 4627)

/-- The image in a flash slot: 0 slot A, 1 slot B. -/
def Block.slotImage (m : Block) (k : Nat) : List Byte := if k = 0 then m.fw.slotA else m.fw.slotB

/-- Replaces the image in a flash slot. -/
def Block.setSlot (m : Block) (k : Nat) (img : List Byte) : Block :=
  if k = 0 then { m with fw.slotA := img } else { m with fw.slotB := img }

/-- An option-block update (R383): written to the copy that does not stand, which then has the higher sequence number. -/
def Block.writeOpt (m : Block) (f : OptionBlock → OptionBlock) : Block :=
  { m with fw.optOld := m.fw.opt, fw.opt := { f m.fw.opt with seq := m.fw.opt.seq + 1 } }

/- Activation -/

/-- FW_ACT.STATE. -/
def Block.actSt (m : Block) : Nat := m.fld Reg.fwAct 63 60

/-- The target slot of staging (R394): the slot that firmware does not run from. -/
def Block.targetSlot (m : Block) : Nat :=
  let s := m.fld Reg.fwRun 63 62
  if s ≤ 1 then 1 - s else 1 - m.fw.opt.prefSlot % 2

/-- An activation ends with an outcome (Table 16.6), and I3C event bit 4 is raised (R397, R399). -/
def Block.endAct (m : Block) (outcome : Nat) : Block :=
  ((({ m with fw.act := none, fw.fetchStop := false }.setFld Reg.fwAct 63 56 outcome).setReg Reg.fwActEnd (BitVec.ofNat 64 m.time)).i3cEvent 4).trace
    10 0

/-- Activation starts (Table 16.4, step 1). -/
def Block.startDrain (m : Block) : Block :=
  { m with fw.act := m.fw.act.map (fun (a : Activation) => { a with began := m.time }), fw.fetchStop := true }.setFld Reg.fwAct 63 60 2

/-- An activation waits for the end of an emergency (R399). `r` is the tick from which it waits. -/
def Block.deferAct (m : Block) (r : Nat) : Block :=
  ({ m with fw.act := some { request := r, began := r }, fw.fetchStop := false }.setFld Reg.fwAct 63 60 1).setReg Reg.fwActTime (BitVec.ofNat 64 r)

/-- An emergency begins (R399): an activation that drains is deferred again. -/
def Block.actEmergency (m : Block) : Block := if m.actSt = 2 then m.deferAct m.time else m

/-- An emergency has ended (R399): a deferred activation starts, unless its time has run out. -/
def Block.actResume (m : Block) : Block :=
  if m.actSt ≠ 1 then m
  else match m.fw.act with
    | some a => if m.time < a.request + m.fld Reg.fwActDefer 39 0 then m.startDrain else m.endAct 2
    | none => m

/-- A reset or a recovery ends a deferred or draining activation (R400). -/
def Block.actCancel (m : Block) : Block := if m.actSt = 1 ∨ m.actSt = 2 then m.endAct 3 else m

/-- A module reset during staging leaves the state failed (R396). -/
def Block.stageFail (m : Block) : Block :=
  match m.fw.staging with
  | some s => if s.slot ≤ 1 then { m with fw.staging := none }.setReg Reg.fwStaged (putField 0 63 60 4) else { m with fw.staging := none }
  | none => m

/-- An image starts (R392, R398, R480, Table 16.6): measured into M_2, reported in FW_RUN. Firmware that finds FALLBACK = 1 keeps its slot; an
activation has succeeded when the slot that PREF_SLOT names runs. -/
def Block.startImage (m : Block) (slot : Nat) (img : List Byte) : Block :=
  let fb := m.fw.fallback && decide (slot ≤ 1)
  let wasTrial := m.fw.opt.trial
  let run := putField (putBit (putBit (putField 0 63 62 slot) 61 (decide (slot ≤ 1) && wasTrial && !fb)) 60 fb) 31 0 (imgVersion img)
  let m1 := { m.extend 2 0 (imgDigest img) with fw.runSvn := imgSvn img, fw.runSince := m.time, fw.awayAt := m.time
                                                fw.recoveryWait := false, fw.bootSlot := none }.setReg Reg.fwRun run
  let st := m1.actSt
  let chosen := slot == m.fw.opt.prefSlot % 2
  let m2 := if fb then (m1.writeOpt fun o => { o with prefSlot := slot, trial := false, tries := 0 }) else m1
  if st = 3 ∨ st = 4 then
    if chosen then (m2.setReg Reg.fwStaged 0).endAct 1
    else m2.endAct (if slot ≥ 2 then 3 else if st = 3 then 5 else 4)
  else if fb && wasTrial && !chosen then m2.endAct 4
  else m2

/-- Handover and restart (Table 16.4, steps 3 and 4): the option block names the target, and the control complex restarts alone. -/
def Block.handover (m : Block) : Block :=
  let t := m.targetSlot
  { m.writeOpt (fun o => { o with prefSlot := t, trial := true, tries := 0 }) with fw.fwUp := false }.setFld Reg.fwAct 63 60 3

/-- The cores that still run a task of a class other than PACED (R397). -/
def Block.loose (m : Block) : List Nat :=
  (m.cores.filter fun e => e.2.task.any fun q => !(m.running q).any (·.pace.isSome)).map (·.1)

/-- ACTIVATION_DRAIN_LIMIT (Table 16.4, steps 2 and 3): once no command runs, or at the drain limit once no accepted PACED command is left,
tasks still running are pulled up and handover begins. -/
def activationDrainLimitEffect (m : Block) : Block :=
  match m.fw.act with
  | none => m
  | some a =>
    let paced := m.cmd.cmds.any fun c => c.pace.isSome
    let busy := m.cmd.cmds.any fun c => c.started
    if m.actSt ≠ 2 ∨ !m.fwRuns ∨ paced ∨ (busy ∧ m.time < a.began + m.fld Reg.fwActDrain 39 0) then m
    else
      let l := m.loose
      let m1 := l.foldl (fun (b : Block) n => b.pullUp n) m
      { m1 with fw.act := some { a with pulled := l } }.handover

/-- The new firmware takes up the handover block (Table 16.4, step 5): pulled-up tasks and fetching resume. -/
def Block.takeOver (m : Block) (pulled : List Nat) : Block :=
  pulled.foldl (fun m n => match (m.core n).saved with
    | some s => if (m.core n).task.isNone then m.resumeTask n s else m
    | none => m) { m with fw.fwUp := true, fw.fetchStop := false }

/-- Cores pulled up for the activation under way. -/
def Block.actPulled (m : Block) : List Nat := (m.fw.act.map (·.pulled)).getD []

/-- ACTIVATION_RESTART_DONE (Table 16.4, steps 4 and 5; R398): the target image, when it is sound, else the previous slot; where neither is,
the ROM is in recovery wait (R391). Pulled-up tasks resume and fetching resumes. -/
def activationRestartDoneEffect (m : Block) : Block :=
  if m.actSt ≠ 3 ∨ m.fw.fwUp ∨ m.pwr.rst.isSome ∨ !m.pwr.powered then m
  else
    let t := m.fw.opt.prefSlot
    let back (x : Block) : Block := x.takeOver m.actPulled
    if m.sound (m.slotImage t) then back (m.startImage t (m.slotImage t))
    else if m.sound (m.slotImage (1 - t)) then back ({ m with fw.fallback := true }.startImage (1 - t) (m.slotImage (1 - t)))
    else { m with fw.recoveryWait := true }

/-- ACTIVATION_DEFER_EXPIRY (R399): cancelled at r + FW_ACT_DEFER, the staged image kept. -/
def activationDeferExpiryEffect (m : Block) : Block :=
  match m.fw.act with
  | none => m
  | some a => if m.actSt ≠ 1 ∨ m.time < a.request + m.fld Reg.fwActDefer 39 0 then m else m.endAct 2

/-- TRIAL_CONFIRM (R392): a trial slot that has run for 60 s, 1,500,000,000 ticks, in M0. -/
def trialConfirmEffect (m : Block) : Block :=
  if !m.fwRuns ∨ m.pwr.pstate ≠ 0 ∨ m.fld Reg.fwRun 61 61 = 0 ∨ m.fld Reg.fwRun 60 60 = 1 ∨ m.time < m.fw.runSince + 1500000000 then m
  else (m.writeOpt fun o => { o with trial := false, tries := 0 }).setFld Reg.fwRun 61 61 0

/- Staging -/

/-- Image bytes as DATA messages have written them: a later byte replaces an earlier one. -/
def Staging.image (s : Staging) : List (Option Byte) :=
  let start : List (Option Byte) := List.replicate s.total none
  s.written.foldl (fun l w => (l.take w.1) ++ (w.2.take (s.total - min s.total w.1)).map some ++ l.drop (w.1 + w.2.length)) start

/-- Whether the sectors that a DATA message writes are erased. -/
def Staging.ready (s : Staging) (sector off n : Nat) : Bool := decide (min s.total (off + n) ≤ s.erased * sector) || decide (s.total ≤ off)

/-- FW_STAGE BEGIN (R396): the header sector is erased, and the target slot holds no image. -/
def Block.stageBegin (m : Block) (total_ : Nat) : Block :=
  { m.setSlot m.targetSlot [] with fw.staging := some { slot := m.targetSlot, total := total_ } }.setReg Reg.fwStaged (putField 0 63 60 1)

/-- FW_STAGE END (R396): the state, and the status of the answer. -/
def Block.stageEnd (m : Block) (s : Staging) : Block × Nat :=
  let img := s.image
  let m1 := { m with fw.staging := none }
  if img.any Option.isNone then (m1.setReg Reg.fwStaged (putField 0 63 60 4), 2)
  else
    let bs := img.filterMap id
    if !m.sound bs then (m1.setReg Reg.fwStaged (putField 0 63 60 4), 5)
    else ((m1.setSlot s.slot bs).setReg Reg.fwStaged (putField (putField 0 63 60 3) 31 0 (imgVersion bs)), 0)

/-- FW_STAGE ABORT (R396): staging is empty, and an activation scheduled for reset is cancelled. -/
def Block.stageAbort (m : Block) : Block :=
  let m1 := { m with fw.staging := none }.setReg Reg.fwStaged 0
  if m1.actSt = 4 then
    ({ m1.writeOpt (fun o => { o with prefSlot := 1 - m1.targetSlot, trial := false, tries := 0 }) with fw.act := none }).setFld Reg.fwAct 63 60 0
  else m1

/-- ACTIVATION_DRAIN_LIMIT. -/
def execActivationDrainLimit (s : State) : Host.Outcome State Fault Refusal := s.commit (activationDrainLimitEffect s.m)
/-- ACTIVATION_RESTART_DONE. -/
def execActivationRestartDone (s : State) : Host.Outcome State Fault Refusal := s.commit (activationRestartDoneEffect s.m)
/-- ACTIVATION_DEFER_EXPIRY. -/
def execActivationDeferExpiry (s : State) : Host.Outcome State Fault Refusal := s.commit (activationDeferExpiryEffect s.m)
/-- TRIAL_CONFIRM. -/
def execTrialConfirm (s : State) : Host.Outcome State Fault Refusal := s.commit (trialConfirmEffect s.m)

end Sys2Proof.Machine
end

