-- ==== Sys2Proof/Machine/Power.lean ====
section
/-! DEFINITION. Power and temperature (chapter 18): suspension windows (R332), power states (R430, R431), capping (R433, R434, R496),
emergencies (R435, R436, R437), temperatures and coolant (R438, R439), compute-die PLLs (R423). -/
namespace Sys2Proof.Machine

/- Suspension windows (R332) -/

/-- PACE_STATUS shows the window that is open: recovery before emergency where both are (log entry 34). -/
def Block.showWindow (m : Block) : Block :=
  let cause := if m.pwr.recovery.isSome then 1 else if m.pwr.emergOpen then 2 else 0
  m.setReg Reg.paceStatus (putField (putBit 0 63 (decide (cause ≠ 0))) 62 61 cause)

/-- The accepted PACED commands whose window [t_0, t_0 + T) meets a suspension window that opens now are caught (R332). -/
def Block.catchPaced (m : Block) (recovery : Bool) : Block :=
  let mark (t0 : Nat) (p : Pace) : Pace :=
    if m.time < t0 + p.bound then (if recovery then { p with caughtRecovery := true } else { p with caughtEmergency := true }) else p
  { m with cmd.cmds := m.cmd.cmds.map fun (c : Cmd) => { c with pace := c.pace.map (mark c.admitted) } }

/-- A suspension window has opened: its start tick is noted, its end tick reads zero. -/
def Block.windowOpened (m : Block) (recovery : Bool) (start : Nat) : Block :=
  ((m.catchPaced recovery).showWindow.setReg Reg.paceSuspStart (BitVec.ofNat 64 start)).setReg Reg.paceSuspEnd 0

/-- A suspension window has closed: lead ticks that have passed are set to its end (R334). -/
def Block.windowClosed (m : Block) : Block :=
  let m1 := (m.resetLeads m.time).showWindow
  if m1.fld Reg.paceStatus 63 63 = 0 then m1.setReg Reg.paceSuspEnd (BitVec.ofNat 64 m.time) else m1

/- Clocks -/

/-- F_g, the guaranteed clock, in MHz. -/
def Block.fg (m : Block) : Nat := m.fld Reg.paceFg 15 0

/-- Changes every present tile. -/
def Block.allTiles (m : Block) (f : Nat → TileState → TileState) : Block :=
  (List.range m.tileCount).foldl (fun m t => m.modTile t (f t)) m

/-- Whether causes 1 to 3, which brake the whole module, hold. -/
def braking (causes : List Nat) : Bool := causes.any fun c => decide (1 ≤ c) && decide (c ≤ 3)

/-- The brake of each tile and its base die (Table 18.6): under causes 1 to 3 all of them, under cause 4 the hot ones. A tile that
leaves the brake is at F_g. In M2 no clock changes (R437). -/
def Block.applyBrake (m : Block) : Block :=
  if m.pwr.pstate = 2 then m
  else m.allTiles fun _ t =>
    let b := braking m.pwr.causes || (m.pwr.causes.contains 4 && t.hot)
    { t with braked := b, mhz := if t.braked && !b then m.fg else t.mhz }

/- Emergencies -/

/-- The field of PWR_EVENTS that counts a cause. -/
def causeField (cause : Nat) : Nat := 16 * (4 - min cause 4)

/-- An emergency cause begins (R435, R436): counted; the first one opens the window; the hardware brakes; a draining activation is deferred
(R399); I3C event bits are raised (Table 15.6). -/
def Block.emergency (m : Block) (cause : Nat) : Block :=
  if m.pwr.causes.contains cause then m.applyBrake
  else
    let m1 := if cause ≤ 4 then m.satFld Reg.pwrEvents (causeField cause + 15) (causeField cause) 1 else m
    let m2 := { m1 with pwr.causes := m1.pwr.causes ++ [cause], pwr.effDue := m1.pwr.effDue || cause == 3 }
    let m3 := if cause = 1 then m2.i3cEvent 1 else if cause = 2 ∨ cause = 4 then m2.i3cEvent 0 else m2
    let m4 := m3.applyBrake
    if m4.pwr.emergOpen then m4
    else
      let m5 := ({ m4 with pwr.emergOpen := true }.setFld Reg.pwrState 60 58 cause).windowOpened false m.time
      m5.actEmergency.trace 8 6

/-- Whether the always-on domain monitors the module's inputs: from step 3 of Table 17.4 on. -/
def Block.alive (m : Block) : Bool := m.pwr.powered && m.pwr.pstate != 3

/-- BRAKE_ASSERT: PWR_BRAKE_N low for two ticks (Table 18.5). -/
def brakeAssertEffect (ticks : Nat) (m : Block) : Block := if m.alive ∧ ticks ≥ 2 then m.emergency 1 else m

/-- THERM_ALERT_ASSERT: THERM_ALERT_N low for two ticks (Table 18.5). -/
def thermAlertAssertEffect (ticks : Nat) (m : Block) : Block := if m.alive ∧ ticks ≥ 2 then m.emergency 2 else m

/-- OVERCURRENT_DETECT: more than 160 A, in units of 10 mA, for 500 ticks (Table 18.5). -/
def overcurrentDetectEffect (ca ticks : Nat) (m : Block) : Block := if m.alive ∧ ca > 16000 ∧ ticks ≥ 500 then m.emergency 3 else m

/-- TILE_EMERGENCY_TEMP: a tile's sensor at or above PWR_THERM.EMERG (Table 18.5). -/
def tileEmergencyTempEffect (tile temp : Nat) (m : Block) : Block :=
  if !m.alive ∨ tile ≥ m.tileCount ∨ temp < m.fld Reg.pwrTherm 31 16 then m
  else (m.modTile tile fun t => { t with temp := temp, hot := true }).emergency 4

/-- Whether the end condition of a cause has held for long enough (Table 18.5). Cause 5 ends with device recovery. -/
def Block.causeOver (m : Block) (cause ticks : Nat) : Bool :=
  m.pwr.causes.contains cause && decide (ticks ≥ 25000) &&
    (match cause with
     | 1 | 2 | 3 => true
     | 4 => (List.range m.tileCount).all fun t => decide ((m.tile t).temp < m.fld Reg.pwrTherm 47 32)
     | _ => false)

/-- A cause has ended: what it alone braked returns to F_g (Table 18.6, step 5). -/
def Block.endCause (m : Block) (cause : Nat) : Block :=
  let m1 := { m with pwr.causes := m.pwr.causes.filter (· != cause) }
  (if cause = 4 then m1.allTiles fun _ t => { t with hot := false } else m1).applyBrake

/-- EMERGENCY_CAUSE_END (R435). `ticks`: for how long the condition has held. -/
def emergencyCauseEndEffect (cause ticks : Nat) (m : Block) : Block := if m.causeOver cause ticks then m.endCause cause else m

/-- The variant's sustained power in watts (Table 18.1). -/
def Block.sustained (m : Block) : Nat := if m.fuse.variant = .sbm2412 then 5500 else 7200

/-- A write of PWR_CAP, clamped to its range (R434): stored until the end of an emergency, and while a warning lowers the cap kept for its
end. -/
def Block.writeCap (m : Block) (w : Nat) : Block :=
  let c := max 2880 (min w m.sustained)
  if m.pwr.emergOpen then { m with pwr.capLater := some c }
  else if m.pwr.capSaved.isSome then { m with pwr.capSaved := some c }.setFld Reg.pwrCap 15 0 (min c (m.sustained * 9 / 10))
  else m.setFld Reg.pwrCap 15 0 c

/-- Every tile's clock is at F_g or above. -/
def Block.clocksBack (m : Block) : Bool := (List.range m.tileCount).all fun t => decide (m.fg ≤ (m.tile t).clock)

/-- EMERGENCY_WINDOW_CLOSE (R435): no cause is left and every clock is back. A cap written meanwhile takes effect (R434), the effective cap of
a cause-3 emergency begins (R496), and a deferred activation goes on (R399). -/
def emergencyWindowCloseEffect (m : Block) : Block :=
  if !m.pwr.emergOpen ∨ !m.pwr.causes.isEmpty ∨ (m.pwr.pstate ≠ 2 ∧ !m.clocksBack) then m
  else
    let m1 := { m with pwr.emergOpen := false, pwr.effCap := m.pwr.effCap || m.pwr.effDue, pwr.effDue := false, pwr.capLater := none, pwr.under97 := 0 }
    let m2 := match m.pwr.capLater with
      | some w => m1.writeCap w
      | none => m1
    m2.windowClosed.actResume.trace 8 6

/- Capping -/

/-- The cap that a window is held against, in watts (R433, R496). -/
def Block.capNow (m : Block) (mv : Nat) : Nat :=
  let cap := m.fld Reg.pwrCap 15 0
  if m.pwr.effCap then min cap (1455 * mv / 10000) else cap

/-- A clock one step down, never below F_g (R433). -/
def stepDown (fg mhz : Nat) : Nat := if mhz ≤ fg then mhz else max fg (mhz - 100)

/-- The telemetry of a window (Table 18.8). Rail powers are open values; rail 7 is what the rails leave of the input (Table 18.2). -/
def Block.telemetry (m : Block) (mw mv ca : Nat) (temps : List Nat) : Block :=
  let rails := (List.range 7).map fun i => field (Config.freeWord (m.free + i)) 31 0
  let loss := mw - total rails
  let m1 := { m with free := m.free + 7, pwr.uj := m.pwr.uj + mw }
  let m2 := (m1.setReg Reg.pwrInput (BitVec.ofNat 64 (mv % 65536 * 2 ^ 48 + ca % 65536 * 2 ^ 32 + mw % 2 ^ 32))).setReg Reg.pwrEnergy
    (BitVec.ofNat 64 (m1.pwr.uj / 1000))
  let m3 := (rails ++ [loss]).zipIdx.foldl (fun m r => m.setReg (Reg.pwrRail r.2) (BitVec.ofNat 64 (r.1 % 2 ^ 32))) m2
  (List.range m3.tileCount).foldl (fun m t =>
    let now := temps.getD t 0 % 65536
    (m.modTile t fun x => { x with temp := now }).setReg (Reg.pwrTemp t)
      (putField (putField 0 63 48 (max now (m.fld (Reg.pwrTemp t) 63 48))) 15 0 now)) m3

/-- What firmware does at the end of a window (R433, R438). -/
def Block.capStep (m : Block) (mw mv : Nat) : Block :=
  let cap := m.capNow mv
  let fg := m.fg
  let above := decide (mw > 1000 * cap)
  let low := decide (100 * mw < 97 * 1000 * cap)
  let n := if low then m.pwr.under97 + 1 else 0
  let raise_ := decide (n ≥ 10)
  let unmet := above && (List.range m.tileCount).all fun t => decide ((m.tile t).mhz ≤ fg)
  let m1 := { m with pwr.under97 := if raise_ then 0 else n }.setFld Reg.pwrLimits 63 63 (if unmet then 1 else 0)
  m1.allTiles fun _ t =>
    if above || decide (m.fld Reg.pwrTherm 47 32 ≤ t.temp) then { t with mhz := stepDown fg t.mhz }
    else if raise_ then { t with mhz := min 3000 (t.mhz + 100) }
    else t

/-- POWER_CAP_WINDOW (R433): the end of a 1 ms window with its measurements: input power in mW, voltage in mV, current in units of 10 mA,
and tile temperatures in units of 0.1 °C. In an emergency the hardware's clocks stand. -/
def powerCapWindowEffect (mw mv ca : Nat) (temps : List Nat) (m : Block) : Block :=
  if !m.alive ∨ !m.fw.fwUp then m
  else
    let m1 := m.telemetry mw mv ca temps
    if m1.pwr.emergOpen then m1 else m1.capStep mw mv

/-- EFFECTIVE_CAP_END (R496): the input has stayed at 48.0 V or above for 1 s. -/
def effectiveCapEndEffect (mv ticks : Nat) (m : Block) : Block :=
  if mv ≥ 48000 ∧ ticks ≥ 25000000 then { m with pwr.effCap := false } else m

/-- COOLANT_WARN (R439): temperatures in units of 0.1 °C; for how many seconds the inlet has been above 40.0 °C. -/
def coolantWarnEffect (inlet outlet secondsHot : Nat) (m : Block) : Block :=
  if !m.alive ∨ !m.fw.fwUp then m
  else
    let m1 := m.setFld Reg.pwrCool 31 0 (inlet % 65536 * 65536 + outlet % 65536)
    let hot := decide (inlet > 400) && decide (secondsHot ≥ 1)
    let rise := decide (outlet > inlet + 150) && decide (m.fld Reg.pwrInput 31 0 ≤ 1000 * m.sustained)
    if !(hot || rise) ∨ m.fld Reg.pwrCool 63 63 = 1 then m1
    else
      let cap := m.fld Reg.pwrCap 15 0
      { m1.setFld Reg.pwrCool 63 63 1 with pwr.pins.modAlertN := false, pwr.capSaved := some cap }.setFld Reg.pwrCap 15 0
        (min cap (m.sustained * 9 / 10))

/-- Host software clears PWR_COOL.WARN: the alert is withdrawn and the cap is what it was (R439). -/
def Block.clearWarn (m : Block) : Block :=
  let m1 := { m.setFld Reg.pwrCool 63 63 0 with pwr.pins.modAlertN := true, pwr.capSaved := none }
  match m.pwr.capSaved with
  | some c => m1.setFld Reg.pwrCap 15 0 c
  | none => m1

/- Power states -/

/-- TILE_PLL_IDLE_STOP (R423): no core of the tile has a task and none has had for TILE_CLK_IDLE ticks. -/
def tilePllIdleStopEffect (tile : Nat) (m : Block) : Block :=
  let busy := (List.range 8).any fun c => (m.core (8 * tile + c)).task.isSome
  if tile ≥ m.tileCount ∨ !m.fwRuns ∨ busy ∨ m.time < (m.tile tile).idleFrom + m.fld Reg.tileClkIdle 31 0 then m
  else m.modTile tile fun t => { t with pllOn := false }

/-- M1_ENTRY (Table 18.3): every tile's PLL has stopped. -/
def m1EntryEffect (m : Block) : Block :=
  if !m.fwRuns ∨ m.pwr.pstate ≠ 0 ∨ (List.range m.tileCount).any fun t => (m.tile t).pllOn then m
  else { m with pwr.pstate := 1, fw.awayAt := m.time }

/-- STANDBY_REQUEST (R431, R441): a write of PWR_CTL.REQ = 2. -/
def standbyRequestEffect (r : Requester) (m : Block) : Block := if isFw r || isSysHost r then m.setReg Reg.pwrCtl 2 else m

/-- Whether nothing keeps the module out of M2 (R431): no command is accepted and uncompleted, no collective or exchange is open, and
no engine holds work. -/
def Block.quiet (m : Block) : Bool :=
  m.cmd.cmds.isEmpty && m.cmd.scrubs.isEmpty && m.eng.colls.isEmpty && m.eng.collHeld.isEmpty && m.eng.collOut.isEmpty &&
    m.eng.xjobs.isEmpty && m.eng.xout.isEmpty && (m.eng.armed.all fun e => e.2.isEmpty) && (m.eng.heldClaims.all fun e => e.2.isEmpty) &&
    m.eng.codecs.isEmpty && m.eng.grooms.isEmpty && (m.chans.all fun e => e.2.isEmpty) && m.page.urgent.isEmpty && m.page.background.isEmpty &&
    (m.fab.tx.all fun p => p.unacked.isEmpty) && m.fab.reads.isEmpty && (m.cmd.contexts.all fun x => x.tear.isNone)

/-- A memory's status register moves from one state to another. -/
def Block.moveState (m : Block) (old new r : Nat) : Block := if m.fld r 63 60 = old then m.setFld r 63 60 new else m

/-- Moves the stacks that are in a state to another (Table 7.3): training is 1, ready 2, self-refresh 3. -/
def Block.stacksTo (m : Block) (old new : Nat) : Block :=
  (List.range m.stackCount).foldl (fun m s => m.moveState old new (Reg.hbmStatus s)) m

/-- Moves the memories that are in a state to another (Tables 7.3, 7.5). -/
def Block.memState (m : Block) (old new : Nat) : Block :=
  (List.range 16).foldl (fun m c => m.moveState old new (Reg.ddrStatus c)) (m.stacksTo old new)

/-- Training of a stack: ready, or failed, and then every tenant with a range in it has a record of KIND 11 (R165, R466). -/
def Block.trainStack (m : Block) (s : Nat) : Block :=
  if !m.flt.deadStacks.contains s then
    { m.setFld (Reg.hbmStatus s) 63 60 2 with flt.failedStacks := m.flt.failedStacks.filter (· != s) }
  else
    let m1 := m.setFld (Reg.hbmStatus s) 63 60 4
    if m1.flt.failedStacks.contains s then m1
    else
      let hit (r : Range) : Bool := overlaps r.base r.size (s * 0x1000000000) 0x1000000000
      let ts := ((m1.cmd.ranges.filter hit).map (·.tenant)).dedup
      ts.foldl (fun m t => m.faultFor 11 0xFF 0 t 0 (s * 0x1000000000) 0 0 0 0 none) { m1 with flt.failedStacks := insertNat m1.flt.failedStacks s }

/-- Training of the stacks that wait for it. -/
def Block.trainStacks (m : Block) : Block :=
  ((List.range m.stackCount).filter fun s => m.fld (Reg.hbmStatus s) 63 60 == 1).foldl Block.trainStack m

/-- M2_ENTRY (R431). -/
def m2EntryEffect (m : Block) : Block :=
  if !m.fwRuns ∨ m.fld Reg.pwrCtl 1 0 ≠ 2 ∨ !m.quiet then m
  else
    let m1 := if m.pwr.pstate = 0 then { m with fw.awayAt := m.time } else m
    ({ m1 with pwr.pstate := 2, pwr.wake := false }.memState 2 3).allTiles fun _ t => { t with pllOn := false }

/-- M2_WAKE (Table 18.3): on a run request, or when a doorbell, a GO or a burst has asked for it. The memories leave self-refresh and train
again before an access (R165). -/
def m2WakeEffect (m : Block) : Block :=
  if m.pwr.pstate ≠ 2 ∨ !(m.pwr.wake ∨ m.fld Reg.pwrCtl 1 0 = 0) then m
  else
    let m1 := (m.stacksTo 3 1).trainStacks
    (({ m1.toM0 with pwr.wake := false }.memState 3 2).allTiles fun _ t => { t with pllOn := true, idleFrom := m.time }).applyBrake

/-- BRAKE_ASSERT. -/
def execBrakeAssert (ticks : Nat) (s : State) : Host.Outcome State Fault Refusal := s.commit (brakeAssertEffect ticks s.m)
/-- THERM_ALERT_ASSERT. -/
def execThermAlertAssert (ticks : Nat) (s : State) : Host.Outcome State Fault Refusal := s.commit (thermAlertAssertEffect ticks s.m)
/-- OVERCURRENT_DETECT. -/
def execOvercurrentDetect (ca ticks : Nat) (s : State) : Host.Outcome State Fault Refusal := s.commit (overcurrentDetectEffect ca ticks s.m)
/-- TILE_EMERGENCY_TEMP. -/
def execTileEmergencyTemp (tile temp : Nat) (s : State) : Host.Outcome State Fault Refusal := s.commit (tileEmergencyTempEffect tile temp s.m)
/-- EMERGENCY_CAUSE_END. -/
def execEmergencyCauseEnd (cause ticks : Nat) (s : State) : Host.Outcome State Fault Refusal := s.commit (emergencyCauseEndEffect cause ticks s.m)
/-- EMERGENCY_WINDOW_CLOSE. -/
def execEmergencyWindowClose (s : State) : Host.Outcome State Fault Refusal := s.commit (emergencyWindowCloseEffect s.m)
/-- POWER_CAP_WINDOW. -/
def execPowerCapWindow (mw mv ca : Nat) (temps : List Nat) (s : State) : Host.Outcome State Fault Refusal :=
  s.commit (powerCapWindowEffect mw mv ca temps s.m)
/-- EFFECTIVE_CAP_END. -/
def execEffectiveCapEnd (mv ticks : Nat) (s : State) : Host.Outcome State Fault Refusal := s.commit (effectiveCapEndEffect mv ticks s.m)
/-- COOLANT_WARN. -/
def execCoolantWarn (inlet outlet secondsHot : Nat) (s : State) : Host.Outcome State Fault Refusal :=
  s.commit (coolantWarnEffect inlet outlet secondsHot s.m)
/-- TILE_PLL_IDLE_STOP. -/
def execTilePllIdleStop (tile : Nat) (s : State) : Host.Outcome State Fault Refusal := s.commit (tilePllIdleStopEffect tile s.m)
/-- M1_ENTRY. -/
def execM1Entry (s : State) : Host.Outcome State Fault Refusal := s.commit (m1EntryEffect s.m)
/-- STANDBY_REQUEST. -/
def execStandbyRequest (r : Requester) (s : State) : Host.Outcome State Fault Refusal := s.commit (s.m.byHost r (standbyRequestEffect r))
/-- M2_ENTRY. -/
def execM2Entry (s : State) : Host.Outcome State Fault Refusal := s.commit (m2EntryEffect s.m)
/-- M2_WAKE. -/
def execM2Wake (s : State) : Host.Outcome State Fault Refusal := s.commit (m2WakeEffect s.m)

end Sys2Proof.Machine
end

