-- ==== Sys2Proof/Machine/Recovery.lean ====
section
/-! DEFINITION. Operations that resets, faults and recovery share: hang records (R451), replay from the stud book (R459 to R462), resets of
core, tile and engine scope (R408, R512), remounts (R100, R468 to R472), module reset requests (R407, R411) and the start of device recovery
(R453). -/
namespace Sys2Proof.Machine

/- Hang records (R451) -/

/-- The words of a hang record after its header (Table 19.6): queues of contexts with work on the affected cores, hitches of those cores,
state of every affected master, and the module's registers. The order within a record is the model's (log entry 35). -/
def Block.hangWords (m : Block) (units : List (Nat × Nat)) : List Word :=
  let cores := (units.filter fun u => u.1 == 0).map (·.2)
  let qs := m.cmd.queues.filter fun q => units.any fun u => (m.serves u.1 u.2 q.id.tenant q.id.ctx) == some q.id
  let queueWords := qs.flatMap fun q => [q.word, BitVec.ofNat 64 q.cls, BitVec.ofNat 64 (q.ready.getD 0), BitVec.ofNat 64 (((m.cmd.cmds.filter fun c => c.q == q.id).getLast?.map (·.admitted)).getD 0)]
  let hitchWords := cores.flatMap fun n =>
    [m.reg (Reg.coreHitchWait n), m.reg (Reg.coreHitchTarget n),
     BitVec.ofNat 64 (((m.coreHitch n (m.fld (Reg.coreHitchWait n) 9 0)).map m.hitchVal).getD 0)]
  let unitWords := units.flatMap fun u =>
    [BitVec.ofNat 64 (u.1 * 65536 + u.2),
     if u.1 = 0 then m.reg (Reg.coreSeqProgress u.2) else if u.1 = 1 then m.reg (Reg.tileDmaStatus (u.2 / 128) (u.2 % 128)) else m.reg (ringHead u.1 u.2),
     BitVec.ofNat 64 (Tbl.getD 0 m.flt.progAt (4096 * u.1 + u.2))]
  queueWords ++ hitchWords ++ unitWords ++
    [BitVec.ofNat 64 m.ahead, m.reg Reg.pwrState, m.reg Reg.rstStatus] ++
    (List.range m.portCount).map (fun p => m.reg (Reg.fabPortStatus p)) ++ [m.reg (Reg.choPortStatus 0), m.reg (Reg.choPortStatus 1)]

/-- Captures a hang record: level 1 core, 2 tile, 3 module warm, 4 device recovery; FLAGS bit 1 marks a MINIMAL record. The flash keeps the
last 1,024. -/
def Block.capture (m : Block) (level trigger flags : Nat) (units : List (Nat × Nat)) : Block :=
  let r : HangRec := { seq := m.fld Reg.aonHang 31 0, time := m.time, level := level, trigger := trigger, flags := flags
                       words := if flags.testBit 1 then [] else m.hangWords units }
  let l := m.flt.hangs ++ [r]
  ({ m with flt.hangs := l.drop (l.length - 1024) }.satFld Reg.aonHang 63 32 1).addFld Reg.aonHang 31 0 1

/- Replay (R459 to R462) -/

/-- A command runs again from its start. What it bound when it was accepted, and its payload, stand (R252, R254). -/
def Cmd.again (c : Cmd) : Cmd :=
  { c with started := false, replays := c.replays + 1, replayed := true, wait := .none, faultSeq := none, peers := [], peerLost := false
           objLost := false, result := 0 }

/-- Replays an uncompleted command (R460 to R462): a started NONREPLAY command is refused, the third replay ends it FAULTED, an admin command
that waits for what goes on without it goes on waiting. -/
def Block.replay (m : Block) (c : Cmd) : Block :=
  let m1 := { m with cmd.cmds := mapIf (fun (x : Cmd) => x.q == c.q && x.sqHead == c.sqHead) (fun (x : Cmd) => { x with started := true }) m.cmd.cmds }
  let put (m : Block) (f : Cmd → Cmd) : Block := { m with cmd.cmds := mapIf (fun (x : Cmd) => x.q == c.q && x.sqHead == c.sqHead) f m.cmd.cmds }
  if bit (wordAt c.packet 0) 47 then
    if c.started then m1.complete c.q 0x13 0 else m.markReady c.q
  else if c.shown then (put m1 fun x => { x with replayed := true }).complete c.q 0 0
  else if c.replays + 1 ≥ 3 then
    (m1.faultFor 12 0xFF 0 c.q.tenant c.q.ctx 0 0 0 0 0 (some c.q)).complete c.q 0xB (m1.faultSeq c.q.tenant)
  else if c.opcode < 0x100 ∧ c.started ∧ c.wait ≠ .none then put m fun x => { x with replays := x.replays + 1, replayed := true }
  else (put m fun x => x.again).markReady c.q

/-- Commands whose record has not reached its home are uncompleted when recovery starts (R459); records that a lost host's hold keeps are not
lost (Table 19.8). -/
def Block.reopenBook (m : Block) : Block :=
  let entry (h : HeldRecord) : Option Cmd := h.entry.map fun c =>
    { c with shown := decide (c.opcode < 0x100) && field (wordAt h.record 0) 63 48 == 0 }
  { m with
    cmd.cmds := (m.cmd.queues.flatMap fun q => q.held.filterMap entry) ++ m.cmd.cmds
    cmd.queues := m.cmd.queues.map fun (q : Queue) => { q with held := q.held.filter (·.entry.isNone) } }

/- Resets of core, engine and tile scope (R408, R512) -/

/-- Resets logical core `n`: sequencer, units, unit queues and operand buffers. Core memory and its map stand; a pulled-up task, which lies in
firmware's HBM area, too. -/
def Block.resetCore (m : Block) (n : Nat) : Block :=
  let c := m.core n
  let own (o : Nat) : Bool := decide (Reg.coreSeqStatus n ≤ o) && decide (o < Reg.coreSeqStatus n + 0x1000) && o != Reg.corePhys n
  { (m.resetRegs own).setCore n { cmCorr := c.cmCorr, cmUncorr := c.cmUncorr, hangs := c.hangs, saved := c.saved } with
    bufs := m.bufs.filter fun (e : Host.Cell) => !inBufs n e.1
    bufPoison := m.bufPoison.filter fun k => !inBufs n k
    flt.progAt := Tbl.drop m.flt.progAt n }

/-- A DMA channel discards what it holds; DONE counts none of it, and the owner stays (R512). -/
def Block.resetChannel (m : Block) (t k : Nat) : Block :=
  let m1 := (m.setChan t k []).setFld (Reg.tileDmaStatus t k) 63 32 0
  m1.modTile t fun x => { x with engines := x.engines.map fun e => if e = some k then none else e }

/-- A ring abandons its job, whose RESULT keeps what it held, and HEAD equals TAIL; owner and base stay (R512). -/
def Block.resetRing (m : Block) (mtype idx : Nat) : Block :=
  let m1 := m.dropRing (mtype, idx)
  (m1.setFld (ringHead mtype idx) (ringTop mtype) 0 (m1.tailOf mtype idx)).setFld (ringHead mtype idx) 63 60 0

/-- INDEX of RST_CMD for engines, as the model codes it (log entry 36): 128 × tile + channel; 0x800 + 32 × die + codec ring; 0xA00 + 8 × tile +
Drover ring; 0xA80 + Groom stack; 0xAA0 + collective die; 0xAC0 + protocol engine; 0xAE0 + paging engine; 0xB00 + 4 × tile + copy engine. -/
inductive Engine where
  | dma (t k : Nat) | codec (i : Nat) | drover (i : Nat) | groom (s : Nat) | coll (d : Nat) | proto (e : Nat) | paging (e : Nat) | copy (t e : Nat)
  deriving DecidableEq, Repr

/-- The engine an INDEX names. -/
def engineOf (i : Nat) : Option Engine :=
  if i < 0x800 then some (.dma (i / 128) (i % 128))
  else if i < 0xA00 then some (.codec (i - 0x800))
  else if i < 0xA80 then some (.drover (i - 0xA00))
  else if i < 0xAA0 then some (.groom (i - 0xA80))
  else if i < 0xAB0 then some (.coll (i - 0xAA0))
  else if 0xAC0 ≤ i ∧ i < 0xAD0 then some (.proto (i - 0xAC0))
  else if 0xAE0 ≤ i ∧ i < 0xAF0 then some (.paging (i - 0xAE0))
  else if 0xB00 ≤ i ∧ i < 0xB40 then some (.copy ((i - 0xB00) / 4) (i % 4))
  else none

/-- The tile of a tile-level engine. -/
def Engine.tile? : Engine → Option Nat
  | .dma t _ => some t
  | .drover i => some (i / 8)
  | .copy t _ => some t
  | _ => none

/-- Resets tile `t`: its cores, line cache, channels, copy engines and Drover (R408). -/
def Block.resetTile (m : Block) (t : Nat) : Block :=
  let m1 := (List.range 8).foldl (fun m c => m.resetCore (8 * t + c)) m
  let m2 := (List.range 128).foldl (fun m k => if (m.chan t k).isEmpty ∧ m.reg (Reg.tileDmaStatus t k) = 0 then m else
      (m.resetChannel t k).setReg (Reg.tileDmaStatus t k) 0) m1
  let m3 := (List.range 8).foldl (fun m k => m.resetRing 3 (8 * t + k)) m2
  let gone (o : Nat) : Bool :=
    o == Reg.tileLcHits t || o == Reg.tileLcMisses t || o == Reg.tileLcAcq t || o == Reg.drvCfg t ||
      (decide (Reg.drvRowsSent t 0 ≤ o) && decide (o < Reg.drvRowsSent t 8))
  let x := m3.tile t
  { (m3.resetRegs gone).setTile t { x with lines := [], stamp := x.stamp + 1, floor := x.stamp + 1, engines := [none, none, none, none]
                                           nextChan := 0, cmdChan := none, cmdDone := 0, cmdTag := none } with
    eng.armed := Tbl.drop m3.eng.armed t
    eng.heldClaims := Tbl.drop m3.eng.heldClaims t }

/-- The started commands whose work lies on the cores given. -/
def Block.onCores (m : Block) (l : List Nat) : List Cmd :=
  m.cmd.cmds.filter fun c => c.started && l.any fun n => (m.core n).task == some c.q || (m.core n).saved.any fun s => s.task == some c.q

/-- Stops what a command has running: its cores with FW_STOP, its other units (R444). Channels and rings that serve it halt. -/
def Block.stopServing (m : Block) (q : QueueId) : Block :=
  let chans := (m.ctxChannels q.tenant q.ctx).filter fun tk => m.serves 1 (128 * tk.1 + tk.2) q.tenant q.ctx == some q && !(m.chan tk.1 tk.2).isEmpty
  let rings := (m.ctxRings q.tenant q.ctx).filter fun r => m.serves r.1 r.2 q.tenant q.ctx == some q && m.ringSt r.1 r.2 == 1
  let m1 := (m.taskCores q).foldl (fun m n => m.stopCore n 8) m
  let m2 := chans.foldl (fun m tk => m.setFld (Reg.tileDmaStatus tk.1 tk.2) 63 60 2) m1
  let m3 := rings.foldl (fun m r => m.setFld (ringHead r.1 r.2) 63 60 2) m2
  m3.dropUnits q

/-- Interrupted commands run again (R450): everything else of theirs is stopped first. -/
def Block.replayAll (m : Block) (l : List Cmd) : Block :=
  l.foldl (fun m c => ((m.stopServing c.q).releaseCores c.q).replay c) m

/-- Resets one engine (R512). A copy engine takes up a channel anew; a protocol engine sends again what is not acknowledged (R352); a paging
engine's segment is moved again. Commands whose collectives it ends run again (DEDUCED, log entry 36). -/
def Block.resetEngine (m : Block) (e : Engine) : Block :=
  match e with
  | .dma t k => m.resetChannel t k
  | .codec i => m.resetRing 2 i
  | .drover i => m.resetRing 3 i
  | .groom s => (List.range 4).foldl (fun m k => if m.ringSt 4 (4 * s + k) = 1 then m.resetRing 4 (4 * s + k) else m) m
  | .coll d =>
    let cmds := m.cmd.cmds.filter fun x => m.eng.colls.any fun c => c.die == d && c.q == x.q
    { m with eng.colls := m.eng.colls.filter fun (c : Coll) => c.die != d
             eng.collOut := m.eng.collOut.filter fun (x : CollOut) => x.die != d }.replayAll cmds
  | .proto c => (m.connectorPorts c).foldl (fun m p => m.retrainPort p) m
  | .paging k => { m with page.engines := Tbl.drop m.page.engines k }
  | .copy t k => m.modTile t fun x => { x with engines := x.engines.set k none }

/- Remounts -/

/-- The physical core behind logical core `n`. -/
def Block.phys (m : Block) (n : Nat) : Nat := m.fld (Reg.tileCoreMap (n / 8)) (4 * (n % 8) + 3) (4 * (n % 8))

/-- The lowest spare-ready physical core of tile `t` (Table 4.12). -/
def Block.spareOf (m : Block) (t : Nat) : Option Nat := (List.range 10).find? fun p => m.fld (Reg.tileCoreState t) (2 * p + 1) (2 * p) == 1

/-- Sets the physical core behind logical core `n` with one write of the map (R100); CORE_PHYS follows. -/
def Block.setPhys (m : Block) (n p : Nat) : Block :=
  (m.setFld (Reg.tileCoreMap (n / 8)) (4 * (n % 8) + 3) (4 * (n % 8)) p).setReg (Reg.corePhys n) (BitVec.ofNat 64 (n / 8 * 256 + p))

/-- Programs placed on a core are placed again (R453). -/
def Block.relay (m : Block) (n : Nat) : Block :=
  (m.cmd.programs.filter fun p => p.slots.contains n).foldl (fun m p => match m.context? p.tenant p.ctx with
    | some x => m.layProgram x { p with placed := p.placed.filter fun q => p.slots.getD q.1 0 == n }
    | none => m) m

/-- Remounts logical core `n` onto a spare (R100, R468, R469), or makes it unavailable (R472). `row`: the row of Table 19.11. The new core's
memory is scrubbed and its programs are placed again; line caches drop what they hold of it. -/
def Block.remountCore (m : Block) (n row count : Nat) : Block :=
  let t := n / 8
  let old := m.phys n
  let sp := m.spareOf t
  let m1 := (m.setFld (Reg.tileCoreState t) (2 * old + 1) (2 * old) 2).addWear 1 row t old (sp.getD (2 ^ 64 - 1)) count
  let m2 := match sp with
    | some p => (m1.setFld (Reg.tileCoreState t) (2 * p + 1) (2 * p) 0).setPhys n p
    | none => m1.setPhys n 0xF
  let m3 := ((m2.resetCore n).zeroFill (coreWindow n) 0x600000).modCore n fun c => { c with cmCorr := [], cmUncorr := [], hangs := 0 }
  ({ m3 with ecc := m3.ecc.filter fun (e : Nat × List Nat) => !(decide (coreWindow n ≤ 128 * e.1) && decide (128 * e.1 < coreWindow n + 0x600000)) }.relay n).invalidateAll

/- Module resets: requests (R407, R411) -/

/-- RST_STATUS.PHASE. -/
def Block.phase (m : Block) : Nat := m.fld Reg.rstStatus 63 60

/-- Option loading runs (R417). -/
def Block.optLoading (m : Block) : Bool := decide (1 ≤ m.phase) && decide (m.phase ≤ 3)

/-- The start of device recovery (R453, Table 19.7 phase 1): its window opens, peers are told, a hang record is captured but for a reset by
MOD_RST_N (R452), a deferred or draining activation is cancelled (R400). -/
def Block.openRecovery (m : Block) (source : Nat) : Block :=
  let m1 := { m.actCancel.reopenBook with pwr.recovery := some (m.time, 1), pwr.healthState := 1, fab.sendRecovering := true }
  let m2 := ((m1.setReg Reg.aonRecovStart (BitVec.ofNat 64 m.time)).setReg Reg.aonRecovEnd 0).satFld Reg.aonRecov 63 32 1
  let m3 := if source = 2 then m2 else
    m2.capture (if source = 7 then 4 else 3) source 0 ((m.cores.filter fun e => e.2.task.isSome).map fun e => (0, e.1))
  ((m3.i3cEvent 3).windowOpened true m.time).trace 7 5

/-- A cold reset asked for after a thermal trip is accepted only over I3C or the management port and once every sensor reads below CAP (R438). -/
def Block.tripAllows (m : Block) (cold : Bool) (source : Nat) : Bool :=
  !m.pwr.trip || (cold && (source == 4 || source == 5) &&
    (List.range m.tileCount).all fun t => decide ((m.tile t).temp < m.fld Reg.pwrTherm 47 32))

/-- A request of a module reset (R411, R418). One that meets another is absorbed, a cold one making it cold; narrower resets are absorbed; a
warm reset of a module that runs starts device recovery (R409), one during recovery restarts it at phase 2 (R458). -/
def Block.requestReset (m : Block) (cold : Bool) (source : Nat) : Block :=
  if !m.pwr.powered ∨ m.pwr.stuck ∨ !m.tripAllows cold source then m
  else match m.pwr.rst with
    | some r =>
      let m1 := m.satFld Reg.rstStatus 47 32 1
      if cold && !r.cold then { m1 with pwr.rst := some { r with cold := true, source := source, request := m.time, asserted := none } } else m1
    | none =>
      let again := m.optLoading
      let isCold := cold || (again && m.pwr.coldOpt)
      let m1 := (m.satFld Reg.rstStatus 47 32 m.pwr.narrow.length)
      let m2 := { m1 with pwr.narrow := [], pwr.rst := some { cold := isCold, source := source, request := m.time, restart := again } }
      if isCold then m2.actCancel
      else if m2.pwr.recovery.isSome then { m2 with pwr.recovery := m2.pwr.recovery.map fun r => (r.1, 2) }
      else m2.openRecovery source

/-- Firmware starts device recovery and resets the module (R453). A trigger in the last phase starts another recovery afterwards, one during the
handover of an activation when the new firmware starts (R400, R458); others are part of the recovery under way. -/
def Block.startRecovery (m : Block) : Block :=
  match m.pwr.recovery with
  | some (_, p) => if p ≥ 4 then { m with pwr.recoverAgain := true } else m
  | none => if m.actSt = 3 then { m with pwr.recoverAgain := true } else m.requestReset false 7

end Sys2Proof.Machine
end

