-- ==== Sys2Proof/Machine/Faults.lean ====
section
/-! DEFINITION. Faults, hangs and remounts (chapter 19): curbs as firmware handles them (R444, R445), watchdogs and escalation (R448 to R450),
core remounts (R470, R471), what starts device recovery (R453), and resets of narrow scope by RST_CMD (R407 to R411). -/
namespace Sys2Proof.Machine

/- Curbs -/

/-- CURB_HANDLING (R444, R445): the oldest curb's record is written; its command's other masters stop and the command completes FAULTED; the
context is held unless it is in teardown. -/
def curbHandlingEffect (m : Block) : Block :=
  match m.flt.curbs with
  | [] => m
  | k :: ks =>
    let tearing := (m.context? k.tenant k.ctx).any fun x => x.tear.isSome
    let flags := (if k.remote.isSome then 1 else 0) + (if tearing then 0 else 2)
    let seq := m.faultSeq k.tenant
    let m1 := { m with flt.curbs := ks }.faultFor k.kind k.mtype k.mindex k.tenant k.ctx k.addr k.len k.cause flags (k.remote.getD 0) k.q
    let m2 := m1.trace 7 5
    let first (c : Cmd) : Nat := match c.faultSeq with
      | some w => w.toNat
      | none => seq
    let m3 := match k.q.bind fun q => (m2.running q).map fun c => (q, c) with
      | some (q, c) => if tearing then m2 else ((m2.stopServing q).endTask q 0xB (first c))
      | none => m2
    if tearing then m3 else m3.modContext k.tenant k.ctx fun x => { x with held := true }

/- Watchdogs (R448) -/

/-- Whether a destination node of a channel's work holds it back (R448): no usable path, or a peer in recovery. -/
def Block.nodeHeld (m : Block) (node : Nat) : Bool := m.fab.unreach.any (fun e => e.1 == node) || m.fab.recovering.any fun e => e.1 == node

/-- Nodes that the first descriptor of a channel moves between. -/
def Block.chanNodes (m : Block) (t k : Nat) : List Nat :=
  match m.chan t k with
  | [] => []
  | j :: _ =>
    let node (p : Place) : Option Nat := if p.space = 0 then m.remoteNode p.addr else none
    ((j.src j.done).bind node).toList ++ (node (j.dst j.done)).toList

/-- Whether a command is held for a recovering peer (R464). -/
def Block.heldForPeer (m : Block) (q : Option QueueId) : Bool := q.any m.peerHeld

/-- The tick from which the window of a master counts, while it holds work and its watchdog runs (R448). -/
def Block.wdogFrom (m : Block) (cls idx : Nat) : Option Nat :=
  let last := Tbl.getD 0 m.flt.progAt (4096 * cls + idx)
  match cls with
  | 0 =>
    if (m.coreSt idx = 1 ∨ m.coreSt idx = 3) ∧ (m.core idx).task.isSome ∧ !m.heldForPeer (m.core idx).task then
      some (max last (m.reg (Reg.coreSeqDispatch idx)).toNat) else none
  | 1 =>
    let t := idx / 128
    let k := idx % 128
    let nodes := m.chanNodes t k
    if m.chanSt t k = 1 ∧ !(m.chan t k).isEmpty ∧ !m.chanPaused t k ∧ !nodes.any m.nodeHeld then
      some (nodes.foldl (fun a n => max a (Tbl.getD 0 m.fab.pathAt n)) last) else none
  | 5 =>
    match m.eng.colls.find? fun c => c.die == idx && !m.peerHeld c.q with
    | some c => some (max last c.start)
    | none => none
  | 6 =>
    let nodes := (m.fab.tx.filter fun p => (p.unacked.any fun u => u.port.any fun k => k / 4 == idx) && !m.nodeHeld p.node).map (·.node)
    if nodes.isEmpty then none else some (nodes.foldl (fun a n => max a (Tbl.getD 0 m.fab.pathAt n)) last)
  | 7 =>
    match m.page.engines.find? fun e => e.1 == idx with
    | some _ => some last
    | none => none
  | _ =>
    let paused := (m.ringOf cls idx).any fun x => m.ringPaused cls idx x.tenant x.ctx
    if 2 ≤ cls ∧ cls ≤ 4 ∧ m.ringSt cls idx = 1 ∧ !paused then some last else none

/-- Whether the watchdog of class `cls` declares master `idx` hung now: no advance in [last, last + TICKS). -/
def Block.hung (m : Block) (cls idx : Nat) : Bool :=
  m.fwRuns && decide (cls ≤ 7) && (m.wdogFrom cls idx).any fun t => decide (t + m.fld (Reg.aonWdog cls) 39 0 ≤ m.time)

/-- The engine that covers a hung master of classes 1 to 7 (R449). -/
def hungEngine (cls idx : Nat) : Engine :=
  match cls with
  | 1 => .dma (idx / 128) (idx % 128)
  | 2 => .codec idx
  | 3 => .drover idx
  | 4 => .groom (idx / 4)
  | 5 => .coll idx
  | 6 => .proto idx
  | _ => .paging idx

/-- INDEX of an engine for RST_CMD and for the record of its reset (log entry 36). -/
def Engine.index : Engine → Nat
  | .dma t k => 128 * t + k
  | .codec i => 0x800 + i
  | .drover i => 0xA00 + i
  | .groom s => 0xA80 + s
  | .coll d => 0xAA0 + d
  | .proto e => 0xAC0 + e
  | .paging e => 0xAE0 + e
  | .copy t e => 0xB00 + 4 * t + e

/-- The command that a hung master serves (R450). -/
def Block.hungCmd (m : Block) (cls idx : Nat) : Option QueueId :=
  match cls with
  | 0 => (m.core idx).task
  | 5 => (m.eng.colls.find? fun c => c.die == idx).map (·.q)
  | 6 => none
  | 7 => none
  | _ => if cls = 1 then m.serves 1 idx (m.fld (Reg.tileDmaOwner (idx / 128) (idx % 128)) 12 8) (m.fld (Reg.tileDmaOwner (idx / 128) (idx % 128)) 7 0)
         else m.serves cls idx (m.fld (ringOwner cls idx) 12 8) (m.fld (ringOwner cls idx) 7 0)

/-- Notes a narrow reset that has been ordered (R449). -/
def Block.noteReset (m : Block) (level idx : Nat) (core : Option Nat) : Block :=
  ({ m with pwr.narrow := (m.pwr.narrow.filter (fun (r : NarrowReset) => !(r.level == level && r.idx == idx))) ++ [({ level := level, idx := idx, since := m.time, core := core } : NarrowReset)] }).satFld
    Reg.rstCounts 31 0 1

/-- The command of a hung master completes FAULTED with a record of KIND 10, its context not held (R450); its other masters stop first (R512). -/
def Block.failHung (m : Block) (mtype idx : Nat) (q : Option QueueId) : Block :=
  match q with
  | none => m
  | some q =>
    let seq := m.faultSeq q.tenant
    ((m.stopServing q).faultFor 10 mtype idx q.tenant q.ctx 0 0 0 0 0 (some q)).endTask q 0xB seq

/-- A control core is declared failed (R386): device recovery, in which the spare replaces it. -/
def Block.failControl (m : Block) (core : Nat) : Block :=
  if !m.fwRuns ∨ core > 6 then m else { m with fw.ctrlFailed := insertNat m.fw.ctrlFailed core }.startRecovery

/-- WATCHDOG_HANG (R448 to R450): a hung core is reset at core level with a hang record before it, other masters at engine level; a hung control
core starts device recovery. -/
def watchdogHangEffect (cls idx : Nat) (m : Block) : Block :=
  if cls = 8 then m.failControl idx
  else if !m.hung cls idx then m
  else
    let q := m.hungCmd cls idx
    if cls = 0 then
      let m1 := (m.capture 1 (cls * 65536 + idx) 0 [(0, idx)]).failHung 0 idx q
      let others := (m1.onCores [idx]).filter fun c => some c.q != q
      ((m1.resetCore idx).replayAll others).noteReset 1 idx none
    else
      let core := if cls = 1 then (m.chan (idx / 128) (idx % 128)).head?.map (·.core) else none
      let m1 := (m.failHung (if cls = 5 ∨ cls = 6 ∨ cls = 7 then 0xFF else cls) idx q).resetEngine (hungEngine cls idx)
      m1.noteReset 0 (hungEngine cls idx).index core

/-- CONTROL_CORE_WATCHDOG (R386, class 8). -/
def controlCoreWatchdogEffect (core : Nat) (m : Block) : Block := m.failControl core

/-- A tile reset that firmware orders (R449, R450): a hang record before it; commands on the tile run again. -/
def Block.tileLevel (m : Block) (t : Nat) : Block :=
  let m1 := m.capture 2 t 0 ((List.range 8).map fun c => (0, 8 * t + c))
  let cmds := m1.onCores ((List.range 8).map (8 * t + ·)) ++ m1.cmd.cmds.filter fun c => c.started && (m1.tile t).cmdChan == some c.q
  ((m1.resetTile t).replayAll cmds).noteReset 2 t none

/-- A core reset that firmware orders because a narrower reset did not end. -/
def Block.coreLevel (m : Block) (n : Nat) : Block :=
  let m1 := m.capture 1 n 0 [(0, n)]
  ((m1.resetCore n).replayAll (m1.onCores [n])).noteReset 1 n none

/-- Escalates a reset that has not ended to the next wider scope (Table 19.5, R414). -/
def Block.escalate (m : Block) (r : NarrowReset) : Block :=
  let m1 := { m with pwr.narrow := m.pwr.narrow.filter fun (x : NarrowReset) => x != r }
  match r.level with
  | 0 =>
    match (engineOf r.idx).bind Engine.tile? with
    | some t => match r.core with
      | some n => m1.coreLevel n
      | none => m1.tileLevel t
    | none => m1.requestReset false 6
  | 1 => (m1.modCore r.idx fun c => { c with hangs := c.hangs + 1 }).tileLevel (r.idx / 8)
  | _ => m1.requestReset false 6

/-- The limit of a level (Table 19.5). -/
def Block.escLimit (m : Block) (level : Nat) : Nat :=
  if level = 0 then m.fld Reg.aonEscEngine 39 0 else if level = 1 then m.fld Reg.aonEscCore 39 0 else m.fld Reg.aonEscTile 39 0

/-- ESCALATION_TIMEOUT (R449). -/
def escalationTimeoutEffect (level idx : Nat) (m : Block) : Block :=
  match m.pwr.narrow.find? fun r => r.level == level && r.idx == idx with
  | some r => if r.since + m.escLimit level ≤ m.time then m.escalate r else m
  | none => m

/- Remounts -/

/-- Core-memory or buffer errors that remount a core at once (Table 19.11 row 2). -/
def Block.coreDamaged (m : Block) (n : Nat) : Bool :=
  ((m.core n).cmUncorr.any fun t => decide (m.time < t + day)) || m.bufPoison.any (inBufs n)

/-- CORE_REMOUNT (R470, R471): the task on the core and its other slots stop, the core is remounted, the command runs again. -/
def coreRemountEffect (core reason : Nat) (m : Block) : Block :=
  let due := (reason == 2 && m.coreDamaged core) || (reason == 3 && decide ((m.core core).hangs ≥ 2))
  if core ≥ m.coreCount ∨ !m.fwRuns ∨ !due ∨ m.phys core = 0xF then m
  else
    let cmds := m.onCores [core]
    let count := if reason = 2 then max 1 (m.core core).cmUncorr.length else (m.core core).hangs
    let m1 := cmds.foldl (fun m c => (m.stopServing c.q).releaseCores c.q) m
    let m2 := m1.remountCore core reason count
    cmds.foldl (fun m c => m.replay c) m2

/-- CORE_IDLE_REMOUNT (Table 19.11 row 1): 64 corrected errors within 24 hours, at an idle moment, while a spare is left. -/
def coreIdleRemountEffect (core : Nat) (m : Block) : Block :=
  let n := ((m.core core).cmCorr.filter fun t => decide (m.time < t + day)).length
  if core ≥ m.coreCount ∨ !m.fwRuns ∨ n < 64 ∨ (m.core core).task.isSome ∨ (m.core core).saved.isSome ∨ (m.spareOf (core / 8)).isNone ∨ m.phys core = 0xF then m
  else m.remountCore core 1 n

/- What starts device recovery (R453) -/

/-- Whether a pool bank has reached its forced-recovery threshold (Table 19.11 row 6). -/
def Block.bankForced (m : Block) : Bool := m.flt.bankUncorr.any fun e => decide ((e.2.filter fun t => decide (m.time < t + day)).length ≥ 4)

/-- DEVICE_RECOVERY (R453): triggers 1 module warm reset, 2 control core, 3 tile reset, 4 DDR5 channel, 5 reference clock, 6 pool bank; also a
recovery that had to wait for the one under way or for new firmware. -/
def deviceRecoveryEffect (trigger : Nat) (m : Block) : Block :=
  if !m.fwRuns ∨ trigger < 1 ∨ trigger > 6 ∨ (trigger = 6 ∧ !m.bankForced ∧ !m.pwr.recoverAgain) then m
  else { m with pwr.recoverAgain := false }.startRecovery

/-- DDR_CHANNEL_FAILURE (R172). Whether the channel returns when it is trained again is an open value. -/
def ddrChannelFailureEffect (channel : Nat) (m : Block) : Block :=
  if channel ≥ 16 ∨ !m.channels.contains channel ∨ m.fld (Reg.ddrStatus channel) 63 60 ≠ 2 ∨ !m.fwRuns then m
  else
    let d := m.draw
    let m1 := if bit d.1 0 then { d.2 with flt.deadChannels := insertNat d.2.flt.deadChannels channel } else d.2
    (m1.setFld (Reg.ddrStatus channel) 63 60 4).startRecovery

/-- REFCLK_LOSS (R424): the reference has been gone, or out of tolerance, for 250 ticks. Fast clocks are gated, an emergency opens, and device
recovery starts. -/
def refclkLossEffect (ticks : Nat) (m : Block) : Block :=
  if !m.alive ∨ !m.pwr.refclk ∨ ticks < 250 then m
  else
    let m1 := ({ m with pwr.refclk := false }.satFld Reg.aonRefclk 31 0 1).emergency 5
    if m1.fw.fwUp then m1.startRecovery else m1

/-- REFCLK_RETURN (R424). -/
def refclkReturnEffect (m : Block) : Block := { m with pwr.refclk := true }

/- RST_CMD, narrow scopes (R407, R410, R411) -/

/-- Whether RST_CMD takes a narrow reset now: from firmware with the confirmation value; while a module reset is in progress it is absorbed and
counted, during option loading dropped (R411, R418). -/
def Block.narrowCmd (m : Block) (r : Requester) (confirm : Nat) (f : Block → Block) : Block :=
  if !isFw r ∨ confirm ≠ 0x5A3C then m
  else if m.pwr.rst.isSome then m.satFld Reg.rstStatus 47 32 1
  else if !m.fw.fwUp then m
  else f m

/-- RST_CMD_TILE. -/
def rstCmdTileEffect (r : Requester) (tile confirm : Nat) (m : Block) : Block :=
  m.narrowCmd r confirm fun m => if tile ≥ m.tileCount then m else m.tileLevel tile

/-- RST_CMD_CORE. -/
def rstCmdCoreEffect (r : Requester) (core confirm : Nat) (m : Block) : Block :=
  m.narrowCmd r confirm fun m => if core ≥ m.coreCount then m else m.coreLevel core

/-- RST_CMD_ENGINE (R512). -/
def rstCmdEngineEffect (r : Requester) (engine confirm : Nat) (m : Block) : Block :=
  m.narrowCmd r confirm fun m => match engineOf engine with
    | some e => (m.resetEngine e).noteReset 0 engine none
    | none => m

/-- RST_CMD_FABRIC_PORT (R408): as FAB_PORT_CTL.RETRAIN. -/
def rstCmdFabricPortEffect (r : Requester) (port confirm : Nat) (m : Block) : Block := m.narrowCmd r confirm (fabPortRetrainEffect r port)

/-- CURB_HANDLING. -/
def execCurbHandling (s : State) : Host.Outcome State Fault Refusal := s.commit (curbHandlingEffect s.m)
/-- WATCHDOG_HANG. -/
def execWatchdogHang (cls idx : Nat) (s : State) : Host.Outcome State Fault Refusal := s.commit (watchdogHangEffect cls idx s.m)
/-- CONTROL_CORE_WATCHDOG. -/
def execControlCoreWatchdog (core : Nat) (s : State) : Host.Outcome State Fault Refusal := s.commit (controlCoreWatchdogEffect core s.m)
/-- ESCALATION_TIMEOUT. -/
def execEscalationTimeout (level idx : Nat) (s : State) : Host.Outcome State Fault Refusal := s.commit (escalationTimeoutEffect level idx s.m)
/-- CORE_REMOUNT. -/
def execCoreRemount (core reason : Nat) (s : State) : Host.Outcome State Fault Refusal := s.commit (coreRemountEffect core reason s.m)
/-- CORE_IDLE_REMOUNT. -/
def execCoreIdleRemount (core : Nat) (s : State) : Host.Outcome State Fault Refusal := s.commit (coreIdleRemountEffect core s.m)
/-- DEVICE_RECOVERY. -/
def execDeviceRecovery (trigger : Nat) (s : State) : Host.Outcome State Fault Refusal := s.commit (deviceRecoveryEffect trigger s.m)
/-- DDR_CHANNEL_FAILURE. -/
def execDdrChannelFailure (channel : Nat) (s : State) : Host.Outcome State Fault Refusal := s.commit (ddrChannelFailureEffect channel s.m)
/-- REFCLK_LOSS. -/
def execRefclkLoss (ticks : Nat) (s : State) : Host.Outcome State Fault Refusal := s.commit (refclkLossEffect ticks s.m)
/-- REFCLK_RETURN. -/
def execRefclkReturn (s : State) : Host.Outcome State Fault Refusal := s.commit (refclkReturnEffect s.m)
/-- RST_CMD_TILE. -/
def execRstCmdTile (r : Requester) (tile confirm : Nat) (s : State) : Host.Outcome State Fault Refusal :=
  s.commit (s.m.byHost r (rstCmdTileEffect r tile confirm))
/-- RST_CMD_CORE. -/
def execRstCmdCore (r : Requester) (core confirm : Nat) (s : State) : Host.Outcome State Fault Refusal :=
  s.commit (s.m.byHost r (rstCmdCoreEffect r core confirm))
/-- RST_CMD_ENGINE. -/
def execRstCmdEngine (r : Requester) (engine confirm : Nat) (s : State) : Host.Outcome State Fault Refusal :=
  s.commit (s.m.byHost r (rstCmdEngineEffect r engine confirm))
/-- RST_CMD_FABRIC_PORT. -/
def execRstCmdFabricPort (r : Requester) (port confirm : Nat) (s : State) : Host.Outcome State Fault Refusal :=
  s.commit (s.m.byHost r (rstCmdFabricPortEffect r port confirm))

end Sys2Proof.Machine
end

