-- ==== Sys2Proof/Machine/Pacer.lean ====
section
/-! DEFINITION. The Pacer (R281 to R285): multipliers in fixed point with 320 bits below the point, queries, commits. -/
namespace Sys2Proof.Machine

/- Fixed-point functions -/

/-- arctan(1 / k) by its series, `fuel` terms: `pow` is k^-(2j+1). -/
def fixAtanGo (k : Nat) : Nat → Nat → Nat → Int → Int → Int
  | 0, _, _, _, acc => acc
  | fuel + 1, j, pow, sign, acc => fixAtanGo k fuel (j + 1) (pow / (k * k)) (-sign) (acc + sign * ((pow / (2 * j + 1) : Nat) : Int))

/-- arctan(1 / k). -/
def fixAtan (k : Nat) : Int := fixAtanGo k 150 0 (fixOne / k) 1 0

/-- π by Machin's formula. -/
def fixPi : Nat := (16 * fixAtan 5 - 4 * fixAtan 239).toNat

/-- Σ (−1)^k t^2k / (2k)!, over `fuel` terms: `term` is the term reached. -/
def fixCosGo (t : Nat) : Nat → Nat → Nat → Int → Int → Int
  | 0, _, _, _, acc => acc
  | fuel + 1, k, term, sign, acc =>
    let term' := term * t / fixOne * t / fixOne / ((2 * k - 1) * (2 * k))
    fixCosGo t fuel (k + 1) term' (-sign) (acc + sign * (term' : Int))

/-- cos(π a / b) for 0 ≤ a ≤ b. -/
def fixCosPi (a b : Nat) : Int :=
  let low := if 2 * a ≤ b then a else b - a
  let c := fixCosGo (fixPi * low / b) 60 1 fixOne (-1) fixOne
  if 2 * a ≤ b then c else -c

/-- Σ z^(2j+1) / (2j+1) over `fuel` terms: `pow` is z^(2j+1), `z2` its step. -/
def fixAtanhGo (z2 : Nat) : Nat → Nat → Nat → Nat → Nat
  | 0, _, _, acc => acc
  | fuel + 1, j, pow, acc => fixAtanhGo z2 fuel (j + 1) (pow * z2 / fixOne) (acc + pow / (2 * j + 1))

/-- ln(n / d) for n ≥ d, n ≤ 2 d. -/
def fixLnUnit (n d : Nat) : Nat :=
  let z := (n - d) * fixOne / (n + d)
  2 * fixAtanhGo (z * z / fixOne) 110 0 z 0

/-- −ln(m × 2^e) for a value of at most 1. -/
def fixNegLn (m : Nat) (e : Int) : Nat :=
  let k := -(floorLog2 m 1 + e)
  let unit := 2 ^ Nat.log2 m
  (k * (fixLnUnit 2 1 : Int) - (fixLnUnit m unit : Int)).toNat

/-- e^(−z) for z in fixed point. -/
def fixExpNeg (z : Nat) : Nat :=
  if z ≥ 128 * fixOne then 0
  else fixOne * fixOne / iter (fun y => y * y / fixOne) 8 (fixExp (z / 256))

/-- A value between 0 and 1 in fixed point. -/
def fixOf (v : Val) : Nat :=
  match v with
  | .fin false m e => let p := scaleQ (m * fixOne) 1 e; p.1 / p.2
  | _ => 0

/- Entries (Table 11.7) -/

/-- A group entry: shape, length, values and GAMMA words. -/
structure PEntry where
  shape : Word
  len   : Word
  vals  : Word
  gamma : Word
  deriving DecidableEq, Repr

/-- W. -/
def PEntry.w (p : PEntry) : Nat := field p.shape 31 0
/-- WARM. -/
def PEntry.warm (p : PEntry) : Nat := field p.shape 63 62
/-- DECAY. -/
def PEntry.decay (p : PEntry) : Nat := field p.shape 61 59
/-- RESTART. -/
def PEntry.restart (p : PEntry) : Bool := bit p.shape 58
/-- PM. -/
def PEntry.pm (p : PEntry) : Nat := field p.shape 57 53
/-- D. -/
def PEntry.d (p : PEntry) : Nat := field p.len 63 32
/-- S0. -/
def PEntry.s0 (p : PEntry) : Val := F32.val (BitVec.ofNat 32 (field p.vals 63 32))
/-- F. -/
def PEntry.f (p : PEntry) : Val := F32.val (BitVec.ofNat 32 (field p.vals 31 0))
/-- GAMMA. -/
def PEntry.g (p : PEntry) : Val := F32.val (BitVec.ofNat 32 (field p.gamma 31 0))

/-- Whether a shadow is sound (R282). -/
def PEntry.sound (p : PEntry) : Bool :=
  let unit (v : Val) : Bool := Val.zero.le v && v.le .one
  decide (p.d ≥ 1) && decide (1 ≤ p.pm) && decide (p.pm ≤ 16) && Val.zero.lt p.g && p.g.le .one && unit p.f && unit p.s0 &&
    decide (p.warm < 3) && decide (p.decay < 5)

/-- The period of a step under RESTART with PM above 1: its length and the step within it. -/
def findPeriod (pm : Nat) : Nat → Nat → Nat → Nat × Nat
  | 0, tau, d => (tau, d)
  | fuel + 1, tau, d => if tau < d then (tau, d) else findPeriod pm fuel (tau - d) (d * pm)

/-- τ_k and D_k of a step after warm-up (R281). -/
def PEntry.period (p : PEntry) (tau : Nat) : Nat × Nat :=
  if p.restart then (if p.pm ≤ 1 then (tau % max p.d 1, p.d) else findPeriod p.pm 40 tau p.d)
  else (if p.decay = 1 ∨ p.decay = 2 then min tau p.d else tau, p.d)

/-- The multiplier of step `t`, in fixed point (R281). -/
def PEntry.exact (p : PEntry) (t : Nat) : Nat :=
  let s0 := fixOf p.s0
  let f := fixOf p.f
  if p.w > 0 ∧ t ≤ p.w then
    match p.warm with
    | 1 => s0 + (fixOne - s0) * t / p.w
    | 2 => s0 + (fixOne - s0) * ((fixOne : Int) - fixCosPi t p.w).toNat / (2 * fixOne)
    | _ => fixOne
  else if t = 0 then fixOne
  else
    let k := p.period (t - p.w - 1)
    match p.decay with
    | 1 => f + (fixOne - f) * ((fixOne : Int) + fixCosPi k.1 k.2).toNat / (2 * fixOne)
    | 2 => fixOne - (fixOne - f) * k.1 / max k.2 1
    | 3 => max f (isqrt (fixOne * fixOne * k.2 / (k.1 + k.2)))
    | 4 => match p.g with
      | .fin _ m e => max f (fixExpNeg (fixNegLn m e * k.1 / max k.2 1))
      | _ => f
    | _ => fixOne

/-- The active copy of a group; zero when none was ever committed. -/
def Block.pacerEntry (m : Block) (g : Nat) : List Word := Tbl.getD [0, 0, 0, 0] m.eng.pacerActive g

/-- A neighbour of an FP32 value of at least +0: the next one below, or above. -/
def f32Step (v : F32) (above : Bool) : F32 :=
  if above then v + 1 else if v = 0 then 0x80000001 else v - 1

/-- The multiplier of a group for a step: 1 from a zero active copy, else the FP32 value nearest the exact one, or a neighbour of it
(R281, R282, log entry 8). -/
def Block.multiplier (m : Block) (g t : Nat) : F32 :=
  let ws := m.pacerEntry g
  if ws.all (· == 0) then f32One
  else
    let p : PEntry := ⟨wordAt ws 0, wordAt ws 1, wordAt ws 2, wordAt ws 3⟩
    let v := f32OfQ false (p.exact t) fixOne 0
    match Config.pacerNeighbour ws t % 3 with
    | 1 => f32Step v false
    | 2 => f32Step v true
    | _ => v

/-- Whether a tenant owns a Pacer group. -/
def Block.ownsGroup (m : Block) (t g : Nat) : Bool := m.fld (Reg.pcrGOwner g) 63 63 == 1 && m.fld (Reg.pcrGOwner g) 4 0 == t

/-- A Groom unit samples a group (R264): PCR_G_LAST shows the step and what the active copy gave. -/
def Block.sample (m : Block) (g t : Nat) : F32 × Block :=
  let v := m.multiplier g t
  (v, m.setReg (Reg.pcrGLast g) (BitVec.ofNat 64 (t * 2 ^ 32 + v.toNat)))

/-- Whether a requester is a master of a group's owner, or firmware. -/
def Block.groupWriter (m : Block) (r : Requester) (g : Nat) : Bool :=
  isFw r || (m.fld (Reg.pcrGOwner g) 63 63 == 1 && m.ofTenant r (m.fld (Reg.pcrGOwner g) 4 0))

/-- PACER_QUERY (R284): every tenant and firmware may ask. -/
def pacerQueryEffect (r : Requester) (group step : Nat) (m : Block) : Block :=
  if !m.tuning ∨ r = .peer then m
  else
    let g := group % 256
    let t := step % 2 ^ 32
    let m1 := (m.setReg Reg.pcrQueryIn (BitVec.ofNat 64 (g * 2 ^ 32 + t))).setReg Reg.pcrQueryOut (BitVec.ofNat 64 (m.multiplier g t).toNat)
    { m1 with eng.pacerAsked := true, eng.pacerDenied := !m.groupWriter r g }

/-- PACER_COMMIT (R282). -/
def pacerCommitEffect (r : Requester) (group : Nat) (m : Block) : Block :=
  if !m.tuning ∨ group > 255 ∨ !m.groupWriter r group then m
  else
    let p : PEntry := ⟨m.reg (Reg.pcrGShape group), m.reg (Reg.pcrGLen group), m.reg (Reg.pcrGVals group), m.reg (Reg.pcrGGamma group)⟩
    if p.sound then
      { m.setFld (Reg.pcrGCtl group) 63 63 0 with eng.pacerActive := Tbl.put m.eng.pacerActive group [p.shape, p.len, p.vals, p.gamma] }
    else m.setFld (Reg.pcrGCtl group) 63 63 1

/-- PACER_QUERY. -/
def execPacerQuery (r : Requester) (group step : Nat) (s : State) : Host.Outcome State Fault Refusal :=
  s.commit (s.m.byHost r (pacerQueryEffect r group step))
/-- PACER_COMMIT. -/
def execPacerCommit (r : Requester) (group : Nat) (s : State) : Host.Outcome State Fault Refusal := s.commit (s.m.byHost r (pacerCommitEffect r group))

end Sys2Proof.Machine
end

