-- ==== Sys2Proof/Machine/Groom.lean ====
section
/-! DEFINITION. Groom units (R260 to R280, R513): descriptors and their checks, the hard-wired rules, the general recurrence, sparse
rows, shard headers, stochastic rounding on write. A descriptor is applied as one event; GROOM_DESCRIPTOR_END ends it. -/
namespace Sys2Proof.Machine

/- Stochastic rounding (R37, R38) -/

/-- One step of the generator: the new state words; its output is s1 + s. -/
def rngStep (s : Word × Word) : Word × Word :=
  let t0 := s.1 ^^^ (s.1 <<< 23)
  let t1 := t0 ^^^ (t0 >>> 17)
  (s.2, t1 ^^^ (s.2 ^^^ (s.2 >>> 26)))

/-- Draw `k` from a seed: 16 bits of step k / 4, lowest first. -/
def draw16 (seed : Word) (k : Nat) : Nat :=
  let s := iter rngStep (k / 4) (seed, seed ^^^ 0x9E3779B97F4A7C15)
  let n := rngStep s
  (n.2 + s.2).toNat >>> (16 * (k % 4)) % 65536

/-- ± (n / d) × 2^e rounded stochastically with draw `r`. -/
def stochQ (t : Fmt) (neg : Bool) (n d : Nat) (e : Int) (r : Nat) : Nat :=
  match t.float with
  | none => (t.convertQ neg n d e).1
  | some f =>
    if n = 0 then f.signed neg 0
    else
      let p := f.position n d e
      let lo := p.2.2 + p.1 / p.2.1
      let rem := p.1 % p.2.1
      if lo > f.maxCode ∨ (lo = f.maxCode ∧ rem ≠ 0) then f.signed neg (t.overflow f).1
      else if rem ≠ 0 ∧ 65536 * rem / p.2.1 + r ≥ 65536 then f.signed neg (lo + 1)
      else f.signed neg lo

/-- The code a Groom unit writes for a value reduced by its scales: nearest in FP32, stochastic in every narrower format. -/
def groomCode (t : Fmt) (div : Option (Nat × Int)) (v : Val) (r : Nat) : Nat :=
  match div with
  | none => 0
  | some (dm, de) =>
    match v with
    | .nan => t.convertNan.1
    | .inf n => (t.convertInf n).1
    | .fin n a e => if t = .fp32 then (t.convertQ n a dm (e - de)).1 else stochQ t n a dm (e - de) r

/- Powers, rounded once (R265, R268) -/

/-- A magnitude m × 2^e cut to `prec` bits, downwards or upwards. -/
def cutTo (prec : Nat) (up : Bool) (x : Nat × Int) : Nat × Int :=
  let b := Nat.log2 x.1 + 1
  if b ≤ prec then x
  else
    let k := b - prec
    let q := x.1 >>> k
    (if up && q <<< k != x.1 then q + 1 else q, x.2 + k)

/-- A bound of b^t: square and multiply over the bits of t, each product cut to `prec` bits. -/
def powCut (prec : Nat) (up : Bool) : Nat → Nat → Nat × Int → Nat × Int → Nat × Int
  | 0, _, _, acc => acc
  | fuel + 1, t, b, acc =>
    if t = 0 then acc
    else
      let acc' := if t % 2 = 1 then cutTo prec up (acc.1 * b.1, acc.2 + b.2) else acc
      powCut prec up fuel (t / 2) (cutTo prec up (b.1 * b.1, 2 * b.2)) acc'

/-- A magnitude far outside the range of FP32 brought just outside it, where every result below rounds alike. -/
def clampMag (x : Nat × Int) : Nat × Int :=
  if x.1 = 0 then x
  else
    let top := (Nat.log2 x.1 : Int) + x.2
    if top < -400 then (1, -400) else if top > 400 then (1, 400) else x

/-- A derived coefficient from a power: kind 2 the power, 3 one less it, 4 the reciprocal of that. -/
def powKind (kind : Nat) (p : Val) : F32 :=
  match kind with
  | 2 => p.toF32
  | 3 => (Val.one.sub p).toF32
  | _ => f32Recip (Val.one.sub p)

/-- The derived coefficient of a value and t: the exact result rounded once. The power is bounded from both sides with growing precision
until both bounds round alike. -/
def derived (kind : Nat) (v : F32) (t : Nat) : F32 :=
  match v.val with
  | .nan => f32Nan
  | .inf n => powKind kind (.inf (n && t % 2 == 1))
  | .fin neg m e =>
    let sign := neg && t % 2 == 1
    let side (prec : Nat) (up : Bool) : F32 :=
      let x := clampMag (powCut prec up 40 t (m, e) (1, 0))
      powKind kind (.fin sign x.1 x.2)
    let good := [128, 512, 2048, 8192].find? fun p => side p false == side p true
    side (good.getD 8192) false

/- Descriptors (R263) -/

/-- An update descriptor (Table 11.1). -/
structure GD where
  w : List Word
  deriving DecidableEq, Repr

/-- RULE. -/
def GD.rule (d : GD) : Nat := field (wordAt d.w 0) 63 60
/-- SPARSE. -/
def GD.sparse (d : GD) : Bool := bit (wordAt d.w 0) 59
/-- NESTEROV. -/
def GD.nesterov (d : GD) : Bool := bit (wordAt d.w 0) 58
/-- SIGNAL. -/
def GD.sig (d : GD) : Bool := bit (wordAt d.w 0) 57
/-- PACED_LR. -/
def GD.paced (d : GD) : Bool := bit (wordAt d.w 0) 56
/-- PFMT. -/
def GD.pfmt (d : GD) : Nat := field (wordAt d.w 0) 55 52
/-- SFMT. -/
def GD.sfmt (d : GD) : Nat := field (wordAt d.w 0) 51 48
/-- GFMT. -/
def GD.gfmt (d : GD) : Nat := field (wordAt d.w 0) 47 44
/-- GSCH. -/
def GD.gsch (d : GD) : Nat := field (wordAt d.w 0) 43 42
/-- WFMT. -/
def GD.wfmt (d : GD) : Nat := field (wordAt d.w 0) 41 38
/-- WSCH. -/
def GD.wsch (d : GD) : Nat := field (wordAt d.w 0) 37 36
/-- Whether a low-precision copy is written. -/
def GD.copy (d : GD) : Bool := d.wfmt != 0xF
/-- PGROUP. -/
def GD.group (d : GD) : Nat := field (wordAt d.w 0) 35 28
/-- STEP. -/
def GD.step (d : GD) : Nat := field (wordAt d.w 1) 63 32
/-- ROWS. -/
def GD.rows (d : GD) : Nat := field (wordAt d.w 2) 63 32
/-- COLS. -/
def GD.cols (d : GD) : Nat := field (wordAt d.w 2) 31 0
/-- N. -/
def GD.n (d : GD) : Nat := field (wordAt d.w 3) 35 0
/-- An address word: P 4, G 5, S0 to S3 6 to 9, W 10, index list or program 11, counts 12, header 13, parameter block 15. -/
def GD.addr (d : GD) (i : Nat) : Nat := (wordAt d.w i).toNat
/-- Rows of the table: all of it under SPARSE, else one row. -/
def GD.tableRows (d : GD) : Nat := if d.sparse then d.n / max d.cols 1 else 1
/-- Elements of a table row. -/
def GD.rowLen (d : GD) : Nat := if d.sparse then d.cols else d.n

/-- States that a rule uses and that must have an address (R513). -/
def GD.needed (d : GD) : List Nat := if d.rule = 1 ∨ d.rule = 3 then [0, 1] else if d.rule = 4 then [] else [0]
/-- States that a rule may use. -/
def GD.allowed (d : GD) : List Nat := if d.rule = 4 then [0, 1, 2, 3] else if d.rule = 3 then [0, 1, 2] else d.needed
/-- States present. -/
def GD.states (d : GD) : List Nat := d.allowed.filter fun i => d.addr (6 + i) != 0

/-- Whether a format may carry a scheme (R28, R31); only the narrow formats are block-scaled. -/
def schemeFits (fmt sch : Nat) : Bool := sch == 0 || (decide (3 ≤ fmt) && decide (fmt ≤ 7))

/-- Reason 0x01 of the descriptor itself. -/
def GD.reserved (d : GD) : Bool :=
  decide (d.rule > 4) || !zeroBits (wordAt d.w 0) 17 0 || !zeroBits (wordAt d.w 3) 55 36 || d.gsch == 3 || (d.copy && d.wsch == 3) ||
    (d.nesterov && d.rule != 0) || (d.sparse && decide (d.rule > 2))

/-- Whether GFMT and GSCH go together. -/
def GD.gradFits (d : GD) : Bool := decide (d.gfmt ≤ 7) && schemeFits d.gfmt d.gsch

/-- Whether WFMT and WSCH go together. -/
def GD.copyFits (d : GD) : Bool := d.wfmt != 0 && decide (d.wfmt ≤ 7) && schemeFits d.wfmt d.wsch

/-- Reason 0x03 of the descriptor itself: formats, counts, STEP and states. -/
def GD.outOfRange (d : GD) : Bool :=
  decide (d.pfmt > 1) || decide (d.sfmt > 1) || !d.gradFits || (d.copy && !d.copyFits) || d.step == 0 ||
    (d.rule == 3 && (d.rows == 0 || decide (d.rows > 65536) || d.cols == 0 || decide (d.cols > 65536) || d.n != d.rows * d.cols)) ||
    (d.sparse && (d.cols == 0 || d.n % max d.cols 1 != 0)) ||
    (d.needed.any fun i => d.addr (6 + i) == 0) || (List.range 4).any fun i => !d.allowed.contains i && d.addr (6 + i) != 0

/-- A tensor of a shard (R264): local address, format, scheme, tensor scale, rows and columns; scaled rows are pitched to 128 bytes under
SPARSE. -/
structure Ten where
  addr    : Nat
  fmt     : Fmt
  sch     : Scheme
  ts      : F32
  rows    : Nat
  cols    : Nat
  pitched : Bool
  deriving DecidableEq, Repr

/-- Bytes between rows of the element plane of a scaled tensor. -/
def Ten.pitch (t : Ten) : Nat :=
  let b := elemBytes t.fmt.width (roundUp t.cols (blockSize t.sch))
  if t.pitched then roundUp b 128 else b
/-- Bytes between rows of the scale plane. -/
def Ten.spitch (t : Ten) : Nat :=
  let b := ceilDiv t.cols (blockSize t.sch)
  if t.pitched then roundUp b 128 else b
/-- Address of the scale plane: the first 128-byte boundary after the element plane. -/
def Ten.scaleBase (t : Ten) : Nat := t.addr + roundUp (t.rows * t.pitch) 128
/-- Bytes that a tensor takes. -/
def Ten.bytes (t : Ten) : Nat :=
  if t.sch = .none then elemBytes t.fmt.width (t.rows * t.cols) else t.scaleBase + t.rows * t.spitch - t.addr

/-- The format of a parameter or state. -/
def stateFmt (c : Nat) : Fmt := if c = 0 then .fp32 else .bf16

/-- The parameter block (Table 11.2), with the constants formed once from it. -/
structure Prm where
  w : List F32
  deriving DecidableEq, Repr

/-- Entry `i`. -/
def Prm.at (p : Prm) (i : Nat) : F32 := p.w.getD i 0
/-- 1 − beta1. -/
def Prm.ob1 (p : Prm) : F32 := f32Sub f32One (p.at 2)
/-- 1 − beta2. -/
def Prm.ob2 (p : Prm) : F32 := f32Sub f32One (p.at 3)

/-- The parameters tensor. -/
def GD.p (d : GD) : Ten := ⟨localPart (d.addr 4), stateFmt d.pfmt, .none, 0, d.tableRows, d.rowLen, false⟩
/-- The gradient tensor. -/
def GD.g (d : GD) (q : Prm) : Ten :=
  ⟨localPart (d.addr 5), (fmtOfCode d.gfmt).getD .fp32, (schemeOfCode d.gsch).getD .none, q.at 8, if d.sparse then d.rows else 1, d.rowLen, d.sparse⟩
/-- State tensor `i`. -/
def GD.s (d : GD) (i : Nat) : Ten :=
  let a := localPart (d.addr (6 + i))
  if d.rule = 3 ∧ i < 2 then ⟨a, stateFmt d.sfmt, .none, 0, 1, if i = 0 then d.rows else d.cols, false⟩
  else ⟨a, stateFmt d.sfmt, .none, 0, d.tableRows, d.rowLen, false⟩
/-- The low-precision copy. -/
def GD.copyTen (d : GD) (q : Prm) : Ten :=
  ⟨localPart (d.addr 10), (fmtOfCode d.wfmt).getD .bf16, (schemeOfCode d.wsch).getD .none, q.at 9, d.tableRows, d.rowLen, d.sparse⟩

/-- Every region of the stack that a descriptor names: global address and bytes. Of a tensor whose format is none of Table 11.1's only the
address counts. -/
def GD.regions (d : GD) (q : Prm) : List (Nat × Nat) :=
  let size (fits : Bool) (t : Ten) : Nat := if fits then t.bytes else 0
  [(d.addr 4, size (d.pfmt ≤ 1) d.p), (d.addr 5, size d.gradFits (d.g q)), (d.addr 13, 128)] ++
    (d.states.map fun i => (d.addr (6 + i), size (d.sfmt ≤ 1) (d.s i))) ++
    (if d.copy then [(d.addr 10, size d.copyFits (d.copyTen q))] else []) ++
    (if d.sparse then [(d.addr 11, 4 * d.rows), (d.addr 12, 4 * d.tableRows)] else [])

/-- Whether a region is aligned and lies wholly in stack `s` of this module (R261). -/
def Block.inStack (m : Block) (s : Nat) (e : Nat × Nat) : Bool :=
  let a := localPart e.1
  e.1 % 128 == 0 && decide (e.1 < 2 ^ 60) && (m.remoteNode e.1).isNone && decide (s * 0x1000000000 ≤ a) &&
    decide (a + max e.2 1 ≤ (s + 1) * 0x1000000000)

/-- Whether a block of `n` bytes is aligned and lies in a context's pool window. -/
def Block.inPoolWindow (m : Block) (x : Context) (ga n : Nat) : Bool :=
  let a := localPart ga
  ga % 128 == 0 && decide (ga < 2 ^ 60) && (m.remoteNode ga).isNone && decide (x.poolAt ≤ a) && decide (a + n ≤ x.poolAt + x.poolBytes)

/-- Whether two of a list of regions overlap. -/
def regionsMeet : List (Nat × Nat) → Bool
  | [] => false
  | e :: l => (l.any fun f => e.2 != 0 && f.2 != 0 && overlaps (localPart e.1) e.2 (localPart f.1) f.2) || regionsMeet l

/- The general recurrence (R268, R269) -/

/-- Whether a program block is malformed (R269). Steps end at the first zero word. -/
def progSteps (w : List Word) : List Word := ((w.drop 16).take 16).takeWhile fun x => x != 0

/-- Whether a step word is malformed. -/
def stepBad (x : Word) : Bool :=
  let src := [field x 55 52, field x 51 48, field x 47 44, field x 43 40, field x 39 36]
  decide (field x 63 60 < 2) || decide (field x 63 60 > 10) || decide (field x 59 57 > 4) || (src.any fun r => decide (r > 10)) ||
    (bit x 56 && field x 51 48 == 0) || !zeroBits x 6 0

/-- Whether a program block is malformed. -/
def progBad (w : List Word) : Bool :=
  wordAt w 0 != 0 || ((w.take 16).any fun x => decide (field x 63 60 > 4) || !zeroBits x 59 32) || (progSteps w).any stepBad

/-- The coefficients of a program for lr and t (Table 11.3). -/
def progCoefs (w : List Word) (lr : F32) (t : Nat) : List F32 :=
  f32One :: ((w.take 16).drop 1).map fun x =>
    let v : F32 := BitVec.ofNat 32 (field x 31 0)
    match field x 63 60 with
    | 0 => v
    | 1 => f32Mul lr v
    | k => derived k v t

/-- The sign of a value; of either zero +0. -/
def f32Sign (x : F32) : F32 := if x.val.isNan then f32Nan else if x.val.isZero then 0 else if x.val.neg? then 0xBF800000 else f32One

/-- One step over registers G, P, S0 to S3, T0 to T3 (codes 1 to 10; entry 0 unused). -/
def progStep (k : List F32) (r : List F32) (x : Word) : List F32 :=
  let kk (hi lo : Nat) : F32 := k.getD (field x hi lo) 0
  let term (hi lo khi klo : Nat) : Option F32 :=
    if field x hi lo = 0 then none else some (f32Mul (kk khi klo) (r.getD (field x hi lo) 0))
  let t0 := (term 55 52 35 32).map fun v => if bit x 56 then f32Mul v (r.getD (field x 51 48) 0) else v
  let terms := [t0, term 47 44 31 28, term 43 40 27 24, term 39 36 23 20, if bit x 15 then some (kk 19 16) else none].filterMap id
  let v := match terms with
    | [] => 0
    | a :: l => l.foldl f32Add a
  let y := match field x 59 57 with
    | 1 => f32Sqrt v
    | 2 => f32Recip v.val
    | 3 => f32Sign v
    | 4 =>
      let lo := kk 14 11
      let hi := kk 10 7
      if v.val.isNan || lo.val.isNan || hi.val.isNan then f32Nan
      else
        let a := if v.val.lt lo.val then lo else v
        if hi.val.lt a.val then hi else a
    | _ => v
  r.set (field x 63 60) y

/- One element -/

/-- What the rules share: parameters, lr, c1 and c2 of t, program and coefficients. -/
structure Env where
  d    : GD
  q    : Prm
  lr   : F32
  c1   : F32
  c2   : F32
  k    : List F32
  prog : List Word

/-- New parameter and states of an element under RULE 0, 1, 2 and 4 (R265, R268); `s` holds S0 to S3. -/
def Env.elem (v : Env) (g p : F32) (s : List F32) : F32 × List F32 :=
  let b1 := v.q.at 2
  let b2 := v.q.at 3
  let wd := v.q.at 5
  let s0 := s.getD 0 0
  let s1 := s.getD 1 0
  match v.d.rule with
  | 0 =>
    let d := f32Add g (f32Mul wd p)
    let m := f32Add (f32Mul b1 s0) d
    let u := if v.d.nesterov then f32Add d (f32Mul b1 m) else m
    (f32Sub p (f32Mul v.lr u), s.set 0 m)
  | 1 =>
    let m := f32Add (f32Mul b1 s0) (f32Mul v.q.ob1 g)
    let w := f32Add (f32Mul b2 s1) (f32Mul v.q.ob2 (f32Mul g g))
    let u := f32Div (f32Div m v.c1) (f32Add (f32Sqrt (f32Div w v.c2)) (v.q.at 4))
    (f32Sub p (f32Mul v.lr (f32Add u (f32Mul wd p))), (s.set 0 m).set 1 w)
  | 2 =>
    let c := f32Add (f32Mul b1 s0) (f32Mul v.q.ob1 g)
    let p' := f32Sub p (f32Mul v.lr (f32Add (f32Sign c) (f32Mul wd p)))
    (p', s.set 0 (f32Add (f32Mul b2 s0) (f32Mul v.q.ob2 g)))
  | _ =>
    let r := v.prog.foldl (progStep v.k) ([0, g, p] ++ s ++ [0, 0, 0, 0])
    (r.getD 2 0, (r.drop 3).take 4)

/- Tensor access -/

/-- Reads local memory of the stack; poison curbs the ring (R447). -/
def grmRead (v : Mover) (a n : Nat) : AttM (List Byte) := do
  let m ← get
  match m.engRead v (ownGlobal a) n with
  | .bad kind ga n => throw (.curb kind ga n)
  | .need l => throw (.need l)
  | .data m1 bs p => set m1; if p then throw (.curb 8 (ownGlobal a) n) else return bs

/-- Writes a piece within one granule of the stack, once no host copy of the granule is left (R152): so what the unit has written is at its
home before PROGRESS tells of it (R275). -/
def grmPiece (v : Mover) (a : Nat) (bs : List Byte) : AttM Unit := do
  let m ← get
  match m.check v.tenant v.ctx (ownGlobal a) bs.length true with
  | some kind => throw (.curb kind (ownGlobal a) bs.length)
  | none =>
    if m.tagged a bs.length then throw (.curb 5 (ownGlobal a) bs.length)
    else if !(m.hostCopies (a / 128)).isEmpty then throw (.need [.copies a])
    else set (m.homeWrite a bs)

/-- Writes local memory of the stack. -/
def grmWrite (v : Mover) (a : Nat) (bs : List Byte) : AttM Unit :=
  (pieces a bs.length).forM fun oc => grmPiece v (a + oc.1) (slice bs oc.1 oc.2)

/-- Values of `n` elements of row `r` from column `c` on. -/
def Ten.read (t : Ten) (v : Mover) (r c n : Nat) : AttM (List Val) := do
  let w := t.fmt.width
  if t.sch = .none then
    let e := r * t.cols + c
    let a := w * e / 8
    let bs ← grmRead v (t.addr + a) (ceilDiv (w * (e + n)) 8 - a)
    let x := leNat bs >>> (w * e % 8)
    return (List.range n).map fun i => t.fmt.decode ((x >>> (w * i)) % 2 ^ w)
  else
    let b := blockSize t.sch
    let s := c % b
    let el ← grmRead v (t.addr + r * t.pitch + w * (c - s) / 8) (elemBytes w (roundUp (n + s) b))
    let sc ← grmRead v (t.scaleBase + r * t.spitch + c / b) (ceilDiv (n + s) b)
    return ((decodeElems t.fmt t.sch t.ts el sc (n + s)).map (·.1)).drop s

/-- Runs of present values, each with the place of its first. -/
def presentRuns {α : Type} : Nat → List (Option α) → List (Nat × List α)
  | _, [] => []
  | i, none :: l => presentRuns (i + 1) l
  | i, some a :: l => match presentRuns (i + 1) l with
    | (k, xs) :: rest => if k = i + 1 then (i, a :: xs) :: rest else (i, [a]) :: (k, xs) :: rest
    | [] => [(i, [a])]

/-- Writes codes of an unscaled tensor from element `e` on; neighbours that share a byte keep their bits. -/
def Ten.putCodes (t : Ten) (v : Mover) (e : Nat) (codes : List Nat) : AttM Unit := do
  let w := t.fmt.width
  let a := t.addr + w * e / 8
  let n := ceilDiv (w * (e + codes.length)) 8 - w * e / 8
  let old := leNat ((← get).readMem a n)
  let sh := w * e % 8
  let mask := (2 ^ (w * codes.length) - 1) <<< sh
  let new := codes.foldr (fun c acc => c % 2 ^ w + acc * 2 ^ w) 0
  grmWrite v a (leBytes n (((old ||| mask) ^^^ mask) ||| (new <<< sh)))

/-- Writes the values present, the first of row `r`, column `c`, with draw `k` for it; answers how many of those that `fin` marks were
written as NaN or infinity. -/
def Ten.put (t : Ten) (v : Mover) (seed : Word) (r c k : Nat) (vals : List (Option F32)) (fin : List Bool) : AttM Nat := do
  if t.sch = .none then
    let codes := vals.zipIdx.map fun vi => vi.1.map fun x => groomCode t.fmt (some (1, 0)) x.val (draw16 seed (k + vi.2))
    (presentRuns 0 codes).foldlM (fun _ g => t.putCodes v (r * t.cols + c + g.1) g.2) ()
    return ((codes.zip fin).filter fun cf => cf.2 && cf.1.any fun x => !(t.fmt.decode x).isFin).length
  else
    let b := blockSize t.sch
    let w := t.fmt.width
    let s := c % b
    let padded := List.replicate s none ++ vals
    let fins := List.replicate s false ++ fin
    (chunks b padded).zipIdx.foldlM
      (fun (count : Nat) bi => do
        if bi.1.all (·.isNone) then return count
        let c0 := c - s + bi.2 * b
        let old ← if bi.1.all (·.isSome) then pure [] else t.read v r c0 bi.1.length
        let vs := bi.1.zipIdx.map fun xi => match xi.1 with
          | some x => F32.val x
          | none => old.getD xi.2 .zero
        let sc := blockScale t.fmt t.sch t.ts vs
        let codes := vs.zipIdx.map fun xi => groomCode t.fmt sc.2.1 xi.1 (draw16 seed (k + bi.2 * b + xi.2 - s))
        grmWrite v (t.addr + r * t.pitch + w * c0 / 8) (pack w (codes ++ List.replicate (b - codes.length) 0))
        grmWrite v (t.scaleBase + r * t.spitch + c0 / b) [BitVec.ofNat 8 sc.1]
        let bad := (codes.zipIdx.filter fun ci => fins.getD (bi.2 * b + ci.2) false && (bi.1.getD ci.2 none).isSome &&
          !(decodeElem t.fmt t.sch t.ts sc.1 ci.1).1.isFin).length
        return count + bad) 0

/- The shard header (R273 to R275) -/

/-- Words 0 to 2 of a shard header. -/
def grmHeader (v : Mover) (d : GD) : AttM (List Word) := do return leWords 3 (← grmRead v (localPart (d.addr 13)) 24)

/-- Writes words 0 to 2 of a shard header. -/
def putHeader (v : Mover) (d : GD) (h : List Word) : AttM Unit := grmWrite v (localPart (d.addr 13)) (wordBytes (h.take 3))

/-- Sets PASS and PROGRESS. -/
def setProgress (v : Mover) (d : GD) (pass n : Nat) : AttM Unit := do
  let h ← grmHeader v d
  putHeader v d (h.set 1 (putField (putField (wordAt h 1) 61 60 pass) 35 0 n))

/-- Raises a Groom counter. -/
def grmCount (f : Block → Block) : AttM Unit := modify f

/-- The start of a descriptor (R274): what PROGRESS and PASS it resumes at, none when it begins anew. -/
def grmStart (v : Mover) (s : Nat) (d : GD) : AttM (Option (Nat × Nat)) := do
  let h ← grmHeader v d
  if field (wordAt h 1) 63 62 = 1 ∧ field (wordAt h 0) 31 0 = d.step then
    grmCount fun m => m.satFld (Reg.grmSkew s) 63 32 1
    return some (field (wordAt h 1) 35 0, field (wordAt h 1) 61 60)
  else
    let skew := decide (field (wordAt h 0) 63 32 ≠ d.step - 1)
    if skew then grmCount fun m => m.satFld (Reg.grmSkew s) 31 0 1
    let w2 := if skew then putField (wordAt h 2) 31 0 (satAdd 32 (field (wordAt h 2) 31 0) 1) else wordAt h 2
    let w1 := putField (putField (putField (wordAt h 1) 63 62 1) 61 60 (if d.rule = 3 then 1 else 0)) 35 0 0
    putHeader v d [putField (wordAt h 0) 31 0 d.step, w1, w2]
    return none

/- Application -/

/-- First draw of each tensor that is rounded stochastically, P, S0 to S3, W, in ascending address order (R277). -/
def drawBase (d : GD) (q : Prm) (a : Nat) : Nat :=
  let work := if d.sparse then d.rows * d.cols else d.n
  let tens := (if d.pfmt = 1 then [(d.p.addr, work)] else []) ++
    (if d.sfmt = 1 then d.states.map fun i => ((d.s i).addr, if d.rule = 3 ∧ i < 2 then (d.s i).cols else work) else []) ++
    (if d.copy then [((d.copyTen q).addr, work)] else [])
  total ((tens.filter fun t => decide (t.1 < a)).map (·.2))

/-- Whether a pattern is finite. -/
def f32Fin (x : F32) : Bool := x.val.isFin

/-- Writes the results of a run of elements: parameters, states, copy; counts what was written (R267, R277). `row` is the table row, `pos`
its place among the rows written, `c` the first column. -/
def grmStore (v : Mover) (s : Nat) (d : GD) (q : Prm) (states : List Nat) (row pos c : Nat) (res : List (Option (F32 × List F32)))
    (fin : List Bool) : AttM Unit := do
  let seed := wordAt d.w 14
  let at_ := pos * d.rowLen + c
  let n1 ← d.p.put v seed row c (drawBase d q d.p.addr + at_) (res.map fun r => r.map (·.1)) fin
  let n2 ← states.foldlM
    (fun n i => do return n + (← (d.s i).put v seed row c (drawBase d q (d.s i).addr + at_) (res.map fun r => r.map fun x => x.2.getD i 0) fin)) 0
  let t := d.copyTen q
  let n3 ← if d.copy then t.put v seed row c (drawBase d q t.addr + at_) (res.map fun r => r.map (·.1)) fin else pure 0
  grmCount fun m => (m.satFld (Reg.grmNonfinite s) 63 32 (n1 + n2 + n3)).addFld (Reg.grmElems s) 63 0 (res.filter (·.isSome)).length

/-- Scaled gradients (R264). -/
def grmGrads (v : Mover) (d : GD) (q : Prm) (row c n : Nat) : AttM (List F32) := do
  return ((← (d.g q).read v row c n).map fun x => ((q.at 1).val.mul x).toF32)

/-- Applies RULE 0, 1, 2 or 4 to a run of elements. -/
def grmRun (v : Mover) (s : Nat) (e : Env) (row pos c n : Nat) : AttM Unit := do
  let d := e.d
  let gs ← grmGrads v d e.q (if d.sparse then pos else 0) c n
  let ps ← d.p.read v row c n
  let ss ← (List.range 4).mapM fun i => if d.states.contains i then (d.s i).read v row c n else pure []
  let one (i : Nat) : Option (F32 × List F32) × Bool :=
    let g := gs.getD i 0
    let p := ps.getD i .zero
    let st := ss.map fun l => (l.getD i .zero).toF32
    let fin := f32Fin g && p.isFin && st.all f32Fin
    if !f32Fin g && decide (d.rule ≤ 2) then (none, fin) else (some (e.elem g p.toF32 st), fin)
  let rs := (List.range n).map one
  grmStore v s d e.q d.states row pos c (rs.map (·.1)) (rs.map (·.2))
  grmCount fun m => m.satFld (Reg.grmNonfinite s) 31 0 (rs.filter fun r => r.1.isNone).length

/-- The environment of a count t. -/
def mkEnv (d : GD) (q : Prm) (lr : F32) (prog : List Word) (t : Nat) : Env :=
  { d := d, q := q, lr := lr, c1 := if d.rule = 1 then derived 3 (q.at 2) t else f32One, c2 := if d.rule = 1 then derived 3 (q.at 3) t else f32One
    k := if d.rule = 4 then progCoefs prog lr t else [], prog := progSteps prog }

/-- The 4,096-element runs of a shard from `start` on: first element and length. -/
def grmRuns (n start : Nat) : List (Nat × Nat) :=
  ((List.range (ceilDiv n 4096)).map fun i => (max start (4096 * i), min n (4096 * i + 4096))).filterMap fun ab =>
    if ab.1 < ab.2 then some (ab.1, ab.2 - ab.1) else none

/-- The gradient of RULE 3, run by run. `pass`: the pass whose PROGRESS rises after each run (R275). Pass 1 ends at a run that holds an
element that is not finite (R267). -/
def grmSweep (v : Mover) (d : GD) (q : Prm) (pass : Option Nat) : AttM (Option (List F32)) :=
  (grmRuns d.n 0).foldlM
    (fun (acc : Option (List F32)) run => do
      match acc with
      | none => return none
      | some gs =>
        let g ← grmGrads v d q 0 run.1 run.2
        if pass == some 1 && !g.all f32Fin then return none
        if let some k := pass then setProgress v d k (run.1 + run.2)
        return some (gs ++ g)) (some [])

/-- RULE 3 (R266): the statistics of passes 1 and 2 and the elements of pass 3. `resume`: PROGRESS of an interrupted pass 3, which stands
while pass 2 is repeated. Answers REASON. -/
def grmFactored (v : Mover) (s : Nat) (d : GD) (q : Prm) (lr : F32) (resume : Option Nat) : AttM Nat := do
  let rr := d.rows
  let cc := d.cols
  let nat (n : Nat) : F32 := f32OfQ false n 1 0
  let seed := wordAt d.w 14
  let some gs ← grmSweep v d q (if resume.isSome then none else some 1)
    | grmCount fun m => m.satFld (Reg.grmNonfinite s) 31 0 d.n
      return 9
  let g (i j : Nat) : F32 := gs.getD (i * cc + j) 0
  let st0 := ((← (d.s 0).read v 0 0 rr).map (·.toF32))
  let st1 := ((← (d.s 1).read v 0 0 cc).map (·.toF32))
  let sq (i j : Nat) : F32 := f32Add (f32Mul (g i j) (g i j)) (q.at 6)
  let rs := (List.range rr).map fun i => (List.range cc).foldl (fun a j => f32Add a (sq i j)) 0
  let cs := (List.range cc).map fun j => (List.range rr).foldl (fun a i => f32Add a (sq i j)) 0
  let blend (old : List F32) (sums : List F32) (n : Nat) : List F32 :=
    (old.zip sums).map fun x => f32Add (f32Mul (q.at 3) x.1) (f32Mul q.ob2 (f32Div x.2 (nat n)))
  let r := if resume.isSome then st0 else blend st0 rs cc
  let c := if resume.isSome then st1 else blend st1 cs rr
  if resume.isNone then
    setProgress v d 2 0
    let _ ← grmSweep v d q (some 2)
  let rbar := f32Div (r.foldl f32Add 0) (nat rr)
  let c2 := derived 3 (q.at 3) d.step
  let u0 (i j : Nat) : F32 := f32Div (g i j) (f32Sqrt (f32Div (f32Mul (r.getD i 0) (c.getD j 0)) (f32Mul rbar c2)))
  let sum := (List.range d.n).foldl (fun a e => let u := u0 (e / cc) (e % cc); f32Add a (f32Mul u u)) 0
  let k := (valMax Val.one (f32Div (f32Sqrt (f32Div sum (nat d.n))) (q.at 7)).val).toF32
  if resume.isNone then
    let n0 ← (d.s 0).put v seed 0 0 (drawBase d q (d.s 0).addr) (r.map some) (st0.map f32Fin)
    let n1 ← (d.s 1).put v seed 0 0 (drawBase d q (d.s 1).addr) (c.map some) (st1.map f32Fin)
    grmCount fun m => m.satFld (Reg.grmNonfinite s) 63 32 (n0 + n1)
    setProgress v d 3 0
  let mom := d.states.contains 2
  let stats := st0.all f32Fin && st1.all f32Fin
  (grmRuns d.n (resume.getD 0)).foldlM
    (fun _ run => do
      let ps ← d.p.read v 0 run.1 run.2
      let ms ← if mom then (d.s 2).read v 0 run.1 run.2 else pure []
      let one (i : Nat) : Option (F32 × List F32) × Bool :=
        let e := run.1 + i
        let p := (ps.getD i .zero).toF32
        let m := (ms.getD i .zero).toF32
        let u := f32Div (u0 (e / cc) (e % cc)) k
        let u1 := if mom then f32Add (f32Mul (q.at 2) m) (f32Mul q.ob1 u) else u
        (some (f32Sub p (f32Mul lr (f32Add u1 (f32Mul (q.at 5) p))), [0, 0, u1, 0]), stats && f32Fin p && f32Fin m && f32Fin (g (e / cc) (e % cc)))
      let rs := (List.range run.2).map one
      grmStore v s d q (if mom then [2] else []) 0 0 run.1 (rs.map (·.1)) (rs.map (·.2))
      setProgress v d 3 (run.1 + run.2)) ()
  return 0

/-- Applies a sound descriptor of stack `s` (R264 to R277); answers REASON. -/
def grmApply (v : Mover) (s : Nat) (d : GD) (q : Prm) (idx : List Byte) (prog : List Word) : AttM Nat := do
  let mult ← if d.paced then do
      let r := (← get).sample d.group d.step
      set r.2
      pure r.1
    else pure f32One
  let lr := f32Mul (q.at 0) mult
  let from_ ← grmStart v s d
  if d.rule = 3 then
    match from_ with
    | some (n, 3) => grmFactored v s d q lr (some n)
    | some _ => do setProgress v d 1 0; grmFactored v s d q lr none
    | none => grmFactored v s d q lr none
  else if d.sparse then
    let start := (from_.map (·.1)).getD 0
    (List.range (d.rows - start)).foldlM
      (fun _ i => do
        let pos := start + i
        let row := leAt idx (4 * pos) 4
        let ca := localPart (d.addr 12) + 4 * row
        let t := satAdd 32 (leNat (← grmRead v ca 4)) 1
        grmRun v s (mkEnv d q lr prog t) row pos 0 d.cols
        grmWrite v ca (leBytes 4 t)
        setProgress v d 0 (pos + 1)) ()
    return 0
  else
    let e := mkEnv d q lr prog d.step
    (grmRuns d.n ((from_.map (·.1)).getD 0)).foldlM
      (fun _ run => do
        grmRun v s e 0 0 run.1 run.2
        setProgress v d 0 (run.1 + run.2)) ()
    return 0

/- Rings -/

/-- A malformed descriptor (R278): RESULT 3 and REASON, and the ring halts. -/
def Block.refuseGroom (m : Block) (idx : Nat) (x : Context) (d : GD) (reason : Nat) : Block :=
  m.haltRing 4 idx x 128 3 63 (putField (wordAt d.w 3) 61 56 reason)

/-- Applies the descriptor of a ring. Where a host still holds a copy in the way, the copy is asked for and the descriptor begins again. -/
def Block.startGroom (m : Block) (idx s : Nat) (v : Mover) (d : GD) (q : Prm) (il : List Byte) (prog : List Word) : Block :=
  match (grmApply v s d q il prog).run m with
  | (.error (.need l), _) => m.request v l
  | (.error (.curb kind ga n), m1) => m1.curb v.mtype v.idx v.tenant v.ctx kind ga n none
  | (.ok reason, m1) => { m1 with eng.grooms := Tbl.put m1.eng.grooms idx { result := 1, reason := reason, step := d.step } }.beat 4 idx

/-- The common part of the six rule rows: the descriptor at HEAD of a ring, when the row is the one its RULE and SPARSE name, is checked
(R278) and applied. -/
def groomEffect (row : GD → Bool) (stack ring : Nat) (m : Block) : Block :=
  let idx := 4 * stack + ring
  if m.eng.grooms.any fun e => e.1 == idx then m
  else m.takeEntry 4 idx 128 fun m1 x w =>
    let d : GD := ⟨w⟩
    let v := ringMover 4 idx x
    if !row d then m
    else
      let own := (if d.reserved then [1] else []) ++ (if d.outOfRange then [3] else []) ++
        (if !m1.inPoolWindow x (d.addr 15) 128 || (d.rule == 4 && !m1.inPoolWindow x (d.addr 11) 256) then [2] else [])
      if !m1.inPoolWindow x (d.addr 15) 128 then m1.refuseGroom idx x d (lowest own)
      else m1.withRead v (ownGlobal (localPart (d.addr 15))) 128 fun m2 pb =>
        let q : Prm := ⟨(List.range 10).map fun i => BitVec.ofNat 32 (leAt pb (8 * i) 4)⟩
        let r1 := own ++
          (if ((List.range 10).any fun i => leAt pb (8 * i + 4) 4 != 0) || ((List.range 6).any fun i => leAt pb (80 + 8 * i) 8 != 0) then [1] else []) ++
          (if d.rule == 3 && !(Val.zero.lt (q.at 6).val && Val.zero.lt (q.at 7).val) then [3] else []) ++
          (if (d.regions q).all (m2.inStack stack) then [] else [2]) ++ (if regionsMeet (d.regions q) then [3] else [])
        if lowest r1 ≠ 0 then m2.refuseGroom idx x d (lowest r1)
        else m2.withRead v (ownGlobal (localPart (d.addr 11))) (if d.sparse then 4 * d.rows else 0) fun m3 il =>
          m3.withRead v (ownGlobal (localPart (d.addr 11))) (if d.rule = 4 then 256 else 0) fun m4 pg =>
            let prog := leWords 32 pg
            let rows := (List.range d.rows).map fun i => leAt il (4 * i) 4
            let r2 := (if d.rule == 4 && !m4.genrecMask.testBit stack then [4] else []) ++
              (if d.sparse && (((rows.zip (rows.drop 1)).any fun ab => decide (ab.1 ≥ ab.2)) || rows.any fun r => decide (r ≥ d.tableRows)) then [5] else []) ++
              (if d.rule == 4 && progBad prog then [6] else []) ++ (if d.paced && !m4.ownsGroup x.tenant d.group then [7] else [])
            if lowest r2 ≠ 0 then m4.refuseGroom idx x d (lowest r2) else m4.startGroom idx stack v d q il prog

/-- Whether a descriptor is a row's: RULE `r` without SPARSE, or a reserved RULE, which is malformed in any row. -/
def plainRow (r : Nat) (d : GD) : Bool := !d.sparse && (d.rule == r || decide (d.rule > 4))

/-- MOMENTUM_SGD (R265). -/
def momentumSgdEffect (stack ring : Nat) (m : Block) : Block := groomEffect (plainRow 0) stack ring m
/-- ADAMW (R265). -/
def adamwEffect (stack ring : Nat) (m : Block) : Block := groomEffect (plainRow 1) stack ring m
/-- SIGN_MOMENTUM (R265). -/
def signMomentumEffect (stack ring : Nat) (m : Block) : Block := groomEffect (plainRow 2) stack ring m
/-- FACTORED_SECOND_MOMENT (R266). -/
def factoredSecondMomentEffect (stack ring : Nat) (m : Block) : Block := groomEffect (plainRow 3) stack ring m
/-- GENERAL_RECURRENCE (R268). -/
def generalRecurrenceEffect (stack ring : Nat) (m : Block) : Block := groomEffect (plainRow 4) stack ring m
/-- SPARSE_ROW_UPDATE (R271). -/
def sparseRowUpdateEffect (stack ring : Nat) (m : Block) : Block := groomEffect (fun d => d.sparse) stack ring m

/- GROOM_UPDATE (R262) -/

/-- Changes the list of a GROOM_UPDATE command: its queue, its ring, descriptors copied so far, ring entries that hold them. -/
def Block.modList (m : Block) (q : QueueId) (f : QueueId × Nat × Nat × List Nat → QueueId × Nat × Nat × List Nat) : Block :=
  { m with eng.groomLists := mapIf (fun (y : QueueId × Nat × Nat × List Nat) => y.1 == q) f m.eng.groomLists }

/-- Copies descriptors of a list into its ring while there is room. -/
def Block.feedRing (q : QueueId) (idx addr count : Nat) (x : Context) : Nat → Block → Block
  | 0, m => m
  | fuel + 1, m =>
    match m.eng.groomLists.find? fun (l : QueueId × Nat × Nat × List Nat) => l.1 == q with
    | none => m
    | some l =>
      let tail := m.tailOf 4 idx
      let next := (tail + 1) % m.ringSize 4 idx
      if l.2.2.1 ≥ count ∨ next = m.headOf 4 idx ∨ m.ringSt 4 idx ≥ 2 then m
      else
        let bs := m.readMem (localPart addr + 128 * l.2.2.1) 128
        let m0 := if tail = m.headOf 4 idx then m.beat 4 idx else m
        let m1 := (m0.homeWrite (m0.entryAddr 4 idx x 128 tail) bs).setFld (ringTail 4 idx) 9 0 next
        feedRing q idx addr count x fuel (m1.modList q fun l => (l.1, l.2.1, l.2.2.1 + 1, l.2.2.2 ++ [tail]))

/-- Goes on with the list of a GROOM_UPDATE command, which completes OK once every descriptor has ended. -/
def Block.feedList (m : Block) (q : QueueId) : Block :=
  match m.running q, m.eng.groomLists.find? fun (l : QueueId × Nat × Nat × List Nat) => l.1 == q with
  | some c, some l =>
    match m.ringOf 4 l.2.1 with
    | none => m
    | some x =>
      let count := field (c.p 1) 15 0
      let m1 := Block.feedRing q l.2.1 (c.p 0).toNat count x count m
      match m1.eng.groomLists.find? fun (y : QueueId × Nat × Nat × List Nat) => y.1 == q with
      | some y =>
        if y.2.2.1 ≥ count ∧ y.2.2.2.isEmpty then
          ({ m1 with eng.groomLists := m1.eng.groomLists.filter fun (z : QueueId × Nat × Nat × List Nat) => z.1 != q }).complete q 0 0
        else m1
      | none => m1
  | _, _ => m

/-- GROOM_UPDATE (R262): the list goes to the lowest-numbered ring of the unit that the context owns. A list that the tenant may not read
on this module is malformed. -/
def groomUpdateEffect (q : QueueId) (m : Block) : Block :=
  match m.running q with
  | none => m
  | some c =>
    if c.opcode ≠ 0x120 then m
    else if c.wait = .unit then m.feedList q
    else if c.wait ≠ .none then m
    else
      let s := field (c.p 1) 20 16
      let a := (c.p 0).toNat
      match (List.range 4).find? fun k => m.ownedBy (Reg.grmRingOwner s k) q.tenant q.ctx with
      | none => m.complete q 7 0
      | some k =>
        if (m.check q.tenant q.ctx a (128 * field (c.p 1) 15 0) false).isSome || (m.remoteNode a).isSome then m.complete q 2 0
        else ({ m.setWait q .unit with eng.groomLists := m.eng.groomLists ++ [(q, 4 * s + k, 0, [])] }).feedList q

/-- GROOM_DESCRIPTOR_END (R275): STORED_STEP and STATE, then RESULT, then the hitch; a listed descriptor makes room for the next. -/
def groomDescriptorEndEffect (stack ring : Nat) (m : Block) : Block :=
  let idx := 4 * stack + ring
  match m.eng.grooms.find? (fun e => e.1 == idx), m.ringOf 4 idx with
  | some (_, e), some x =>
    if m.ringSt 4 idx ≥ 2 then m
    else
      let h := m.headOf 4 idx
      let d : GD := ⟨leWords 16 (m.readMem (m.entryAddr 4 idx x 128 h) 128)⟩
      let v := ringMover 4 idx x
      let fin : AttM Unit := do
        let hd ← grmHeader v d
        putHeader v d ((hd.set 0 (putField (wordAt hd 0) 63 32 e.step)).set 1 (putField (wordAt hd 1) 63 62 0))
      match fin.run m with
      | (.error (.curb kind ga n), m1) => m1.curb 4 idx x.tenant x.ctx kind ga n none
      | (.error (.need l), _) => m.request v l
      | (.ok _, m1) =>
        let w3 := putField (putField (wordAt d.w 3) 63 62 e.result) 61 56 e.reason
        let m2 := (m1.entryWrite 4 idx x 128 3 w3).nextEntry 4 idx
        let m3 := { m2 with eng.grooms := Tbl.drop m2.eng.grooms idx }.signalAfter d.sig x (m.entryAddr 4 idx x 128 h) 3 (field (wordAt d.w 0) 27 18) (field (wordAt d.w 1) 31 0)
        match m3.eng.groomLists.find? fun (l : QueueId × Nat × Nat × List Nat) => l.2.1 == idx && l.2.2.2.contains h with
        | some l =>
          (m3.modList l.1 fun l => (l.1, l.2.1, l.2.2.1, l.2.2.2.erase h)).feedList l.1
        | none => m3
  | _, _ => m

/-- GRM_RING_TAIL (R262, R283). -/
def grmRingTailEffect (r : Requester) (stack ring tail : Nat) (m : Block) : Block := m.writeTail r 4 (4 * stack + ring) tail

/-- GRM_CLR (R283): by firmware or a tenant that owns a ring of the unit. -/
def grmClrEffect (r : Requester) (stack : Nat) (m : Block) : Block :=
  if m.tuning ∧ stack < m.stackCount ∧ (isFw r || (List.range 4).any fun k => m.owns r (Reg.grmRingOwner stack k)) then m.clearGroom stack
  else m

/-- GROOM_UPDATE. -/
def execGroomUpdate (q : QueueId) (s : State) : Host.Outcome State Fault Refusal := s.commit (groomUpdateEffect q s.m)
/-- GRM_RING_TAIL. -/
def execGrmRingTail (r : Requester) (stack ring tail : Nat) (s : State) : Host.Outcome State Fault Refusal :=
  s.commit (s.m.byHost r (grmRingTailEffect r stack ring tail))
/-- GRM_CLR. -/
def execGrmClr (r : Requester) (stack : Nat) (s : State) : Host.Outcome State Fault Refusal := s.commit (s.m.byHost r (grmClrEffect r stack))
/-- MOMENTUM_SGD. -/
def execMomentumSgd (stack ring : Nat) (s : State) : Host.Outcome State Fault Refusal := s.commit (momentumSgdEffect stack ring s.m)
/-- ADAMW. -/
def execAdamw (stack ring : Nat) (s : State) : Host.Outcome State Fault Refusal := s.commit (adamwEffect stack ring s.m)
/-- SIGN_MOMENTUM. -/
def execSignMomentum (stack ring : Nat) (s : State) : Host.Outcome State Fault Refusal := s.commit (signMomentumEffect stack ring s.m)
/-- FACTORED_SECOND_MOMENT. -/
def execFactoredSecondMoment (stack ring : Nat) (s : State) : Host.Outcome State Fault Refusal :=
  s.commit (factoredSecondMomentEffect stack ring s.m)
/-- GENERAL_RECURRENCE. -/
def execGeneralRecurrence (stack ring : Nat) (s : State) : Host.Outcome State Fault Refusal :=
  s.commit (generalRecurrenceEffect stack ring s.m)
/-- SPARSE_ROW_UPDATE. -/
def execSparseRowUpdate (stack ring : Nat) (s : State) : Host.Outcome State Fault Refusal := s.commit (sparseRowUpdateEffect stack ring s.m)
/-- GROOM_DESCRIPTOR_END. -/
def execGroomDescriptorEnd (stack ring : Nat) (s : State) : Host.Outcome State Fault Refusal :=
  s.commit (groomDescriptorEndEffect stack ring s.m)

end Sys2Proof.Machine
end

