-- ==== Sys2Proof/Machine/Reset.lean ====
section
/-! DEFINITION. Reset, boot and option loading (chapter 17): the cold and the warm sequence (R416, R420), the boot ROM's choice of an image
(R391, R393), option loading (R417 to R419), and the end of device recovery (R453 to R467). A module reset passes through three commands:
its request, its assertion (WARM_RESET, COLD_RESET, POWER_ON), and its release (RESET_RELEASE) (log entry 37). -/
namespace Sys2Proof.Machine

/- Requests -/

/-- RST_CMD with a module scope (R407, R410): from firmware, or host software of tenant 0. -/
def Block.rstModule (m : Block) (r : Requester) (cold : Bool) (confirm : Nat) : Block :=
  if confirm ≠ 0x5A3C then m
  else if isFw r then m.requestReset cold 7
  else if isSysHost r then m.requestReset cold 3
  else m

/-- RST_CMD_WARM. -/
def rstCmdWarmEffect (r : Requester) (confirm : Nat) (m : Block) : Block := m.rstModule r false confirm
/-- RST_CMD_COLD. -/
def rstCmdColdEffect (r : Requester) (confirm : Nat) (m : Block) : Block := m.rstModule r true confirm

/-- MOD_RST_N_ASSERT (R412): three low samples assert it; the pin stays low for `samples` ticks in all, and the reset holds for at least 25,000
ticks. -/
def modRstNAssertEffect (samples : Nat) (m : Block) : Block :=
  if samples < 3 ∨ !m.pwr.powered then m
  else { m.requestReset false 2 with pwr.holdUntil := max m.pwr.holdUntil (m.time + 25000), pwr.lowUntil := max m.pwr.lowUntil (m.time + (samples - 3)) }

/- Assertion: what survives -/

/-- Whether a local address lies in memory that a warm reset loses: the shared pool and core memory (Table 19.8). -/
def Block.onDie (m : Block) (a : Nat) : Bool :=
  match m.region a with
  | .pool => true
  | .core _ _ => true
  | _ => false

/-- Registers that keep their values through a module warm reset: those of the always-on domain (Table 17.2), the reset controller's (R427),
power and security, error counts since module cold reset, and what firmware's records restore: ownership, ring bases, routing, schedules. -/
def keepWarm (off : Nat) : Bool :=
  let o := off % 0x100000
  let p := o % 0x1000
  match off / 0x100000 with
  | 1 => true
  | 2 => true
  | 8 => (decide (0x800 ≤ p) && o % 0x10 == 0) || p == 0xA0
  | 9 => p != 0
  | 10 => true
  | 11 => off != Reg.ddrPageUrgent
  | 12 => decide (0x100 ≤ p) && (o % 0x20 == 0 || o % 0x20 == 8)
  | 13 => true
  | 14 => decide (0x100 ≤ p) && decide (p < 0x200) && (o % 0x20 == 0 || o % 0x20 == 8)
  | 15 => true
  | 17 => decide (0x100 ≤ p) && (o % 0x20 == 0 || o % 0x20 == 8)
  | 18 => decide (o ≥ 0x1000)
  | 19 => off == Reg.cmdSysSq || off == Reg.cmdSysCq || off == Reg.cmdSysCfg || decide (o ≥ 0x1000)
  | 20 => true
  | 21 => off == Reg.fabNode || decide (Reg.fabRoute 0 ≤ off ∧ off ≤ Reg.fabRoute 4094) ||
      (decide (0x1000 ≤ o) && decide (o < 0x8000) && (o % 0x40 == 8 || o % 0x40 == 0x18))
  | 23 => off == Reg.fwStaged || off == Reg.fwAct || off == Reg.fwActTime || off == Reg.fwActEnd || off == Reg.fwLog
  | 24 => true
  | 25 => true
  | _ => false

/-- A commit of the security version that a reset cuts short has blown some of its fuses; how many is an open value (R488). -/
def Block.cutCommit (m : Block) : Block :=
  if !m.sec.svnBusy then m
  else
    let d := m.draw
    let goal := max m.fuse.svnFuses (min 64 m.fw.runSvn)
    let n := m.fuse.svnFuses + d.1.toNat % (goal - m.fuse.svnFuses + 1)
    { d.2 with sec.svnBusy := false, fuse.svnFuses := n }.setFld Reg.secSvnCtl 62 62 0

/-- Page-ins of saddles that a reset cuts short: their pages leave the tenants' ranges, and the saddles are PAGED. -/
def Block.dropLoads (m : Block) : Block :=
  ((m.page.saddles.filter fun s => s.state == .loading).foldl Block.dropPages m).modSaddle (fun s => s.state == .loading)
    fun s => { s with state := .paged, slot := none }

/-- A module warm reset is asserted outside the always-on domain (R420, Tables 17.2, 19.8): pool, core memory, operand buffers, line caches, unit
queues and engine work are lost, unacknowledged bursts will be sent again, memories are in self-refresh, transmitters send keepalive. -/
def Block.assertWarm (m0 : Block) (r : ResetInProgress) : Block :=
  let m := m0.cutCommit.stageFail.dropLoads
  let core (c : CoreState) : CoreState := { cmCorr := c.cmCorr, cmUncorr := c.cmUncorr, hangs := c.hangs }
  let tile (t : TileState) : TileState := { mhz := t.mhz, braked := t.braked, hot := t.hot, temp := t.temp, pllOn := false }
  let port (p : FabPort) : FabPort := { acked := p.acked, cable := p.cable }
  let cho (c : ChotusState) : ChotusState := { lossTick := c.lossTick, noFurther := c.noFurther, kept := c.kept, pendIrq := c.pendIrq }
  let tx (p : TxPair) : TxPair := { p with unacked := p.unacked.map fun u => { u with port := none, sent := false } }
  let m1 : Block := { m with
    regs := (m.regs.filter fun (e : Nat × Word) => keepWarm e.1).map fun (e : Nat × Word) =>
      if decide (Reg.cmdMbCtl 0 ≤ e.1) && decide (e.1 ≤ Reg.cmdMbCtl 63) then (e.1, putField e.2 2 0 0) else e
    mem := m.mem.filter fun (e : Host.Cell) => !m.onDie e.1
    poison := m.poison.filter fun g => !m.onDie (128 * g)
    ecc := m.ecc.filter fun (e : Nat × List Nat) => !m.onDie (128 * e.1)
    bufs := [], bufPoison := [], mbuf := [], tags := []
    cores := m.cores.map fun (e : Nat × CoreState) => (e.1, core e.2)
    tiles := m.tiles.map fun (e : Nat × TileState) => (e.1, tile e.2)
    chans := []
    page := { m.page with urgent := [], background := [], engines := [] }
    eng := { pacerActive := m.eng.pacerActive }
    fab := { m.fab with
      fabPorts := m.fab.fabPorts.map fun (e : Nat × FabPort) => (e.1, port e.2)
      tx := m.fab.tx.map tx
      rx := m.fab.rx.map fun (p : RxPair) => { p with early := [] }
      reads := [], readsIn := [], wrr := [], portRr := [] }
    cho := { m.cho with
      chotus := m.cho.chotus.map fun (e : Nat × ChotusState) => (e.1, cho e.2)
      modeOpen := false, modeIds := [], directory := [], snoops := [], hostIn := [], hostWrites := [], mbBusy := [], netBusy := []
      reports := [], reportPend := [], resetPend := [] }
    fw := { m.fw with fwUp := false, staging := none, recoveryWait := false, bootSlot := none, netImage := [] }
    flt := { m.flt with curbs := [], progAt := [] }
    pwr := { m.pwr with
      narrow := [], pstate := 0, wake := false, rst := some { r with asserted := some m.time }
      recovery := m.pwr.recovery.map fun (x : Nat × Nat) => (x.1, 2)
      pins := { m.pwr.pins with chotusTx := 1, evotrixTx := 1 } } }
  let m2 := (m1.fab.tx.filter fun p => !p.unacked.isEmpty).foldl (fun m p => m.noteUnreach p.node) m1
  let m3 := (m2.clearMeas.memState 2 3).setFld Reg.rstStatus 63 60 0
  ((m3.setReg Reg.rstCause (putField (putField 0 63 60 1) 59 56 r.source)).setReg Reg.rstTime (BitVec.ofNat 64 r.request)).satFld Reg.rstCounts 63 32 1

/-- WARM_RESET (R420). -/
def warmResetEffect (m : Block) : Block :=
  match m.pwr.rst with
  | some r => if r.cold ∨ r.asserted.isSome ∨ m.pwr.stuck then m else m.assertWarm r
  | none => m

/-- What outlives a module cold reset: flash and fuses (Table 17.2), and what is no part of the module's state: host memory, DIMMs, cables, board
inputs, what has been sent. HBM and tier keep their poison and errors, but under the new keys their contents read as free bytes (R163, R164).
Staging and activation status lies with firmware's flash (log entry 38). -/
def Block.coldKeep (m0 : Block) (restart : Bool) : Block :=
  let m := m0.cutCommit.stageFail
  let host (a : Nat) : Bool := decide (hostBase ≤ a)
  let left (t : Nat) : Nat := if restart then t else t - m.time
  let keep (off : Nat) : Bool :=
    off == Reg.fwStaged || off == Reg.fwAct || off == Reg.fwActTime || off == Reg.fwActEnd ||
      (restart && (off / 0x100000 == 2 || off == Reg.aonStraps))
  { regs := m.regs.filter fun (e : Nat × Word) => keep e.1
    mem := m.mem.filter fun (e : Host.Cell) => host e.1
    poison := m.poison.filter fun g => !m.onDie (128 * g)
    ecc := m.ecc.filter fun e => !m.onDie (128 * e.1)
    stale := [(0, m.hbmBytes / 128, m.free), (0x100000000000 / 128, 0x100000000000 / 128, m.free)]
    dimms := m.dimms
    time := if restart then m.time else 0
    tiles := m.tiles.map fun (e : Nat × TileState) => (e.1, { temp := e.2.temp, pllOn := false })
    fab := { fabOut := m.fab.fabOut, fabPorts := m.fab.fabPorts.map fun (e : Nat × FabPort) => (e.1, { cable := e.2.cable }) }
    cho := { irqs := m.cho.irqs, hostOut := m.cho.hostOut, netOut := m.cho.netOut, i3cOut := m.cho.i3cOut, i3cReads := m.cho.i3cReads }
    fw := { opt := m.fw.opt, optOld := m.fw.optOld, slotA := m.fw.slotA, slotB := m.fw.slotB, chain := m.fw.chain
            ctrlState := m.fw.ctrlState, ctrlMap := m.fw.ctrlMap, act := m.fw.act }
    pwr := { powered := m.pwr.powered, straps := m.pwr.straps, rotBad := m.pwr.rotBad, refclk := m.pwr.refclk, rst := m.pwr.rst
             coldOpt := m.pwr.coldOpt, holdUntil := left m.pwr.holdUntil, lowUntil := left m.pwr.lowUntil, pstate := 0
             pins := { i3cOn := true } }
    flt := { wear := m.flt.wear, wearSeq := m.flt.wearSeq, hangs := m.flt.hangs, deadStacks := m.flt.deadStacks, deadChannels := m.flt.deadChannels }
    fuse := m.fuse
    free := m.free + 1 }

/-- AON_STRAPS as sampled (R413, R415): bits [9:0] of the board's straps, whether CLK_MODE is reserved, and the assertion style in force. -/
def Block.latchStraps (m : Block) : Block :=
  let s := m.pwr.straps
  let style := if m.fuse.styleLock then m.fuse.styleVal else s.testBit 5
  let w : Word := BitVec.ofNat 64 (s % 1024)
  m.setReg Reg.aonStraps (putBit (putBit (putBit (putBit w 4 false) 63 (s / 64 % 4 == 3)) 62 m.fuse.styleLock) 61 style)

/-- CLK_MODE as latched. -/
def Block.clkMode (m : Block) : Nat := m.fld Reg.aonStraps 7 6
/-- BOOT_SRC as latched. -/
def Block.bootSrc (m : Block) : Nat := m.fld Reg.aonStraps 9 8

/-- Step 4 of Table 17.4 (R477, R480, R484, R485): self-test, tenant 0's key, the ML-KEM key pair, M_0 and M_1. A failed self-test keeps the
module here. -/
def Block.stepFour (m : Block) : Block :=
  if m.pwr.rotBad then { m with pwr.selfTest := 2, pwr.stuck := true }
  else { m.clearMeas.drawKey.drawKem with pwr.selfTest := 1 }.measureRom

/-- A module cold reset is asserted (R416, R418): from step 3 of Table 17.4, the timebase at 0 and the straps sampled; where it restarts option
loading, timebase and straps stand, and step 4 follows the release. -/
def Block.assertCold (m : Block) (r : ResetInProgress) : Block :=
  let m1 := m.coldKeep r.restart
  let m2 := { m1 with pwr.rst := some { r with asserted := some m1.time, request := if r.restart then r.request else 0 } }.setFld Reg.rstStatus 63 60 0
  let m3 := (m2.setReg Reg.rstCause (putField 0 59 56 r.source)).setReg Reg.rstTime 0
  if r.restart then m3 else m3.latchStraps.stepFour

/-- COLD_RESET (R416). -/
def coldResetEffect (m : Block) : Block :=
  match m.pwr.rst with
  | some r => if !r.cold ∨ r.asserted.isSome ∨ m.pwr.stuck then m else m.assertCold r
  | none => m

/-- POWER_ON (R416): PWR_GOOD rises, and steps 1 to 6 of Table 17.4 run. `straps`: the strap pins as AON_STRAPS [9:0] orders them. -/
def powerOnEffect (straps : Nat) (m : Block) : Block :=
  if m.pwr.powered then m
  else
    let m1 := m.coldKeep false
    { m1 with pwr.powered := true, pwr.straps := straps, pwr.holdUntil := 0, pwr.lowUntil := 0 }.assertCold { cold := true, source := 1, request := 0 }

/-- PWR_GOOD falls (R407, R429): M3 at once. The memories lose what they hold. -/
def Block.powerDown (m : Block) : Block :=
  let m1 := m.coldKeep false
  { m1 with
    poison := m1.poison.filter fun g => decide (hostBase ≤ 128 * g)
    ecc := m1.ecc.filter fun e => decide (hostBase ≤ 128 * e.1)
    pwr := { straps := m.pwr.straps, rotBad := m.pwr.rotBad, refclk := m.pwr.refclk } }

/-- POWER_LOSS. -/
def powerLossEffect (m : Block) : Block := if m.pwr.powered then m.powerDown else m

/-- INPUT_VOLTAGE_FAULT (Table 18.1): below 44.0 V for 100 µs, 2,500 ticks, or above 57.0 V for 10 µs, 250 ticks, acts as PWR_GOOD falling. -/
def inputVoltageFaultEffect (mv ticks : Nat) (m : Block) : Block :=
  if m.pwr.powered ∧ ((mv < 44000 ∧ ticks ≥ 2500) ∨ (mv > 57000 ∧ ticks ≥ 250)) then m.powerDown else m

/-- THERMAL_TRIP (R438): M3 with only the always-on domain running; a trip record is appended to the hang records of the flash. -/
def thermalTripEffect (tile temp : Nat) (m : Block) : Block :=
  if !m.alive ∨ tile ≥ m.tileCount ∨ temp < m.fld Reg.pwrTherm 15 0 then m
  else
    let m1 := (m.modTile tile fun t => { t with temp := temp }).capture 3 tile 2 []
    let m2 := m1.cutCommit.stageFail
    let off : TileState → TileState := fun t => { temp := t.temp, pllOn := false }
    { m2 with
      pwr := { m2.pwr with pstate := 3, trip := true, rst := none, recovery := none, narrow := [], causes := [], emergOpen := false
                           pins := { i3cOn := true, mgmtOn := m2.pwr.pins.mgmtOn } }
      fw.fwUp := false
      mem := m2.mem.filter fun (e : Host.Cell) => decide (hostBase ≤ e.1)
      poison := m2.poison.filter fun g => decide (hostBase ≤ 128 * g)
      bufs := [], bufPoison := [], mbuf := [], tags := [], ecc := [], cores := [], chans := []
      tiles := m2.tiles.map fun (e : Nat × TileState) => (e.1, off e.2)
      cmd := {}, page := {}, eng := {}
      regs := m2.regs.filter fun (e : Nat × Word) => e.1 / 0x100000 ≤ 2 || e.1 / 0x100000 == 23 || e.1 / 0x100000 == 24 }

/- Boot (R391, R393) -/

/-- The Chotus ports train (R365, R417). -/
def Block.freeChotus (m : Block) : Block :=
  let m1 := [0, 1].foldl (fun m p =>
    if m.fld (Reg.choPortCtl p) 0 0 = 1 then m
    else (m.setReg (Reg.choPortStatus p) (putField 0 63 60 1)).modChotus p fun x => { x with barred := false, everUp := false }) m
  { m1 with cho.modeTick := m1.time + 2500000, cho.modeOpen := false, cho.modeIds := [], pwr.pins.chotusTx := 2 }.setReg Reg.choMode 0

/-- The Evotrix ports train (R340, R417). -/
def Block.freeEvotrix (m : Block) : Block :=
  let m1 := (List.range m.portCount).foldl (fun m p =>
    if m.fld (Reg.fabPortCtl p) 0 0 = 1 then m.setFld (Reg.fabPortStatus p) 63 60 5 else m.retrainPort p) m
  { m1 with pwr.pins.evotrixTx := 2 }

/-- The ROM waits for an image (R391). -/
def Block.romWait (m : Block) : Block := { m with fw.recoveryWait := true }

/-- The ROM's choice of a slot (R391). TRIES is written before the image runs. -/
def Block.pickSlot (m : Block) : Block :=
  let o := m.fw.opt
  let a := o.prefSlot % 2
  let spent := o.trial && decide (o.tries ≥ 2)
  let m1 := if spent then { m with fw.fallback := true }
    else if o.trial then m.writeOpt fun o => { o with tries := o.tries + 1 } else m
  let first := if spent then 1 - a else a
  if m1.sound (m1.slotImage first) then { m1 with fw.bootSlot := some first }
  else if m1.sound (m1.slotImage (1 - first)) then { m1 with fw.fallback := true, fw.bootSlot := some (1 - first) }
  else m1.romWait

/-- Whether a failed control core finds no spare (R386). -/
def Block.ctrlSpent (m : Block) : Bool := !m.fw.ctrlFailed.isEmpty && !m.fw.ctrlState.contains 1

/-- Stage 2 of option loading: the source that BOOT_SRC gives (R417 to R419). -/
def Block.boot (m : Block) : Block :=
  if m.ctrlSpent ∨ m.fld Reg.rstStatus 59 56 ≥ 3 then m.romWait
  else match m.bootSrc with
    | 0 => m.pickSlot
    | 1 => m
    | 2 => m.freeChotus
    | _ => m.freeChotus.romWait

/-- RESET_RELEASE (R411, R412, R416, R418, R420): the hold is over, the reference is present, and every domain is released. Stage 1 of option
loading measures the option block, stage 2 begins. -/
def resetReleaseEffect (m : Block) : Block :=
  match m.pwr.rst with
  | none => m
  | some r =>
    match r.asserted with
    | none => m
    | some a =>
      if m.pwr.stuck ∨ !m.pwr.refclk ∨ m.clkMode ≥ 2 ∨ m.time < m.pwr.holdUntil ∨ m.time < m.pwr.lowUntil ∨ (!r.cold ∧ m.time < a + 25000) then m
      else
        let m1 := if r.restart then m.satFld Reg.rstStatus 55 48 1 else m
        let m2 := if r.cold then (if r.restart then m1.stepFour else m1) else m1.measureRom
        if m2.pwr.stuck then m2
        else
          let o := m2.fw.opt
          let d := sha3 (Config.optionBlockBytes [o.seq, o.prefSlot, if o.trial then 1 else 0, o.tries, o.paceSlot, o.sadGib, o.reserveMib, o.traceEn.toNat])
          let m3 := { m2.extend 3 0 d with
            pwr := { m2.pwr with rst := none, coldOpt := r.cold, wdogStart := m2.time, pstate := 0
                                 recovery := m2.pwr.recovery.map fun (x : Nat × Nat) => (x.1, 3) } }
          let m4 := m3.allTiles fun _ t => { t with pllOn := true, idleFrom := m3.time }
          (m4.setFld Reg.rstStatus 63 60 2).boot

/-- Stage 3 of option loading begins: every stack trains (Table 7.3). -/
def Block.trainingStarts (m : Block) : Block := (List.range m.stackCount).foldl (fun m s => m.setFld (Reg.hbmStatus s) 63 60 1) m

/-- FIRMWARE_LOADED (R390 to R393): the ROM has copied a sound image, measures it and starts it. `slot`: 0 and 1 the flash slot chosen, 2 the
network, 3 a mailbox. -/
def firmwareLoadedEffect (slot : Nat) (m : Block) : Block :=
  if !(m.phase = 2 ∨ (m.phase = 4 ∧ m.actSt = 3)) ∨ m.fw.fwUp ∨ m.pwr.rst.isSome ∨ m.fw.bootSlot ≠ some slot then m
  else
    let img := if slot ≤ 1 then m.slotImage slot else m.fw.netImage
    if m.sound img then
      let m1 := { m.startImage slot img with fw.netImage := [], fw.staging := none }
      if m.phase = 4 then m1.takeOver m.actPulled
      else { (m1.setFld Reg.rstStatus 63 60 3).trainingStarts with pwr.wdogStart := if slot ≤ 1 then m.pwr.wdogStart else m.time }
    else if slot ≤ 1 then m.pickSlot
    else { m with fw.bootSlot := none, fw.netImage := [] }

/-- OPTION_WATCHDOG_EXPIRY (R419): 500,000,000 ticks, not counting waits for the network, a mailbox or recovery wait; a warm reset of source 6, and
after the third in a row the ROM enters recovery wait. -/
def optionWatchdogExpiryEffect (m : Block) : Block :=
  let waiting := m.phase == 2 && (m.fw.recoveryWait || m.bootSrc != 0)
  if !(m.phase = 2 ∨ m.phase = 3) ∨ waiting ∨ m.pwr.rst.isSome ∨ m.time < m.pwr.wdogStart + 500000000 then m
  else (m.satFld Reg.rstStatus 59 56 1).requestReset false 6

/-- The domain indices of Table 17.7: how many there are, and the tile of a compute-die domain. -/
def Block.domains (m : Block) : Nat := if m.fuse.variant = .sbm2412 then 231 else 305

/-- The tile of a domain of a compute die. -/
def Block.domainTile (m : Block) (d : Nat) : Option Nat := if 4 ≤ d ∧ d < 4 + 11 * m.tileCount then some ((d - 4) / 11) else none

/-- Whether a narrow reset reaches a domain. -/
def Block.reaches (m : Block) (r : NarrowReset) (d : Nat) : Bool :=
  match m.domainTile d, r.level with
  | some t, 0 => ((engineOf r.idx).bind Engine.tile?) == some t
  | some t, 1 => r.idx / 8 == t
  | some t, _ => r.idx == t
  | none, 0 => decide (4 + 11 * m.tileCount ≤ d) && ((engineOf r.idx).bind Engine.tile?).isNone
  | none, _ => false

/-- DOMAIN_RESET_FAIL (R414, under the synchronous style): recorded; a module reset holds the module in reset until PWR_GOOD falls, a narrower one
escalates. -/
def domainResetFailEffect (domain : Nat) (m : Block) : Block :=
  if !m.pwr.powered ∨ m.fld Reg.aonStraps 61 61 = 0 ∨ domain ≥ m.domains then m
  else
    let note (m : Block) : Block := (m.setFld Reg.rstStatus 16 16 1).setFld Reg.rstStatus 15 0 domain
    if m.pwr.rst.isSome then { note m with pwr.stuck := true }
    else match m.pwr.narrow.find? fun r => m.reaches r domain with
      | some r => (note m).escalate r
      | none => m

/- Stage 3 and 4 of option loading -/

/-- The CAP_ registers (Tables 0.3 to 0.8). -/
def Block.fillCap (m : Block) : Block :=
  let small := decide (m.fuse.variant = .sbm2412)
  let mask (n : Nat) : Nat := 2 ^ n - 1
  let ddr := if m.tuning then mask m.tileCount else 0
  let regs : List (Nat × Nat) := [
    (Reg.capCompute, (if small then 5 else 4) * 2 ^ 48 + 256 * 2 ^ 32 + (if small then 1 else 2) * 2 ^ 20 + 8 * 2 ^ 16 + mask m.tileCount),
    (Reg.capMemory, (if m.tuning then 2 else 0) * 2 ^ 56 + ddr * 2 ^ 40 + 64 * 2 ^ 32 + mask m.stackCount),
    (Reg.capFabric, 3 * 2 ^ 52 + m.spareLanes * 2 ^ 48 + mask m.portCount),
    (Reg.capUnits, 2 ^ 16 + 8 * 2 ^ 8 + 4 + (if m.tuning then 3 else 0)),
    (Reg.capGroom, m.genrecMask * 2 ^ 32 + (if m.tuning then mask m.stackCount else 0)),
    (Reg.capId, 2 ^ 63 + 0x1A0C * 2 ^ 32 + m.fuse.variant.code * 2 ^ 24 + m.fuse.stepping * 2 ^ 16 + 0x0302)]
  regs.foldl (fun m r => m.setReg r.1 (BitVec.ofNat 64 r.2)) m

/-- The core maps, from fuses and the wear ledger (R99). -/
def Block.fillMaps (m : Block) : Block :=
  let fresh (m : Block) (t : Nat) : Block :=
    (m.setReg (Reg.tileCoreMap t) 0x76543210).setReg (Reg.tileCoreState t) (if m.fuse.variant = .sbm2412 then 0xD0000 else 0x50000)
  let m1 := (List.range m.tileCount).foldl fresh m
  let m2 := (m1.flt.wear.filter fun w => w.about == 1).foldl (fun m w =>
    match (List.range 8).find? fun c => m.phys (8 * w.unit + c) == w.from_ with
    | none => m
    | some c =>
      let m1 := m.setFld (Reg.tileCoreState w.unit) (2 * w.from_ + 1) (2 * w.from_) 2
      if w.to_ < 10 then (m1.setFld (Reg.tileCoreState w.unit) (2 * w.to_ + 1) (2 * w.to_) 0).setFld (Reg.tileCoreMap w.unit) (4 * c + 3) (4 * c) w.to_
      else m1.setFld (Reg.tileCoreMap w.unit) (4 * c + 3) (4 * c) 0xF) m1
  (List.range m2.coreCount).foldl (fun m n => m.setReg (Reg.corePhys n) (BitVec.ofNat 64 (n / 8 * 256 + m.phys n))) m2

/-- The lowest spare pool bank of a die that replaces none. -/
def Block.freeBank (m : Block) (d : Nat) : Option Nat := (List.range m.spareBanks).find? fun s => m.fld (Reg.poolSpareMap d) (8 * s + 7) (8 * s + 7) == 0

/-- Maps a spare pool bank in place of bank `b` of die `d` (R113). -/
def Block.mapBank (m : Block) (d b s : Nat) : Block :=
  (m.setFld (Reg.poolSpareMap d) (8 * s + 7) (8 * s + 7) 1).setFld (Reg.poolSpareMap d) (8 * s + 5) (8 * s) b

/-- Pool banks that have reached a threshold of Table 19.11 are remounted in device recovery (rows 5 and 6). -/
def Block.remountBanks (m : Block) : Block :=
  let live (l : List Nat) : Nat := (l.filter fun t => decide (m.time < t + day)).length
  let due := (m.flt.bankUncorr.filter fun e => decide (live e.2 ≥ 4)).map (fun e => (e.1, 6, live e.2)) ++
    (m.flt.bankCorr.filter fun e => decide (live e.2 ≥ 256)).map fun e => (e.1, 5, live e.2)
  due.foldl (fun m e =>
    let d := e.1 / 64
    let b := e.1 % 64
    match m.freeBank d with
    | none => m
    | some s =>
      let m1 := (m.mapBank d b s).addWear 3 e.2.1 d b s e.2.2
      { m1 with flt.bankUncorr := Tbl.drop m1.flt.bankUncorr e.1, flt.bankCorr := Tbl.drop m1.flt.bankCorr e.1 }) m

/-- POOL_SPARE_MAP, from the wear ledger. -/
def Block.fillBanks (m : Block) : Block :=
  (m.flt.wear.filter fun w => w.about == 3).foldl (fun m w => if w.to_ < 4 then m.mapBank w.unit w.from_ w.to_ else m) m

/-- Post-package repair of retired pages (Table 19.11 row 8). Whether repair rows are left, and which, is an open value. -/
def Block.repairRows (m : Block) : Block :=
  (m.flt.wear.filter fun w => w.about == 4 && !m.flt.wear.any fun x => x.about == 5 && x.from_ == w.from_).foldl (fun m w =>
    let d := m.draw
    if bit d.1 63 then d.2.addWear 5 8 w.unit w.from_ (field d.1 31 0) w.count else d.2) m

/-- HBM trains, or leaves self-refresh; retired pages are counted; the key slots are written from the store (R165, R166, R484). -/
def Block.bringHbm (m : Block) : Block :=
  (List.range m.stackCount).foldl (fun m s =>
    let pages := (m.flt.wear.filter fun w => w.about == 4 && w.unit == s).length
    let keys := maskOf (m.sec.keys.map (·.1))
    (((m.setReg (Reg.hbmStatus s) (BitVec.ofNat 64 pages)).setReg (Reg.hbmKeystate s) (BitVec.ofNat 64 keys))).trainStack s) m

/-- GiB of a channel's DIMMs. -/
def Block.dimmGib (m : Block) (c : Nat) : Nat := total ((m.dimms.getD c []).take 2)

/-- DDR5 channels that train and hold DIMMs (R169). -/
def Block.usedChannels (m : Block) : List Nat :=
  if !m.tuning then [] else (List.range m.tileCount).filter fun c => !m.flt.deadChannels.contains c && decide (0 < m.dimmGib c)

/-- Objects that the tier held and that are gone with it (R172, R466): a record of KIND 11 to each owner, LOST saddles, KV pages with VALID cleared. -/
def Block.tierLost (m : Block) : Block :=
  let kept (o : PageObj) : Bool := o.resident
  let lost := m.page.objs.filter fun o => !kept o
  let owners := (lost.map (·.tenant)).dedup
  let m1 := owners.foldl (fun m t => m.faultFor 11 0xFF 0 t 0 0 0 0 0 0 none) m
  let m2 := lost.foldl (fun m o => match o.kind with
    | .saddle t h u => m.modSaddle (fun s => s.tenant == t && s.handle == h && s.uid == u) fun s => { s with state := .lost, slot := none, tierOff := none, tierCurrent := false }
    | .kvPage a => m.kvBreak a
    | .other _ => m.dropObj o.id) m1
  let m3 := m2.modSaddle (fun s => s.state == .resident) fun s => { s with tierOff := none, tierCurrent := false }
  let need (c : Cmd) : Bool := c.started && lost.any fun o => match o.kind with
    | .saddle t h u => c.q.tenant == t && c.binds.contains (h, u)
    | .kvPage a => c.kv.contains a
    | .other _ => false
  { m3 with cmd.cmds := mapIf need (fun (c : Cmd) => { c with objLost := true }) m3.cmd.cmds }

/-- The tier trains (R169, R172, R176): channel and tier registers, and what a change of channels loses. -/
def Block.bringTier (m : Block) : Block :=
  if !m.tuning then m
  else
    let old := m.channels
    let used := m.usedChannels
    let gib := used.foldl (fun a c => if a = 0 then m.dimmGib c else min a (m.dimmGib c)) 0
    let rateOf (c : Nat) : Nat := if (m.dimms.getD c []).length ≥ 2 then 80 else 88
    let mts := used.foldl (fun a c => min a (100 * rateOf c)) 8800
    let m1 := (List.range m.tileCount).foldl (fun m c =>
      let n := min 2 (m.dimms.getD c []).length
      let w := putField (putField 0 57 56 n) 63 60 (if m.flt.deadChannels.contains c then 4 else if used.contains c then 2 else 5)
      m.setReg (Reg.ddrStatus c) (if used.contains c then putField (putField w 55 48 (rateOf c)) 47 32 gib else w)) m
    let mis := used.any fun c => m.dimmGib c != gib
    let n := used.length
    let regs : List (Nat × Nat) := [
      (Reg.ddrTierStatus, (if n = 0 then 0 else 2 ^ 63) + (if mis then 2 ^ 62 else 0) + maskOf used * 2 ^ 32 + n * gib),
      (Reg.ddrPageRate, 6 * n * mts), (Reg.ddrPageTpg, 500), (Reg.ddrPageSeg, if n = 0 then 0 else ceilDiv (65536 * 25) (6 * mts)),
      (Reg.ddrPageReserve, m.fw.opt.reserveMib)]
    let m2 := regs.foldl (fun m r => m.setReg r.1 (BitVec.ofNat 64 r.2)) m1
    let m3 := { m2 with pwr.pins.ddrResetN := (List.range 16).map fun c => used.contains c || m2.pwr.pins.ddrResetN.getD c false }
    if old.isEmpty ∨ old = used then m3 else m3.tierLost

/-- The configuration that firmware sets from the option block, and what the unit blocks report (R257, R335, R406, Table 11.6). -/
def Block.configure (m : Block) : Block :=
  let o := m.fw.opt
  let tier := if m.tuning then m.fld Reg.ddrTierStatus 31 0 / 4 else 0
  let m1 := ((m.setReg Reg.paceSlot (BitVec.ofNat 64 (o.paceSlot % 2 ^ 32))).setReg Reg.sadCfg (BitVec.ofNat 64 (1024 * 2 ^ 32 + o.sadGib % 65536 * 65536 + tier % 65536))).setReg
    Reg.fwTraceEn o.traceEn
  (List.range (if m.tuning then m.stackCount else 0)).foldl (fun m s => m.setReg (Reg.grmStatus s) (if m.genrecMask.testBit s then 3 else 1)) m1

/-- Spare control cores take the place of failed ones (R386, Table 19.11 row 9). -/
def Block.mountControl (m : Block) : Block :=
  m.fw.ctrlFailed.foldl (fun m c =>
    match m.fw.ctrlState.findIdx? (· == 1) with
    | none => m
    | some p =>
      let old := m.fw.ctrlMap.getD c c
      ({ m with
        fw.ctrlState := (m.fw.ctrlState.set old 2).set p 0
        fw.ctrlMap := m.fw.ctrlMap.set c p }).addWear 6 9 0 old p 1) { m with fw.ctrlFailed := [] }

/-- OPTION_LOADING_END (R417): stages 3 and 4. After a warm release device recovery goes on with its phase 4 (Table 19.7). -/
def optionLoadingEndEffect (m : Block) : Block :=
  if m.phase ≠ 3 ∨ m.pwr.rst.isSome ∨ !m.pwr.powered ∨ m.fw.fwUp then m
  else
    let m1 := m.mountControl.fillMaps.fillBanks
    let m2 := (if m.pwr.recovery.isSome then m1.remountBanks else m1).repairRows.bringHbm.bringTier.configure
    let m3 := { m2.fillCap with
      fw.fwUp := true, fw.fetchStop := false
      pwr.pins.modReady := true, pwr.pins.mgmtOn := true
      pwr.recovery := m2.pwr.recovery.map fun (x : Nat × Nat) => (x.1, 4) }
    let m4 := (m3.setFld Reg.rstStatus 63 60 4).setFld Reg.rstStatus 59 56 0
    (if m4.bootSrc ≥ 2 then m4 else m4.freeChotus).freeEvotrix

/- The end of device recovery -/

/-- Phase 6 for memory (Table 19.7): pools and core memories zero-filled, hitches of surviving contexts tagged again, programs placed again. -/
def Block.layMemories (m : Block) : Block :=
  let m1 := { m with
    mem := m.mem.filter fun (e : Host.Cell) => !m.onDie e.1
    poison := m.poison.filter fun g => !m.onDie (128 * g)
    tags := [] }
  let live := m1.cmd.contexts.filter fun x => x.exists_ && x.tear.isNone
  let m2 := live.foldl (fun m x => m.tagHitches x.poolAt x.hitches) m1
  m2.cmd.programs.foldl (fun m p => match m.context? p.tenant p.ctx with
    | some x => m.layProgram x p
    | none => m) m2

/-- REJOIN to every node that the routing table names: a signal with TAG 0 (R463). Firmware's MASTER is 0xFFF (log entry 15). -/
def Block.sendRejoin (m : Block) : Block :=
  let nodes := (m.regs.filter fun (e : Nat × Word) => decide (Reg.fabRoute 0 ≤ e.1 ∧ e.1 ≤ Reg.fabRoute 4094) && entryPresent e.2).map fun e =>
    (e.1 - Reg.fabRoute 0) / 8
  (nodes.filter (· != m.ownNode)).foldl (fun m n => m.sendBurst
    { kind := 2, srcNode := 0, dstNode := n, tenant := 0, ctx := 0, master := 0xFFF, seq := 0, tag := 0, addr := 0, data := [], mask := []
      poison := false, hitch := 0, inc := 0 }) m

/-- Every uncompleted command is replayed, PACED ones first (R460). -/
def Block.replayBook (m : Block) : Block :=
  let cs := m.cmd.cmds
  let l := cs.filter (fun c => c.pace.isSome) ++ cs.filter fun c => c.pace.isNone
  let m1 := l.foldl (fun m c => m.replay c) m
  (m1.cmd.queues.map (·.id)).foldl Block.markReady m1

/-- RECOVERY_END (R453, R460 to R463, R467): phases 5 and 6 have run, and fetching resumes. Where stack 1 has failed, recovery fails. -/
def recoveryEndEffect (m : Block) : Block :=
  match m.pwr.recovery with
  | none => m
  | some (start, _) =>
    if !m.fw.fwUp ∨ m.pwr.rst.isSome ∨ m.phase ≠ 4 ∨ m.pwr.healthState = 2 then m
    else if m.flt.failedStacks.contains 1 then { m with pwr.healthState := 2 }
    else
      let m1 := m.layMemories.sendRejoin
      let m2 := { m1 with fab.sendRecovering := false, pwr.recovery := none, pwr.healthState := 0 }
      let ms := min ((m2.time - start) * 40 / 1000000) (2 ^ 32 - 1)
      let m3 := (m2.setReg Reg.aonRecovEnd (BitVec.ofNat 64 m2.time)).setFld Reg.aonRecov 31 0 ms
      let m4 := (if m3.pwr.causes.contains 5 then m3.endCause 5 else m3).windowClosed
      let m5 := m4.replayBook.trace 7 5
      if m5.pwr.recoverAgain then { m5 with pwr.recoverAgain := false }.startRecovery else m5

/-- RST_CMD_WARM. -/
def execRstCmdWarm (r : Requester) (confirm : Nat) (s : State) : Host.Outcome State Fault Refusal :=
  s.commit (s.m.byHost r (rstCmdWarmEffect r confirm))
/-- RST_CMD_COLD. -/
def execRstCmdCold (r : Requester) (confirm : Nat) (s : State) : Host.Outcome State Fault Refusal :=
  s.commit (s.m.byHost r (rstCmdColdEffect r confirm))
/-- POWER_ON. -/
def execPowerOn (straps : Nat) (s : State) : Host.Outcome State Fault Refusal := s.commit (powerOnEffect straps s.m)
/-- POWER_LOSS. -/
def execPowerLoss (s : State) : Host.Outcome State Fault Refusal := s.commit (powerLossEffect s.m)
/-- INPUT_VOLTAGE_FAULT. -/
def execInputVoltageFault (mv ticks : Nat) (s : State) : Host.Outcome State Fault Refusal := s.commit (inputVoltageFaultEffect mv ticks s.m)
/-- MOD_RST_N_ASSERT. -/
def execModRstNAssert (samples : Nat) (s : State) : Host.Outcome State Fault Refusal := s.commit (modRstNAssertEffect samples s.m)
/-- WARM_RESET. -/
def execWarmReset (s : State) : Host.Outcome State Fault Refusal := s.commit (warmResetEffect s.m)
/-- COLD_RESET. -/
def execColdReset (s : State) : Host.Outcome State Fault Refusal := s.commit (coldResetEffect s.m)
/-- RESET_RELEASE. -/
def execResetRelease (s : State) : Host.Outcome State Fault Refusal := s.commit (resetReleaseEffect s.m)
/-- FIRMWARE_LOADED. -/
def execFirmwareLoaded (slot : Nat) (s : State) : Host.Outcome State Fault Refusal := s.commit (firmwareLoadedEffect slot s.m)
/-- OPTION_LOADING_END. -/
def execOptionLoadingEnd (s : State) : Host.Outcome State Fault Refusal := s.commit (optionLoadingEndEffect s.m)
/-- OPTION_WATCHDOG_EXPIRY. -/
def execOptionWatchdogExpiry (s : State) : Host.Outcome State Fault Refusal := s.commit (optionWatchdogExpiryEffect s.m)
/-- DOMAIN_RESET_FAIL. -/
def execDomainResetFail (domain : Nat) (s : State) : Host.Outcome State Fault Refusal := s.commit (domainResetFailEffect domain s.m)
/-- THERMAL_TRIP. -/
def execThermalTrip (tile temp : Nat) (s : State) : Host.Outcome State Fault Refusal := s.commit (thermalTripEffect tile temp s.m)
/-- RECOVERY_END. -/
def execRecoveryEnd (s : State) : Host.Outcome State Fault Refusal := s.commit (recoveryEndEffect s.m)

end Sys2Proof.Machine
end

