-- ==== Sys2Proof/Machine/Mgmt.lean ====
section
/-! DEFINITION. Management messages: mailboxes (R313 to R317), the management port (R380, R393, R489), the I3C target (R381), and the
opcodes of Table 12.14. A message that fails a check of its header, names an opcode that Table 12.14 does not list, or has a body out of
range is answered by whichever row of the table meets it (log entry 39). -/
namespace Sys2Proof.Machine

/- Requests -/

/-- The tenant a port's messages act for: a mailbox's owner, else tenant 0. -/
def Block.portTenant (m : Block) : Port → Nat
  | .mailbox k => m.fld (Reg.cmdMbCtl k) 60 56
  | _ => 0

/-- Key of what firmware holds for a port: mailbox k at k, a network source above. -/
def portKey : Port → Nat
  | .mailbox k => k
  | .net s _ => 64 + s
  | .i3c _ => 64

/-- Whether a port's request is in progress with its answer still to come: DATA that waits for an erase (R396), a report being signed (R482). -/
def Block.deferred (m : Block) (p : Port) : Bool :=
  (match m.fw.staging with
   | some s => s.waiting.any fun r => portKey r.port == portKey p
   | none => false) || m.cho.reportPend.any fun e => portKey e.1.port == portKey p

/-- The message that waits at a port: the request buffer after GO, the datagram or the bytes of I3C entry 0x20. A datagram from a source with
a request in progress is discarded (R380). -/
def Block.message (m : Block) : Port → Option (List Byte)
  | .mailbox k => if k < 64 ∧ m.cho.mbBusy.contains k ∧ !m.deferred (.mailbox k) then some (m.mbuf.readN (mailboxKey k) 4096) else none
  | .net s d => if m.cho.netBusy.contains s then none else some d
  | .i3c b => some (b.take 256)

/-- Reads a message of format 3.x (Table 12.12), with the status that its header earns; 0 where it is sound. -/
def Block.parse3 (m : Block) (p : Port) (b : List Byte) : MgmtReq × Nat :=
  let n := leAt b 4 2
  let r : MgmtReq := { port := p, major := 3, opcode := leAt b 2 2, seq := leAt b 6 2, body := (b.drop 16).take n }
  let st := if n > 4080 ∨ b.length < 16 + n ∨ leAt b 8 1 ≥ 32 ∨ leAt b 9 7 ≠ 0 then 2
    else if leAt b 8 1 ≠ m.portTenant p then 3
    else 0
  (r, st)

/-- Opcodes that format 2.x may carry (Table 12.14). -/
def oldOpcodes : List Nat := [0x01, 0x02, 0x10, 0x11, 0x12, 0x30]

/-- Reads a message of format 2.x (Table 12.13). -/
def Block.parse2 (m : Block) (p : Port) (b : List Byte) : MgmtReq × Nat :=
  let n := leAt b 4 2
  let op := leAt b 2 2
  let r : MgmtReq := { port := p, major := 2, opcode := op, seq := leAt b 6 1, body := (b.drop 12).take (4 * n) }
  let st := if n > 1021 ∨ b.length < 12 + 4 * n ∨ leAt b 7 5 ≠ 0 then 2
    else if m.portTenant p ≠ 0 then 3
    else if !oldOpcodes.contains op then 0x20
    else 0
  (r, st)

/-- Reads a message (R314): a major version that is not accepted earns VERSION under a 3.x header. I3C takes format 3.x only (Table 15.6). -/
def Block.parse (m : Block) (p : Port) (b : List Byte) : MgmtReq × Nat :=
  let v := leAt b 0 1
  let i3c := match p with
    | .i3c _ => true
    | _ => false
  if v = 3 then m.parse3 p b
  else if v = 2 ∧ !i3c then m.parse2 p b
  else ((m.parse3 p b).1, 0x20)

/-- Opcodes of Table 12.14. -/
def mgmtOpcodes : List Nat := [0x01, 0x02, 0x03, 0x10, 0x11, 0x12, 0x20, 0x30, 0x40, 0x50]

/-- Opcodes that I3C accepts (Table 15.6). -/
def i3cOpcodes : List Nat := [0x01, 0x02, 0x03, 0x12, 0x30]

/-- Status of a request whose port may not carry its opcode (R394, R410, R473, R489, Table 15.6); 0 where it may. -/
def Block.policy (m : Block) (r : MgmtReq) : Nat :=
  let open_ := m.sec.mgmtKey.isSome || m.fld Reg.secMgmtCtl 2 2 == 1
  if !mgmtOpcodes.contains r.opcode then 2
  else match r.port with
    | .i3c _ => if i3cOpcodes.contains r.opcode then 0 else 3
    | .net _ _ => if open_ || [0x01, 0x02, 0x12, 0x20].contains r.opcode then 0 else 3
    | .mailbox k =>
      if m.portTenant (.mailbox k) = 0 then 0
      else if [0x10, 0x11, 0x12, 0x40, 0x50].contains r.opcode then 3
      else if r.opcode = 0x30 then 2
      else 0

/-- Whether a datagram passes R489, and the block after it: a counter accepted, or a drop counted. -/
def Block.authentic (m : Block) (d : List Byte) : Bool × Block :=
  let n := 16 + leAt d 4 2
  match m.sec.mgmtKey with
  | none => (true, m)
  | some key =>
    let drop : Bool × Block := (false, m.satFld Reg.secMgmtErr 31 0 1)
    if leAt d 0 1 = 3 ∧ d.length ≥ n + 40 then
      let ctr := leAt d n 8
      if slice d (n + 8) 32 = kmac256 key (d.take (n + 8)) ∧ ctr > m.sec.mgmtRx then (true, { m with sec.mgmtRx := ctr }) else drop
    else if m.fld Reg.secMgmtCtl 2 2 = 1 then (true, m)
    else drop

/-- Whether firmware answers: it runs and no module reset is in progress. -/
def Block.fwAnswers (m : Block) : Bool := m.pwr.powered && m.fw.fwUp && m.pwr.rst.isNone

/-- Whether the ROM takes FW_STAGE messages at a port (R391, R393, Table 17.3): 2 the network, 3 mailbox 0. -/
def Block.romTakes (m : Block) (p : Port) : Option Nat :=
  let idle := m.pwr.powered && !m.fw.fwUp && m.pwr.rst.isNone && m.fw.bootSlot.isNone
  let load := idle && m.phase == 2
  let wait := idle && m.fw.recoveryWait
  match p with
  | .net _ _ => if wait || (load && m.bootSrc == 1) then some 2 else none
  | .mailbox 0 => if wait || (load && m.bootSrc == 2) then some 3 else none
  | _ => none

/-- Whether a request of an opcode is answered at a port now. Firmware answers a mailbox only out of M2, which GO ends (R430); after a thermal
trip, in recovery wait and in the always-on-only test mode what those states name is answered (R391, R438, Table 17.3). -/
def Block.answers (m : Block) (p : Port) (op : Nat) : Bool :=
  let i3c := match p with
    | .i3c _ => true
    | _ => false
  let mb := match p with
    | .mailbox _ => true
    | _ => false
  if m.fwAnswers then !(mb && m.pwr.pstate == 2)
  else if !m.pwr.powered then false
  else if m.pwr.trip then !mb && i3cOpcodes.contains op
  else if m.clkMode ≥ 2 then i3c && (op == 1 || op == 2)
  else (m.fw.recoveryWait && i3c && op == 2) || ((m.romTakes p).isSome && op == 0x10)

/- Answers -/

/-- Padded with zeros to whole 4-byte words. -/
def padWords (b : List Byte) : List Byte := b ++ List.replicate (roundUp b.length 4 - b.length) 0

/-- An answer's bytes (Tables 12.12, 12.13). -/
def MgmtReq.answer (r : MgmtReq) (tenant status : Nat) (body : List Byte) : List Byte :=
  if r.major = 2 then
    let b := if status = 0 then padWords body else leBytes 2 status ++ [0, 0]
    [2, 0] ++ leBytes 2 r.opcode ++ leBytes 2 (b.length / 4) ++ [BitVec.ofNat 8 r.seq, 1] ++ leBytes 2 (if status = 0 then 0 else 1) ++ [0, 0] ++ b
  else [3, 0] ++ leBytes 2 r.opcode ++ leBytes 2 body.length ++ leBytes 2 r.seq ++ [BitVec.ofNat 8 tenant, 1] ++ leBytes 2 status ++
    [0, 0, 0, 0] ++ body

/-- Sends a datagram; those of format 3.x carry the trailer while a key is set (R489). -/
def Block.sendNet (m : Block) (s : Nat) (b : List Byte) : Block :=
  match m.sec.mgmtKey with
  | some key =>
    if leAt b 0 1 = 3 then
      let c := b ++ leBytes 8 m.sec.mgmtTx
      { m with cho.netOut := m.cho.netOut ++ [(s, c ++ kmac256 key c)], sec.mgmtTx := m.sec.mgmtTx + 1 }
    else { m with cho.netOut := m.cho.netOut ++ [(s, b)] }
  | none => { m with cho.netOut := m.cho.netOut ++ [(s, b)] }

/-- Answers a request (R314, R380, R381): its port is free for another. -/
def Block.respond (m : Block) (r : MgmtReq) (status : Nat) (body : List Byte) : Block :=
  let t := m.portTenant r.port
  let b := r.answer t status body
  match r.port with
  | .mailbox k =>
    let m1 := { m with mbuf := m.mbuf.writeN (mailboxKey k + 0x1000) b, cho.mbBusy := m.cho.mbBusy.filter (· != k) }
    (m1.setFld (Reg.cmdMbCtl k) 1 1 1).interrupt t (irqWord 1 0 0 0 k)
  | .net s _ => { m with cho.netBusy := m.cho.netBusy.filter (· != s) }.sendNet s b
  | .i3c _ => { m with cho.i3cResp := b.take 256 }

/-- The answer waits: the port's request stays in progress. -/
def Block.inProgress (m : Block) (p : Port) : Block :=
  match p with
  | .net s _ => { m with cho.netBusy := insertNat m.cho.netBusy s }
  | _ => m

/-- Serves the request at a port when its opcode and body are those of a row. -/
def Block.serve (m : Block) (p : Port) (opcode : Nat) (mine : List Byte → Bool) (k : Block → MgmtReq → Block) : Block :=
  match m.message p with
  | none => m
  | some b =>
    let r := m.parse p b
    if b.length < 12 ∨ !m.answers p r.1.opcode then m
    else
      let a := match p with
        | .net _ d => if m.fwAnswers || m.pwr.trip then m.authentic d else (true, m)
        | _ => (true, m)
      if !a.1 then a.2
      else
        let st := if r.2 ≠ 0 then r.2 else if m.fwAnswers || m.pwr.trip then m.policy r.1 else 0
        if st ≠ 0 then a.2.respond r.1 st []
        else if r.1.opcode = opcode ∧ mine r.1.body then k a.2 r.1
        else m

/-- Whether bytes from an offset on are all zero. -/
def restZero (b : List Byte) (off : Nat) : Bool := (b.drop off).all (· == 0)

/-- First byte of a body, which tells rows of one opcode apart; past the last row it is any row's. -/
def firstIs (v last : Nat) (b : List Byte) : Bool := b.isEmpty || leAt b 0 1 == v || decide (leAt b 0 1 > last)

/- IDENTIFY, HEALTH, TELEMETRY -/

/-- The CAP_ block values. -/
def Block.capBytes (m : Block) : List Byte :=
  wordBytes ([Reg.capId, Reg.capCompute, Reg.capMemory, Reg.capFabric, Reg.capUnits, Reg.capGroom].map m.regValue)

/-- IDENTIFY (R317). -/
def identifyEffect (p : Port) (m : Block) : Block :=
  m.serve p 0x01 (fun _ => true) fun m r => if restZero r.body 0 then m.respond r 0 m.capBytes else m.respond r 2 []

/-- Table 19.12. -/
def Block.healthBytes (m : Block) (t : Nat) : List Byte :=
  let count (n : Nat) (f : Nat → Bool) : Nat := ((List.range n).filter f).length
  let spareCores (t : Nat) : Nat := if t < m.tileCount then count 10 fun p => m.fld (Reg.tileCoreState t) (2 * p + 1) (2 * p) == 1 else 0
  let spareBanks (d : Nat) : Nat := if d < m.tileCount then count m.spareBanks fun s => m.fld (Reg.poolSpareMap d) (8 * s + 7) (8 * s + 7) == 0 else 0
  let lanes (q : Nat) : Nat := if q ≥ m.portCount ∨ m.portSt q = 4 then 0xFF else m.fld (Reg.fabPortStatus q) 55 54
  let away := if m.fld Reg.capId 63 63 = 1 then count m.coreCount fun n => m.phys n == 0xF else 0
  leBytes 4 (m.fld Reg.aonRecov 63 32) ++ leBytes 4 (m.fld Reg.aonRecov 31 0) ++
    (List.range 16).map (fun t => BitVec.ofNat 8 (spareCores t)) ++ (List.range 16).map (fun d => BitVec.ofNat 8 (spareBanks d)) ++
    (List.range 48).map (fun q => BitVec.ofNat 8 (lanes q)) ++
    leBytes 4 (m.flt.wear.filter fun w => w.about == 4).length ++ leBytes 4 (maskOf m.flt.failedStacks) ++ leBytes 2 away ++
    [BitVec.ofNat 8 (m.fw.ctrlState.filter (· == 1)).length, BitVec.ofNat 8 m.pwr.healthState] ++ leBytes 4 (m.faultSeq t)

/-- A fault record's bytes (Table 19.2). -/
def FaultRec.bytes (r : FaultRec) : List Byte :=
  leBytes 8 r.time ++ leBytes 4 r.seq ++ leBytes 1 r.kind ++ leBytes 1 r.mtype ++ leBytes 2 r.mindex ++ leBytes 1 r.ctx ++ leBytes 1 r.tenant ++
    leBytes 2 r.opcode ++ leBytes 4 r.tag.toNat ++ leBytes 8 r.addr ++ leBytes 4 r.len ++ leBytes 1 r.cause ++ leBytes 1 r.flags ++ leBytes 2 r.node ++
    List.replicate 24 0

/-- How many 64-byte records an answer holds: what an I3C entry of 256 bytes has room for, else all. -/
def recordRoom : Port → Nat
  | .i3c _ => 3
  | _ => 63

/-- A reading of numbered records: FIRST_SEQ, COUNT, two reserved bytes, records. With none left FIRST_SEQ is FROM_SEQ (log entry 40). -/
def recordsBody (from_ : Nat) (l : List (Nat × List Byte)) : List Byte :=
  leBytes 4 ((l.head?.map (·.1)).getD from_) ++ leBytes 2 l.length ++ [0, 0] ++ l.flatMap (·.2)

/-- HEALTH, SECTION 0 (R473). -/
def healthSummaryEffect (p : Port) (m : Block) : Block :=
  m.serve p 0x02 (firstIs 0 1) fun m r =>
    if r.body.length ≥ 1 ∧ restZero r.body 0 then m.respond r 0 (m.healthBytes (m.portTenant p)) else m.respond r 2 []

/-- HEALTH, SECTION 1 (R446, R473). -/
def healthFaultRecordsEffect (p : Port) (m : Block) : Block :=
  m.serve p 0x02 (firstIs 1 1) fun m r =>
    let from_ := leAt r.body 1 4
    let n := leAt r.body 5 2
    let t := leAt r.body 7 1
    if leAt r.body 0 1 ≠ 1 ∨ r.body.length < 8 ∨ n < 1 ∨ n > 63 ∨ t ≥ 32 ∨ !restZero r.body 8 then m.respond r 2 []
    else if m.portTenant p ≠ 0 ∧ t ≠ m.portTenant p then m.respond r 3 []
    else m.respond r 0 (recordsBody from_
      (((m.flt.faults.filter fun f => f.tenant == t && decide (from_ ≤ f.seq)).take (min n (recordRoom p))).map fun f => (f.seq, f.bytes)))

/-- TELEMETRY (R317): 27 words. -/
def telemetryEffect (p : Port) (m : Block) : Block :=
  m.serve p 0x03 (fun _ => true) fun m r =>
    if restZero r.body 0 then
      m.respond r 0 (wordBytes (([Reg.pwrState, Reg.pwrInput, Reg.pwrEnergy] ++ (List.range 8).map Reg.pwrRail ++ (List.range 16).map Reg.pwrTemp).map
        m.regValue))
    else m.respond r 2 []

/- Firmware update -/

/-- FW_STAGED.STATE. -/
def Block.stagedSt (m : Block) : Nat := m.fld Reg.fwStaged 63 60

/-- Whether a FW_STAGE body is as Table 16.3 says. -/
def stageBodyOk (b : List Byte) : Bool :=
  let op := leAt b 0 1
  let off := leAt b 8 8
  decide (b.length ≥ 16) && decide (leAt b 1 7 = 0) &&
    (match op with
     | 0 => decide (0x2001 ≤ off) && decide (off ≤ 0x4000000) && decide (b.length = 16)
     | 1 => decide (b.length ≥ 17)
     | 2 => decide (off = 0) && decide (b.length = 16)
     | 3 => decide (off = 0) && decide (b.length = 16)
     | _ => false)

/-- Serves FW_STAGE: by firmware, or on a loading path by the ROM, which is given 2 for the network and 3 for mailbox 0. -/
def Block.stage (m : Block) (p : Port) (op : Nat) (fw : Block → MgmtReq → Block) (rom : Nat → Block → MgmtReq → Block) : Block :=
  m.serve p 0x10 (firstIs op 3) fun m r =>
    if !stageBodyOk r.body then m.respond r 2 []
    else if m.fwAnswers then fw m r
    else match m.romTakes p with
      | some k => rom k m r
      | none => m

/-- DATA messages that wait are answered CONFLICT when staging ends under them. -/
def Block.refuseWaiting (m : Block) (s : Staging) : Block := s.waiting.foldl (fun m r => m.respond r 8 []) m

/-- FW_STAGE BEGIN (R393, R396). -/
def fwStageBeginEffect (p : Port) (m : Block) : Block :=
  m.stage p 0
    (fun m r =>
      if m.stagedSt = 1 ∨ m.stagedSt = 2 ∨ m.actSt ≠ 0 then m.respond r 8 []
      else (m.stageBegin (leAt r.body 8 8)).respond r 0 [])
    (fun k m r =>
      if m.fw.staging.isSome then m.respond r 8 []
      else { m with fw.staging := some { slot := k, total := leAt r.body 8 8, erased := leAt r.body 8 8 } }.respond r 0 [])

/-- The bytes that a DATA message writes: offset and data. -/
def MgmtReq.data (r : MgmtReq) : Nat × List Byte := (leAt r.body 8 8, r.body.drop 16)

/-- Whether a DATA message can be programmed: its sectors are erased, and no message that waits writes the same bytes. -/
def Staging.open_ (s : Staging) (sector : Nat) (waiting : List MgmtReq) (r : MgmtReq) : Bool :=
  s.ready sector r.data.1 r.data.2.length && !waiting.any fun x => overlaps x.data.1 x.data.2.length r.data.1 r.data.2.length

/-- Programs a DATA message and answers it. -/
def Block.program (m : Block) (s : Staging) (r : MgmtReq) : Block :=
  { m with fw.staging := some { s with written := s.written ++ [r.data] } }.respond r 0 []

/-- FW_STAGE DATA (R396). -/
def fwStageDataEffect (p : Port) (m : Block) : Block :=
  m.stage p 1
    (fun m r => match m.fw.staging with
      | none => m.respond r 8 []
      | some s =>
        if s.open_ m.fuse.sector s.waiting r then m.program s r
        else { m with fw.staging := some { s with waiting := s.waiting ++ [r] } }.inProgress p)
    (fun _ m r => match m.fw.staging with
      | none => m.respond r 8 []
      | some s => m.program s r)

/-- SECTOR_ERASE_DONE (R396): the erase goes on from the slot's start; messages that waited are programmed and answered in their order. -/
def sectorEraseDoneEffect (sectors : Nat) (m : Block) : Block :=
  match m.fw.staging with
  | none => m
  | some s =>
    if !m.fwAnswers ∨ s.slot > 1 then m
    else s.waiting.foldl (fun m r => match m.fw.staging with
      | none => m
      | some x =>
        if x.open_ m.fuse.sector x.waiting r then m.program x r
        else { m with fw.staging := some { x with waiting := x.waiting ++ [r] } })
      { m with fw.staging := some { s with erased := s.erased + sectors, waiting := [] } }

/-- FW_STAGE END (R393, R396). -/
def fwStageEndEffect (p : Port) (m : Block) : Block :=
  m.stage p 2
    (fun m r => match m.fw.staging with
      | none => m.respond r 8 []
      | some s =>
        let e := (m.refuseWaiting s).stageEnd s
        e.1.respond r e.2 [])
    (fun k m r => match m.fw.staging with
      | none => m.respond r 8 []
      | some s =>
        let m1 := { m with fw.staging := none }
        let img := s.image
        let bs := img.filterMap id
        if img.any Option.isNone then m1.respond r 2 []
        else if !m1.sound bs then m1.respond r 5 []
        else { m1 with fw.netImage := bs, fw.bootSlot := some k }.respond r 0 [])

/-- FW_STAGE ABORT (R396). -/
def fwStageAbortEffect (p : Port) (m : Block) : Block :=
  m.stage p 3
    (fun m r => (match m.fw.staging with
      | some s => (m.refuseWaiting s).stageAbort
      | none => m.stageAbort).respond r 0 [])
    (fun _ m r => { m with fw.staging := none }.respond r 0 [])

/-- Serves FW_ACTIVATE (R397): the checks that both forms share. -/
def Block.activate (m : Block) (p : Port) (when_ : Nat) (k : Block → MgmtReq → Block) : Block :=
  m.serve p 0x11 (firstIs when_ 1) fun m r =>
    if leAt r.body 0 1 ≠ when_ ∨ r.body.length < 16 ∨ leAt r.body 1 7 ≠ 0 ∨ !restZero r.body 16 then m.respond r 2 []
    else if m.stagedSt ≠ 3 then m.respond r 7 []
    else if leAt r.body 8 4 ≠ m.fld Reg.fwStaged 31 0 ∨ m.actSt ≠ 0 then m.respond r 8 []
    else k (m.setReg Reg.fwActTime (BitVec.ofNat 64 m.time)) r

/-- FW_ACTIVATE with WHEN 0 (R397, R399): started, or deferred inside an emergency window. -/
def fwActivateNowEffect (p : Port) (m : Block) : Block :=
  m.activate p 0 fun m r =>
    if m.pwr.emergOpen then (m.deferAct m.time).respond r 0 [1]
    else { m with fw.act := some { request := m.time, began := m.time } }.startDrain.respond r 0 [0]

/-- FW_ACTIVATE with WHEN 1 (R397): the next module reset boots the target slot. -/
def fwActivateAtResetEffect (p : Port) (m : Block) : Block :=
  m.activate p 1 fun m r =>
    let t := m.targetSlot
    ((m.writeOpt fun o => { o with prefSlot := t, trial := true, tries := 0 }).setFld Reg.fwAct 63 60 4).respond r 0 [2]

/-- FW_STATUS (R401). -/
def fwStatusEffect (p : Port) (m : Block) : Block :=
  m.serve p 0x12 (fun _ => true) fun m r =>
    if restZero r.body 0 then m.respond r 0 (wordBytes ([Reg.fwRun, Reg.fwStaged, Reg.fwAct, Reg.fwActTime, Reg.fwActEnd].map m.regValue))
    else m.respond r 2 []

/- Attestation (R482) -/

/-- An event's bytes (Table 20.3). -/
def MeasEvent.bytes (e : MeasEvent) : List Byte :=
  leBytes 1 e.reg ++ leBytes 1 e.source ++ List.replicate 6 0 ++ leBytes 8 e.time ++ slice e.digest 0 64

/-- A report up to its signature (Table 20.4), as of this tick. -/
def Block.report (m : Block) (nonce : List Byte) : List Byte :=
  let flags := 1 + (if m.fld Reg.secStatus 60 60 = 1 then 2 else 0) + (if m.pwr.recovery.isSome then 4 else 0)
  leBytes 4 0x5254414C ++ leBytes 2 1 ++ leBytes 2 flags ++ wordBytes [m.reg Reg.capId] ++ leBytes 4 m.fuse.serial ++ List.replicate 4 0 ++
    leBytes 8 m.time ++ slice nonce 0 32 ++ wordBytes [m.regValue Reg.fwRun] ++ leBytes 4 m.fw.runSvn ++ leBytes 4 m.minSvn ++
    wordBytes [m.reg Reg.secKemId] ++ leBytes 8 m.sec.events.length ++ m.sec.meas.flatMap (fun x => slice x 0 64) ++ List.replicate 8 0 ++
    m.sec.events.flatMap MeasEvent.bytes ++ m.kemKey

/-- Whether an ATTEST body has its length. -/
def attestBodyOk (b : List Byte) : Bool := decide (b.length ≥ 48) && decide (leAt b 1 7 = 0) && decide (leAt b 12 4 = 0) && restZero b 48

/-- ATTEST OP 0: the report is built and being signed; the answer waits for it. -/
def attestGenerateEffect (p : Port) (m : Block) : Block :=
  m.serve p 0x20 (firstIs 0 2) fun m r =>
    if leAt r.body 0 1 ≠ 0 ∨ !attestBodyOk r.body then m.respond r 2 []
    else { m with cho.reportPend := m.cho.reportPend ++ [(r, m.report (r.body.drop 16))] }.inProgress p

/-- ATTEST_SIGNED: the signed report is held for its port, and OP 0 is answered with TOTAL. -/
def attestSignedEffect (p : Port) (m : Block) : Block :=
  match m.cho.reportPend.find? fun e => portKey e.1.port == portKey p with
  | none => m
  | some e =>
    let rep := e.2 ++ slice (Config.mlDsaSign Config.identitySeed (sha3 e.2)) 0 4627
    let m1 := { m with
      cho.reportPend := m.cho.reportPend.filter fun (x : MgmtReq × List Byte) => portKey x.1.port != portKey p
      cho.reports := Tbl.put m.cho.reports (portKey p) rep }
    m1.respond e.1 0 (leBytes 4 rep.length)

/-- A part of a held byte string: TOTAL, OFFSET, up to 4,064 bytes. -/
def Block.readPart (m : Block) (r : MgmtReq) (bs : List Byte) : Block :=
  let off := leAt r.body 8 4
  if off ≥ bs.length then m.respond r 2 [] else m.respond r 0 (leBytes 4 bs.length ++ leBytes 4 off ++ (bs.drop off).take 4064)

/-- ATTEST OP 1. -/
def attestReadEffect (p : Port) (m : Block) : Block :=
  m.serve p 0x20 (firstIs 1 2) fun m r =>
    if leAt r.body 0 1 ≠ 1 ∨ !attestBodyOk r.body then m.respond r 2 []
    else match (m.cho.reports.find? fun e => e.1 == portKey p) with
      | some e => m.readPart r e.2
      | none => m.respond r 7 []

/-- ATTEST OP 2. -/
def attestReadChainEffect (p : Port) (m : Block) : Block :=
  m.serve p 0x20 (firstIs 2 2) fun m r =>
    if leAt r.body 0 1 ≠ 2 ∨ !attestBodyOk r.body then m.respond r 2 [] else m.readPart r m.fw.chain

/- RESET_MODULE (R410) -/

/-- The reset source of a port (Table 17.1). -/
def portSource : Port → Nat
  | .mailbox _ => 3
  | .net _ _ => 4
  | .i3c _ => 5

/-- RESET_MODULE of one scope: answered OK, the reset follows 250,000 ticks later. After a thermal trip one that R438 does not accept is
answered CONFLICT (log entry 41). -/
def Block.resetModule (m : Block) (p : Port) (cold : Bool) : Block :=
  m.serve p 0x30 (firstIs (if cold then 1 else 0) 1) fun m r =>
    if leAt r.body 0 1 ≠ (if cold then 1 else 0) ∨ r.body.length ≠ 8 ∨ leAt r.body 1 3 ≠ 0 ∨ leAt r.body 4 4 ≠ 0x4D545352 then m.respond r 2 []
    else if !m.tripAllows cold (portSource p) then m.respond r 8 []
    else { m with cho.resetPend := m.cho.resetPend ++ [(cold, m.time + 250000, portSource p)] }.respond r 0 []

/-- RESET_MODULE_WARM. -/
def resetModuleWarmEffect (p : Port) (m : Block) : Block := m.resetModule p false
/-- RESET_MODULE_COLD. -/
def resetModuleColdEffect (p : Port) (m : Block) : Block := m.resetModule p true

/-- RESET_DELAY_EXPIRY: the oldest request answered is due. -/
def resetDelayExpiryEffect (m : Block) : Block :=
  match m.cho.resetPend with
  | [] => m
  | (cold, due, source) :: rest => if m.time < due then m else { m with cho.resetPend := rest }.requestReset cold source

/- Records -/

/-- A hang record's bytes (Table 19.6; log entry 35). The CRC-32C covers the record with the CRC field zero. -/
def HangRec.bytes (r : HangRec) : List Byte :=
  let body := (wordBytes r.words).take (65536 - 128)
  let head (crc : Nat) : List Byte := slice (leBytes 4 r.seq ++ leBytes 8 r.time ++ leBytes 1 r.level ++ leBytes 4 r.trigger ++ leBytes 1 r.flags ++
    leBytes 4 (128 + body.length) ++ leBytes 4 crc) 0 128
  head (crc32c (head 0 ++ body)) ++ body

/-- HANG_READ (R473). With no record at or after FROM_SEQ the answer is UNKNOWN (log entry 40). -/
def hangReadEffect (p : Port) (m : Block) : Block :=
  m.serve p 0x40 (fun _ => true) fun m r =>
    let off := leAt r.body 4 4
    if r.body.length < 8 ∨ !restZero r.body 8 then m.respond r 2 []
    else match m.flt.hangs.find? fun h => decide (leAt r.body 0 4 ≤ h.seq) with
      | none => m.respond r 7 []
      | some h =>
        let bs := h.bytes
        if off ≥ bs.length then m.respond r 2 []
        else m.respond r 0 (leBytes 4 h.seq ++ leBytes 4 bs.length ++ leBytes 4 off ++ [0, 0, 0, 0] ++ (bs.drop off).take 4064)

/-- A log record's bytes (Table 16.5). -/
def LogRec.bytes (r : LogRec) : List Byte :=
  leBytes 8 r.time ++ leBytes 4 r.seq ++ leBytes 2 r.point ++ leBytes 1 r.level ++ leBytes 1 r.core ++ slice (wordBytes r.args) 0 48

/-- LOG_READ (R405). -/
def logReadEffect (p : Port) (m : Block) : Block :=
  m.serve p 0x50 (fun _ => true) fun m r =>
    let from_ := leAt r.body 0 4
    let n := leAt r.body 4 2
    if r.body.length < 6 ∨ n < 1 ∨ n > 63 ∨ !restZero r.body 6 then m.respond r 2 []
    else m.respond r 0 (recordsBody from_ (((m.fw.log.filter fun x => decide (from_ ≤ x.seq)).take n).map fun x => (x.seq, x.bytes)))

/- The loading path's broadcast, and mailboxes -/

/-- Destination of a broadcast in `Mgmt.netOut`. -/
def broadcast : Nat := 2 ^ 32

/-- NET_BOOT_BROADCAST (R393): an IDENTIFY response in format 2.x with SEQ 0, while the ROM waits for an image over the network. -/
def netBootBroadcastEffect (m : Block) : Block :=
  if (m.romTakes (.net 0 [])).isNone ∨ m.fw.staging.isSome then m
  else
    let r : MgmtReq := { port := .net broadcast [], major := 2, opcode := 1, seq := 0, body := [] }
    { m with cho.netOut := m.cho.netOut ++ [(broadcast, r.answer 0 0 m.capBytes)], pwr.pins.mgmtOn := true }

/-- MAILBOX_GO (R314): by host software of the owning tenant; while a request is in progress it only sets OVERRUN. GO wakes the module from
M2 (R430). -/
def mailboxGoEffect (r : Requester) (k : Nat) (m : Block) : Block :=
  if k ≥ 64 ∨ !m.mailboxOpen r k then m
  else if m.cho.mbBusy.contains k then m.setFld (Reg.cmdMbCtl k) 2 2 1
  else { m with cho.mbBusy := insertNat m.cho.mbBusy k }.askWake

/- I3C (R381) -/

/-- Whether the I3C target runs: from step 3 of Table 17.4 on, in M0 to M2, and after a thermal trip (R438). -/
def Block.i3cRuns (m : Block) : Bool := m.pwr.powered && (m.pwr.pstate != 3 || m.pwr.trip)

/-- What a CCC does where the target runs. -/
def Block.ccc (m : Block) (f : Block → Block) : Block := if m.i3cRuns then f m else m

/-- Data that the target returns to the controller. -/
def Block.i3cData (m : Block) (b : List Byte) : Block := { m with cho.i3cReads := m.cho.i3cReads ++ [b] }

/-- ENTDAA: assigns a dynamic address to a target that has none. -/
def entdaaEffect (addr : Nat) (m : Block) : Block :=
  m.ccc fun m => if m.cho.i3cDyn.isNone ∧ addr < 128 then { m with cho.i3cDyn := some addr } else m
/-- SETDASA: the dynamic address is the static one, 0x50 + BOARD_POS. -/
def setdasaEffect (m : Block) : Block :=
  m.ccc fun m => if m.cho.i3cDyn.isNone then { m with cho.i3cDyn := some (0x50 + m.fld Reg.aonStraps 3 0) } else m
/-- RSTDAA. -/
def rstdaaEffect (m : Block) : Block := m.ccc fun m => { m with cho.i3cDyn := none }
/-- GETPID: 6 bytes, the most significant first (log entry 10). -/
def getpidEffect (m : Block) : Block := m.ccc fun m => m.i3cData (leBytes 6 Config.i3cPid).reverse
/-- GETBCR. -/
def getbcrEffect (m : Block) : Block := m.ccc fun m => m.i3cData [Config.i3cBcr]
/-- GETDCR. -/
def getdcrEffect (m : Block) : Block := m.ccc fun m => m.i3cData [Config.i3cDcr]
/-- GETSTATUS: two bytes whose content the manual leaves open (log entry 10). -/
def getstatusEffect (m : Block) : Block := m.ccc fun m => (m.drawBytes 2).2.i3cData (slice (m.drawBytes 2).1 0 2)
/-- ENEC: bit 0 enables in-band interrupts. -/
def enecEffect (mask : Byte) (m : Block) : Block := m.ccc fun m => if mask.toNat.testBit 0 then { m with cho.i3cEnable := true } else m
/-- DISEC: bit 0 disables in-band interrupts. -/
def disecEffect (mask : Byte) (m : Block) : Block := m.ccc fun m => if mask.toNat.testBit 0 then { m with cho.i3cEnable := false } else m
/-- I3C_EVENT_CLEAR: a write of 1 to bits of entry 0x10 clears them. -/
def i3cEventClearEffect (bits : Nat) (m : Block) : Block :=
  m.ccc fun m => { m with cho.i3cEvents := maskOf ((List.range 16).filter fun i => m.cho.i3cEvents.testBit i && !bits.testBit i) }

/-- IDENTIFY. -/
def execIdentify (p : Port) (s : State) : Host.Outcome State Fault Refusal := s.commit (identifyEffect p s.m)
/-- HEALTH_SUMMARY. -/
def execHealthSummary (p : Port) (s : State) : Host.Outcome State Fault Refusal := s.commit (healthSummaryEffect p s.m)
/-- HEALTH_FAULT_RECORDS. -/
def execHealthFaultRecords (p : Port) (s : State) : Host.Outcome State Fault Refusal := s.commit (healthFaultRecordsEffect p s.m)
/-- TELEMETRY. -/
def execTelemetry (p : Port) (s : State) : Host.Outcome State Fault Refusal := s.commit (telemetryEffect p s.m)
/-- FW_STAGE_BEGIN. -/
def execFwStageBegin (p : Port) (s : State) : Host.Outcome State Fault Refusal := s.commit (fwStageBeginEffect p s.m)
/-- FW_STAGE_DATA. -/
def execFwStageData (p : Port) (s : State) : Host.Outcome State Fault Refusal := s.commit (fwStageDataEffect p s.m)
/-- FW_STAGE_END. -/
def execFwStageEnd (p : Port) (s : State) : Host.Outcome State Fault Refusal := s.commit (fwStageEndEffect p s.m)
/-- FW_STAGE_ABORT. -/
def execFwStageAbort (p : Port) (s : State) : Host.Outcome State Fault Refusal := s.commit (fwStageAbortEffect p s.m)
/-- FW_ACTIVATE_NOW. -/
def execFwActivateNow (p : Port) (s : State) : Host.Outcome State Fault Refusal := s.commit (fwActivateNowEffect p s.m)
/-- FW_ACTIVATE_AT_RESET. -/
def execFwActivateAtReset (p : Port) (s : State) : Host.Outcome State Fault Refusal := s.commit (fwActivateAtResetEffect p s.m)
/-- FW_STATUS. -/
def execFwStatus (p : Port) (s : State) : Host.Outcome State Fault Refusal := s.commit (fwStatusEffect p s.m)
/-- ATTEST_GENERATE. -/
def execAttestGenerate (p : Port) (s : State) : Host.Outcome State Fault Refusal := s.commit (attestGenerateEffect p s.m)
/-- ATTEST_READ. -/
def execAttestRead (p : Port) (s : State) : Host.Outcome State Fault Refusal := s.commit (attestReadEffect p s.m)
/-- ATTEST_READ_CHAIN. -/
def execAttestReadChain (p : Port) (s : State) : Host.Outcome State Fault Refusal := s.commit (attestReadChainEffect p s.m)
/-- ATTEST_SIGNED. -/
def execAttestSigned (p : Port) (s : State) : Host.Outcome State Fault Refusal := s.commit (attestSignedEffect p s.m)
/-- RESET_MODULE_WARM. -/
def execResetModuleWarm (p : Port) (s : State) : Host.Outcome State Fault Refusal := s.commit (resetModuleWarmEffect p s.m)
/-- RESET_MODULE_COLD. -/
def execResetModuleCold (p : Port) (s : State) : Host.Outcome State Fault Refusal := s.commit (resetModuleColdEffect p s.m)
/-- RESET_DELAY_EXPIRY. -/
def execResetDelayExpiry (s : State) : Host.Outcome State Fault Refusal := s.commit (resetDelayExpiryEffect s.m)
/-- HANG_READ. -/
def execHangRead (p : Port) (s : State) : Host.Outcome State Fault Refusal := s.commit (hangReadEffect p s.m)
/-- LOG_READ. -/
def execLogRead (p : Port) (s : State) : Host.Outcome State Fault Refusal := s.commit (logReadEffect p s.m)
/-- NET_BOOT_BROADCAST. -/
def execNetBootBroadcast (s : State) : Host.Outcome State Fault Refusal := s.commit (netBootBroadcastEffect s.m)
/-- SECTOR_ERASE_DONE. -/
def execSectorEraseDone (sectors : Nat) (s : State) : Host.Outcome State Fault Refusal := s.commit (sectorEraseDoneEffect sectors s.m)
/-- MAILBOX_GO. -/
def execMailboxGo (r : Requester) (k : Nat) (s : State) : Host.Outcome State Fault Refusal := s.commit (s.m.byHost r (mailboxGoEffect r k))
/-- ENTDAA. -/
def execEntdaa (addr : Nat) (s : State) : Host.Outcome State Fault Refusal := s.commit (entdaaEffect addr s.m)
/-- SETDASA. -/
def execSetdasa (s : State) : Host.Outcome State Fault Refusal := s.commit (setdasaEffect s.m)
/-- RSTDAA. -/
def execRstdaa (s : State) : Host.Outcome State Fault Refusal := s.commit (rstdaaEffect s.m)
/-- GETPID. -/
def execGetpid (s : State) : Host.Outcome State Fault Refusal := s.commit (getpidEffect s.m)
/-- GETBCR. -/
def execGetbcr (s : State) : Host.Outcome State Fault Refusal := s.commit (getbcrEffect s.m)
/-- GETDCR. -/
def execGetdcr (s : State) : Host.Outcome State Fault Refusal := s.commit (getdcrEffect s.m)
/-- GETSTATUS. -/
def execGetstatus (s : State) : Host.Outcome State Fault Refusal := s.commit (getstatusEffect s.m)
/-- ENEC. -/
def execEnec (mask : Byte) (s : State) : Host.Outcome State Fault Refusal := s.commit (enecEffect mask s.m)
/-- DISEC. -/
def execDisec (mask : Byte) (s : State) : Host.Outcome State Fault Refusal := s.commit (disecEffect mask s.m)
/-- I3C_EVENT_CLEAR. -/
def execI3cEventClear (bits : Nat) (s : State) : Host.Outcome State Fault Refusal := s.commit (i3cEventClearEffect bits s.m)

end Sys2Proof.Machine
end

