-- ==== Sys2Proof/Machine/VecQueue.lean ====
section
/-! DEFINITION. The queues of the vector unit and the special-function unit (R80 to R82, Table 4.2) and the instructions that go through them.
A unit takes the instruction at the front of its queue as soon as nothing holds it: a load while 64 are outstanding (Table 4.8), a store
without room for its bursts (R352). Which cycle that is, is timing (log entry 18). -/
namespace Sys2Proof.Machine

/-- What the vector unit does with an instruction issued at `stamp`; none where it must wait. -/
def vecPerform (core stamp : Nat) (v : Instr) (m : Block) : Option Block :=
  match v with
  | .vectorElementwise _ op dst a b c n => some (vectorElementwiseRun core op dst a b c n m)
  | .vectorConvert _ dst src n => some (vectorConvertRun core dst src n m)
  | .vectorReduce _ op dst src n => some (vectorReduceRun core op dst src n m)
  | .topk _ scores bf16 spitch rows experts k route wgt => some (topkRun core scores bf16 spitch rows experts k route wgt m)
  | .compensatedSplit _ src hi lo n => some (compensatedSplitRun core src hi lo n m)
  | .compensatedCombine _ main comp dst n => some (compensatedCombineRun core main comp dst n m)
  | .gather _ dst src idx esize n => some (gatherRun core dst src idx esize n m)
  | .scatter _ dst src idx esize n => some (scatterRun core dst src idx esize n m)
  | .globalLoad _ src bytes dst => loadRun false core stamp src bytes dst m
  | .coherentPointLoad _ src bytes dst => loadRun true core stamp src bytes dst m
  | .globalStore _ dst bytes src => storeRun core stamp dst bytes src m
  | .signalledStore _ dst bytes src hitch inc => signalledStoreRun core stamp dst bytes src hitch inc m
  | _ => some m

/-- What the special-function unit does with an instruction (R78). -/
def sfuPerform (core : Nat) (v : Instr) (m : Block) : Block :=
  match v with
  | .exp _ dst src bf16 n => expRun core dst src bf16 n m
  | .rsqrt _ dst src bf16 n => rsqrtRun core dst src bf16 n m
  | .recip _ dst src bf16 n => recipRun core dst src bf16 n m
  | _ => m

/-- The vector unit works on its queue, in order, until it is empty or its first instruction must wait (R81). -/
def Block.settleVec (n : Nat) : Nat → Block → Block
  | 0, m => m
  | fuel + 1, m =>
    match (m.core n).vecQ with
    | [] => m
    | (stamp, v) :: rest =>
      match vecPerform n stamp v (m.modCore n fun c => { c with vecQ := rest }) with
      | some m1 => Block.settleVec n fuel m1
      | none => m

/-- The special-function unit works on its queue, in order. -/
def Block.settleSfu (n : Nat) : Nat → Block → Block
  | 0, m => m
  | fuel + 1, m =>
    match (m.core n).sfuQ with
    | [] => m
    | v :: rest => Block.settleSfu n fuel (sfuPerform n v (m.modCore n fun c => { c with sfuQ := rest }))

/-- The units of a core go on with what they can, and signals that waited for them follow (R93). -/
def Block.settleCore (m : Block) (n : Nat) : Block :=
  (Block.settleSfu n 17 (Block.settleVec n 17 m)).flushSignals n

/-- Issue of an instruction to the vector unit's queue: the unit takes it at once when the queue is empty and nothing holds it. A full queue
stalls issue (R82). -/
def issueVec (i : Issue) (v : Instr) (m : Block) : Block :=
  if (m.core i.core).vecQ.length ≥ 16 then m
  else m.issue i fun m =>
    let p := m.nextStamp (i.core / 8)
    match if (m.core i.core).vecQ.isEmpty then vecPerform i.core p.1 v p.2 else none with
    | some m1 => m1.settleCore i.core
    | none => (p.2.modCore i.core fun c => { c with vecQ := c.vecQ ++ [(p.1, v)] }).settleCore i.core

/-- Issue of an instruction to the special-function unit's queue, which the unit takes at once when the queue is empty. -/
def issueSfu (i : Issue) (v : Instr) (m : Block) : Block :=
  if (m.core i.core).sfuQ.length ≥ 16 then m
  else m.issue i fun m =>
    if (m.core i.core).sfuQ.isEmpty then (sfuPerform i.core v m).settleCore i.core
    else (m.modCore i.core fun c => { c with sfuQ := c.sfuQ ++ [v] }).settleCore i.core

/-- GLOBAL_LOAD_RETURN: one granule of an outstanding load returns; a load that waited in the queue may follow. -/
def globalLoadReturnEffect (core idx : Nat) (m : Block) : Block := ((loadReturn core idx m).settleCore core).restCore core

/-- Whether a core has work that goes on by itself. -/
def CoreState.goesOn (c : CoreState) : Bool := !(c.vecQ.isEmpty && c.sfuQ.isEmpty && c.signals.isEmpty && c.att.isNone)

/-- The cores go on with what they can; windows of cores at rest without a task are given up. -/
def Block.settleAll (m : Block) : Block :=
  ((m.cores.map (·.1)).filter fun n => (m.core n).goesOn || ((m.core n).task.isNone && m.fld (Reg.coreTaskId n) 63 63 == 1)).foldl
    (fun m n => ((m.settleCore n).attResume n).restCore n) m

/-- One tick of the timebase, while the always-on domain has power (R425; log entry 16). PACED commands whose time is up with this tick are
stopped in it (R330). -/
def Block.tick (m : Block) : Block :=
  if m.pwr.powered then
    let m1 := m.stopOverruns
    ({ m1 with time := m1.time + 1 }).settleAll
  else m

/-- VECTOR_ELEMENTWISE. -/
def vectorElementwiseEffect (i : Issue) (op : VecOp) (dst a b c : Row) (n : Nat) (m : Block) : Block := issueVec i (.vectorElementwise i op dst a b c n) m
/-- VECTOR_ELEMENTWISE. -/
def execVectorElementwise (i : Issue) (op : VecOp) (dst a b c : Row) (n : Nat) (s : State) : Host.Outcome State Fault Refusal := s.commit (vectorElementwiseEffect i op dst a b c n s.m)
/-- VECTOR_CONVERT. -/
def vectorConvertEffect (i : Issue) (dst src : Row) (n : Nat) (m : Block) : Block := issueVec i (.vectorConvert i dst src n) m
/-- VECTOR_CONVERT. -/
def execVectorConvert (i : Issue) (dst src : Row) (n : Nat) (s : State) : Host.Outcome State Fault Refusal := s.commit (vectorConvertEffect i dst src n s.m)
/-- VECTOR_REDUCE. -/
def vectorReduceEffect (i : Issue) (op : RedOp) (dst src : Row) (n : Nat) (m : Block) : Block := issueVec i (.vectorReduce i op dst src n) m
/-- VECTOR_REDUCE. -/
def execVectorReduce (i : Issue) (op : RedOp) (dst src : Row) (n : Nat) (s : State) : Host.Outcome State Fault Refusal := s.commit (vectorReduceEffect i op dst src n s.m)
/-- TOPK. -/
def topkEffect (i : Issue) (scores : Loc) (bf16 : Bool) (spitch rows experts k : Nat) (route wgt : Loc) (m : Block) : Block := issueVec i (.topk i scores bf16 spitch rows experts k route wgt) m
/-- TOPK. -/
def execTopk (i : Issue) (scores : Loc) (bf16 : Bool) (spitch rows experts k : Nat) (route wgt : Loc) (s : State) : Host.Outcome State Fault Refusal := s.commit (topkEffect i scores bf16 spitch rows experts k route wgt s.m)
/-- COMPENSATED_SPLIT. -/
def compensatedSplitEffect (i : Issue) (src hi lo : Loc) (n : Nat) (m : Block) : Block := issueVec i (.compensatedSplit i src hi lo n) m
/-- COMPENSATED_SPLIT. -/
def execCompensatedSplit (i : Issue) (src hi lo : Loc) (n : Nat) (s : State) : Host.Outcome State Fault Refusal := s.commit (compensatedSplitEffect i src hi lo n s.m)
/-- COMPENSATED_COMBINE. -/
def compensatedCombineEffect (i : Issue) (main comp dst : Loc) (n : Nat) (m : Block) : Block := issueVec i (.compensatedCombine i main comp dst n) m
/-- COMPENSATED_COMBINE. -/
def execCompensatedCombine (i : Issue) (main comp dst : Loc) (n : Nat) (s : State) : Host.Outcome State Fault Refusal := s.commit (compensatedCombineEffect i main comp dst n s.m)
/-- GATHER. -/
def gatherEffect (i : Issue) (dst src idx : Loc) (esize n : Nat) (m : Block) : Block := issueVec i (.gather i dst src idx esize n) m
/-- GATHER. -/
def execGather (i : Issue) (dst src idx : Loc) (esize n : Nat) (s : State) : Host.Outcome State Fault Refusal := s.commit (gatherEffect i dst src idx esize n s.m)
/-- SCATTER. -/
def scatterEffect (i : Issue) (dst src idx : Loc) (esize n : Nat) (m : Block) : Block := issueVec i (.scatter i dst src idx esize n) m
/-- SCATTER. -/
def execScatter (i : Issue) (dst src idx : Loc) (esize n : Nat) (s : State) : Host.Outcome State Fault Refusal := s.commit (scatterEffect i dst src idx esize n s.m)
/-- GLOBAL_LOAD (R79, R139). -/
def globalLoadEffect (i : Issue) (src : Loc) (bytes : Nat) (dst : Loc) (m : Block) : Block := issueVec i (.globalLoad i src bytes dst) m
/-- GLOBAL_LOAD (R79, R139). -/
def execGlobalLoad (i : Issue) (src : Loc) (bytes : Nat) (dst : Loc) (s : State) : Host.Outcome State Fault Refusal := s.commit (globalLoadEffect i src bytes dst s.m)
/-- COHERENT_POINT_LOAD (R149). -/
def coherentPointLoadEffect (i : Issue) (src : Loc) (bytes : Nat) (dst : Loc) (m : Block) : Block := issueVec i (.coherentPointLoad i src bytes dst) m
/-- COHERENT_POINT_LOAD (R149). -/
def execCoherentPointLoad (i : Issue) (src : Loc) (bytes : Nat) (dst : Loc) (s : State) : Host.Outcome State Fault Refusal := s.commit (coherentPointLoadEffect i src bytes dst s.m)
/-- GLOBAL_STORE. -/
def globalStoreEffect (i : Issue) (dst : Loc) (bytes : Nat) (src : Loc) (m : Block) : Block := issueVec i (.globalStore i dst bytes src) m
/-- GLOBAL_STORE. -/
def execGlobalStore (i : Issue) (dst : Loc) (bytes : Nat) (src : Loc) (s : State) : Host.Outcome State Fault Refusal := s.commit (globalStoreEffect i dst bytes src s.m)
/-- SIGNALLED_STORE. -/
def signalledStoreEffect (i : Issue) (dst : Nat) (bytes : Nat) (src : Loc) (hitch inc : Nat) (m : Block) : Block := issueVec i (.signalledStore i dst bytes src hitch inc) m
/-- SIGNALLED_STORE. -/
def execSignalledStore (i : Issue) (dst : Nat) (bytes : Nat) (src : Loc) (hitch inc : Nat) (s : State) : Host.Outcome State Fault Refusal := s.commit (signalledStoreEffect i dst bytes src hitch inc s.m)
/-- EXP. -/
def expEffect (i : Issue) (dst src : Nat) (bf16 : Bool) (n : Nat) (m : Block) : Block := issueSfu i (.exp i dst src bf16 n) m
/-- EXP. -/
def execExp (i : Issue) (dst src : Nat) (bf16 : Bool) (n : Nat) (s : State) : Host.Outcome State Fault Refusal := s.commit (expEffect i dst src bf16 n s.m)
/-- RSQRT. -/
def rsqrtEffect (i : Issue) (dst src : Nat) (bf16 : Bool) (n : Nat) (m : Block) : Block := issueSfu i (.rsqrt i dst src bf16 n) m
/-- RSQRT. -/
def execRsqrt (i : Issue) (dst src : Nat) (bf16 : Bool) (n : Nat) (s : State) : Host.Outcome State Fault Refusal := s.commit (rsqrtEffect i dst src bf16 n s.m)
/-- RECIP. -/
def recipEffect (i : Issue) (dst src : Nat) (bf16 : Bool) (n : Nat) (m : Block) : Block := issueSfu i (.recip i dst src bf16 n) m
/-- RECIP. -/
def execRecip (i : Issue) (dst src : Nat) (bf16 : Bool) (n : Nat) (s : State) : Host.Outcome State Fault Refusal := s.commit (recipEffect i dst src bf16 n s.m)
/-- GLOBAL_LOAD_RETURN. -/
def execGlobalLoadReturn (core idx : Nat) (s : State) : Host.Outcome State Fault Refusal := s.commit (globalLoadReturnEffect core idx s.m)

end Sys2Proof.Machine
end

