-- ==== Sys2Proof/Machine/RegWrite.lean ====
section
/-! DEFINITION. Writing registers: field types (R13), who may write each block (R510 and the chapters' access rules), 64- and 32-bit writes
(R11, R12), writes that act (WO fields), and stores that reach their home (R148). -/
namespace Sys2Proof.Machine

/- Clears and stops with rows of their own -/

/-- CORE_SEQ_STOP (R97, R98): firmware stops issue with cause FW_STOP. The task ends when that was its last slot to stop (R85). -/
def coreSeqStopEffect (r : Requester) (core : Nat) (m : Block) : Block :=
  if isFw r ∧ core < m.coreCount ∧ [1, 2, 3].contains (m.coreSt core) then
    match (m.core core).task with
    | some q => (m.stopCore core 8).endIfAll q
    | none => (m.stopCore core 8).restCore core
  else m

/-- CORE_ARR_CLR (R75): by a master with rights to the core (log entry 20). -/
def coreArrClrEffect (r : Requester) (core : Nat) (m : Block) : Block :=
  if core < m.coreCount ∧ (isFw r || m.coreReader r core) then
    [Reg.coreArrLoadcyc core, Reg.coreArrStrmcyc core, Reg.coreArrStallcyc core, Reg.coreCmStallcyc core].foldl (fun m x => m.setReg x 0) m
  else m

/-- LC_INVALIDATE (R155): firmware invalidates a tile's line cache. -/
def lcInvalidateEffect (r : Requester) (tile : Nat) (m : Block) : Block := if isFw r ∧ tile < m.tileCount then m.invalidateTile tile else m

/-- LC_COUNTER_CLR (R155): by a master with rights to the TILE_ block. -/
def lcCounterClrEffect (r : Requester) (tile : Nat) (m : Block) : Block :=
  if tile < m.tileCount ∧ m.mayRead r (Reg.tileLcCtl tile) then
    [Reg.tileLcHits tile, Reg.tileLcMisses tile, Reg.tileLcAcq tile].foldl (fun m x => m.setReg x 0) m
  else m

/-- ATT_CLR (R220): by the tenant of the task dispatched to the core, or firmware. -/
def attClrEffect (r : Requester) (core : Nat) (m : Block) : Block :=
  let t := core / 8
  let c := core % 8
  if core < m.coreCount ∧ (isFw r || (m.fld (Reg.coreTaskId core) 63 63 == 1 && m.ofTenant r (m.coreTenant core))) then
    [Reg.attSeqDone t c, Reg.attTokens t c, Reg.attEmpty t c, Reg.attRefused t c, Reg.attKvw t c, Reg.attCar t c].foldl (fun m x => m.setReg x 0) m
  else m

/-- SAD_CLR (R259): by tenant 0 or firmware. -/
def sadClrEffect (r : Requester) (m : Block) : Block :=
  if isFw r || m.ofTenant r 0 then [Reg.sadPagein, Reg.sadEvict, Reg.sadHoldMax].foldl (fun m x => m.setReg x 0) m else m

/- Field types -/

/-- A register's value after a write of the bits that `mask` covers: RW bits replaced, W1C bits cleared by ones, all others kept (R13). -/
def mergeWord (row : RegRow) (old mask v : Word) : Word :=
  let rw := BitVec.ofNat 64 row.rw &&& mask
  let w1c := BitVec.ofNat 64 row.w1c &&& mask
  (old &&& ~~~rw &&& ~~~(w1c &&& v)) ||| (v &&& rw)

/-- Whether a requester other than firmware may write a register's RW and W1C fields (R510). -/
def Block.mayWrite (m : Block) (r : Requester) (off : Nat) : Bool :=
  if isFw r then true
  else
    let o := off % 0x100000
    match off / 0x100000 with
    | 16 => o % 0x1000 == 0x180 && m.coreReader r (o / 0x1000)
    | 18 => decide (0x1000 ≤ o) && o % 0x40 != 0 && m.groupWriter r ((o - 0x1000) / 0x40)
    | 19 =>
      if o < 0x1000 then isSysHost r && m.fld Reg.cmdSysCfg 63 63 == 0
      else m.mailboxOpen r ((o - 0x1000) / 8)
    | 21 => mayFab r
    | 22 => isSysHost r
    | 23 => isSysHost r
    | 24 => isSysHost r
    | 25 => isSysHost r && off == Reg.secMgmtCtl
    | _ => false

/-- A write of RW and W1C fields that has no further effect. -/
def Block.plainWrite (m : Block) (r : Requester) (row : RegRow) (off : Nat) (mask v : Word) : Block :=
  if m.mayWrite r off then m.setReg off (mergeWord row (m.reg off) mask v) else m

/-- A field clamped to a range after a write (R97, R406, R474). -/
def Block.clampFld (m : Block) (off hi lo low high : Nat) : Block := m.setFld off hi lo (max low (min (m.fld off hi lo) high))

/- Blocks whose writes act -/

/-- A write of RST_CMD (R407, R410). A write of its lower half alone carries CONFIRM and INDEX, and SCOPE counts as 0, a module warm reset: the
rules do not say what half a write of RST_CMD does (DESIGN CHOICE, log entry 90). -/
def Block.writeRstCmd (m : Block) (r : Requester) (x : Word) : Block :=
  let c := field x 15 0
  let i := field x 31 16
  match field x 63 60 with
  | 0 => rstCmdWarmEffect r c m
  | 1 => rstCmdColdEffect r c m
  | 2 => rstCmdTileEffect r i c m
  | 3 => rstCmdCoreEffect r i c m
  | 4 => rstCmdEngineEffect r i c m
  | 5 => rstCmdFabricPortEffect r i c m
  | _ => m

/-- POOL_SPARE_MAP bits of the spares that a die has: none for spares 2 and 3 of an SBM-2412 (Table 5.4). -/
def Block.spareMask (m : Block) : Word := BitVec.ofNat 64 (2 ^ (8 * m.spareBanks) - 1)

/-- Firmware gives a channel or a codec ring an owner: what counts since then begins anew (Tables 5.6, 7.11). -/
def Block.newOwner (m : Block) (r : Requester) (reg hi lo : Nat) : Block := if isFw r then m.setFld reg hi lo 0 else m

/-- TILE_CORE_MAP is written: CORE_PHYS of the tile's cores follows (R100). -/
def Block.mapCores (m : Block) (t : Nat) : Block :=
  (List.range 8).foldl (fun m c => m.setReg (Reg.corePhys (8 * t + c)) (BitVec.ofNat 64 (t * 256 + m.phys (8 * t + c)))) m

/-- A write of CMD_SYS_CFG (R288, R318). -/
def Block.writeSysCfg (m : Block) (r : Requester) (w : Word) : Block :=
  if bit w 63 then sysAdminEnableEffect r (field w 7 4) (field w 3 0) m
  else if m.mayWrite r Reg.cmdSysCfg then (m.setReg Reg.cmdSysCfg w).sysOff
  else m

/-- A write of a doorbell word (Table 12.2): bit 63 selects the index. A write of the upper half alone carries no index. -/
def Block.writeDoorbell (m : Block) (r : Requester) (off : Nat) (mask x : Word) : Block :=
  if !bit mask 0 then m
  else if bit x 63 then doorbellCqHeadEffect r (doorbellQueue off) (field x 15 0) m
  else doorbellSqTailEffect r (doorbellQueue off) (field x 15 0) m

/-- A write of FAB_PORT_CTL. -/
def Block.writeFabCtl (m : Block) (r : Requester) (p : Nat) (mask x : Word) : Block :=
  let m1 := if bit mask 0 ∧ bit x 0 ≠ bit (m.reg (Reg.fabPortCtl p)) 0 then fabPortDisableEffect r p (bit x 0) m else m
  let m2 := if bit x 1 then ackNbrEffect r p m1 else m1
  if bit x 2 then fabPortRetrainEffect r p m2 else m2

/-- A write of CHO_PORT_CTL. -/
def Block.writeChoCtl (m : Block) (r : Requester) (p : Nat) (mask x : Word) : Block :=
  let m1 := if bit mask 0 ∧ bit x 0 ≠ bit (m.reg (Reg.choPortCtl p)) 0 then chotusPortDisableEffect r p (bit x 0) m else m
  if bit x 1 then chotusPortRetrainEffect r p m1 else m1

/-- A write to the SEC_ block (R491). -/
def Block.writeSec (m : Block) (r : Requester) (row : RegRow) (off : Nat) (mask x : Word) : Block :=
  let put (l : List Word) (i : Nat) : List Word := modifyAt (fun w => (w &&& ~~~mask) ||| x) l i
  let host := isFw r || isSysHost r
  if off = Reg.secExtend then (if bit mask 0 then secExtendEffect r (field x 0 0) m else m)
  else if off = Reg.secSvnCtl then (if bit mask 0 then svnCommitEffect r (field x 15 0) m else m)
  else if Reg.secDigest 0 ≤ off ∧ off ≤ Reg.secDigest 7 then
    (if isFw r then { m with sec.digest := put m.sec.digest ((off - Reg.secDigest 0) / 8) } else m)
  else if Reg.secMgmtKey 0 ≤ off ∧ off ≤ Reg.secMgmtKey 3 then
    (if host then { m with sec.mgmtWords := put m.sec.mgmtWords ((off - Reg.secMgmtKey 0) / 8) } else m)
  else if off = Reg.secMgmtCtl then
    let m1 := m.plainWrite r row off mask x
    let m2 := if bit x 0 then mgmtKeySetEffect r m1 else m1
    if bit x 1 then mgmtKeyClearEffect r m2 else m2
  else m.plainWrite r row off mask x

/-- A write to the PWR_ block (R434, R439, R441). -/
def Block.writePwr (m : Block) (r : Requester) (row : RegRow) (off : Nat) (mask x : Word) : Block :=
  if !m.mayWrite r off then m
  else if off = Reg.pwrCap then (if bit mask 0 then m.writeCap (field x 15 0) else m)
  else if off = Reg.pwrCool then (if bit x 63 ∧ m.fld Reg.pwrCool 63 63 = 1 then m.clearWarn else m)
  else m.plainWrite r row off mask x

/-- A write to the FW_ block (R403, R406). -/
def Block.writeFw (m : Block) (r : Requester) (row : RegRow) (off : Nat) (mask x : Word) : Block :=
  let m1 := m.plainWrite r row off mask x
  if !m.mayWrite r off then m
  else if off = Reg.fwActDrain then m1.clampFld off 39 0 25000000 500000000
  else if off = Reg.fwTraceEn ∨ off = Reg.fwTraceLvl then
    let old := (m.time, (m.reg Reg.fwTraceEn).toNat, m.fld Reg.fwTraceLvl 1 0)
    { m1 with fw.traceOld := match m.fw.traceOld with
        | some (t, e, l) => if t = m.time then some (t, e, l) else some old
        | none => some old }
  else m1

/-- A write to a mailbox's buffers (R313). -/
def Block.writeMailbox (m : Block) (r : Requester) (k off : Nat) (mask x : Word) : Block :=
  if m.mailboxOpen r k then
    { m with mbuf := m.mbuf.writeMasked (off - 0x1320000) (leBytes 8 x.toNat) ((List.range 8).map fun i => bit mask (8 * i)) }
  else m

/-- A write to the register at an 8-byte-aligned offset, of the bits that `mask` covers (R8, R12, R13, R509, R510). -/
def Block.writeReg (m : Block) (r : Requester) (off : Nat) (mask v : Word) : Block :=
  let x := v &&& mask
  let o := off % 0x100000
  let i := o / 0x1000
  let p := o % 0x1000
  match mailboxAt off with
  | some k => m.writeMailbox r k off mask x
  | none =>
  if off / 0x100000 = 32 then m.writeDoorbell r off mask x
  else match regAt off with
  | none => m
  | some (row, _, _) =>
    let merged := mergeWord row (m.reg off) mask v
    let plain := m.plainWrite r row off mask v
    if m.absent off then m
    else match off / 0x100000 with
    | 1 =>
      if off = Reg.aonWdog 8 then m
      else if Reg.aonWdog 0 ≤ off ∧ off < Reg.aonWdog 8 ∧ isFw r then
        plain.clampFld off 39 0 ((wdogReset ((off - Reg.aonWdog 0) / 8)).toNat / 4) (2 ^ 40 - 1)
      else plain
    | 2 => if off = Reg.rstCmd then m.writeRstCmd r x else plain
    | 8 =>
      if p = 0x40 ∧ isFw r then plain.mapCores i
      else if p = 0x80 then
        let m1 := if bit x 0 then lcInvalidateEffect r i m else m
        if bit x 1 then lcCounterClrEffect r i m1 else m1
      else if p ≥ 0x800 ∧ p % 0x10 = 0 then plain.newOwner r (Reg.tileDmaStatus i ((p - 0x800) / 0x10)) 31 0
      else plain
    | 9 => if p = 0 then m.plainWrite r row off (mask &&& m.spareMask) v else plain
    | 12 =>
      if p ≥ 0x100 ∧ p % 0x20 = 0 then plain.newOwner r (Reg.cmpRingHead i ((p - 0x100) / 0x20)) 43 12
      else if p ≥ 0x100 ∧ p % 0x20 = 0x10 then cmpRingTailEffect r i ((p - 0x100) / 0x20) (field merged 11 0) m else plain
    | 13 => if p % 0x40 = 0x30 then (if bit x 0 then attClrEffect r (8 * i + p / 0x40) m else m) else plain
    | 14 =>
      if p ≥ 0x200 ∧ p % 0x20 = 0x18 then (if bit x 0 then drvClrEffect r i ((p - 0x200) / 0x20) m else m)
      else if p ≥ 0x100 ∧ p < 0x200 ∧ p % 0x20 = 0x10 then drvRingTailEffect r i ((p - 0x100) / 0x20) (field merged 9 0) m
      else plain
    | 15 => if off = Reg.sadCtl then (if bit x 0 then sadClrEffect r m else m) else plain
    | 16 =>
      if p = 0x18 then (if bit x 0 then coreSeqStopEffect r i m else m)
      else if p = 0x28 ∧ isFw r then plain.clampFld off 39 0 25000 (2 ^ 40 - 1)
      else if p = 0x1D8 then (if bit x 0 then coreArrClrEffect r i m else m)
      else plain
    | 17 =>
      if p = 0x20 then (if bit x 0 then grmClrEffect r i m else m)
      else if p ≥ 0x100 ∧ p % 0x20 = 0x10 then grmRingTailEffect r i ((p - 0x100) / 0x20) (field merged 9 0) m
      else plain
    | 18 =>
      if off = Reg.pcrQueryIn then pacerQueryEffect r (field merged 39 32) (field merged 31 0) m
      else if o ≥ 0x1000 ∧ o % 0x40 = 0x28 then (if bit x 0 then pacerCommitEffect r ((o - 0x1000) / 0x40) m else m)
      else plain
    | 19 =>
      if off = Reg.cmdSysCfg then m.writeSysCfg r merged
      else if o ≥ 0x1000 ∧ bit x 0 then mailboxGoEffect r ((o - 0x1000) / 8) plain
      else plain
    | 21 =>
      if off = Reg.fabNode then
        (if bit merged 63 then nodeAssignEffect r (field merged 11 0) m else if m.fld Reg.fabNode 63 63 = 1 then m else plain)
      else if 0x8000 ≤ o ∧ o < 0x10000 then routingEntryWriteEffect r ((o - 0x8000) / 8) merged m
      else if 0x1000 ≤ o ∧ o < 0x8000 ∧ o % 0x40 = 0x18 then m.writeFabCtl r ((o - 0x1000) / 0x40) mask x
      else plain
    | 22 =>
      if o ≥ 0x100 ∧ o % 0x40 = 8 then heartbeatWriteEffect r ((o - 0x100) / 0x40) m
      else if o ≥ 0x100 ∧ o % 0x40 = 0x28 then m.writeChoCtl r ((o - 0x100) / 0x40) mask x
      else plain
    | 23 => m.writeFw r row off mask x
    | 24 => m.writePwr r row off mask x
    | 25 => m.writeSec r row off mask x
    | _ => plain

/-- A register write of 8 bytes, or of 4 that change one half (R11, R12). -/
def Block.writeRegBytes (m : Block) (r : Requester) (off : Nat) (half : Bool) (value : Word) : Block :=
  if !half then m.writeReg r off (BitVec.allOnes 64) value
  else if off % 8 = 4 then m.writeReg r (off - 4) 0xFFFFFFFF00000000 (value <<< 32)
  else m.writeReg r off 0xFFFFFFFF value

/-- REGISTER_WRITE (R11, R509, R510): `addr` is a local address of the register range. What R11 and R509 refuse curbs a core, and so do the
accesses that R510 excepts. -/
def registerWriteEffect (r : Requester) (addr : Nat) (half : Bool) (value : Word) (m : Block) : Block :=
  let n := if half then 4 else 8
  match m.region addr with
  | .reg off =>
    let bad : Option Nat := if !regAccessOk off n then some 4 else match r with
      | .core c => m.regCurb c off true
      | _ => none
    match bad, r with
    | some k, .core c => m.curbCore c k addr n
    | some _, _ => m
    | none, _ => m.writeRegBytes r off half value
  | _ => m

/- Stores -/

/-- Whether an earlier store of the same core to the same place keeps a store back: writes to one granule or register, and writes to host
memory, are applied in the order of issue (R135, R151). -/
def Block.storeBehind (m : Block) (x y : Store) : Bool :=
  y.remote.isNone && (y.addr / 128 == x.addr / 128 || (m.region x.addr == .host && m.region y.addr == .host))

/-- STORE_REACHES_HOME (R148): local data is applied after every host copy is invalidated (R152); a remote store is done once its burst is
acknowledged. Signals that waited for it follow (R93). -/
def storeReachesHomeEffect (core idx : Nat) (m : Block) : Block :=
  let c := m.core core
  match c.stores[idx]? with
  | none => m
  | some x =>
    let done (m : Block) : Block := ((m.modCore core fun c => { c with stores := removeAt c.stores idx }).settleCore core).restCore core
    match x.remote with
    | some (node, seq) => if (m.txPair core node).unacked.any fun u => u.burst.seq == seq then m else done m
    | none =>
      if (c.stores.take idx).any (m.storeBehind x) then m
      else match m.region x.addr with
        | .reg off => done (m.writeRegBytes (.core core) off (x.bytes.length == 4) (BitVec.ofNat 64 (leNat x.bytes)))
        | .host =>
          if m.hostHolding x.addr then m
          else if m.hostUp x.addr then done (m.homeWrite x.addr x.bytes)
          else (done m).curbCore core 3 x.addr x.bytes.length
        | _ =>
          let copies := m.hostCopies (x.addr / 128)
          if copies.isEmpty then done (m.homeWrite x.addr x.bytes) else m.snoopEntries copies

/-- CORE_SEQ_STOP. -/
def execCoreSeqStop (r : Requester) (core : Nat) (s : State) : Host.Outcome State Fault Refusal := s.commit (s.m.byHost r (coreSeqStopEffect r core))
/-- CORE_ARR_CLR. -/
def execCoreArrClr (r : Requester) (core : Nat) (s : State) : Host.Outcome State Fault Refusal := s.commit (s.m.byHost r (coreArrClrEffect r core))
/-- LC_INVALIDATE. -/
def execLcInvalidate (r : Requester) (tile : Nat) (s : State) : Host.Outcome State Fault Refusal := s.commit (s.m.byHost r (lcInvalidateEffect r tile))
/-- LC_COUNTER_CLR. -/
def execLcCounterClr (r : Requester) (tile : Nat) (s : State) : Host.Outcome State Fault Refusal := s.commit (s.m.byHost r (lcCounterClrEffect r tile))
/-- ATT_CLR. -/
def execAttClr (r : Requester) (core : Nat) (s : State) : Host.Outcome State Fault Refusal := s.commit (s.m.byHost r (attClrEffect r core))
/-- SAD_CLR. -/
def execSadClr (r : Requester) (s : State) : Host.Outcome State Fault Refusal := s.commit (s.m.byHost r (sadClrEffect r))
/-- REGISTER_WRITE. -/
def execRegisterWrite (r : Requester) (addr : Nat) (half : Bool) (value : Word) (s : State) : Host.Outcome State Fault Refusal :=
  s.commit (s.m.byHost r (registerWriteEffect r addr half value))
/-- STORE_REACHES_HOME. -/
def execStoreReachesHome (core idx : Nat) (s : State) : Host.Outcome State Fault Refusal := s.commit (storeReachesHomeEffect core idx s.m)

end Sys2Proof.Machine
end

