-- ==== Sys2Proof/Machine/Dispatch.lean ====
section
/-! DEFINITION. The dispatch of a command to its meaning: one arm per constructor, in the order of the opcode table. -/
namespace Sys2Proof.Machine
open Sys2Proof

/-- The effect of one command on everything but the queue of waiting commands. -/
def exec (i : Instr) (s : State) : Host.Outcome State Fault Refusal :=
  match i with
  | .scalarOp x op rd a b => Sys2Proof.Machine.execScalarOp x op rd a b s
  | .branch x c a b target => Sys2Proof.Machine.execBranch x c a b target s
  | .loop x count skipTo => Sys2Proof.Machine.execLoop x count skipTo s
  | .endloop x => Sys2Proof.Machine.execEndloop x s
  | .call x target => Sys2Proof.Machine.execCall x target s
  | .ret x => Sys2Proof.Machine.execRet x s
  | .drain x mask => Sys2Proof.Machine.execDrain x mask s
  | .drainComplete core => Sys2Proof.Machine.execDrainComplete core s
  | .end_ x => Sys2Proof.Machine.execEnd x s
  | .matmul x desc => Sys2Proof.Machine.execMatmul x desc s
  | .matmulComplete core => Sys2Proof.Machine.execMatmulComplete core s
  | .vectorElementwise x op dst a b c count => Sys2Proof.Machine.execVectorElementwise x op dst a b c count s
  | .vectorConvert x dst src count => Sys2Proof.Machine.execVectorConvert x dst src count s
  | .vectorReduce x op dst src count => Sys2Proof.Machine.execVectorReduce x op dst src count s
  | .topk x scores bf16 spitch rows experts k route wgt => Sys2Proof.Machine.execTopk x scores bf16 spitch rows experts k route wgt s
  | .compensatedSplit x src hi lo count => Sys2Proof.Machine.execCompensatedSplit x src hi lo count s
  | .compensatedCombine x main comp dst count => Sys2Proof.Machine.execCompensatedCombine x main comp dst count s
  | .gather x dst src idx esize count => Sys2Proof.Machine.execGather x dst src idx esize count s
  | .scatter x dst src idx esize count => Sys2Proof.Machine.execScatter x dst src idx esize count s
  | .globalLoad x src bytes dst => Sys2Proof.Machine.execGlobalLoad x src bytes dst s
  | .globalLoadReturn core idx => Sys2Proof.Machine.execGlobalLoadReturn core idx s
  | .coherentPointLoad x src bytes dst => Sys2Proof.Machine.execCoherentPointLoad x src bytes dst s
  | .globalStore x dst bytes src => Sys2Proof.Machine.execGlobalStore x dst bytes src s
  | .storeReachesHome core idx => Sys2Proof.Machine.execStoreReachesHome core idx s
  | .signalledStore x dst bytes src hitch inc => Sys2Proof.Machine.execSignalledStore x dst bytes src hitch inc s
  | .attentionPass x desc => Sys2Proof.Machine.execAttentionPass x desc s
  | .exp x dst src bf16 count => Sys2Proof.Machine.execExp x dst src bf16 count s
  | .rsqrt x dst src bf16 count => Sys2Proof.Machine.execRsqrt x dst src bf16 count s
  | .recip x dst src bf16 count => Sys2Proof.Machine.execRecip x dst src bf16 count s
  | .copySubmit x channel desc => Sys2Proof.Machine.execCopySubmit x channel desc s
  | .dmaSliceTimeout tile engine granules => Sys2Proof.Machine.execDmaSliceTimeout tile engine granules s
  | .copyDescriptorComplete tile channel => Sys2Proof.Machine.execCopyDescriptorComplete tile channel s
  | .hsignal x hitch v => Sys2Proof.Machine.execHsignal x hitch v s
  | .hwait x hitch target => Sys2Proof.Machine.execHwait x hitch target s
  | .hwaitSatisfied core => Sys2Proof.Machine.execHwaitSatisfied core s
  | .hitchTimeout core => Sys2Proof.Machine.execHitchTimeout core s
  | .hpoll x hitch rd => Sys2Proof.Machine.execHpoll x hitch rd s
  | .hreset x hitch v => Sys2Proof.Machine.execHreset x hitch v s
  | .acquire x => Sys2Proof.Machine.execAcquire x s
  | .release x => Sys2Proof.Machine.execRelease x s
  | .fence x => Sys2Proof.Machine.execFence x s
  | .orderHoldEnd core => Sys2Proof.Machine.execOrderHoldEnd core s
  | .coreSeqStop r core => Sys2Proof.Machine.execCoreSeqStop r core s
  | .coreArrClr r core => Sys2Proof.Machine.execCoreArrClr r core s
  | .lcInvalidate r tile => Sys2Proof.Machine.execLcInvalidate r tile s
  | .lcCounterClr r tile => Sys2Proof.Machine.execLcCounterClr r tile s
  | .attClr r core => Sys2Proof.Machine.execAttClr r core s
  | .drvClr r tile ring => Sys2Proof.Machine.execDrvClr r tile ring s
  | .grmClr r stack => Sys2Proof.Machine.execGrmClr r stack s
  | .sadClr r => Sys2Proof.Machine.execSadClr r s
  | .registerWrite r addr half value => Sys2Proof.Machine.execRegisterWrite r addr half value s
  | .doorbellSqTail r q index => Sys2Proof.Machine.execDoorbellSqTail r q index s
  | .doorbellCqHead r q index => Sys2Proof.Machine.execDoorbellCqHead r q index s
  | .sysAdminEnable r log2Cq log2Sq => Sys2Proof.Machine.execSysAdminEnable r log2Cq log2Sq s
  | .packetFetch q => Sys2Proof.Machine.execPacketFetch q s
  | .pacedAdmission q => Sys2Proof.Machine.execPacedAdmission q s
  | .dispatch => Sys2Proof.Machine.execDispatch s
  | .agingPromotion q => Sys2Proof.Machine.execAgingPromotion q s
  | .pacedLeadStart q => Sys2Proof.Machine.execPacedLeadStart q s
  | .pulledUpResume core => Sys2Proof.Machine.execPulledUpResume core s
  | .pacedOverrunStop q => Sys2Proof.Machine.execPacedOverrunStop q s
  | .suspensionEnd => Sys2Proof.Machine.execSuspensionEnd s
  | .nop q => Sys2Proof.Machine.execNop q s
  | .tenantCreate q => Sys2Proof.Machine.execTenantCreate q s
  | .tenantDestroy q => Sys2Proof.Machine.execTenantDestroy q s
  | .tenantKeyLoad q => Sys2Proof.Machine.execTenantKeyLoad q s
  | .rangeSet q => Sys2Proof.Machine.execRangeSet q s
  | .rangeClear q => Sys2Proof.Machine.execRangeClear q s
  | .mailboxAssign q => Sys2Proof.Machine.execMailboxAssign q s
  | .contextCreate q => Sys2Proof.Machine.execContextCreate q s
  | .contextDestroy q => Sys2Proof.Machine.execContextDestroy q s
  | .contextReset q => Sys2Proof.Machine.execContextReset q s
  | .queueCreate q => Sys2Proof.Machine.execQueueCreate q s
  | .queueDestroy q => Sys2Proof.Machine.execQueueDestroy q s
  | .resourceAssign q => Sys2Proof.Machine.execResourceAssign q s
  | .resourceRelease q => Sys2Proof.Machine.execResourceRelease q s
  | .programLoad q => Sys2Proof.Machine.execProgramLoad q s
  | .programUnload q => Sys2Proof.Machine.execProgramUnload q s
  | .taskRun q => Sys2Proof.Machine.execTaskRun q s
  | .hitchSignal q => Sys2Proof.Machine.execHitchSignal q s
  | .copy q tile => Sys2Proof.Machine.execCopy q tile s
  | .saddleLoad q => Sys2Proof.Machine.execSaddleLoad q s
  | .saddleUpdate q => Sys2Proof.Machine.execSaddleUpdate q s
  | .saddleUnload q => Sys2Proof.Machine.execSaddleUnload q s
  | .groomUpdate q => Sys2Proof.Machine.execGroomUpdate q s
  | .collective q => Sys2Proof.Machine.execCollective q s
  | .teardownDrainEnd tenant ctx => Sys2Proof.Machine.execTeardownDrainEnd tenant ctx s
  | .teardownDrainTimeout tenant ctx => Sys2Proof.Machine.execTeardownDrainTimeout tenant ctx s
  | .purgeEnd tenant ctx => Sys2Proof.Machine.execPurgeEnd tenant ctx s
  | .scrubEnd idx => Sys2Proof.Machine.execScrubEnd idx s
  | .deferredPerform q => Sys2Proof.Machine.execDeferredPerform q s
  | .pagingSegmentComplete engine => Sys2Proof.Machine.execPagingSegmentComplete engine s
  | .pageInComplete obj => Sys2Proof.Machine.execPageInComplete obj s
  | .pageOut obj => Sys2Proof.Machine.execPageOut obj s
  | .patrolScrub stack => Sys2Proof.Machine.execPatrolScrub stack s
  | .ddrChannelFailure channel => Sys2Proof.Machine.execDdrChannelFailure channel s
  | .cmpRingTail r die ring tail => Sys2Proof.Machine.execCmpRingTail r die ring tail s
  | .lossyEncode die ring => Sys2Proof.Machine.execLossyEncode die ring s
  | .lossyDecode die ring => Sys2Proof.Machine.execLossyDecode die ring s
  | .losslessEncode die ring => Sys2Proof.Machine.execLosslessEncode die ring s
  | .losslessDecode die ring => Sys2Proof.Machine.execLosslessDecode die ring s
  | .codecJobEnd die ring => Sys2Proof.Machine.execCodecJobEnd die ring s
  | .drvRingTail r tile ring tail => Sys2Proof.Machine.execDrvRingTail r tile ring tail s
  | .exchangeDispatch tile ring => Sys2Proof.Machine.execExchangeDispatch tile ring s
  | .exchangeCombine tile ring => Sys2Proof.Machine.execExchangeCombine tile ring s
  | .claimArrival tile c => Sys2Proof.Machine.execClaimArrival tile c s
  | .grantArrival tile ring expert answer grant base rowsOff => Sys2Proof.Machine.execGrantArrival tile ring expert answer grant base rowsOff s
  | .segmentCloseArrival tile qaddr exch => Sys2Proof.Machine.execSegmentCloseArrival tile qaddr exch s
  | .claimArmTimeout tile idx => Sys2Proof.Machine.execClaimArmTimeout tile idx s
  | .claimResend tile ring expert => Sys2Proof.Machine.execClaimResend tile ring expert s
  | .dispatchJobEnd tile ring => Sys2Proof.Machine.execDispatchJobEnd tile ring s
  | .grmRingTail r stack ring tail => Sys2Proof.Machine.execGrmRingTail r stack ring tail s
  | .momentumSgd stack ring => Sys2Proof.Machine.execMomentumSgd stack ring s
  | .adamw stack ring => Sys2Proof.Machine.execAdamw stack ring s
  | .signMomentum stack ring => Sys2Proof.Machine.execSignMomentum stack ring s
  | .factoredSecondMoment stack ring => Sys2Proof.Machine.execFactoredSecondMoment stack ring s
  | .generalRecurrence stack ring => Sys2Proof.Machine.execGeneralRecurrence stack ring s
  | .sparseRowUpdate stack ring => Sys2Proof.Machine.execSparseRowUpdate stack ring s
  | .groomDescriptorEnd stack ring => Sys2Proof.Machine.execGroomDescriptorEnd stack ring s
  | .pacerQuery r group step => Sys2Proof.Machine.execPacerQuery r group step s
  | .pacerCommit r group => Sys2Proof.Machine.execPacerCommit r group s
  | .allReduce die => Sys2Proof.Machine.execAllReduce die s
  | .reduceScatter die => Sys2Proof.Machine.execReduceScatter die s
  | .allGather die => Sys2Proof.Machine.execAllGather die s
  | .allToAll die => Sys2Proof.Machine.execAllToAll die s
  | .collectiveSegment die node master seq seg => Sys2Proof.Machine.execCollectiveSegment die node master seq seg s
  | .collectiveAbort die tenant ctx collId => Sys2Proof.Machine.execCollectiveAbort die tenant ctx collId s
  | .collectiveTimeout q => Sys2Proof.Machine.execCollectiveTimeout q s
  | .collectiveEnd q => Sys2Proof.Machine.execCollectiveEnd q s
  | .fabricWrite port b => Sys2Proof.Machine.execFabricWrite port b s
  | .signalledWrite port b => Sys2Proof.Machine.execSignalledWrite port b s
  | .fabricSignal port b => Sys2Proof.Machine.execFabricSignal port b s
  | .readRequest port b granules => Sys2Proof.Machine.execReadRequest port b granules s
  | .readData port b => Sys2Proof.Machine.execReadData port b s
  | .acknowledgement port master node seq => Sys2Proof.Machine.execAcknowledgement port master node seq s
  | .negativeAcknowledgement port master node read id kind => Sys2Proof.Machine.execNegativeAcknowledgement port master node read id kind s
  | .purge port b => Sys2Proof.Machine.execPurge port b s
  | .burstResendTimeout master node seq => Sys2Proof.Machine.execBurstResendTimeout master node seq s
  | .laneFailing port report => Sys2Proof.Machine.execLaneFailing port report s
  | .spareLaneTrained port => Sys2Proof.Machine.execSpareLaneTrained port s
  | .fabPortRetrain r port => Sys2Proof.Machine.execFabPortRetrain r port s
  | .fabPortTrained port nbr failed => Sys2Proof.Machine.execFabPortTrained port nbr failed s
  | .ackNbr r port => Sys2Proof.Machine.execAckNbr r port s
  | .fabPortDisable r port disable => Sys2Proof.Machine.execFabPortDisable r port disable s
  | .nodeAssign r node => Sys2Proof.Machine.execNodeAssign r node s
  | .routingEntryWrite r node entry => Sys2Proof.Machine.execRoutingEntryWrite r node entry s
  | .nodeLost node => Sys2Proof.Machine.execNodeLost node s
  | .cableUnplug connector => Sys2Proof.Machine.execCableUnplug connector s
  | .cablePlug connector => Sys2Proof.Machine.execCablePlug connector s
  | .recoveringReceived node => Sys2Proof.Machine.execRecoveringReceived node s
  | .rejoinReceived node => Sys2Proof.Machine.execRejoinReceived node s
  | .peerHoldExpiry node => Sys2Proof.Machine.execPeerHoldExpiry node s
  | .chotusPortTraining port hostId lanes => Sys2Proof.Machine.execChotusPortTraining port hostId lanes s
  | .chotusModeFix => Sys2Proof.Machine.execChotusModeFix s
  | .hostRequest port tag addr op => Sys2Proof.Machine.execHostRequest port tag addr op s
  | .snoopResponse port addr dirty => Sys2Proof.Machine.execSnoopResponse port addr dirty s
  | .snoopTimeout port => Sys2Proof.Machine.execSnoopTimeout port s
  | .chotusLaneFail port lanes => Sys2Proof.Machine.execChotusLaneFail port lanes s
  | .chotusPortRetrain r port => Sys2Proof.Machine.execChotusPortRetrain r port s
  | .chotusPortDisable r port disable => Sys2Proof.Machine.execChotusPortDisable r port disable s
  | .heartbeatWrite r port => Sys2Proof.Machine.execHeartbeatWrite r port s
  | .hostLost port => Sys2Proof.Machine.execHostLost port s
  | .hostHoldExpiry port => Sys2Proof.Machine.execHostHoldExpiry port s
  | .mailboxGo r k => Sys2Proof.Machine.execMailboxGo r k s
  | .identify p => Sys2Proof.Machine.execIdentify p s
  | .healthSummary p => Sys2Proof.Machine.execHealthSummary p s
  | .healthFaultRecords p => Sys2Proof.Machine.execHealthFaultRecords p s
  | .telemetry p => Sys2Proof.Machine.execTelemetry p s
  | .fwStageBegin p => Sys2Proof.Machine.execFwStageBegin p s
  | .fwStageData p => Sys2Proof.Machine.execFwStageData p s
  | .fwStageEnd p => Sys2Proof.Machine.execFwStageEnd p s
  | .fwStageAbort p => Sys2Proof.Machine.execFwStageAbort p s
  | .fwActivateNow p => Sys2Proof.Machine.execFwActivateNow p s
  | .fwActivateAtReset p => Sys2Proof.Machine.execFwActivateAtReset p s
  | .activationDrainLimit => Sys2Proof.Machine.execActivationDrainLimit s
  | .activationRestartDone => Sys2Proof.Machine.execActivationRestartDone s
  | .activationDeferExpiry => Sys2Proof.Machine.execActivationDeferExpiry s
  | .fwStatus p => Sys2Proof.Machine.execFwStatus p s
  | .attestGenerate p => Sys2Proof.Machine.execAttestGenerate p s
  | .attestRead p => Sys2Proof.Machine.execAttestRead p s
  | .attestReadChain p => Sys2Proof.Machine.execAttestReadChain p s
  | .resetModuleWarm p => Sys2Proof.Machine.execResetModuleWarm p s
  | .resetModuleCold p => Sys2Proof.Machine.execResetModuleCold p s
  | .resetDelayExpiry => Sys2Proof.Machine.execResetDelayExpiry s
  | .hangRead p => Sys2Proof.Machine.execHangRead p s
  | .logRead p => Sys2Proof.Machine.execLogRead p s
  | .netBootBroadcast => Sys2Proof.Machine.execNetBootBroadcast s
  | .entdaa addr => Sys2Proof.Machine.execEntdaa addr s
  | .enec mask => Sys2Proof.Machine.execEnec mask s
  | .disec mask => Sys2Proof.Machine.execDisec mask s
  | .i3cEventClear bits => Sys2Proof.Machine.execI3cEventClear bits s
  | .rstCmdWarm r confirm => Sys2Proof.Machine.execRstCmdWarm r confirm s
  | .rstCmdCold r confirm => Sys2Proof.Machine.execRstCmdCold r confirm s
  | .rstCmdTile r tile confirm => Sys2Proof.Machine.execRstCmdTile r tile confirm s
  | .rstCmdCore r core confirm => Sys2Proof.Machine.execRstCmdCore r core confirm s
  | .rstCmdEngine r engine confirm => Sys2Proof.Machine.execRstCmdEngine r engine confirm s
  | .rstCmdFabricPort r port confirm => Sys2Proof.Machine.execRstCmdFabricPort r port confirm s
  | .powerOn straps => Sys2Proof.Machine.execPowerOn straps s
  | .powerLoss => Sys2Proof.Machine.execPowerLoss s
  | .inputVoltageFault mv ticks => Sys2Proof.Machine.execInputVoltageFault mv ticks s
  | .modRstNAssert samples => Sys2Proof.Machine.execModRstNAssert samples s
  | .warmReset => Sys2Proof.Machine.execWarmReset s
  | .coldReset => Sys2Proof.Machine.execColdReset s
  | .resetRelease => Sys2Proof.Machine.execResetRelease s
  | .firmwareLoaded slot => Sys2Proof.Machine.execFirmwareLoaded slot s
  | .optionLoadingEnd => Sys2Proof.Machine.execOptionLoadingEnd s
  | .optionWatchdogExpiry => Sys2Proof.Machine.execOptionWatchdogExpiry s
  | .trialConfirm => Sys2Proof.Machine.execTrialConfirm s
  | .domainResetFail domain => Sys2Proof.Machine.execDomainResetFail domain s
  | .refclkLoss ticks => Sys2Proof.Machine.execRefclkLoss ticks s
  | .refclkReturn => Sys2Proof.Machine.execRefclkReturn s
  | .tilePllIdleStop tile => Sys2Proof.Machine.execTilePllIdleStop tile s
  | .controlCoreWatchdog core => Sys2Proof.Machine.execControlCoreWatchdog core s
  | .powerCapWindow mw mv ca temps => Sys2Proof.Machine.execPowerCapWindow mw mv ca temps s
  | .standbyRequest r => Sys2Proof.Machine.execStandbyRequest r s
  | .m2Entry => Sys2Proof.Machine.execM2Entry s
  | .m2Wake => Sys2Proof.Machine.execM2Wake s
  | .m1Entry => Sys2Proof.Machine.execM1Entry s
  | .brakeAssert ticks => Sys2Proof.Machine.execBrakeAssert ticks s
  | .thermAlertAssert ticks => Sys2Proof.Machine.execThermAlertAssert ticks s
  | .overcurrentDetect ca ticks => Sys2Proof.Machine.execOvercurrentDetect ca ticks s
  | .tileEmergencyTemp tile temp => Sys2Proof.Machine.execTileEmergencyTemp tile temp s
  | .emergencyCauseEnd cause ticks => Sys2Proof.Machine.execEmergencyCauseEnd cause ticks s
  | .emergencyWindowClose => Sys2Proof.Machine.execEmergencyWindowClose s
  | .thermalTrip tile temp => Sys2Proof.Machine.execThermalTrip tile temp s
  | .coolantWarn inlet outlet secondsHot => Sys2Proof.Machine.execCoolantWarn inlet outlet secondsHot s
  | .effectiveCapEnd mv ticks => Sys2Proof.Machine.execEffectiveCapEnd mv ticks s
  | .watchdogHang cls idx => Sys2Proof.Machine.execWatchdogHang cls idx s
  | .escalationTimeout level idx => Sys2Proof.Machine.execEscalationTimeout level idx s
  | .curbHandling => Sys2Proof.Machine.execCurbHandling s
  | .deviceRecovery trigger => Sys2Proof.Machine.execDeviceRecovery trigger s
  | .recoveryEnd => Sys2Proof.Machine.execRecoveryEnd s
  | .coreRemount core reason => Sys2Proof.Machine.execCoreRemount core reason s
  | .coreIdleRemount core => Sys2Proof.Machine.execCoreIdleRemount core s
  | .secExtend r reg => Sys2Proof.Machine.execSecExtend r reg s
  | .svnCommit r confirm => Sys2Proof.Machine.execSvnCommit r confirm s
  | .svnCommitComplete => Sys2Proof.Machine.execSvnCommitComplete s
  | .mgmtKeySet r => Sys2Proof.Machine.execMgmtKeySet r s
  | .mgmtKeyClear r => Sys2Proof.Machine.execMgmtKeyClear r s
  | .frameReplay frame => Sys2Proof.Machine.execFrameReplay frame s
  | .linkLevelReplay port failures => Sys2Proof.Machine.execLinkLevelReplay port failures s
  | .sectorEraseDone sectors => Sys2Proof.Machine.execSectorEraseDone sectors s
  | .attestSigned p => Sys2Proof.Machine.execAttestSigned p s
  | .rangeZeroFillEnd q => Sys2Proof.Machine.execRangeZeroFillEnd q s
  | .setdasa => Sys2Proof.Machine.execSetdasa s
  | .rstdaa => Sys2Proof.Machine.execRstdaa s
  | .getpid => Sys2Proof.Machine.execGetpid s
  | .getbcr => Sys2Proof.Machine.execGetbcr s
  | .getdcr => Sys2Proof.Machine.execGetdcr s
  | .getstatus => Sys2Proof.Machine.execGetstatus s

end Sys2Proof.Machine
end

