-- ==== Sys2Proof/Safety.lean ====
section
/-! DEFINITION. The terms that the claims are stated in: what a command answers, when a core issues, when a command of a queue runs, which
states keep their memories in canonical form, and what a command leaves alone. -/
namespace Sys2Proof.Machine

/-- The command answers a next state: the block given, its memories in canonical form, and the queue of waiting commands as it was. -/
def Gives (c : Instr) (s : State) (m : Block) : Prop := exec c s = .next { s with m := m.settle }

/-- The command answers a next state of which `post` holds; the queue of waiting commands is as it was. -/
def Completes (c : Instr) (s : State) (post : Block → Prop) : Prop := ∃ t : State, exec c s = .next t ∧ t.pending = s.pending ∧ post t.m

/-- Every memory in canonical form. -/
abbrev Block.Canonical (m : Block) : Prop := m.mem.wf ∧ m.bufs.wf ∧ m.mbuf.wf

/-- The block once core `i.core` has fetched the instruction that it issues, memory errors in the instruction's bytes found as in any read
(R114): the core runs and no order instruction holds it, the pc lies in the CODE section, and the instruction's bytes lie in the task's window
and carry no poison (R81, R85). None where the core does not issue. -/
def Block.fetch (m : Block) (i : Issue) : Option Block :=
  if m.issuing i.core && decide (m.pc i.core < (m.core i.core).codeSize) then
    match m.cmAddr? i.core ((m.core i.core).codeOff + m.pc i.core) i.len with
    | none => none
    | some a => if (m.correct a i.len).poisoned a i.len then none else some (m.correct a i.len)
  else none

/-- Whether core `i.core` issues the instruction. -/
def Block.canIssue (m : Block) (i : Issue) : Bool := (m.fetch i).isSome

/-- An instruction that the vector unit takes as it is issued, its queue being empty (R81): its place in the tile's issue order, and the block
with the pc past it and that place taken. -/
def Block.fetchVec (m : Block) (i : Issue) : Option (Nat × Block) :=
  if (m.core i.core).vecQ.isEmpty then (m.fetch i).map fun f => (f.advance i).nextStamp (i.core / 8) else none

/-- The same for the special-function unit: the block with the pc past it. -/
def Block.fetchSfu (m : Block) (i : Issue) : Option Block :=
  if (m.core i.core).sfuQ.isEmpty then (m.fetch i).map fun f => f.advance i else none

/-- Whether command `c` of queue `q` runs, has the opcode given and waits for nothing. -/
def Block.runs (m : Block) (q : QueueId) (opcode : Nat) (c : Cmd) : Bool := m.running q == some c && c.opcode == opcode && c.wait == .none

/-- The same for an enable that no earlier shutdown holds back (R308). -/
def Block.runsFreely (m : Block) (q : QueueId) (opcode : Nat) (c : Cmd) : Bool := m.runs q opcode c && !m.blocked c

/-- The parts of the block that no register, memory or core holds. -/
def Block.units (m : Block) : Block := { m with regs := [], mem := [], bufs := [], mbuf := [], cores := [], flt.progAt := [] }

/-- Every byte of local memory reads as before. -/
def SameMem (m m' : Block) : Prop := (∀ a, m'.byteAt a = m.byteAt a) ∧ m'.poison = m.poison ∧ m'.tags = m.tags

/-- Every byte of local memory outside [a, a + n) reads as before. -/
def SameMemBut (a n : Nat) (m m' : Block) : Prop := ∀ x, x < a ∨ a + n ≤ x → m'.byteAt x = m.byteAt x

/-- Every byte of the operand buffers and of the mailbox buffers reads as before. -/
def SameBufs (m m' : Block) : Prop := (∀ a, m'.bufs.read a = m.bufs.read a) ∧ ∀ a, m'.mbuf.read a = m.mbuf.read a

/-- Every register but those listed holds its value. -/
def SameRegsBut (rs : List Nat) (m m' : Block) : Prop := ∀ r, r ∉ rs → m'.reg r = m.reg r

/-- A core without its notes of memory errors (R114). -/
def CoreState.work (c : CoreState) : CoreState := { c with cmCorr := [], cmUncorr := [] }

/-- Every other core stands. -/
def SameCoresBut (n : Nat) (m m' : Block) : Prop := ∀ k, k ≠ n → m'.core k = m.core k

/-- Only the registers listed change. -/
def OnlyRegs (rs : List Nat) (m m' : Block) : Prop :=
  SameRegsBut rs m m' ∧ SameMem m m' ∧ SameBufs m m' ∧ (∀ k, m'.core k = m.core k) ∧ m'.units = m.units ∧ m'.flt = m.flt

/-- Only the registers listed, the state of core `n` and the progress note of R448 change. -/
def OnlyCore (n : Nat) (rs : List Nat) (m m' : Block) : Prop :=
  SameRegsBut rs m m' ∧ SameMem m m' ∧ SameBufs m m' ∧ SameCoresBut n m m' ∧ m'.units = m.units

/-- The two registers that every issued instruction writes: CORE_SEQ_PC and CORE_SEQ_PROGRESS. -/
def issueRegs (n : Nat) : List Nat := [Reg.coreSeqPc n, Reg.coreSeqProgress n]

/-- An instruction has run: the pc stands at `pc`, one more instruction is counted, the core is as `c` says, and of the registers only
those of the issue and those listed may have changed; nothing else of the block has. -/
def Ran (i : Issue) (pc : Nat) (c : CoreState) (rs : List Nat) (m m' : Block) : Prop :=
  m'.pc i.core = pc ∧ m'.reg (Reg.coreSeqProgress i.core) = m.reg (Reg.coreSeqProgress i.core) + 1 ∧ m'.core i.core = c ∧
    OnlyCore i.core (issueRegs i.core ++ rs) m m'

/-- The pc after an instruction that does not branch: past it, in 48 bits. -/
def Block.pcAfter (m : Block) (i : Issue) : Nat := (m.pc i.core + i.len) % 2 ^ 48

/-- The core that issues an instruction of the vector unit or the special-function unit. -/
def vectorIssue : Instr → Option Issue
  | .vectorElementwise i _ _ _ _ _ _ => some i
  | .vectorConvert i _ _ _ => some i
  | .vectorReduce i _ _ _ _ => some i
  | .topk i _ _ _ _ _ _ _ _ => some i
  | .compensatedSplit i _ _ _ _ => some i
  | .compensatedCombine i _ _ _ _ => some i
  | .gather i _ _ _ _ _ => some i
  | .scatter i _ _ _ _ _ => some i
  | .exp i _ _ _ _ => some i
  | .rsqrt i _ _ _ _ => some i
  | .recip i _ _ _ _ => some i
  | _ => none

/-- The core that issues an instruction; none for the commands that no core issues. -/
def issueOf (c : Instr) : Option Issue :=
  match c with
  | .scalarOp i _ _ _ _ => some i
  | .branch i _ _ _ _ => some i
  | .loop i _ _ => some i
  | .endloop i => some i
  | .call i _ => some i
  | .ret i => some i
  | .drain i _ => some i
  | .end_ i => some i
  | .matmul i _ => some i
  | .globalLoad i _ _ _ => some i
  | .coherentPointLoad i _ _ _ => some i
  | .globalStore i _ _ _ => some i
  | .signalledStore i _ _ _ _ _ => some i
  | .attentionPass i _ => some i
  | .copySubmit i _ _ => some i
  | .hsignal i _ _ => some i
  | .hwait i _ _ => some i
  | .hpoll i _ _ => some i
  | .hreset i _ _ => some i
  | .acquire i => some i
  | .release i => some i
  | .fence i => some i
  | _ => vectorIssue c

/-- Local address of the window of the task on core `n`. -/
def Block.windowAt (m : Block) (n : Nat) : Nat := coreWindow n + 4096 * m.fld (Reg.coreCmBase n) 22 12

/-- Its size. -/
def Block.windowSize (m : Block) (n : Nat) : Nat := 4096 * m.fld (Reg.coreCmBound n) 22 12

/-- Whether a ring of `mtype` takes its next entry, of `size` bytes: its owner is context `x`, it is neither halted nor curbed nor paused for a
PACED command, HEAD is not at TAIL, and the entry carries no poison (R191, R224, R262, R329, R447). -/
def Block.entryReady (m : Block) (mtype idx size : Nat) (x : Context) : Bool :=
  m.ringOf mtype idx == some x && decide (m.ringSt mtype idx < 2) && m.headOf mtype idx != m.tailOf mtype idx &&
    !m.ringPaused mtype idx x.tenant x.ctx &&
    !((m.correct (m.entryAddr mtype idx x size (m.headOf mtype idx)) size).setFld (ringHead mtype idx) 63 60 1).poisoned
      (m.entryAddr mtype idx x size (m.headOf mtype idx)) size

/-- The block once the ring has taken it: the entry's granules corrected, the ring's STATE active. -/
def Block.entryTaken (m : Block) (mtype idx size : Nat) (x : Context) : Block :=
  (m.correct (m.entryAddr mtype idx x size (m.headOf mtype idx)) size).setFld (ringHead mtype idx) 63 60 1

/-- The entry's words. -/
def Block.entryWords (m : Block) (mtype idx size : Nat) (x : Context) : List Word :=
  leWords (size / 8) ((m.entryTaken mtype idx size x).readMem (m.entryAddr mtype idx x size (m.headOf mtype idx)) size)

/-- The management request that stands at a port and that firmware, or the boot ROM, serves (R314 to R316, R393, R495): it is whole, has a
sound header and the opcode given, passes the policy, and over the network its authentication; with the block after that check. -/
def Block.heard (m : Block) (p : Port) (opcode : Nat) : Option (Block × MgmtReq) :=
  match m.message p with
  | none => none
  | some b =>
    let r := m.parse p b
    let a := match p with
      | .net _ d => if m.fwAnswers || m.pwr.trip then m.authentic d else (true, m)
      | _ => (true, m)
    if decide (12 ≤ b.length) && m.answers p r.1.opcode && a.1 && r.2 == 0 && (!(m.fwAnswers || m.pwr.trip) || m.policy r.1 == 0) && r.1.opcode == opcode then
      some (a.2, r.1)
    else none

/-- The magnitude of a finite value as a rational number. -/
def magnitude : Val → ℚ
  | .fin _ m e => (m : ℚ) * (2 : ℚ) ^ e
  | _ => 0

end Sys2Proof.Machine
end

