-- ==== Sys2Proof/Certificates/Slice0/Obligations.lean ====
section
/-! DEFINITION. The statements for the provers, in the terms of Sys2Proof/Safety.lean. Every command has a statement of what it answers
under hypotheses on the state and its operands alone; the numbered rules R<n> are those of spec/. -/
open Sys2Proof Sys2Proof.Machine

/-- SCALAR_OP writes one scalar register with its result and nothing else of the core; BRANCH sets the pc to its target when its condition
holds and else to the next instruction (R80, R85, Table 4.2). Both count one instruction; against the block after their fetch, no memory,
buffer, other register or other core changes. -/
def Obligations.ScalarAndBranch : Prop :=
  (∀ (i : Issue) (op : ScalarOp) (rd : Nat) (a b : Src) (s : State) (f : Block), s.m.fetch i = some f →
    Completes (.scalarOp i op rd a b) s (Ran i (f.pcAfter i)
      { f.core i.core with sregs := (f.core i.core).sregs.set rd (scalarResult op (f.src i.core a) (f.src i.core b)) } [] f)) ∧
  (∀ (i : Issue) (c : Cond) (a b : Src) (target : Nat) (s : State) (f : Block), s.m.fetch i = some f →
    Completes (.branch i c a b target) s (Ran i
      (if condHolds c (f.src i.core a) (f.src i.core b) then target % 2 ^ 48 else f.pcAfter i) (f.core i.core) [] f))

/-- LOOP runs its body as often as the low 32 bits of the register say and skips it for 0, ENDLOOP starts the body again while runs are
left, CALL and RET push and pop the return address (R85). A ninth LOOP level or a seventeenth CALL level stops the core with cause LIMIT
(Table 4.8); an ENDLOOP or RET that nothing opened stops it with ILLEGAL (the model's choice, log entry 17). -/
def Obligations.LoopsAndCalls : Prop :=
  (∀ (i : Issue) (count skipTo : Nat) (s : State) (f : Block), s.m.fetch i = some f →
    let c := f.core i.core
    let k := (f.sreg i.core count).toNat % 2 ^ 32
    (c.loops.length < 8 → k = 0 → Completes (.loop i count skipTo) s (Ran i (skipTo % 2 ^ 48) c [] f)) ∧
    (c.loops.length < 8 → 0 < k → Completes (.loop i count skipTo) s
      (Ran i (f.pcAfter i) { c with loops := ⟨f.pcAfter i, k⟩ :: c.loops } [] f)) ∧
    (8 ≤ c.loops.length → Gives (.loop i count skipTo) s ((f.advance i).faultStop i.core 6))) ∧
  (∀ (i : Issue) (s : State) (f : Block), s.m.fetch i = some f →
    let c := f.core i.core
    (∀ x xs, c.loops = x :: xs → 1 < x.left → Completes (.endloop i) s
      (Ran i (x.body % 2 ^ 48) { c with loops := ⟨x.body, x.left - 1⟩ :: xs } [] f)) ∧
    (∀ x xs, c.loops = x :: xs → x.left ≤ 1 → Completes (.endloop i) s (Ran i (f.pcAfter i) { c with loops := xs } [] f)) ∧
    (c.loops = [] → Gives (.endloop i) s ((f.advance i).faultStop i.core 5))) ∧
  (∀ (i : Issue) (target : Nat) (s : State) (f : Block), s.m.fetch i = some f →
    let c := f.core i.core
    (c.calls.length < 16 → Completes (.call i target) s
      (Ran i (target % 2 ^ 48) { c with calls := f.pcAfter i :: c.calls } [] f)) ∧
    (16 ≤ c.calls.length → Gives (.call i target) s ((f.advance i).faultStop i.core 6))) ∧
  (∀ (i : Issue) (s : State) (f : Block), s.m.fetch i = some f →
    let c := f.core i.core
    (∀ r rs, c.calls = r :: rs → Completes (.ret i) s (Ran i (r % 2 ^ 48) { c with calls := rs } [] f)) ∧
    (c.calls = [] → Gives (.ret i) s ((f.advance i).faultStop i.core 5)))

/-- DRAIN goes on when the groups of its mask have completed and else holds issue in STATE 3 until DRAIN_COMPLETE finds them completed
(R83, Table 4.10); a reserved mask bit stops the core with ILLEGAL (Table 4.11). END stops the core with cause END, and its task's command
completes with OK once every slot of the task has stopped (R85): with what cause the others stopped does not matter (the model's reading, log
entry 100), and while a slot still runs, or the task is pulled up, nothing completes. -/
def Obligations.DrainAndEnd : Prop :=
  (∀ (i : Issue) (mask : Nat) (s : State) (f : Block), s.m.fetch i = some f →
    let c := f.core i.core
    let m := f.advance i
    (mask < 32 → m.drained i.core mask = true → Completes (.drain i mask) s (Ran i (f.pcAfter i) c [] f)) ∧
    (mask < 32 → m.drained i.core mask = false → Completes (.drain i mask) s fun m' =>
      Ran i (f.pcAfter i) { c with hold := .drain, drainMask := mask } [Reg.coreSeqStatus i.core] f m' ∧ m'.coreSt i.core = 3) ∧
    (32 ≤ mask → Gives (.drain i mask) s (m.faultStop i.core 5))) ∧
  (∀ (n : Nat) (s : State), s.m.coreSt n = 3 → s.m.drained n (s.m.core n).drainMask = true →
    Completes (.drainComplete n) s fun m =>
      m.coreSt n = 1 ∧ m.core n = { s.m.core n with hold := .none } ∧ OnlyCore n [Reg.coreSeqStatus n] s.m m) ∧
  (∀ (i : Issue) (s : State) (f : Block), s.m.fetch i = some f →
    let stopped := (f.advance i).stopCore i.core 1
    (f.coreSt i.core = 1 → stopped.coreSt i.core = 4 ∧ stopped.fld (Reg.coreSeqStatus i.core) 63 56 = 1) ∧
    ((f.core i.core).task = none → Gives (.end_ i) s stopped) ∧
    (∀ q, (f.core i.core).task = some q →
      ((stopped.cores.all fun e => e.2.saved.all fun x => x.task != some q) = true → (∀ k ∈ stopped.taskCores q, stopped.coreSt k = 4) →
        Gives (.end_ i) s (stopped.complete q 0 0)) ∧
      ((stopped.cores.any fun e => e.2.saved.any fun x => x.task == some q) = true ∨ (∃ k ∈ stopped.taskCores q, stopped.coreSt k ≠ 4) →
        Gives (.end_ i) s stopped)))

/-- What the bank does with a hitch that no host copy and no poison holds back, its granule's errors found as in any read (R92, R114): a set
leaves the value modulo 2^64 and an add the sum modulo 2^64, no other byte of memory and no register changes, and a core that waits on the
hitch, inside its window, sees every value that is left: its wait is met when the value has reached its target as an unsigned number. In a
poisoned granule the operation is discarded. -/
def Obligations.HitchBankRules : Prop :=
  ∀ (m : Block) (a v : Nat) (add : Bool), m.hostCopies (a / 128) = [] →
    let e := m.correct a 8
    let r := if add then m.hitchAdd a v else m.hitchSet a v
    let left := (if add then e.hitchVal a + v else v) % 2 ^ 64
    (e.poison.contains (a / 128) = true → r = e.countDrop a) ∧
    (e.poison.contains (a / 128) = false →
      (e.mem.wf → a % 8 = 0 → e.staleAt (a / 128) = none → r.hitchVal a = left ∧ r.mem.wf ∧ SameMemBut a 8 e r) ∧
      SameRegsBut [] e r ∧
      (∀ n, (e.core n).hold = .hwait → (e.core n).waitAddr = a → (e.reg (Reg.coreHitchTarget n)).toNat ≤ left →
        e.time < (e.core n).waitStart + e.fld (Reg.coreHitchTmo n) 39 0 → (r.core n).met = true) ∧
      (∀ n, (e.core n).met = false → left < (e.reg (Reg.coreHitchTarget n)).toNat → (r.core n).met = false))

/-- HSIGNAL adds at once when no earlier store or matrix output of its core is under way and else queues its signal behind them (R91, R93);
HRESET sets the counter; HPOLL reads it into a scalar register (R91). The four hitch instructions stop with cause 4 when CORE_HITCH_CFG
assigns no such hitch (R90), and HSIGNAL at once, HWAIT and HPOLL, which consume the counter, end with a curb of KIND 8 when its granule is
poisoned (R91, R447). -/
def Obligations.HitchInstructions : Prop :=
  (∀ (i : Issue) (h a : Nat) (v : Src) (s : State) (f : Block), s.m.fetch i = some f → (f.advance i).coreHitch i.core h = some a →
    let m := f.advance i
    let e := m.correct a 8
    (m.storesOpen i.core = false → e.poisoned a 8 = false → Gives (.hsignal i h v) s (e.hitchAdd a (f.src i.core v).toNat)) ∧
    (m.storesOpen i.core = true → Gives (.hsignal i h v) s
      ((m.nextStamp (i.core / 8)).2.modCore i.core fun c =>
        { c with signals := c.signals ++ [⟨h, f.src i.core v, (m.tile (i.core / 8)).stamp + 1, c.matQ.length⟩] }))) ∧
  (∀ (i : Issue) (h a : Nat) (v : Src) (s : State) (f : Block), s.m.fetch i = some f → (f.advance i).coreHitch i.core h = some a →
    Gives (.hreset i h v) s ((f.advance i).hitchSet a (f.src i.core v).toNat)) ∧
  (∀ (i : Issue) (h a rd : Nat) (s : State) (f : Block), s.m.fetch i = some f → (f.advance i).coreHitch i.core h = some a →
    let e := (f.advance i).correct a 8
    e.poisoned a 8 = false → Gives (.hpoll i h rd) s (e.setSreg i.core rd (BitVec.ofNat 64 (e.hitchVal a)))) ∧
  (∀ (i : Issue) (h rd : Nat) (v : Src) (s : State) (f : Block) (c : Instr), s.m.fetch i = some f →
    c = .hsignal i h v ∨ c = .hwait i h v ∨ c = .hpoll i h rd ∨ c = .hreset i h v →
    (f.advance i).coreHitch i.core h = none → Gives c s ((f.advance i).faultStop i.core 4)) ∧
  (∀ (i : Issue) (h rd a : Nat) (v : Src) (s : State) (f : Block), s.m.fetch i = some f → (f.advance i).coreHitch i.core h = some a →
    let e := (f.advance i).correct a 8
    e.poisoned a 8 = true →
      ((f.advance i).storesOpen i.core = false → Gives (.hsignal i h v) s (e.curbCore i.core 8 a 8)) ∧
      Gives (.hpoll i h rd) s (e.curbCore i.core 8 a 8) ∧
      Gives (.hwait i h v) s (((e.setReg (Reg.coreHitchWait i.core) (BitVec.ofNat 64 h)).setReg (Reg.coreHitchTarget i.core)
        (f.src i.core v)).curbCore i.core 8 a 8))

/-- HWAIT goes on when the counter has reached the target and else holds the core in STATE 2 with the window's start noted (R91, R94);
HWAIT_SATISFIED ends a wait that was met (R92); HITCH_TIMEOUT stops a core whose window has ended unmet with cause 3 (R94, Table 4.10). -/
def Obligations.HitchWaits : Prop :=
  (∀ (i : Issue) (h a : Nat) (v : Src) (s : State) (f : Block), s.m.fetch i = some f → (f.advance i).coreHitch i.core h = some a →
    let e := (f.advance i).correct a 8
    let t := f.src i.core v
    e.poisoned a 8 = false →
    (t.toNat ≤ e.hitchVal a → Completes (.hwait i h v) s fun m' =>
      OnlyCore i.core [Reg.coreHitchWait i.core, Reg.coreHitchTarget i.core] e m' ∧ m'.core i.core = e.core i.core ∧
        m'.reg (Reg.coreHitchWait i.core) = BitVec.ofNat 64 h ∧ m'.reg (Reg.coreHitchTarget i.core) = t) ∧
    (e.hitchVal a < t.toNat → Completes (.hwait i h v) s fun m' =>
      OnlyCore i.core [Reg.coreHitchWait i.core, Reg.coreHitchTarget i.core, Reg.coreSeqStatus i.core] e m' ∧
        m'.core i.core = { e.core i.core with hold := .hwait, waitStart := (f.advance i).time, waitAddr := a, met := false } ∧
        m'.coreSt i.core = 2 ∧ m'.fld (Reg.coreHitchWait i.core) 63 63 = 1 ∧ m'.reg (Reg.coreHitchTarget i.core) = t)) ∧
  (∀ (n : Nat) (s : State), (s.m.core n).hold = .hwait → (s.m.core n).met = true → Completes (.hwaitSatisfied n) s fun m' =>
    m'.coreSt n = 1 ∧ m'.fld (Reg.coreHitchWait n) 63 63 = 0 ∧ m'.core n = { s.m.core n with hold := .none, met := false } ∧
      OnlyCore n [Reg.coreHitchWait n, Reg.coreSeqStatus n] s.m m') ∧
  (∀ (n : Nat) (s : State), (s.m.core n).hold = .hwait → (s.m.core n).met = false →
    (s.m.core n).waitStart + s.m.fld (Reg.coreHitchTmo n) 39 0 ≤ s.m.time → (∀ q, (s.m.core n).task = some q → s.m.peerHeld q = false) →
    Gives (.hitchTimeout n) s (s.m.faultStop n 3))

/-- ACQUIRE, RELEASE and FENCE begin their hold with the tile's next place in issue order, the first and the last counted in
TILE_LC_ACQ; ORDER_HOLD_END ends the hold once its condition of Table 6.2 is met, and after an ACQUIRE or FENCE no later load of the tile
hits a line filled before it (R147, R148). -/
def Obligations.OrderInstructions : Prop :=
  (∀ (i : Issue) (s : State) (f : Block), s.m.fetch i = some f →
    let t := i.core / 8
    let st := (f.tile t).stamp + 1
    let held (h : Hold) (k : Nat) (m : Block) : Prop :=
      m.pc i.core = f.pcAfter i ∧ m.core i.core = { f.core i.core with hold := h, ordStamp := st } ∧ m.tile t = { f.tile t with stamp := st } ∧
        m.reg (Reg.tileLcAcq t) = f.reg (Reg.tileLcAcq t) + BitVec.ofNat 64 k ∧
        SameRegsBut (issueRegs i.core ++ [Reg.tileLcAcq t]) f m ∧ SameMem f m ∧ SameBufs f m ∧ SameCoresBut i.core f m
    Completes (.acquire i) s (held .acquire 1) ∧ Completes (.release i) s (held .release 0) ∧ Completes (.fence i) s (held .fence 1)) ∧
  (∀ (n : Nat) (s : State), s.m.orderMet n (s.m.core n).hold = true → Completes (.orderHoldEnd n) s fun m =>
    m.core n = { s.m.core n with hold := .none } ∧
      (m.tile (n / 8)).floor = (if (s.m.core n).hold = .release then (s.m.tile (n / 8)).floor
        else max (s.m.tile (n / 8)).floor (s.m.core n).ordStamp) ∧
      (m.tile (n / 8)).lines = (s.m.tile (n / 8)).lines ∧ SameRegsBut [] s.m m ∧ SameMem s.m m ∧ SameBufs s.m m ∧ SameCoresBut n s.m m ∧
      ((s.m.core n).hold ≠ .release → ∀ x node g tenant fl, x.stamp < (s.m.core n).ordStamp → (m.tile (n / 8)).floor ≤ fl →
        Line.serves x node g tenant fl = false))

/-- A core that is idle, waits, drains, has stopped or is curbed, or that an ACQUIRE, RELEASE or FENCE holds, issues nothing (R82, R147,
Table 4.10): every instruction then leaves the block as it is, but for an attention pass under way, which goes on.
A fetch at or beyond the end of the CODE section stops the core with cause ILLEGAL, one outside the task's window curbs it with KIND 1,
and one of poisoned code with KIND 8 (R81, R117, R447), whatever the instruction, when no full queue holds it back. -/
def Obligations.IssueHeldOrStopped : Prop :=
  (
    ∀ (c : Instr) (i : Issue) (s : State), issueOf c = some i → s.m.issuing i.core = false →
      (∀ d, c = .attentionPass i d → s.m.passing i.core = false) → Gives c s s.m) ∧
  (
    ∀ (c : Instr) (i : Issue) (s : State), issueOf c = some i → s.m.issuing i.core = true →
      (s.m.core i.core).vecQ = [] → (s.m.core i.core).sfuQ = [] → (s.m.core i.core).matQ.length < 5 → (s.m.core i.core).copyQ.length < 8 →
      let at_ := (s.m.core i.core).codeOff + s.m.pc i.core
      ((s.m.core i.core).codeSize ≤ s.m.pc i.core → Gives c s (s.m.faultStop i.core 5)) ∧
      (s.m.pc i.core < (s.m.core i.core).codeSize → s.m.cmAddr? i.core at_ i.len = none → Gives c s (s.m.curbWindow i.core 0 at_ i.len)) ∧
      (∀ a, s.m.pc i.core < (s.m.core i.core).codeSize → s.m.cmAddr? i.core at_ i.len = some a →
        (s.m.correct a i.len).poisoned a i.len = true → Gives c s ((s.m.correct a i.len).curbCore i.core 8 at_ i.len)))

/-- The vector unit's row instructions, taken as they are issued (R79, R30, R32, R45, R47, R214; Tables 2.4 and 2.5): each element of the
destination is the operation's exact result rounded once to the destination's format, the bytes go to the destination, the events go to
CORE_NUMSTAT, and then the core's units go on. A conversion of INT4 under Microscaling is malformed (R28). -/
def Obligations.VectorRows : Prop :=
  (∀ (i : Issue) (op : VecOp) (dst a b c : Row) (n : Nat) (s : State) (st : Nat) (f : Block) (va vb vc : List Val × Events),
    s.m.fetchVec i = some (st, f) →
    let m := ((f.senseRow i.core a n).senseRow i.core b n).senseRow i.core c n
    let es := (va.1.zip (vb.1.zip vc.1)).map fun x => vecElem dst.fmt op x.1 x.2.1 x.2.2
    let bytes := pack dst.fmt.width (es.map (·.1))
    ([dst, a, b, c].all fun r => Row.plain r) = true → m.readRow i.core a n = .ok va → m.readRow i.core b n = .ok vb →
    m.readRow i.core c n = .ok vc → m.canWrite i.core dst.loc bytes.length = .ok () →
    Gives (.vectorElementwise i op dst a b c n) s
      (((m.writeLoc i.core dst.loc bytes).noteEvents i.core (joinEvents (es.map (·.2)))).settleCore i.core)) ∧
  (∀ (i : Issue) (dst src : Row) (n : Nat) (s : State) (st : Nat) (f : Block) (v : List Val × Events) (w : Block × Events),
    s.m.fetchVec i = some (st, f) →
    let m := f.senseRow i.core src n
    (Row.malformed dst = true ∨ Row.malformed src = true → Gives (.vectorConvert i dst src n) s ((f.descriptorStop i.core).settleCore i.core)) ∧
    (Row.malformed dst = false → Row.malformed src = false → Row.tooWide dst = false → Row.tooWide src = false →
      m.readRow i.core src n = .ok v → m.writeRow i.core dst v.1 = .ok w →
      Gives (.vectorConvert i dst src n) s
        ((w.1.noteEvents i.core ((v.2.join w.2).join { nanIn := v.1.any Val.isNan })).settleCore i.core))) ∧
  (∀ (i : Issue) (op : RedOp) (dst src : Row) (n : Nat) (s : State) (st : Nat) (f : Block) (v : List Val × Events) (w : Block × Events),
    s.m.fetchVec i = some (st, f) →
    let m := f.senseRow i.core src n
    Row.plain dst = true → Row.plain src = true → (∀ dim, op ≠ .merge dim) → m.readRow i.core src n = .ok v →
    m.writeRow i.core dst [reduceVals op dst.fmt v.1] = .ok w →
    Gives (.vectorReduce i op dst src n) s
      ((w.1.noteEvents i.core (w.2.join (arithEvents v.1 (reduceVals op dst.fmt v.1)))).settleCore i.core)) ∧
  (∀ (i : Issue) (dim : Nat) (dst src : Row) (n : Nat) (s : State) (st : Nat) (f : Block) (w : Block × Events),
    s.m.fetchVec i = some (st, f) → dst.scheme = .none → src.scheme = .none → dst.fmt = .fp32 → src.fmt = .fp32 →
    f.mergeRow i.core dim dst src n = .ok w →
    Gives (.vectorReduce i (.merge dim) dst src n) s ((w.1.noteEvents i.core w.2).settleCore i.core)) ∧
  (∀ (i : Issue) (src hi lo : Loc) (n : Nat) (s : State) (st : Nat) (f : Block) (vs : List F32), s.m.fetchVec i = some (st, f) →
    let m := f.sense i.core src (4 * n)
    let ps := vs.map splitPair
    m.readF32 i.core src n = .ok vs → m.canWrite i.core hi (2 * n) = .ok () → m.canWrite i.core lo (2 * n) = .ok () →
    Gives (.compensatedSplit i src hi lo n) s
      ((((m.writeLoc i.core hi (pack 16 (ps.map (·.1)))).writeLoc i.core lo (pack 16 (ps.map (·.2.1)))).noteEvents i.core
        (joinEvents (ps.map (·.2.2)))).settleCore i.core)) ∧
  (∀ (i : Issue) (main comp dst : Loc) (n : Nat) (s : State) (st : Nat) (f : Block) (a b : List F32), s.m.fetchVec i = some (st, f) →
    let m := (f.sense i.core main (4 * n)).sense i.core comp (4 * n)
    m.readF32 i.core main n = .ok a → m.readF32 i.core comp n = .ok b → m.canWrite i.core dst (4 * n) = .ok () →
    Gives (.compensatedCombine i main comp dst n) s
      (((m.writeLoc i.core dst (f32Bytes ((a.zip b).map fun x => combinePair x.1 x.2))).noteEvents i.core
        (joinEvents ((a.zip b).map fun x => arithEvents [F32.val x.1, F32.val x.2] (F32.val (combinePair x.1 x.2))))).settleCore i.core))

/-- EXP, RSQRT and RECIP, taken as they are issued, apply their function to each element of the vector buffer and store FP32 (R78, Table 4.2);
then the core's units go on. -/
def Obligations.SpecialFunctions : Prop :=
  ∀ (i : Issue) (dst src : Nat) (bf16 : Bool) (n : Nat) (s : State) (m : Block) (bs : List Byte), s.m.fetchSfu i = some m →
    let fm : Fmt := if bf16 then .bf16 else .fp32
    let vs := (unpack fm.width n bs).map fm.decode
    let stored (f : Val → F32) : Block := ((m.writeLoc i.core ⟨.vector, dst⟩ (f32Bytes (vs.map f))).noteEvents i.core
      (joinEvents (vs.map fun v => arithEvents [v] (F32.val (f v))))).settleCore i.core
    m.readLoc i.core ⟨.vector, src⟩ (elemBytes fm.width n) = .ok bs →
    Gives (.exp i dst src bf16 n) s (stored f32Exp) ∧ Gives (.rsqrt i dst src bf16 n) s (stored f32Rsqrt) ∧
      Gives (.recip i dst src bf16 n) s (stored f32Recip)

/-- TOPK writes, for each row, the K best scores' indices in rank order and their scores (R221, R222); with operands outside their ranges it
stops the core with cause LIMIT. GATHER and SCATTER move element by element, in ascending order of the index list (R79). Each is taken as it
is issued, and then the core's units go on. -/
def Obligations.TopkGatherScatter : Prop :=
  (∀ (i : Issue) (scores : Loc) (bf16 : Bool) (spitch rows experts k : Nat) (route wgt : Loc) (s : State) (st : Nat) (m : Block),
    s.m.fetchVec i = some (st, m) →
    let inRange := 1 ≤ experts ∧ experts ≤ 4096 ∧ 1 ≤ k ∧ k ≤ 16 ∧ k ≤ experts ∧ scores.off % 128 = 0 ∧ spitch % 128 = 0 ∧
      experts * (if bf16 then 2 else 4) ≤ spitch
    (inRange → Gives (.topk i scores bf16 spitch rows experts k route wgt) s
      ((Block.finishRows i.core (overRows rows (fun m t => m.topkRow i.core scores bf16 spitch experts k route wgt t) m)).settleCore i.core)) ∧
    (¬ inRange → Gives (.topk i scores bf16 spitch rows experts k route wgt) s ((m.faultStop i.core 6).settleCore i.core))) ∧
  (∀ (i : Issue) (dst src idx : Loc) (esize n : Nat) (s : State) (st : Nat) (f : Block) (ks : List Nat), s.m.fetchVec i = some (st, f) →
    let m := f.sense i.core idx (4 * n)
    m.readIdx i.core idx n = .ok ks →
    Gives (.gather i dst src idx esize n) s
      ((Block.finishRows i.core (overRows n (Block.gatherElem i.core dst src esize ks) m)).settleCore i.core) ∧
    Gives (.scatter i dst src idx esize n) s
      ((Block.finishRows i.core (overRows n (Block.scatterElem i.core dst src esize ks) m)).settleCore i.core))

/-- The queues of the vector unit and of the special-function unit (R81, R82, Table 4.2): behind instructions that wait, a further one enters
its queue in order with the tile's next place in issue order, a full queue of 16 stalls issue, and a core whose queues are empty and that has no
signal to send stays as it is when its units go on. -/
def Obligations.UnitQueues : Prop :=
  (∀ (c : Instr) (i : Issue) (s : State) (f : Block), s.m.fetch i = some f →
    (s.m.core i.core).vecQ ≠ [] → (s.m.core i.core).vecQ.length < 16 →
    let m := (f.advance i).nextStamp (i.core / 8)
    issueVec i c s.m = (m.2.modCore i.core fun x => { x with vecQ := x.vecQ ++ [(m.1, c)] }).settleCore i.core) ∧
  (∀ (c : Instr) (i : Issue) (s : State) (f : Block), s.m.fetch i = some f → (s.m.core i.core).sfuQ ≠ [] → (s.m.core i.core).sfuQ.length < 16 →
    issueSfu i c s.m = ((f.advance i).modCore i.core fun x => { x with sfuQ := x.sfuQ ++ [c] }).settleCore i.core) ∧
  (∀ (c : Instr) (i : Issue) (m : Block), (16 ≤ (m.core i.core).vecQ.length → issueVec i c m = m) ∧
    (16 ≤ (m.core i.core).sfuQ.length → issueSfu i c m = m)) ∧
  (∀ (m : Block) (n : Nat), (m.core n).vecQ = [] → (m.core n).sfuQ = [] → (m.core n).signals = [] → m.settleCore n = m)

/-- The ranking of TOPK (R221): the indices chosen are distinct and of the row, K of them when the row has K scores, and one chosen before
another ranks before it, or ties with it at a smaller index. A higher score ranks before a lower one, a NaN below every number, the two
zeros are equal, and a BF16 score stands for its FP32 value. -/
def Obligations.TopkRanking : Prop :=
  (∀ (vs : List Val) (k : Nat), k ≤ vs.length →
    let sel := topkRank k vs.zipIdx
    sel.length = k ∧ sel.Nodup ∧ (∀ x ∈ sel, x < vs.length) ∧
    (∀ x ∈ sel, ∀ y, y < vs.length → y ∉ sel → ranksBefore (vs.getD y .zero) (vs.getD x .zero) = false ∧
      (ranksBefore (vs.getD x .zero) (vs.getD y .zero) = false → x < y)) ∧
    (∀ p q, p < q → q < k → ranksBefore (vs.getD (sel.getD q 0) .zero) (vs.getD (sel.getD p 0) .zero) = false ∧
      (ranksBefore (vs.getD (sel.getD p 0) .zero) (vs.getD (sel.getD q 0) .zero) = false → sel.getD p 0 < sel.getD q 0))) ∧
  (∀ a b : Val, ranksBefore .nan b = false ∧ (a.isNan = false → ranksBefore a .nan = true) ∧
    (a.isNan = false → b.isNan = false → ranksBefore a b = b.lt a)) ∧
  (∀ (n n' : Bool) (e e' : Int), ranksBefore (.fin n 0 e) (.fin n' 0 e') = false) ∧
  (∀ c : Nat, c < 2 ^ 16 → (Fmt.bf16.decode c).isNan = (Fmt.fp32.decode (65536 * c)).isNan ∧
    ((Fmt.bf16.decode c).isNan = false → (Fmt.bf16.decode c).eq (Fmt.fp32.decode (65536 * c)) = true))

/-- Whatever a vector or special-function instruction does that its unit takes as it is issued, as long as its core still runs after it and no
signal waits: against the block after the fetch, no byte of memory outside the task's window changes (R117), no operand buffer of another core,
nothing of any core's state but its notes of memory errors, no register but the core's pc, progress counter and CORE_NUMSTAT; and CORE_NUMSTAT
loses no bit (R13, R49). -/
def Obligations.VectorWorkStaysInside : Prop :=
  ∀ (c : Instr) (i : Issue) (s t : State), vectorIssue c = some i → i.core < 128 → exec c s = .next t → t.m.coreSt i.core = 1 →
    (s.m.core i.core).vecQ = [] → (s.m.core i.core).sfuQ = [] → (s.m.core i.core).signals = [] →
    (∀ x, s.m.windowAt i.core ≤ x → x < s.m.windowAt i.core + s.m.windowSize i.core → ∃ o, s.m.region x = .core i.core o) →
    let f := (s.m.fetch i).getD s.m
    SameMemBut (s.m.windowAt i.core) (s.m.windowSize i.core) f t.m ∧
    (∀ a, a < i.core * 0x400000 ∨ (i.core + 1) * 0x400000 ≤ a → t.m.bufs.read a = f.bufs.read a) ∧
    (∀ k, (t.m.core k).work = (f.core k).work) ∧ SameRegsBut (issueRegs i.core ++ [Reg.coreNumstat i.core]) f t.m ∧
    (∀ b, bit (f.reg (Reg.coreNumstat i.core)) b = true → bit (t.m.reg (Reg.coreNumstat i.core)) b = true)

/-- An access is cut at granule boundaries (R135): the pieces follow each other without a gap from its first byte to its last, and each lies
in one granule of 128 bytes.
What a write of one granule does at its home (R114, R136, R137, R466): a write to a failed stack is discarded; a whole granule takes the bytes
and is poisoned exactly when the data was; a part is merged into the granule as a read finds it, its errors found, changes only the bytes its
mask covers, and is discarded where the granule is poisoned; and no byte outside the write changes. -/
def Obligations.GranulesAndWrites : Prop :=
  (
    ∀ a n : Nat, total ((pieces a n).map (·.2)) = n ∧
      ∀ j, j < (pieces a n).length →
        let p := (pieces a n).getD j (0, 0)
        p.1 = total (((pieces a n).take j).map (·.2)) ∧ 0 < p.2 ∧ (a + p.1) / 128 = (a + p.1 + p.2 - 1) / 128) ∧
  (
    ∀ (m : Block) (a : Nat) (bs : List Byte) (mask : List Bool) (bad : Bool), m.mem.wf → a % 128 + bs.length ≤ 128 →
      mask = [] ∨ mask.length = bs.length →
      let r := m.applyGranule a bs mask bad
      let g := a / 128
      let whole := a % 128 = 0 ∧ bs.length = 128 ∧ ∀ b ∈ mask, b = true
      let e := m.correct (128 * g) 128
      r.mem.wf ∧
      (m.stackFailed a = true → SameMem m r) ∧
      (m.stackFailed a = false → whole →
        r.readMem a 128 = bs ∧ SameMemBut a 128 m r ∧ r.tags = m.tags ∧ (g ∈ r.poison ↔ bad = true) ∧ ∀ h, h ≠ g → (h ∈ r.poison ↔ h ∈ m.poison)) ∧
      (m.stackFailed a = false → ¬ whole → g ∈ e.poison → SameMem e r) ∧
      (m.stackFailed a = false → ¬ whole → g ∉ e.poison →
        (∀ k < bs.length, r.byteAt (a + k) = (if mask.getD k true then bs.getD k 0 else e.byteAt (a + k))) ∧
          SameMemBut a bs.length e r ∧ r.tags = e.tags ∧ (g ∈ r.poison ↔ bad = true) ∧ ∀ h, h ≠ g → (h ∈ r.poison ↔ h ∈ e.poison)))

/-- GLOBAL_LOAD and COHERENT_POINT_LOAD, taken as they are issued, enter one load for each granule they touch, all with the instruction's place
in the tile's issue order (R79, R135, R139); with 64 loads outstanding the instruction waits in the vector queue (Table 4.8). A load of this
module's memory writes nothing yet, and only GLOBAL_LOAD may use the line cache, outside hitch memory and the core's own window (R139, R149).
GLOBAL_LOAD_RETURN brings one granule to its destination: from the line that serves it, counted as a hit, or from its home, counted as a miss,
where no earlier store or coherent-point load of the core to that granule is under way and no host holds it (R140, R146, R372). -/
def Obligations.Loads : Prop :=
  (∀ (i : Issue) (src dst : Loc) (bytes st : Nat) (s : State) (m : Block), s.m.fetchVec i = some (st, m) →
    (∀ tg, (m.core i.core).loadCount < 64 → m.canWrite i.core dst bytes = .ok () → m.target i.core src bytes false = .ok tg →
      Gives (.globalLoad i src bytes dst) s ((m.enterLoad i.core st tg bytes dst false (src.space == .pool)).settleCore i.core) ∧
      Gives (.coherentPointLoad i src bytes dst) s ((m.enterLoad i.core st tg bytes dst true (src.space == .pool)).settleCore i.core)) ∧
    (64 ≤ (m.core i.core).loadCount →
      Gives (.globalLoad i src bytes dst) s
        ((m.modCore i.core fun c => { c with vecQ := c.vecQ ++ [(st, .globalLoad i src bytes dst)] }).settleCore i.core))) ∧
  (∀ (m : Block) (n st a bytes : Nat) (dst : Loc) (coh pool : Bool),
    let r := m.enterLoad n st (.here a) bytes dst coh pool
    r.core n = { m.core n with
      loads := (m.core n).loads ++ (pieces a bytes).map fun oc =>
        { node := none, addr := a + oc.1, bytes := oc.2, dst := ⟨dst.space, dst.off + oc.1⟩, stamp := st
          floor := (m.tile (n / 8)).floor, line := !coh && !m.tagged (a + oc.1) oc.2 && !m.ownWindow n a, tag := none, pool := pool } } ∧
      SameRegsBut [] m r ∧ SameMem m r ∧ SameBufs m r ∧ SameCoresBut n m r) ∧
  (∀ (n k : Nat) (x : Load) (l : Line) (s : State), (s.m.core n).loads[k]? = some x → x.line = true →
    s.m.lineFor (n / 8) x.node (x.addr / 128) (s.m.coreTenant n) x.floor = some l → l.bad = false →
    let bs := slice l.bytes (x.addr % 128) x.bytes
    let m := (s.m.addFld (Reg.tileLcHits (n / 8)) 63 0 1).modCore n fun c => { c with loads := removeAt c.loads k }
    m.canWrite n x.dst bs.length = .ok () → Gives (.globalLoadReturn n k) s (((m.writeLoc n x.dst bs).settleCore n).restCore n)) ∧
  (∀ (n k : Nat) (x : Load) (s : State), (s.m.core n).loads[k]? = some x → x.node = none →
    (x.line = true → s.m.lineFor (n / 8) none (x.addr / 128) (s.m.coreTenant n) x.floor = none) →
    (x.addr < regBase ∨ regBase + 0x10000000 ≤ x.addr) → (s.m.core n).readWaits x = false →
    s.m.heldExclusive (128 * (x.addr / 128)) 128 = false →
    let t := n / 8
    let g := x.addr / 128
    let e := s.m.correct (128 * g) 128
    let whole := e.readMem (128 * g) 128
    let bs := slice whole (x.addr % 128) x.bytes
    let kept := if x.line && x.keep && !e.tileStores t (e.coreTenant n) none g then e.installLine t ⟨none, g, e.coreTenant n, whole, x.stamp, false⟩ else e
    let m := (kept.addFld (Reg.tileLcMisses t) 63 0 1).modCore n fun c => { c with loads := removeAt c.loads k }
    e.poisoned (128 * g) 128 = false → m.canWrite n x.dst bs.length = .ok () →
    Gives (.globalLoadReturn n k) s (((m.writeLoc n x.dst bs).settleCore n).restCore n))

/-- GLOBAL_STORE and SIGNALLED_STORE, taken as they are issued, read their source, check the access and enter one store for each granule, a
signalled one with its signal behind the data; hitch memory refuses them with KIND 5 (R79, R95, R141, R354), and a signal to a hitch the core
does not have stops it (R90). STORE_REACHES_HOME performs one: at a home in this module the bytes are written when no earlier store of the core
to the granule and no host copy stands before it, at another the store is done once its burst is acknowledged; the core's signals that waited
for it follow (R93, R135, R148, R152). -/
def Obligations.Stores : Prop :=
  (∀ (i : Issue) (dst src : Loc) (bytes a st : Nat) (bs : List Byte) (s : State) (f : Block), s.m.fetchVec i = some (st, f) →
    let m := f.sense i.core src bytes
    f.storeRoom i.core dst bytes = true → m.readLoc i.core src bytes = .ok bs →
    (∀ off, m.target i.core dst bytes true = .ok (.reg off) → Gives (.globalStore i dst bytes src) s
      ((m.modCore i.core fun c => { c with stores := c.stores ++ [{ addr := regBase + off, bytes := bs, stamp := st, remote := none }] }).settleCore i.core)) ∧
    (m.target i.core dst bytes true = .ok (.here a) →
      (m.tagged a bytes = false → Gives (.globalStore i dst bytes src) s
        ((m.enterStores i.core st none a bs none (dst.space == .pool)).settleCore i.core)) ∧
      (m.tagged a bytes = true → Gives (.globalStore i dst bytes src) s ((m.curbCore i.core 5 dst.off bytes).settleCore i.core))) ∧
    (∀ node, m.target i.core dst bytes true = .ok (.away node a) → Gives (.globalStore i dst bytes src) s
      ((m.enterStores i.core st (some node) a bs none false).settleCore i.core))) ∧
  (∀ (i : Issue) (dst : Nat) (src : Loc) (bytes a hitch inc st : Nat) (bs : List Byte) (s : State) (f : Block), s.m.fetchVec i = some (st, f) →
    let m := f.sense i.core src bytes
    f.storeRoom i.core ⟨.glob, dst⟩ bytes = true → m.readLoc i.core src bytes = .ok bs →
    (∀ node, f.remoteNode dst = some node → m.target i.core ⟨.glob, dst⟩ bytes true = .ok (.away node a) →
      Gives (.signalledStore i dst bytes src hitch inc) s ((m.enterStores i.core st (some node) a bs (some (hitch, inc)) false).settleCore i.core)) ∧
    (f.remoteNode dst = none → f.coreHitch i.core hitch = none →
      Gives (.signalledStore i dst bytes src hitch inc) s ((f.faultStop i.core 4).settleCore i.core)) ∧
    (f.remoteNode dst = none → f.coreHitch i.core hitch ≠ none → m.target i.core ⟨.glob, dst⟩ bytes true = .ok (.here a) →
      m.tagged a bytes = false → 0 < bs.length → Gives (.signalledStore i dst bytes src hitch inc) s
        (((m.enterStores i.core st none a bs none false).modCore i.core fun c =>
          { c with signals := c.signals ++ [⟨hitch, BitVec.ofNat 64 inc, st + 1, 0⟩] }).settleCore i.core))) ∧
  (∀ (m : Block) (n st a : Nat) (bs : List Byte) (pool : Bool), let r := m.enterStores n st none a bs none pool
    (r.core n).stores = (m.core n).stores ++ (pieces a bs.length).map (fun oc =>
      { addr := a + oc.1, bytes := slice bs oc.1 oc.2, stamp := st, remote := none, pool := pool }) ∧ SameMem m r ∧ SameRegsBut [] m r ∧ SameBufs m r) ∧
  (∀ (n k : Nat) (x : Store) (s : State), (s.m.core n).stores[k]? = some x → x.remote = none →
    ((s.m.core n).stores.take k).any (s.m.storeBehind x) = false → s.m.hostCopies (x.addr / 128) = [] →
    s.m.region x.addr = .hbm ∨ s.m.region x.addr = .tier ∨ s.m.region x.addr = .pool →
    Gives (.storeReachesHome n k) s
      ((((s.m.homeWrite x.addr x.bytes).modCore n fun c => { c with stores := removeAt c.stores k }).settleCore n).restCore n)) ∧
  (∀ (n k node seq : Nat) (x : Store) (s : State), (s.m.core n).stores[k]? = some x → x.remote = some (node, seq) →
    ((s.m.txPair n node).unacked.any fun u => u.burst.seq == seq) = false →
    Gives (.storeReachesHome n k) s (((s.m.modCore n fun c => { c with stores := removeAt c.stores k }).settleCore n).restCore n))

/-- COPY_SUBMIT hands the descriptor at its address to a channel that the core's context owns, and a channel of another owner, or an index
above 127, curbs the core with KIND 6 (R120, R121). In DMA_SLICE_TIMEOUT the engine works on its channel and, its slice over, takes the next in
turn; the work on a channel moves no more granules than it is given, and a slice gives 32 at most, less what it has moved (R122).
COPY_DESCRIPTOR_COMPLETE works in the same way and retires the channel's first descriptor: one ends once every granule is written, home and
acknowledged, and then it is counted and its hitch signalled when it asks for that (R125); the command channel's COPY completes its command
(R514). -/
def Obligations.CopyChannels : Prop :=
  (∀ (i : Issue) (k desc : Nat) (bs : List Byte) (s : State) (f : Block), s.m.fetch i = some f → (s.m.core i.core).copyQ.length < 8 →
    let m := f.advance i
    let e := m.sense i.core ⟨.core, desc⟩ 64
    let o := Reg.tileDmaOwner (i.core / 8) k
    let owns := k ≤ 127 ∧ m.fld o 63 63 = 1 ∧ m.fld o 12 8 = m.coreTenant i.core ∧ m.fld o 7 0 = m.coreCtx i.core
    (¬ owns → Gives (.copySubmit i k desc) s (m.curbCore i.core 6 k 0)) ∧
    (owns → e.readLoc i.core ⟨.core, desc⟩ 64 = .ok bs → Gives (.copySubmit i k desc) s
      ((e.modCore i.core fun c => { c with copyQ := c.copyQ ++
        [(k, { words := leWords 8 bs, core := i.core, aligned := desc % 64 == 0 })] }).pumpTile (i.core / 8)))) ∧
  (∀ (t e k n : Nat) (s : State), (s.m.tile t).engines[e]? = some (some k) →
    Gives (.dmaSliceTimeout t e n) s (((s.m.sliceWork t e k n).nextSlice t e).pumpTile t)) ∧
  (∀ (t e n : Nat) (s : State), (s.m.tile t).engines[e]? = some none → Gives (.dmaSliceTimeout t e n) s (s.m.assignEngines t)) ∧
  (∀ (t k fuel left : Nat) (m : Block), (Block.moveChan t k fuel left m).2 ≤ left ∧ (Block.moveCmd t left m).2 ≤ left ∧
    (m.tile t).sliceLeft k ≤ 32) ∧
  (∀ (t k : Nat) (s : State), k < 128 →
    let m := s.m.assignEngines t
    let m2 := match m.copyEngineOf t k with
      | some e => m.sliceWork t e k (((m.chan t k).head?).elim 0 fun j => j.total - j.done)
      | none => m
    ((m2.chan t k).length < (m.chan t k).length → Gives (.copyDescriptorComplete t k) s (m2.pumpTile t)) ∧
    (∀ m3, (m.chan t k).length ≤ (m2.chan t k).length → m2.endHead t k = some m3 → Gives (.copyDescriptorComplete t k) s (m3.pumpTile t)) ∧
    ((m.chan t k).length ≤ (m2.chan t k).length → m2.endHead t k = none → Gives (.copyDescriptorComplete t k) s m2)) ∧
  (∀ (t k : Nat) (j : CopyJob) (rest : List CopyJob) (m : Block), m.chan t k = j :: rest →
    let v := m.chanMover t k j
    let done := m.chanSt t k = 1 ∧ j.total ≤ j.done ∧ m.allAcked v.code = true ∧ m.placed v j.dst j.total = true
    let m1 := (m.setChan t k rest).addFld (Reg.tileDmaStatus t k) 31 0 1
    let m2 := if bit (wordAt j.words 0) 57 then m1.signal v.tenant v.ctx (field (wordAt j.words 4) 41 32) (field (wordAt j.words 4) 31 0) else m1
    (done → m.endHead t k = some (((m2.syncChan t k).headCheck t k).restCore j.core)) ∧ (¬ done → m.endHead t k = none)) ∧
  (∀ (t : Nat) (c : Cmd) (s : State),
    let m0 := s.m.assignEngines t
    let m := match m0.copyEngineOf t 128 with
      | some e => m0.sliceWork t e 128 (((m0.tile t).cmdChan.bind m0.running).elim 0 fun c => c.copyTotal - (m0.tile t).cmdDone)
      | none => m0
    (m.tile t).cmdChan = some c.q → m.running c.q = some c → c.copyTotal ≤ (m.tile t).cmdDone → m.allAcked (Master.code (.cmdChan t)) = true →
    m.placed (cmdMover t c.q) (fun d => ⟨0, (c.p 1).toNat + 128 * d⟩) c.copyTotal = true →
    Gives (.copyDescriptorComplete t 128) s
      (((m.modTile t fun x => { x with cmdChan := none, cmdDone := 0 }).complete c.q 0 0).assignEngines t))

/-- How a granule moves inside the module (R123, R125, R447): it is read at its source with its poison, the errors there found, and written
whole at its destination; a failed check of either place curbs the mover, and so does a destination in hitch memory, with KIND 5. -/
def Obligations.GranuleMoves : Prop :=
  (∀ (m : Block) (v : Mover) (p d : Place) (a b : Nat), m.putRoom v d = true → m.spot v p false = .here a → m.heldExclusive a 128 = false →
    let e := m.correct a 128
    e.spot v d true = .here b → e.tagged b 128 = false →
    m.moveGranule v (some p) d none =
      .moved (e.owning v.code v.tenant v.ctx fun x => x.homeWriteP b (e.readMem a 128) (e.poisoned a 128))) ∧
  (∀ (m : Block) (v : Mover) (p d : Place) (kind : Nat), m.putRoom v d = true → m.spot v p false = .bad kind →
    m.moveGranule v (some p) d none = .curbed (m.curb v.mtype v.idx v.tenant v.ctx kind p.addr 128 (m.remoteNode p.addr))) ∧
  (∀ (m : Block) (v : Mover) (d : Place) (kind : Nat), m.putRoom v d = true → m.spot v d true = .bad kind →
    m.moveGranule v none d none = .curbed (m.curb v.mtype v.idx v.tenant v.ctx kind d.addr 128 (m.remoteNode d.addr))) ∧
  (∀ (m : Block) (v : Mover) (d : Place) (b : Nat), m.putRoom v d = true → m.spot v d true = .here b →
    m.moveGranule v none d none =
      (if m.tagged b 128 then .curbed (m.curb v.mtype v.idx v.tenant v.ctx 5 d.addr 128 none)
       else .moved (m.owning v.code v.tenant v.ctx fun x => x.homeWriteP b (List.replicate 128 0) false)))

/-- MATMUL reads its descriptor once and enters the array's queue (R72, R80, R81). The array takes the instruction at the front of the queue when
it runs none: a product is run and its outputs stand with the instruction (R56, R61), a GROUPED descriptor's table is walked in order (R65), a
malformed descriptor ends it (R73), and what it meets on the way curbs the core (R447). MATMUL_COMPLETE makes the output writes of the instruction in the array in
order, up to the first one outside the window, adds its events to CORE_NUMSTAT, lets the signals go that waited for it, and the array takes the
next (R57, R61, R74, R93). -/
def Obligations.MatrixInstructions : Prop :=
  (∀ (i : Issue) (desc : Nat) (bs : List Byte) (s : State) (f : Block), s.m.fetch i = some f → (s.m.core i.core).matQ.length < 5 →
    let m := (f.advance i).sense i.core ⟨.core, desc⟩ 128
    m.readLoc i.core ⟨.core, desc⟩ 128 = .ok bs →
    Gives (.matmul i desc) s (Block.matStart i.core 5
      (m.modCore i.core fun c => { c with matQ := c.matQ ++ [{ words := leWords 16 bs, aligned := desc % 128 == 0 }] }))) ∧
  (∀ (n k : Nat) (op : MatOp) (rest : List MatOp) (m : Block), (m.core n).matQ = op :: rest →
    let d := arrayRun n op m
    let m1 := d.run.m.noteEvents n d.run.ev
    (op.started = true → Block.matStart n (k + 1) m = m) ∧
    (op.started = false → d.run.trap = none → d.bad = false → Block.matStart n (k + 1) m = m1.modCore n fun c =>
      { c with matQ := { op with started := true, outs := d.outs.map (·.1), events := Events.bits (joinEvents (d.outs.map (·.2))) } :: rest }) ∧
    (op.started = false → d.run.trap = none → d.bad = true →
      Block.matStart n (k + 1) m = Block.matStart n k (((m1.popMat n).badDescriptor n).flushSignals n)) ∧
    (∀ t, op.started = false → d.run.trap = some t → Block.matStart n (k + 1) m = m1.trap n t)) ∧
  (∀ (n : Nat) (op : MatOp) (m : Block), let w := op.words
    let shape := field (wordAt w 0) 63 60
    let o := Block.runGemm n (gemmOf w) ⟨m, {}, none⟩
    (op.aligned = false ∨ 4 < shape ∨ (shape = 3 ∧ groupedOk w = false) ∨ (shape ≠ 3 ∧ (gemmOf w).ok = false) →
      arrayRun n op m = ⟨⟨m, {}, none⟩, [], true⟩) ∧
    (op.aligned = true → shape = 3 → groupedOk w = true → arrayRun n op m =
      walkGroup n (field (wordAt w 0) 59 56) (field (wordAt w 9) 47 0) (field (wordAt w 9) 63 48) 0 ⟨m, {}, none⟩ []) ∧
    (op.aligned = true → shape ≤ 4 → shape ≠ 3 → (gemmOf w).ok = true →
      arrayRun n op m = ⟨o.1, if o.1.trap.isSome then [] else o.2, false⟩)) ∧
  (∀ (n : Nat) (op : MatOp) (rest : List MatOp) (s : State), (s.m.core n).matQ = op :: rest → op.started = true →
    let r := Block.putOuts n (op.outs.map fun o => (o, ({} : Events))) ⟨s.m.popMat n, {}, none⟩
    let m := r.m.setReg (Reg.coreNumstat n) (r.m.reg (Reg.coreNumstat n) ||| BitVec.ofNat 64 op.events)
    (r.trap = none → Gives (.matmulComplete n) s ((Block.matStart n 5 (m.flushSignals n)).restCore n)) ∧
    (∀ t, r.trap = some t → Gives (.matmulComplete n) s (m.trap n t))) ∧
  (∀ (n : Nat) (o : Write) (e ev : Events) (os : List (Write × Events)) (m : Block),
    (m.canWrite n o.loc o.bytes.length = .ok () →
      Block.putOuts n ((o, e) :: os) ⟨m, ev, none⟩ = Block.putOuts n os ⟨m.writeLoc n o.loc o.bytes, ev.join e, none⟩) ∧
    (∀ t, m.canWrite n o.loc o.bytes.length = .error t → Block.putOuts n ((o, e) :: os) ⟨m, ev, none⟩ = ⟨m, ev, some t⟩))

/-- An accumulator column after one stationary load (R42, R43): the exact sum of the products and of the accumulator's value, rounded once to
FP32; a NaN operand makes the sum NaN, and finite operands that stay in range raise no event. -/
def Obligations.ColumnSumRoundsOnce : Prop :=
  ∀ (stat strm : List (Val × Events)) (acc : F32),
    let exact := (Val.sum ((stat.zip strm).map fun p => p.1.1.mul p.2.1)).add acc.val
    (columnSum stat strm acc).1 = exact.toF32 ∧
    (exact.isNan = true → (columnSum stat strm acc).1 = f32Nan) ∧
    (∀ x ∈ stat.zip strm, x.1.1.isNan = true ∨ x.2.1.isNan = true → (columnSum stat strm acc).1 = f32Nan) ∧
    ((∀ x ∈ stat ++ strm, x.1.isFin = true) → acc.val.isFin = true → (F32.val (columnSum stat strm acc).1).isFin = true →
      (columnSum stat strm acc).2 = {})

/-- ATTENTION_PASS reads its descriptor once (R197): a malformed one stops the core with BAD_DESCRIPTOR (R200), one without sequences does
nothing more, and another begins its pass. A pass goes step by step: a malformed block or Carousel descriptor stops the core, an end counts and,
when a sequence was refused, ends the command with the descriptor-error status (R201), a wait holds the core on a hitch of its context (R217).
A pass that was held goes on when the core issues the instruction again. -/
def Obligations.AttentionPassRuns : Prop :=
  (∀ (i : Issue) (desc : Nat) (bs : List Byte) (s : State) (f : Block), s.m.fetch i = some f → (s.m.core i.core).vecQ = [] →
    (s.m.core i.core).sfuQ = [] →
    let m := (f.advance i).sense i.core ⟨.core, desc⟩ 128
    let d : AttD := ⟨leWords 16 bs⟩
    m.readLoc i.core ⟨.core, desc⟩ 128 = .ok bs →
    (desc % 128 ≠ 0 ∨ d.bad = true → Gives (.attentionPass i desc) s (m.attMalformed i.core)) ∧
    (desc % 128 = 0 → d.bad = false → d.seqs = 0 → Gives (.attentionPass i desc) s m) ∧
    (desc % 128 = 0 → d.bad = false → d.seqs ≠ 0 →
      Gives (.attentionPass i desc) s (Block.attGo i.core attFuel { w := d.w } (m.nextStamp (i.core / 8)).2))) ∧
  (∀ (n k : Nat) (r : AttRun) (m m1 : Block), let m0 := m.modCore n fun c => { c with att := some r }
    let turn := (attTurn (m0.who n) r).run m0
    (turn = (.ok .malformed, m1) → Block.attGo n (k + 1) r m = m1.attMalformed n) ∧
    (∀ refused, turn = (.ok (.done refused), m1) → Block.attGo n (k + 1) r m = m1.attEnd n refused) ∧
    (∀ hitch target r1, turn = (.ok (.waitFor hitch target r1), m1) →
      Block.attGo n (k + 1) r m = (m1.modCore n fun c => { c with att := some r1 }).attWait n hitch target) ∧
    (∀ r1, turn = (.ok (.next r1), m1) → Block.attGo n (k + 1) r m = Block.attGo n k r1 (m1.dropReads (m1.coreMover n)))) ∧
  (∀ (i : Issue) (desc : Nat) (r : AttRun) (s : State), (s.m.core i.core).att = some r →
    (s.m.passing i.core = true → Gives (.attentionPass i desc) s (Block.attGo i.core attFuel r s.m)) ∧
    (s.m.passing i.core = false → Gives (.attentionPass i desc) s s.m))

/-- Rounding to nearest, ties to even (R35): for every floating-point format and every positive magnitude, the code that a conversion picks,
when it does not exceed the format's largest finite code, is as near to the exact value as any other finite code, and even when another is
just as near. -/
def Obligations.NearestIsNearest : Prop :=
  ∀ (t : Fmt) (f : FloatFmt) (n d : Nat) (e : Int), t.float = some f → 0 < d → f.nearest n d e ≤ f.maxCode →
    let x : ℚ := (n : ℚ) / d * 2 ^ e
    ∀ c, c ≤ f.maxCode →
      |x - magnitude (f.decode (f.nearest n d e))| ≤ |x - magnitude (f.decode c)| ∧
      (c ≠ f.nearest n d e → |x - magnitude (f.decode (f.nearest n d e))| = |x - magnitude (f.decode c)| → f.nearest n d e % 2 = 0)

/-- Decoding and converting back (R22, R25, R35): every code of a finite or infinite element of every format comes back unchanged and raises no
event, but for the most negative integer, which no conversion produces (R26).
What a magnitude beyond the largest finite value becomes, after rounding (R36): infinity with its sign in FP32, BF16 and FP16, setting INF_MADE, and
in the other formats the largest finite value with its sign, setting SATURATED; an infinite input stays infinite without a flag in E5M2, BF16,
FP16 and FP32 and else becomes the largest value with SATURATED; and INT8 and INT4 take their most negative integer as an input, which no
conversion into them produces (R26). -/
def Obligations.ConversionsAtTheEdges : Prop :=
  (
    ∀ (t : Fmt) (code : Nat), code < 2 ^ t.width → (t.decode code).isNan = false →
      (t = .int8 → code ≠ 0x80) → (t = .int4 → code ≠ 8) → t.convert (t.decode code) = (code, {})) ∧
  (
    (∀ (t : Fmt) (f : FloatFmt) (neg : Bool) (n d : Nat) (e : Int), t.float = some f → f.maxCode < f.nearest n d e →
      (t = .fp32 ∨ t = .bf16 ∨ t = .fp16 → t.decode (t.convertQ neg n d e).1 = .inf neg ∧ (t.convertQ neg n d e).2 = { infMade := true }) ∧
      (t ≠ .fp32 → t ≠ .bf16 → t ≠ .fp16 → (t.convertQ neg n d e).1 = f.maxCode + (if neg then 2 ^ (f.width - 1) else 0) ∧
        (t.convertQ neg n d e).2 = { saturated := true })) ∧
    (∀ (v : Val), (Fmt.int8.convert v).1 < 256 ∧ (Fmt.int8.convert v).1 ≠ 0x80 ∧ (Fmt.int4.convert v).1 < 16 ∧ (Fmt.int4.convert v).1 ≠ 8) ∧
    (Fmt.int8.decode 0x80 = .fin true 128 0 ∧ Fmt.int4.decode 8 = .fin true 8 0) ∧
    (∀ (t : Fmt) (neg : Bool) (n d : Nat) (e : Int), t = .int8 ∨ t = .int4 → 0 < d → (t.intMax : ℚ) + 1 / 2 ≤ (n : ℚ) / d * 2 ^ e →
      t.decode (t.convertQ neg n d e).1 = (if neg then t.largest.negate else t.largest) ∧ (t.convertQ neg n d e).2 = { saturated := true }) ∧
    (∀ (t : Fmt) (neg : Bool),
      (t = .fp32 ∨ t = .bf16 ∨ t = .fp16 ∨ t = .e5m2 → t.decode (t.convert (.inf neg)).1 = .inf neg ∧ (t.convert (.inf neg)).2 = {}) ∧
      (t ≠ .fp32 → t ≠ .bf16 → t ≠ .fp16 → t ≠ .e5m2 →
        t.decode (t.convert (.inf neg)).1 = (if neg then t.largest.negate else t.largest) ∧ (t.convert (.inf neg)).2 = { saturated := true })))

/-- Packing (R27): element i of 4, 6, 8, 16 or 32 bits stands at bits [w × (i + 1) - 1 : w × i] of the bytes read as one little-endian number, so that
packed elements unpack to the same codes, and they take the bytes that their bits fill. -/
def Obligations.PackThenUnpack : Prop :=
  ∀ (w : Nat) (codes : List Nat), 0 < w → (∀ c ∈ codes, c < 2 ^ w) →
    unpack w codes.length (pack w codes) = codes ∧ (pack w codes).length = (w * codes.length + 7) / 8 ∧
    ∀ i < codes.length, leNat (pack w codes) / 2 ^ (w * i) % 2 ^ w = codes.getD i 0

/-- A register's value after a write (R13, Table 0.9), bit by bit: a writable bit that the write covers takes the written value, a
write-one-to-clear bit that it covers is cleared by a one, and every other bit keeps its value.
REGISTER_WRITE to a register of the pool, HBM, DDR5 and PACE_ blocks, whose writes do nothing but store (R11, R13): by firmware, 8 bytes
write the register and an aligned 4 bytes one half of it, POOL_SPARE_MAP only in the bits of the spares that the die has (Table 5.4); a host of another tenant than 0 changes nothing in them (R510); and an access that
R11 or R509 refuses curbs a core with KIND 4 and changes nothing for another requester. -/
def Obligations.RegisterWrites : Prop :=
  (
    ∀ (row : RegRow) (old mask v : Word) (b : Nat), b < 64 →
      bit (mergeWord row old mask v) b =
        (if row.rw.testBit b && bit mask b then bit v b
         else if row.w1c.testBit b && bit mask b && bit v b then false
         else bit old b)) ∧
  (
    (∀ (addr off k l : Nat) (row : RegRow) (v : Word) (s : State), s.m.region addr = .reg off → off / 0x100000 ∈ [9, 10, 11, 20] →
      regAt off = some (row, k, l) → s.m.absent off = false → off % 8 = 0 → windowMapped (off / 0x100000) = true →
      let there := if off / 0x100000 = 9 ∧ off % 0x1000 = 0 then s.m.spareMask else BitVec.allOnes 64
      Completes (.registerWrite .firmware addr false v) s (fun m =>
        m.reg off = mergeWord row (s.m.reg off) there v ∧ OnlyRegs [off] s.m m) ∧
      Completes (.registerWrite .firmware addr true v) s (fun m =>
        m.reg off = mergeWord row (s.m.reg off) (0xFFFFFFFF &&& there) v ∧ OnlyRegs [off] s.m m)) ∧
    (∀ (addr off p t : Nat) (half : Bool) (v : Word) (s : State), s.m.region addr = .reg off → off / 0x100000 ∈ [9, 10, 11, 20] → t ≠ 0 →
      s.m.choSt p = 2 → s.m.tagOk p t = true → Gives (.registerWrite (.host p t) addr half v) s s.m) ∧
    (∀ (addr off n : Nat) (half : Bool) (v : Word) (s : State), s.m.region addr = .reg off → regAccessOk off (if half then 4 else 8) = false →
      Gives (.registerWrite (.core n) addr half v) s (s.m.curbCore n 4 addr (if half then 4 else 8)) ∧
      Gives (.registerWrite .firmware addr half v) s s.m))

/-- The clears with rows of their own (R75, R155, R220, R259 and the DRV_ and GRM_ counters): by firmware, each sets the counters of its unit to
zero and changes nothing else.
CORE_SEQ_STOP by firmware stops a running core with cause FW_STOP (R97, R98), and the task's command completes when that was its last slot to
stop (R85); LC_INVALIDATE empties a tile's line cache, and no load of the
tile, outstanding or later, hits a line filled before it (R144, R155). -/
def Obligations.ClearsAndStops : Prop :=
  (
    ∀ (c : Instr) (rs : List Nat) (n k : Nat) (s : State),
      (c = .coreArrClr .firmware n ∧ n < s.m.coreCount ∧
        rs = [Reg.coreArrLoadcyc n, Reg.coreArrStrmcyc n, Reg.coreArrStallcyc n, Reg.coreCmStallcyc n]) ∨
      (c = .lcCounterClr .firmware n ∧ n < s.m.tileCount ∧ rs = [Reg.tileLcHits n, Reg.tileLcMisses n, Reg.tileLcAcq n]) ∨
      (c = .attClr .firmware n ∧ n < s.m.coreCount ∧
        rs = [Reg.attSeqDone (n / 8) (n % 8), Reg.attTokens (n / 8) (n % 8), Reg.attEmpty (n / 8) (n % 8), Reg.attRefused (n / 8) (n % 8),
          Reg.attKvw (n / 8) (n % 8), Reg.attCar (n / 8) (n % 8)]) ∨
      (c = .sadClr .firmware ∧ rs = [Reg.sadPagein, Reg.sadEvict, Reg.sadHoldMax]) ∨
      (c = .drvClr .firmware n k ∧ n < s.m.tileCount ∧ k < 8 ∧ rs = [Reg.drvRowsSent n k, Reg.drvRowsSkip n k, Reg.drvTmo n k]) ∨
      (c = .grmClr .firmware n ∧ s.m.tuning = true ∧ n < s.m.stackCount ∧ rs = [Reg.grmElems n, Reg.grmNonfinite n, Reg.grmSkew n]) →
      Completes c s fun m => (∀ r ∈ rs, m.reg r = 0) ∧ OnlyRegs rs s.m m) ∧
  (
    (∀ (n : Nat) (s : State), n < s.m.coreCount → s.m.coreSt n = 1 ∨ s.m.coreSt n = 2 ∨ s.m.coreSt n = 3 →
      let stopped := s.m.stopCore n 8
      ((s.m.core n).task = none → Gives (.coreSeqStop .firmware n) s (stopped.restCore n)) ∧
      (∀ q, (s.m.core n).task = some q → Gives (.coreSeqStop .firmware n) s (stopped.endIfAll q)) ∧
      stopped.coreSt n = 4 ∧ stopped.fld (Reg.coreSeqStatus n) 63 56 = 8 ∧ stopped.fld (Reg.coreHitchWait n) 63 63 = 0 ∧
      stopped.core n = { s.m.core n with hold := .none } ∧ OnlyCore n [Reg.coreSeqStatus n, Reg.coreHitchWait n] s.m stopped) ∧
    (∀ (t : Nat) (s : State), t < s.m.tileCount → Completes (.lcInvalidate .firmware t) s fun m =>
      (m.tile t).lines = [] ∧ (s.m.tile t).stamp < (m.tile t).floor ∧ (∀ k, k ≠ t → m.tile k = s.m.tile k) ∧
        SameRegsBut [] s.m m ∧ SameMem s.m m ∧ SameBufs s.m m ∧ ∀ k, m.core k = s.m.core k))

/-- Doorbell writes of an accepted host request (R291, R292): an SQ_TAIL that stays in the ring and does not overrun it is taken, with its tick
for a PACED queue (R321), whose packets firmware reads at once when it serves the queue; a CQ_HEAD that does not pass the tail is taken, and the records that waited for room follow; any other
index changes nothing. In M2 the write asks for M0 first (R430). -/
def Obligations.Doorbells : Prop :=
  ∀ (p t index : Nat) (x : Queue) (q : QueueId) (s : State), s.m.choSt p = 2 → s.m.tagOk p t = true → s.m.queue? q = some x →
    let m := s.m.askWake
    let sq := 2 ^ x.log2Sq
    let cq := 2 ^ x.log2Cq
    let fits := index < sq ∧ (x.sqTail + sq - x.sqHead) % sq + (index + sq - x.sqTail) % sq < sq
    (fits → x.cls ≠ 0 → Gives (.doorbellSqTail (.host p t) q index) s (m.modQueue q fun y => { y with sqTail := index })) ∧
    (fits → x.cls = 0 →
      let step := (index + sq - x.sqTail) % sq
      let told := m.modQueue q fun y => { y with sqTail := index, bells := if step = 0 then y.bells else y.bells ++ [(m.time, step)] }
      let reads := m.serving = true ∧ m.ctxOpen q.tenant q.ctx = true ∧ x.destroyBy = none ∧ x.lossTail = none
      (reads → Gives (.doorbellSqTail (.host p t) q index) s (Block.fetchAll q sq told)) ∧
      (¬ reads → Gives (.doorbellSqTail (.host p t) q index) s told)) ∧
    (¬ fits → Gives (.doorbellSqTail (.host p t) q index) s m) ∧
    (index < cq → (index + cq - x.cqHead) % cq ≤ (x.cqTail + cq - x.cqHead) % cq →
      Gives (.doorbellCqHead (.host p t) q index) s (Block.pumpHeld q cq (m.modQueue q fun y => { y with cqHead := index }))) ∧
    (cq ≤ index ∨ (x.cqTail + cq - x.cqHead) % cq < (index + cq - x.cqHead) % cq → Gives (.doorbellCqHead (.host p t) q index) s m)

/-- SYS_ADMIN_ENABLE (R288, R289): where the whole rings stand in host memory on 4 KiB and the sizes are in range, firmware that runs serves the
system admin queue, class HIGH, from its first packet on; a host while ENABLE is 1 changes nothing (R318). -/
def Obligations.SystemAdminQueue : Prop :=
  (∀ (cq sq : Nat) (s : State), s.m.fld Reg.cmdSysCfg 63 63 = 0 → s.m.fw.fwUp = true → 4 ≤ sq → sq ≤ cq → cq ≤ 12 →
    s.m.queue? ⟨0, 0, 0⟩ = none →
    (∀ r ∈ [(Reg.cmdSysSq, 64 * 2 ^ sq), (Reg.cmdSysCq, 32 * 2 ^ cq)], (s.m.reg r.1).toNat % 4096 = 0 ∧
      hostBase ≤ localPart (s.m.reg r.1).toNat ∧ localPart (s.m.reg r.1).toNat + r.2 ≤ 2 * hostBase) →
    Completes (.sysAdminEnable .firmware cq sq) s fun m =>
      m.cmd.queues = s.m.cmd.queues ++ [{ id := ⟨0, 0, 0⟩, sqBase := (s.m.reg Reg.cmdSysSq).toNat, cqBase := (s.m.reg Reg.cmdSysCq).toNat
                                          log2Sq := sq, log2Cq := cq, cls := 1, irqEn := true }] ∧
      m.fld Reg.cmdSysCfg 63 63 = 1 ∧ m.fld Reg.cmdSysCfg 7 4 = cq ∧ m.fld Reg.cmdSysCfg 3 0 = sq ∧
      SameRegsBut [Reg.cmdSysCfg] s.m m ∧ SameMem s.m m ∧ ∀ k, m.core k = s.m.core k) ∧
  (∀ (p cq sq : Nat) (s : State), s.m.choSt p = 2 → s.m.fld Reg.cmdSysCfg 63 63 = 1 → Gives (.sysAdminEnable (.host p 0) cq sq) s s.m)

/-- PACKET_FETCH reads one packet of a queue that firmware serves, memory errors in it found as in any read (R161), and moves the head (R292): a
PACED packet waits for its admission with the tick of its doorbell (R321); another is accepted into the stud book, its saddles bound (R246,
R254), and makes its queue ready, or completes at once with the status that its check gives (R294, R296). -/
def Obligations.PacketFetch : Prop :=
  ∀ (q : QueueId) (x : Queue) (s : State), s.m.queue? q = some x → s.m.serving = true → s.m.ctxOpen q.tenant q.ctx = true →
    x.destroyBy = none → x.fetchable = true → x.sqHead ≠ x.sqTail → x.id = q →
    let at_ := localPart x.sqBase + 64 * x.sqHead
    let head := (x.sqHead + 1) % 2 ^ x.log2Sq
    let packet := leWords 8 (s.m.fwBytes at_ 64)
    let m := (s.m.correct at_ 64).modQueue q fun y => { y with sqHead := head }
    let c : Cmd := { q := q, packet := packet, sqHead := head, admitted := s.m.time }
    (x.cls = 0 → Gives (.packetFetch q) s (m.modQueue q fun y =>
      { y with bells := (takeBell s.m.time x.bells).2, waiting := y.waiting ++ [((takeBell s.m.time x.bells).1, head, packet)] })) ∧
    (x.cls ≠ 0 → (∀ c ∈ s.m.cmd.cmds, c.q ≠ q) → x.held = [] → s.m.booked < bookRoom →
      (∀ st, m.fetchStatus c false = some st → Gives (.packetFetch q) s (m.refusePacket c st 0)) ∧
      (m.fetchStatus c false = none →
        let m1 := m.sightTable c
        (∀ st, m1.saddleNeeds c = .error st → Gives (.packetFetch q) s (m1.refusePacket c st 0)) ∧
        (∀ b, m1.saddleNeeds c = .ok b →
          let c1 := { c with binds := b.1, rows := b.2 }
          Gives (.packetFetch q) s ((({ m1 with cmd.cmds := m1.cmd.cmds ++ [c1] } : Block).markReady q).admitSaddles c1))))

/-- Delivery of a completion record (R300, R378): while the tenant's host is lost it is kept; where nothing waits before it and its slot is free
(the ring has room, no host copy of the slot's granule stands and its port holds no access back) it is written at the tail with the ring's
phase, the tail moves on and the phase turns at the ring's end, so the tail never reaches the head; else it is held, its command's stud-book
entry with it (R459), and host copies of the slot are asked back (R152).
The completion record (Table 12.7): the status, the opcode and tag of the packet, whether the command was deferred, promoted or replayed,
the queue's identity and the head after the packet, the end time, and the result. -/
def Obligations.CompletionRecords : Prop :=
  (
    ∀ (m : Block) (q : QueueId) (x : Queue) (rec : Completion) (irq : Bool) (entry : Option Cmd), m.queue? q = some x → x.id = q → x.cqTail < 2 ^ x.log2Cq →
      let next := (x.cqTail + 1) % 2 ^ x.log2Cq
      (m.hostHeld q.tenant = false → x.held = [] → m.slotWaits x = false →
        m.deliver q rec irq entry = m.postRecord x rec irq ∧
        (∀ y, (m.postRecord x rec irq).queue? q = some y → y.cqTail = next ∧ y.cqTail ≠ y.cqHead ∧ y.phase = (if next = 0 then !x.phase else x.phase))) ∧
      (m.hostHeld q.tenant = false → x.held ≠ [] ∨ m.slotWaits x = true →
        m.deliver q rec irq entry = (m.snoopEntries (m.slotCopies x)).modQueue q fun y => { y with held := y.held ++ [⟨rec, irq, entry⟩] }) ∧
      (next = x.cqHead ∨ m.hostCopies (x.slot / 128) ≠ [] → m.slotWaits x = true) ∧
      (m.hostHeld q.tenant = true → SameMem m (m.deliver q rec irq entry) ∧ (m.deliver q rec irq entry).cmd = m.cmd)) ∧
  (
    ∀ (c : Cmd) (time status result : Nat), status < 2 ^ 16 → c.sqHead < 2 ^ 16 → c.q.tenant < 32 → c.q.ctx < 256 → c.q.queue < 16 →
      time < 2 ^ 64 → result < 2 ^ 32 →
      let r := c.record time status result
      r.length = 4 ∧ field (wordAt r 0) 63 48 = status ∧ field (wordAt r 0) 47 32 = c.opcode ∧
      field (wordAt r 0) 31 0 = field (wordAt c.packet 0) 31 0 ∧
      bit (wordAt r 1) 62 = c.deferred ∧ bit (wordAt r 1) 61 = c.promoted ∧ bit (wordAt r 1) 60 = c.replayed ∧
      field (wordAt r 1) 47 32 = c.sqHead ∧ field (wordAt r 1) 16 12 = c.q.tenant ∧ field (wordAt r 1) 11 4 = c.q.ctx ∧
      field (wordAt r 1) 3 0 = c.q.queue ∧ (wordAt r 2).toNat = time ∧ field (wordAt r 3) 31 0 = result ∧
      (status ≠ 0x11 → status ≠ 0x12 → field (wordAt r 3) 63 32 = 0))

/-- PACED_ADMISSION (R320, R321, R323, R328, R333): of the PACED packets that wait, firmware admits the one with the earliest doorbell. In this
order: a packet that its check refuses completes with that status; in an emergency every other has reason 6; an opcode that no PACED queue
carries has reason 2, one that admin queues do not carry status 3; no DEADLINE is reason 3 and a full stud book 7; a table or KV list that
cannot be bound completes with its status. What is left has reason 4 when its PAGED saddles have no slots (the model's reading, log entry 111)
and reason 5 when its bytes pass the reserve; it is accepted when the tick of its admission plus its bound does not pass its DEADLINE, and
else rejected with reason 1 and the bound. -/
def Obligations.PacedAdmission : Prop :=
  ∀ (q : QueueId) (x : Queue) (w : Nat × Nat × Packet) (masks : List Nat) (al : Allowed) (s : State), s.m.nextPaced = some (x, w) → x.id = q →
    s.m.serving = true →
    let m := s.m.modQueue q fun y => { y with waiting := y.waiting.drop 1 }
    let c : Cmd := { q := q, packet := w.2.2, sqHead := w.2.1, admitted := s.m.time }
    (∀ st, m.fetchStatus c true = some st → Gives (.pacedAdmission q) s (m.refusePacket c st 0)) ∧
    (m.fetchStatus c true = none → s.m.pwr.emergOpen = true → Gives (.pacedAdmission q) s (m.paceReject c 6 0)) ∧
    (m.fetchStatus c true = none → s.m.pwr.emergOpen = false → opcodeRow c.opcode = some (al, false, masks) →
      Gives (.pacedAdmission q) s (m.paceReject c 2 0)) ∧
    (m.fetchStatus c true = none → s.m.pwr.emergOpen = false → opcodeRow c.opcode = some (al, true, masks) →
      (isAdmin q = true → c.opcode ≠ 0 → Gives (.pacedAdmission q) s (m.refusePacket c 3 0)) ∧
      (isAdmin q = false ∨ c.opcode = 0 →
        (c.deadline = 0 → Gives (.pacedAdmission q) s (m.paceReject c 3 0)) ∧
        (c.deadline ≠ 0 → bookRoom ≤ s.m.booked → Gives (.pacedAdmission q) s (m.paceReject c 7 0)) ∧
        (c.deadline ≠ 0 → s.m.booked < bookRoom →
          let m1 := (m.sightTable c).sightPayload c
          let payload := if c.opcode = 0x102 then m1.readPayload c else []
          (∀ st, m1.saddleNeeds c = .error st → Gives (.pacedAdmission q) s (m1.refusePacket c st 0)) ∧
          (∀ b st, m1.saddleNeeds c = .ok b → m1.kvNeeds c payload = .error st → Gives (.pacedAdmission q) s (m1.refusePacket c st 0)) ∧
          (∀ b kv, m1.saddleNeeds c = .ok b → m1.kvNeeds c payload = .ok kv →
            let m2 := m1.sightKv c payload kv
            let c1 := { c with binds := b.1, rows := b.2, kv := kv, payload := payload, bound := true }
            let paged := (m2.boundSaddles c1).filter fun z => z.state == .paged
            let spilled := m2.pagedBytes c1 + m2.kvBytes kv
            let fits := paged.length ≤ m2.slotsFree c1
            let t := m2.paceBound c1 (if 0 < spilled then m2.pageTime m2.pageAhead spilled else 0)
            (¬ fits → Gives (.pacedAdmission q) s (m2.paceReject c1 4 0)) ∧
            (fits → m2.reserve < m2.pageAhead + spilled → Gives (.pacedAdmission q) s (m2.paceReject c1 5 0)) ∧
            (fits → m2.pageAhead + spilled ≤ m2.reserve → s.m.time + t.1 ≤ c.deadline → Gives (.pacedAdmission q) s (m2.paceAccept c1 t)) ∧
            (fits → m2.pageAhead + spilled ≤ m2.reserve → c.deadline < s.m.time + t.1 →
              Gives (.pacedAdmission q) s (m2.paceReject c1 1 (min t.1 (2 ^ 32 - 1))))))))

/-- The next PACED packet (R321): the first waiting packet of a queue that firmware serves, and no such queue has one whose doorbell came earlier.
Round-robin within a class (R302): when a queue of the class can be dispatched, one is chosen, it can be dispatched, and going round in the
order of tenant, context and queue from the queue dispatched last, no other that can be dispatched comes before it. -/
def Obligations.QueueChoice : Prop :=
  (
    ∀ (m : Block) (x : Queue) (w : Nat × Nat × Packet), (∀ z ∈ m.cmd.queues, z.id.tenant < 32 ∧ z.id.ctx < 256 ∧ z.id.queue < 16) →
      m.nextPaced = some (x, w) →
      let served (y : Queue) : Prop := y ∈ m.cmd.queues ∧ m.ctxOpen y.id.tenant y.id.ctx = true ∧ y.destroyBy = none
      served x ∧ x.waiting.head? = some w ∧ ∀ y, served y → ∀ v, y.waiting.head? = some v → w.1 ≤ v.1) ∧
  (
    ∀ (m : Block) (k : Nat), (∃ q ∈ m.cmd.queues, q.asClass = k ∧ m.canDispatch q = true) →
      ∃ q ∈ m.cmd.queues, m.nextOfClass k = some q ∧ q.asClass = k ∧ m.canDispatch q = true ∧
        ∀ y ∈ m.cmd.queues, y.asClass = k → m.canDispatch y = true →
          match m.cmd.lastRun.find? fun e => e.1 == k with
          | none => qkey q.id ≤ qkey y.id
          | some (_, last) =>
            if qkey last < qkey q.id then qkey y.id ≤ qkey last ∨ qkey q.id ≤ qkey y.id
            else qkey y.id ≤ qkey last ∧ qkey q.id ≤ qkey y.id)

/-- DISPATCH (R302, R303, R329): PACED work that is due starts first; else, once the page-ins that held commands still need are begun (R255) and
queues that starve are promoted, a ready queue of class 1, else
of 2, else of 3, starts its command. AGING_PROMOTION counts a starving queue in CMD_AGED and treats it as HIGH once (R303). PACED_LEAD_START
starts a command at its lead tick. -/
def Obligations.DispatchOrder : Prop :=
  (∀ (c : Cmd) (s : State), s.m.fwRuns = true → s.m.cmd.cmds.find? s.m.leadDue = some c → Gives .dispatch s (s.m.startPaced c)) ∧
  (∀ (s : State), s.m.serving = true → s.m.cmd.cmds.find? s.m.leadDue = none →
    let m := s.m.cmd.queues.foldl (fun m q => m.promote q) s.m.loadHeld
    (∀ x, m.nextOfClass 1 = some x → Gives .dispatch s (m.startQueue x)) ∧
    (∀ x, m.nextOfClass 1 = none → m.nextOfClass 2 = some x → Gives .dispatch s (m.startQueue x)) ∧
    (∀ x, m.nextOfClass 1 = none → m.nextOfClass 2 = none → m.nextOfClass 3 = some x → Gives .dispatch s (m.startQueue x)) ∧
    (m.nextOfClass 1 = none → m.nextOfClass 2 = none → m.nextOfClass 3 = none → Gives .dispatch s m)) ∧
  (∀ (q : QueueId) (x : Queue) (w : Nat) (s : State), s.m.queue? q = some x → x.cls = 2 ∨ x.cls = 3 → x.ready = some w →
    w + x.starve ≤ s.m.time → x.promoted = false →
    Gives (.agingPromotion q) s ((s.m.modQueue x.id fun y => { y with promoted := true }).addFld Reg.cmdAged 63 0 1)) ∧
  (∀ (q : QueueId) (c : Cmd) (s : State), (s.m.cmd.cmds.find? fun c => c.q == q && c.pace.isSome && !c.started) = some c →
    s.m.fwRuns = true → s.m.leadDue c = true → Gives (.pacedLeadStart q) s (s.m.startPaced c))

/-- PULLED_UP_RESUME resumes a pulled-up task once no accepted PACED command needs its core; PACED_OVERRUN_STOP ends with ABORTED, in the last tick
before its lead tick + T_adm + W, a PACED command that still runs, and counts it (R330); SUSPENSION_END sets lead ticks that have passed to the window's end
(R334). -/
def Obligations.PaceEvents : Prop :=
  (∀ (n : Nat) (x : SavedTask) (s : State), (s.m.core n).saved = some x → s.m.serving = true → (s.m.core n).task = none →
    s.m.pacedNeeds n = false → Gives (.pulledUpResume n) s (s.m.resumeTask n x)) ∧
  (∀ (q : QueueId) (c : Cmd) (p : Pace) (l : Nat) (s : State), s.m.running q = some c → c.pace = some p → p.lead = some l →
    l + s.m.fld Reg.paceAdm 31 0 + p.work ≤ s.m.time + 1 → s.m.pwr.emergOpen = false → s.m.pwr.recovery = none →
    let m := { s.m with cmd.cmds := mapIf c.same (fun c => { c with started := true }) s.m.cmd.cmds }
    Gives (.pacedOverrunStop q) s (((m.dropUnits c.q).endTask c.q 0xA 0).satFld Reg.paceOverrun 31 0 1)) ∧
  (∀ (s : State), s.m.fld Reg.paceStatus 63 63 = 0 → s.m.reg Reg.paceSuspEnd ≠ 0 → Completes .suspensionEnd s fun m =>
    let e := (s.m.reg Reg.paceSuspEnd).toNat
    m.cmd.cmds = s.m.cmd.cmds.map (fun c => { c with pace := c.pace.map fun p => { p with lead := p.lead.map fun l => max l e } }) ∧
      OnlyRegs [] { s.m with cmd := m.cmd } m)

/-- A pull-up and the resumption after it leave the task as it was (R329): where nothing came between, the core's state, its registers, its
operand buffers and all of memory read as before. -/
def Obligations.PullUpThenResume : Prop :=
  ∀ (m : Block) (n : Nat) (x : SavedTask), (m.regs.map (·.1)).Nodup → n < 128 → (m.core n).saved = none →
    ((m.pullUp n).core n).saved = some x →
    let m' := (m.pullUp n).resumeTask n x
    (∀ r, m'.reg r = m.reg r) ∧ (∀ a, m'.mem.read a = m.mem.read a) ∧ (∀ a, m'.bufs.read a = m.bufs.read a) ∧
    (∀ k, k ≠ n → m'.core k = m.core k) ∧ m'.core n = m.core n ∧
    (∀ k, k ∈ m'.bufPoison ↔ k ∈ m.bufPoison) ∧ m'.poison = m.poison

/-- A task's dispatch to a core (R85, R98, R117, Table 12.11): the core runs at the program's entry, with the windows, hitches and identity of the
context, the slot and the number of slots in its first two scalar registers and the argument block's offset in the third, the others zero. -/
def Obligations.TaskStart : Prop :=
  ∀ (m : Block) (c : Cmd) (p : Program) (x : Context) (args : List Byte) (slot n : Nat), n < 128 → c.q.tenant < 32 → x.ctx < 256 →
    x.cmBase < 2048 → x.cmSize < 2048 → x.poolBase < 65536 → x.poolSize ≤ 65536 → x.hitches ≤ 1024 → p.entry < 2 ^ 48 →
    let m' := m.startCore c p x args slot n
    m'.coreSt n = 1 ∧ m'.pc n = p.entry ∧ m'.coreTenant n = c.q.tenant ∧ m'.coreCtx n = x.ctx ∧ m'.fld (Reg.coreTaskId n) 63 63 = 1 ∧
    m'.fld (Reg.coreCmBase n) 22 12 = x.cmBase ∧ m'.fld (Reg.coreCmBound n) 22 12 = x.cmSize ∧
    m'.fld (Reg.corePoolBase n) 31 16 = x.poolBase ∧ m'.fld (Reg.corePoolBound n) 32 16 = x.poolSize ∧
    m'.fld (Reg.coreHitchCfg n) 42 32 = x.hitches ∧ m'.reg (Reg.coreSeqProgress n) = 0 ∧
    (m'.core n).task = some c.q ∧ (m'.core n).hold = .none ∧ (m'.core n).loops = [] ∧ (m'.core n).calls = [] ∧
    (m'.core n).codeOff = p.codeOff ∧ (m'.core n).codeSize = p.codeSize ∧
    m'.sreg n 0 = BitVec.ofNat 64 slot ∧ m'.sreg n 1 = BitVec.ofNat 64 p.slots.length ∧
    m'.sreg n 2 = BitVec.ofNat 64 (roundUp p.cmBytes 128) ∧ ∀ r, 3 ≤ r → m'.sreg n r = 0

/-- The tenant commands on the system admin queue (Table 12.9, R304 to R309, R312, R313, R486, R487) and NOP: what each does when its target
is there, and the status it ends with when it is not; a command that R308 holds back waits with DEFERRED until DEFERRED_PERFORM. The zero fill
of a range and of a scrub acts once the host copies of the memory have been given up, which it asks for (R152). -/
def Obligations.TenantCommands : Prop :=
  (∀ q c s, s.m.runs q 0 c = true → Gives (.nop q) s (s.m.complete q 0 0)) ∧
  (∀ q c s, s.m.runsFreely q 0x10 c = true →
    let t := field (c.p 3) 4 0
    (s.m.tenantExists t = true → Gives (.tenantCreate q) s (s.m.complete q 8 0)) ∧
    (s.m.tenantExists t = false → (s.m.cmd.contexts.filter (·.exists_)).length < 4096 → Gives (.tenantCreate q) s
      (({ s.m with
        cmd.tenants := s.m.cmd.tenants ++ [({ id := t } : Tenant)]
        cmd.contexts := (s.m.cmd.contexts.filter fun (x : Context) => !(x.tenant == t && x.ctx == 0)) ++ [({ tenant := t, ctx := 0 } : Context)] }.addQueue
          { id := ⟨t, 0, 0⟩, sqBase := (c.p 0).toNat, cqBase := (c.p 1).toNat, log2Sq := field (c.p 2) 59 56, log2Cq := field (c.p 2) 55 52
            cls := 1, irqEn := true }).complete q 0 0))) ∧
  (∀ q c s, s.m.runs q 0x11 c = true →
    let t := field (c.p 3) 4 0
    (s.m.tenantExists t = false → Gives (.tenantDestroy q) s (s.m.complete q 7 0)) ∧
    (s.m.tenantExists t = true → (s.m.cmd.tenants.any fun x => x.id == t && x.dying) = false →
      Gives (.tenantDestroy q) s ((s.m.setWait q .teardown).destroyTenant t (some q)))) ∧
  (∀ q c s, s.m.runs q 0x12 c = true →
    let c1 := { c with payload := s.m.readPayload c }
    let m := s.m.modCmd q fun _ => c1
    (c.payloadBytes ≠ 1656 → Gives (.tenantKeyLoad q) s (m.rejectKey c1 2 false)) ∧
    (c.payloadBytes = 1656 → leAt c1.payload 0 1 = 1 → leAt c1.payload 1 1 < 32 → leAt c1.payload 2 6 = 0 → leAt c1.payload 1 1 ≠ 0 →
      m.tenantExists (leAt c1.payload 1 1) = false → Gives (.tenantKeyLoad q) s (m.rejectKey c1 7 false)) ∧
    (c.payloadBytes = 1656 → leAt c1.payload 0 1 = 1 → leAt c1.payload 1 1 < 32 → leAt c1.payload 2 6 = 0 → leAt c1.payload 1 1 ≠ 0 →
      m.tenantExists (leAt c1.payload 1 1) = true → BitVec.ofNat 64 (leAt c1.payload 8 8) ≠ m.reg Reg.secKemId →
      Gives (.tenantKeyLoad q) s (m.rejectKey c1 2 true)) ∧
    (c.payloadBytes = 1656 → leAt c1.payload 0 1 = 1 → leAt c1.payload 1 1 < 32 → leAt c1.payload 2 6 = 0 → leAt c1.payload 1 1 ≠ 0 →
      m.tenantExists (leAt c1.payload 1 1) = true → BitVec.ofNat 64 (leAt c1.payload 8 8) = m.reg Reg.secKemId →
      (∀ r ∈ m.cmd.ranges, r.tenant ≠ leAt c1.payload 1 1) → m.blocked c1 = false → c1.q = q →
      Gives (.tenantKeyLoad q) s
        (match Config.keyUnwrap m.sec.kemSeed (BitVec.ofNat 64 (leAt c1.payload 8 8)) (leAt c1.payload 1 1) (slice c1.payload 0x10 1568) (slice c1.payload 0x630 72) with
        | none => m.rejectKey c1 2 false
        | some k => if k.take 32 = k.drop 32 then m.rejectKey c1 2 false else (m.installKey (leAt c1.payload 1 1) k).complete q 0 0))) ∧
  (∀ q c s, s.m.runsFreely q 0x13 c = true →
    let base := (c.p 0).toNat
    let size := (c.p 1).toNat
    let clash := s.m.cmd.ranges.any fun r => (r.tenant == c.rangeTenant && r.idx == c.rangeIndex) ||
      (r.tenant != c.rangeTenant && overlaps base size r.base r.size)
    (s.m.rangePlace base size = false → Gives (.rangeSet q) s (s.m.complete q 2 0)) ∧
    (s.m.rangePlace base size = true → s.m.tenantExists c.rangeTenant = false → Gives (.rangeSet q) s (s.m.complete q 7 0)) ∧
    (s.m.rangePlace base size = true → s.m.tenantExists c.rangeTenant = true → s.m.keyValid c.rangeTenant = false →
      Gives (.rangeSet q) s (s.m.complete q 3 0)) ∧
    (s.m.rangePlace base size = true → s.m.tenantExists c.rangeTenant = true → s.m.keyValid c.rangeTenant = true →
      (clash = true ∨ s.m.hasRetired base size = true ∨ firmwareArea base size = true → Gives (.rangeSet q) s (s.m.complete q 8 0)) ∧
      (clash = false → s.m.hasRetired base size = false → firmwareArea base size = false →
        Gives (.rangeSet q) s (s.m.invalidateAll.setWait q .zeroFill)))) ∧
  (∀ q c s, s.m.running q = some c → c.opcode = 0x13 → c.wait = .zeroFill →
    let base := (c.p 0).toNat
    let size := (c.p 1).toNat
    let give (m : Block) : Block := ({ m with
      cmd.ranges := m.cmd.ranges ++ [({ tenant := c.rangeTenant, idx := c.rangeIndex, base := base, size := size
                                        readers := field (c.p 2) 63 32, r := bit (c.p 2) 0, w := bit (c.p 2) 1, fabricIn := bit (c.p 2) 3 } : Range)] }).complete q 0 0
    (s.m.region base = .host → Gives (.rangeZeroFillEnd q) s (give s.m)) ∧
    (s.m.region base ≠ .host → s.m.copiesIn base size = [] → Gives (.rangeZeroFillEnd q) s (give (s.m.clearMem base size))) ∧
    (s.m.region base ≠ .host → s.m.copiesIn base size ≠ [] → Gives (.rangeZeroFillEnd q) s (s.m.snoopEntries (s.m.copiesIn base size)))) ∧
  (∀ q c s, s.m.runs q 0x14 c = true →
    let p (r : Range) : Bool := r.tenant == c.rangeTenant && r.idx == c.rangeIndex
    (s.m.tenantExists c.rangeTenant = true → s.m.cmd.ranges.any p = true → Gives (.rangeClear q) s ((s.m.clearRanges p).complete q 0 0)) ∧
    (s.m.tenantExists c.rangeTenant = false ∨ s.m.cmd.ranges.any p = false → Gives (.rangeClear q) s (s.m.complete q 7 0))) ∧
  (∀ q c s, s.m.runs q 0x15 c = true →
    let k := field (c.p 0) 5 0
    let t := field (c.p 0) 12 8
    (s.m.tenantExists t = true → Gives (.mailboxAssign q) s (((s.m.setFld (Reg.cmdMbCtl k) 63 63 1).setFld (Reg.cmdMbCtl k) 60 56 t).complete q 0 0)) ∧
    (s.m.tenantExists t = false → Gives (.mailboxAssign q) s (s.m.complete q 7 0))) ∧
  (∀ q c s, s.m.runs q 0x10 c = true ∨ s.m.runs q 0x13 c = true ∨ s.m.runs q 0x20 c = true ∨ s.m.runs q 0x25 c = true → s.m.blocked c = true →
    (c.opcode = 0x10 → Gives (.tenantCreate q) s (s.m.defer q)) ∧
    (c.opcode = 0x13 → s.m.rangePlace (c.p 0).toNat (c.p 1).toNat = true → Gives (.rangeSet q) s (s.m.defer q)) ∧
    (c.opcode = 0x20 → Gives (.contextCreate q) s (s.m.defer q)) ∧
    (c.opcode = 0x25 → Gives (.resourceAssign q) s (s.m.defer q))) ∧
  (∀ q c s, s.m.running q = some c → c.wait = .shutdown → s.m.blocked c = false →
    let m := s.m.setWait q .none
    let c1 := { c with wait := .none }
    (c.opcode = 0x10 → Gives (.deferredPerform q) s (m.tenantCreatePerform c1)) ∧
    (c.opcode = 0x12 → Gives (.deferredPerform q) s (m.keyLoadPerform c1)) ∧
    (c.opcode = 0x13 → Gives (.deferredPerform q) s (m.rangeSetPerform c1)) ∧
    (c.opcode = 0x20 → Gives (.deferredPerform q) s (m.contextCreatePerform c1)) ∧
    (c.opcode = 0x25 → Gives (.deferredPerform q) s (m.resourceAssignPerform c1))) ∧
  (∀ idx x s, s.m.cmd.scrubs[idx]? = some x →
    (s.m.copiesIn x.base x.size = [] →
      let m := (s.m.zeroFill x.base x.size).invalidateAll
      Gives (.scrubEnd idx) s ({ m with cmd.scrubs := removeAt m.cmd.scrubs idx }.endTenants)) ∧
    (s.m.copiesIn x.base x.size ≠ [] → Gives (.scrubEnd idx) s (s.m.snoopEntries (s.m.copiesIn x.base x.size))))

/-- The context, queue and resource commands on a tenant's admin queue (Tables 12.9 and 12.10, R289, R295, R310, R311): the creation of a
context without windows and the refusal of one that exists, the teardown's steps, the purge after 100 ms, the creation and destruction of
queues, the assigning of channels and the releasing of channels and rings. The hitches' granules are filled once no host holds a copy. -/
def Obligations.ContextCommands : Prop :=
  (∀ q c x s, s.m.runsFreely q 0x20 c = true → s.m.context? q.tenant (field (c.p 0) 7 0) = some x → c.q = q →
    Gives (.contextCreate q) s (s.m.complete q 8 0)) ∧
  (∀ q c s, s.m.runsFreely q 0x20 c = true → c.q = q →
    let id := field (c.p 0) 7 0
    let x : Context := { tenant := q.tenant, ctx := id, poolBase := field (c.p 1) 31 16, poolSize := 0, cmBase := 0, cmSize := 0, hitches := field (c.p 0) 26 16 }
    s.m.context? q.tenant id = none → field (c.p 2) 32 16 = 0 → field (c.p 3) 22 12 = 0 → (s.m.cmd.contexts.filter (·.exists_)).length < 4096 →
    s.m.copiesIn (poolBase + field (c.p 1) 31 16 * 65536) (8 * x.hitches) = [] →
    Gives (.contextCreate q) s
      (({ s.m with cmd.contexts := (s.m.cmd.contexts.filter fun (y : Context) => !(y.tenant == q.tenant && y.ctx == id)) ++ [x] }.tagHitches
        (poolBase + field (c.p 1) 31 16 * 65536) x.hitches).complete q 0 0)) ∧
  (∀ q c x s, s.m.runs q 0x21 c = true → s.m.context? q.tenant (field (c.p 0) 7 0) = some x → x.tear = none →
    Gives (.contextDestroy q) s ((s.m.setWait q .teardown).beginTeardown q.tenant x.ctx (some q) false)) ∧
  (∀ q c x s, s.m.runs q 0x22 c = true → s.m.context? q.tenant (field (c.p 0) 7 0) = some x → x.tear = none →
    Gives (.contextReset q) s ((s.m.setWait q .teardown).beginTeardown q.tenant x.ctx (some q) true)) ∧
  (∀ q c s, s.m.context? q.tenant (field (c.p 0) 7 0) = none →
    (s.m.runs q 0x21 c = true → Gives (.contextDestroy q) s (s.m.complete q 7 0)) ∧
    (s.m.runs q 0x22 c = true → Gives (.contextReset q) s (s.m.complete q 7 0))) ∧
  (∀ t ctx x d s, s.m.context? t ctx = some x → x.tear = some d →
    (s.m.outstanding t ctx = 0 → d.purging = false → s.m.copiesIn x.poolAt (8 * x.hitches) = [] →
      Gives (.teardownDrainEnd t ctx) s (s.m.finishTeardown x d 0)) ∧
    (s.m.outstanding t ctx ≠ 0 → d.purging = false → d.since + 2500000 ≤ s.m.time → Gives (.teardownDrainTimeout t ctx) s
      (s.m.modContext t ctx fun y => { y with tear := some { d with purging := true, purged := s.m.outstanding t ctx } })) ∧
    (d.purging = true → s.m.copiesIn x.poolAt (8 * x.hitches) = [] →
      let mine (u : TxBurst) : Bool := u.burst.tenant == t && u.burst.ctx == ctx
      let told (p : TxPair) : Option Burst := (p.unacked.find? mine).map fun u =>
        { u.burst with kind := 8, seq := ((p.unacked.find? fun v => !mine v).map (·.burst.seq)).getD p.nextSeq, data := [], mask := [] }
      let m := { s.m with
        cho.hostWrites := s.m.cho.hostWrites.filter fun w => w.owner != some (t, ctx)
        fab.tx := s.m.fab.tx.map fun (p : TxPair) => { p with unacked := p.unacked.filter fun u => !mine u }
        fab.reads := s.m.fab.reads.filter fun r => !(r.tenant == t && r.ctx == ctx)
        eng.collOut := s.m.eng.collOut.filter fun o => !(o.tenant == t && o.ctx == ctx)
        fab.fabOut := s.m.fab.fabOut ++ s.m.fab.tx.filterMap told }
      Gives (.purgeEnd t ctx) s ((m.addFld Reg.cmdPurged 63 0 d.purged).finishTeardown x d d.purged))) ∧
  (∀ q c s, s.m.runs q 0x23 c = true →
    let id : QueueId := ⟨q.tenant, field (c.p 2) 47 40, field (c.p 2) 39 36⟩
    let sq := field (c.p 2) 59 56
    let cq := field (c.p 2) 55 52
    let inRange (a n : Nat) : Prop := s.m.remoteNode a = none ∧ a < 2 ^ 60 ∧ s.m.rangeOk q.tenant (localPart a) n false false = true ∧
      s.m.rangeOk q.tenant (localPart a) n true false = true
    let new (starve : Nat) : Queue := { id := id, sqBase := (c.p 0).toNat, cqBase := (c.p 1).toNat, log2Sq := sq, log2Cq := cq
                                        cls := field (c.p 2) 51 50, irqEn := bit (c.p 2) 49, starve := starve }
    (s.m.context? id.tenant id.ctx = none → Gives (.queueCreate q) s (s.m.complete q 7 0)) ∧
    ((s.m.context? id.tenant id.ctx).isSome → inRange (c.p 0).toNat (64 * 2 ^ sq) → inRange (c.p 1).toNat (32 * 2 ^ cq) →
      ((s.m.queue? id).isSome → Gives (.queueCreate q) s (s.m.complete q 8 0)) ∧
      (s.m.queue? id = none → field (c.p 3) 39 0 ≠ 0 →
        Gives (.queueCreate q) s ((s.m.addQueue (new (max (field (c.p 3) 39 0) 25000))).complete q 0 0)) ∧
      (s.m.queue? id = none → field (c.p 3) 39 0 = 0 →
        Gives (.queueCreate q) s ((s.m.addQueue (new (if field (c.p 2) 51 50 = 2 then 2500000 else 25000000))).complete q 0 0))) ∧
    ((s.m.context? id.tenant id.ctx).isSome → ¬ (inRange (c.p 0).toNat (64 * 2 ^ sq) ∧ inRange (c.p 1).toNat (32 * 2 ^ cq)) →
      Gives (.queueCreate q) s (s.m.complete q 2 0))) ∧
  (∀ q c x s, s.m.runs q 0x24 c = true →
    let id : QueueId := ⟨q.tenant, field (c.p 0) 7 0, field (c.p 0) 11 8⟩
    s.m.queue? id = some x → isAdmin id = false →
    ((s.m.running id).isSome → Gives (.queueDestroy q) s ((s.m.modQueue id fun y => { y with destroyBy := some q }).setWait q .unit)) ∧
    (s.m.running id = none →
      let fetched := (s.m.cmd.cmds.filter fun y => y.q == id).foldl
        (fun m y => ({ m with cmd.cmds := m.cmd.cmds.erase y } : Block).refusePacket y 0xA 0) s.m
      let m := Block.abortPackets id (2 ^ x.log2Sq + x.waiting.length) fetched
      Gives (.queueDestroy q) s ({ m with cmd.queues := m.cmd.queues.filter fun (y : Queue) => y.id != id }.complete q 0 0))) ∧
  (∀ q c s, s.m.runsFreely q 0x25 c = true →
    let kind := field (c.p 0) 63 60
    let unit := field (c.p 0) 51 40
    let idx := field (c.p 0) 7 0
    let ctx := field (c.p 1) 7 0
    let owner := resourceOwner kind unit idx
    (s.m.context? q.tenant ctx = none → Gives (.resourceAssign q) s (s.m.complete q 7 0)) ∧
    ((s.m.context? q.tenant ctx).isSome → s.m.fld owner 63 63 = 1 → Gives (.resourceAssign q) s (s.m.complete q 8 0)) ∧
    ((s.m.context? q.tenant ctx).isSome → s.m.fld owner 63 63 = 0 → kind = 0 → Gives (.resourceAssign q) s
      (((s.m.clearResource 0 unit idx).setReg owner (putBit (putField (putField 0 12 8 q.tenant) 7 0 ctx) 63 true)).complete q 0 0))) ∧
  (∀ q c s, s.m.runs q 0x26 c = true →
    let kind := field (c.p 0) 63 60
    let unit := field (c.p 0) 51 40
    let idx := field (c.p 0) 7 0
    let owner := resourceOwner kind unit idx
    kind ≠ 4 →
    (s.m.ownedBy owner q.tenant (field (c.p 1) 7 0) = false → Gives (.resourceRelease q) s (s.m.complete q 7 0)) ∧
    (s.m.ownedBy owner q.tenant (field (c.p 1) 7 0) = true → s.m.resourceIdle kind unit idx = false →
      Gives (.resourceRelease q) s (s.m.setWait q .unit)) ∧
    (s.m.ownedBy owner q.tenant (field (c.p 1) 7 0) = true → s.m.resourceIdle kind unit idx = true →
      Gives (.resourceRelease q) s (((s.m.clearResource kind unit idx).setReg owner 0).complete q 0 0)))

/-- The work commands of a queue (R91, R297, R298, R295, R249 to R253, R514): a program image that fails a check ends with IMAGE_ERROR; an
unknown handle ends UNKNOWN_TARGET; HITCH_SIGNAL adds to a counter of its context; a bound TASK_RUN that names no pages and whose saddles are all
RESIDENT is dispatched as soon as its cores are free, once its saddle table stands filled in at its home (R247); COPY takes the command channel
of its tile; a saddle is kept as a new version when it is sound and has room; an unload frees the versions that no command binds and waits
for the others (R253). -/
def Obligations.WorkCommands : Prop :=
  (∀ q c x s, s.m.runs q 0x100 c = true → s.m.context? q.tenant q.ctx = some x →
    let r := loadReq c (s.m.readPayload c)
    let h := headerOf r.image
    let absent := h.magic = 0x4C445242 ∧ h.major = 1 ∧ h.family = 0x1A0C ∧ 0 < h.units % 4 ∧ s.m.tuning = false
    let placed := placeImage x r
    let room := (s.m.cmd.programs.filter fun p => p.tenant == q.tenant && p.ctx == q.ctx && p.gone.isNone).length < 64 ∧
      s.m.storeBytes + total (placed.map fun p => p.2.2.length) ≤ 2 ^ 32
    (absent → Gives (.programLoad q) s (s.m.complete q 1 0)) ∧
    (¬ absent → s.m.imageBad x r = true → Gives (.programLoad q) s (s.m.complete q 5 0)) ∧
    (¬ absent → s.m.imageBad x r = false → ¬ room → Gives (.programLoad q) s (s.m.complete q 6 0)) ∧
    (¬ absent → s.m.imageBad x r = false → room →
      let code := (sectionsOf r.image h).find? fun s => s.type == 1
      let p : Program := { handle := s.m.freeHandle q.tenant q.ctx, tenant := q.tenant, ctx := q.ctx, slots := r.cores, ranks := r.ranks, entry := h.entry
                           codeOff := (code.map (·.mem)).getD 0, codeSize := (code.map (·.size)).getD 0, cmBytes := h.cm, args := r.args, placed := placed }
      Gives (.programLoad q) s
        (({ s.m.layProgram x p with cmd.programs := s.m.cmd.programs ++ [p] }.modContext q.tenant q.ctx
          fun y => { y with cores := r.cores.foldl insertNat y.cores }).complete q 0 p.handle))) ∧
  (∀ q c s, s.m.runs q 0x101 c = true →
    let h := field (c.p 0) 31 0
    let p (x : Program) : Bool := x.tenant == q.tenant && x.ctx == q.ctx && x.handle == h && x.gone.isNone
    let users := (s.m.cmd.cmds.filter fun k => k.opcode == 0x102 && k.q.tenant == q.tenant && k.q.ctx == q.ctx && field (k.p 0) 63 32 == h).map
      fun k => (k.q, k.sqHead)
    (s.m.cmd.programs.any p = false → Gives (.programUnload q) s (s.m.complete q 7 0)) ∧
    (s.m.cmd.programs.any p = true → Gives (.programUnload q) s
      ({ s.m with cmd.programs := mapIf p (fun x => { x with gone := some users }) s.m.cmd.programs }.complete q 0 0))) ∧
  (∀ q c s, s.m.runs q 0x103 c = true →
    (s.m.hitchAddr q.tenant q.ctx (field (c.p 0) 9 0) = none → Gives (.hitchSignal q) s (s.m.complete q 7 0)) ∧
    (∀ a, s.m.hitchAddr q.tenant q.ctx (field (c.p 0) 9 0) = some a →
      Gives (.hitchSignal q) s ((s.m.hitchAdd a (c.p 1).toNat).complete q 0 0))) ∧
  (∀ q c p x s, s.m.runs q 0x102 c = true → c.q = q → s.m.programOf c = some p → s.m.context? q.tenant q.ctx = some x →
    p.slots.all s.m.coreUsable = true → c.bound = true → c.kv = [] → (∀ z ∈ s.m.boundSaddles c, z.state = .resident) →
    let m := s.m.modCmd q fun _ => c
    (m.slotsOpen c p = false → Gives (.taskRun q) s (m.setWait q .residency)) ∧
    (m.slotsOpen c p = true → c.p 1 = 0 → Gives (.taskRun q) s (m.dispatchTask c p x)) ∧
    (m.slotsOpen c p = true → c.p 1 ≠ 0 →
      let count := field (c.p 2) 63 48
      let filled := m.fillTable c (c.p 1).toNat count
      (filled.writeWaits (localPart (c.p 1).toNat) (32 * count) = true → Gives (.taskRun q) s (filled.setWait q .table)) ∧
      (filled.writeWaits (localPart (c.p 1).toNat) (32 * count) = false → Gives (.taskRun q) s (filled.dispatchTask c p x)))) ∧
  (∀ q c s, s.m.runs q 0x102 c = true → c.q = q → s.m.programOf c = none → Gives (.taskRun q) s (s.m.complete q 7 0)) ∧
  (∀ q c tile s, s.m.runs q 0x104 c = true →
    (tile < s.m.tileCount → (s.m.tile tile).cmdChan = none → Gives (.copy q tile) s
      (((s.m.modTile tile fun x => { x with cmdChan := some q, cmdDone := 0, cmdTag := none }).setWait q .unit).assignEngines tile)) ∧
    (s.m.tileCount ≤ tile ∨ (s.m.tile tile).cmdChan.isSome → Gives (.copy q tile) s s.m)) ∧
  (∀ q c s, s.m.runs q 0x110 c = true →
    let p := s.m.readPayload c
    let h := sadHeaderOf p
    (h.sound p.length = false → Gives (.saddleLoad q) s (s.m.complete q 5 0)) ∧
    (∀ x, h.sound p.length = true → s.m.saddle? q.tenant h.handle = some x → x.state ≠ .lost → Gives (.saddleLoad q) s (s.m.complete q 8 0)) ∧
    (h.sound p.length = true → (∀ x, s.m.saddle? q.tenant h.handle = some x → x.state = .lost) →
      let kept := s.m.keepImage q.tenant h.handle 1 (p.take h.bytes)
      (kept = none → Gives (.saddleLoad q) s (s.m.complete q 6 0)) ∧
      (∀ m1, kept = some m1 → s.m.saddle? q.tenant h.handle = none → Gives (.saddleLoad q) s (m1.complete q 0 1)) ∧
      (∀ m1 x, kept = some m1 → s.m.saddle? q.tenant h.handle = some x →
        Gives (.saddleLoad q) s ((m1.modSaddle (· == x) fun y => { y with old := true }).complete q 0 1)))) ∧
  (∀ q c s, s.m.runs q 0x111 c = true →
    let p := s.m.readPayload c
    let h := sadHeaderOf p
    (s.m.saddle? q.tenant (field (c.p 0) 31 0) = none → Gives (.saddleUpdate q) s (s.m.complete q 7 0)) ∧
    (∀ x, s.m.saddle? q.tenant (field (c.p 0) 31 0) = some x →
      (x.state = .lost → Gives (.saddleUpdate q) s (s.m.complete q 9 0)) ∧
      (x.state ≠ .lost → h.sound p.length = false ∨ h.handle ≠ x.handle → Gives (.saddleUpdate q) s (s.m.complete q 5 0)) ∧
      (x.state ≠ .lost → h.sound p.length = true → h.handle = x.handle →
        s.m.keepImage q.tenant x.handle ((x.version + 1) % 65536) (p.take h.bytes) = none → Gives (.saddleUpdate q) s (s.m.complete q 6 0)) ∧
      (∀ m1, x.state ≠ .lost → h.sound p.length = true → h.handle = x.handle →
        s.m.keepImage q.tenant x.handle ((x.version + 1) % 65536) (p.take h.bytes) = some m1 → Gives (.saddleUpdate q) s
          ((m1.modSaddle (fun y => y.uid == x.uid) fun y => { y with old := true }).complete q 0 ((x.version + 1) % 65536))))) ∧
  (∀ q c s, s.m.runs q 0x112 c = true →
    (s.m.saddle? q.tenant (field (c.p 0) 31 0) = none → Gives (.saddleUnload q) s (s.m.complete q 7 0)) ∧
    (∀ x, s.m.saddle? q.tenant (field (c.p 0) 31 0) = some x →
      let mine (y : Saddle) : Bool := y.tenant == x.tenant && y.handle == x.handle && !y.retiring
      let freed := ((s.m.page.saddles.filter mine).filter fun y => !s.m.pinned y).foldl Block.freeSaddle s.m
      (x.state = .lost → Gives (.saddleUnload q) s (s.m.complete q 9 0)) ∧
      (x.state ≠ .lost → ((s.m.page.saddles.filter mine).filter s.m.pinned) = [] → Gives (.saddleUnload q) s (freed.complete q 0 0)) ∧
      (x.state ≠ .lost → ((s.m.page.saddles.filter mine).filter s.m.pinned) ≠ [] → Gives (.saddleUnload q) s
        ((freed.modSaddle mine fun y => { y with retiring := true, unloadBy := some q }).modCmd q
          fun k => { k with wait := .unit, deferred := true }))))

/-- The paging engines and the memories' events: an engine without a segment takes the next of its channel's, urgent before background (R173,
R174); one that has moved its segment counts it and takes the next, and first asks back what a host holds exclusively; the last segment of a
page-out frees the object's place (R175, R177); an object whose every segment has been moved in is resident, and the commands it held go on
(R255); page-outs queue for resident objects that no command references, and of the saddles the one that R254 evicts first goes; a patrol
corrects a stack and notes its end, or a channel of the tier (R161, R171); a failed DDR5 channel takes the module to recovery. -/
def Obligations.PagingRows : Prop :=
  (∀ e s, (s.m.page.engines.find? fun x => x.1 == e) = none →
    let up := s.m.fld Reg.ddrTierStatus 63 63 ≠ 0 ∧ s.m.channels.contains e = true
    let idle := { s.m with page.engines := Tbl.drop s.m.page.engines e }
    let taken (r : PageReq) (urgent : Bool) : Block :=
      { s.m with page.engines := Tbl.put s.m.page.engines e (r.obj, urgent, Tbl.getD 0 r.done e) }.beat 7 e
    (¬ up → Gives (.pagingSegmentComplete e) s idle) ∧
    (up → s.m.openReq e s.m.page.urgent = none → s.m.openReq e s.m.page.background = none → Gives (.pagingSegmentComplete e) s idle) ∧
    (∀ r, up → s.m.openReq e s.m.page.urgent = some r → Gives (.pagingSegmentComplete e) s (taken r true)) ∧
    (∀ r, up → s.m.openReq e s.m.page.urgent = none → s.m.openReq e s.m.page.background = some r →
      Gives (.pagingSegmentComplete e) s (taken r false))) ∧
  (∀ e e' id k urgent o r s, (s.m.page.engines.find? fun x => x.1 == e) = some (e', id, urgent, k) → s.m.obj? id = some o →
    ((if urgent then s.m.page.urgent else s.m.page.background).find? fun r => r.obj == id) = some r →
    let busy := (s.m.segBlocks o e k).filter fun b => s.m.heldExclusive (blockSource o r.pageIn b) (blockBytesOf o b)
    let m := s.m.moveSegment o r.pageIn e k
    let counted := if urgent then { m with page.urgent := countSegment o.id e m.page.urgent }.setFld Reg.ddrPageUrgent 63 0
        ((m.reg Reg.ddrPageUrgent).toNat - s.m.segBytes o e k)
      else { m with page.background := countSegment o.id e m.page.background }
    let last := r.pageIn = false ∧ s.m.reqDone o { r with done := Tbl.put r.done e (k + 1) } = true
    (busy = [] → ¬ last → Gives (.pagingSegmentComplete e) s (counted.takeSegment e)) ∧
    (busy = [] → last → Gives (.pagingSegmentComplete e) s ((counted.pagedOut o).takeSegment e)) ∧
    (busy ≠ [] → Gives (.pagingSegmentComplete e) s
      (busy.foldl (fun m b => m.snoopReads (blockSource o r.pageIn b) (blockBytesOf o b)) s.m))) ∧
  (∀ id o r s, s.m.obj? id = some o → (s.m.page.urgent.find? fun r => r.obj == id) = some r →
    let m := (s.m.pagedIn o).endHolds.loadHeld
    (s.m.reqDone o r = false → Gives (.pageInComplete id) s s.m) ∧
    (s.m.reqDone o r = true → Gives (.pageInComplete id) s
      ((m.cmd.cmds.filter fun c => c.started && c.wait == .residency).foldl (fun m c => taskRunEffect c.q m) m))) ∧
  (∀ id o t s, s.m.fld Reg.ddrTierStatus 63 63 ≠ 0 → s.m.obj? id = some o → o.kind = .other t → s.m.objPinned o = false → o.resident = true →
    s.m.queued id = false → Completes (.pageOut id) s fun m =>
      m.page = { s.m.page with background := s.m.page.background ++ [{ obj := id, pageIn := false, since := s.m.time }] } ∧
      OnlyRegs [] { s.m with page := m.page } m) ∧
  (∀ id o t h v z s, s.m.fld Reg.ddrTierStatus 63 63 ≠ 0 → s.m.obj? id = some o → o.kind = .saddle t h v → s.m.objPinned o = false →
    s.m.saddleAt? t h v = some z →
    (s.m.evictable = some z → Gives (.pageOut id) s (s.m.evict z)) ∧ (s.m.evictable ≠ some z → Gives (.pageOut id) s s.m)) ∧
  (∀ id o s, s.m.obj? id = some o → s.m.objPinned o = true ∨ s.m.fld Reg.ddrTierStatus 63 63 = 0 → Gives (.pageOut id) s s.m) ∧
  (∀ k s, k < 32 → k < s.m.stackCount → s.m.flt.failedStacks.contains k = false → Gives (.patrolScrub k) s
    ((s.m.correct (k * 0x1000000000) 0x1000000000).setReg (Reg.hbmScrub k) (BitVec.ofNat 64 s.m.time))) ∧
  (∀ k s, Gives (.patrolScrub (32 + k)) s
    ((s.m.ecc.filter fun e => s.m.region (128 * e.1) == .tier && s.m.tierChannel (128 * e.1) == k).foldl (fun m e => m.findError e) s.m)) ∧
  (∀ k s, k < 16 → s.m.channels.contains k = true → s.m.fld (Reg.ddrStatus k) 63 60 = 2 → s.m.fwRuns = true →
    let d := s.m.draw
    let m := if bit d.1 0 then { d.2 with flt.deadChannels := insertNat d.2.flt.deadChannels k } else d.2
    Gives (.ddrChannelFailure k) s ((m.setFld (Reg.ddrStatus k) 63 60 4).startRecovery))

/-- Job rings (R186, R191, R224, R240, R262, R283): a write of TAIL by firmware that stays in the ring and does not pass HEAD is taken, and any
other write of it, or one by a core that does not own the ring, changes nothing; a malformed entry reads RESULT 3, halts its ring, and
its command ends with status 4 (R188).
The codec rows (R180 to R190): the entry at HEAD runs when its OP is the row's, and first asks for what it cannot read yet; a malformed one
halts the ring; a job's end, once all it wrote is at its home, writes RESULT and, for a lossless encode, DLEN into the entry, moves HEAD on
and signals the hitch after them; a damaged job gives its tenant a fault record, of a KIND that no rule names (log entry 3). -/
def Obligations.RingsAndCodecs : Prop :=
  (
    (∀ (mtype idx unit ring tail : Nat) (r : Requester) (c : Instr) (s : State),
      (c = .cmpRingTail r unit ring tail ∧ mtype = 2 ∧ idx = 32 * unit + ring) ∨ (c = .drvRingTail r unit ring tail ∧ mtype = 3 ∧ idx = 8 * unit + ring) ∨
        (c = .grmRingTail r unit ring tail ∧ mtype = 4 ∧ idx = 4 * unit + ring) →
      let size := s.m.ringSize mtype idx
      let used := (s.m.tailOf mtype idx + size - s.m.headOf mtype idx) % size
      let fits := tail < size ∧ used + (tail + size - s.m.tailOf mtype idx) % size < size
      let m := s.m.setFld (ringTail mtype idx) (ringTop mtype) 0 tail
      (r = .firmware → fits → used = 0 → Gives c s (m.beat mtype idx)) ∧
      (r = .firmware → fits → used ≠ 0 → Gives c s m) ∧
      (r = .firmware → ¬ fits → Gives c s s.m) ∧
      (∀ n, r = .core n → s.m.ownsAsCore r (ringOwner mtype idx) = false → Gives c s s.m)) ∧
    (∀ (m : Block) (mtype idx size w hi : Nat) (x : Context) (word : Word), m.serves mtype idx x.tenant x.ctx = none →
      let m' := m.haltRing mtype idx x size w hi word
      m' = (m.entryWrite mtype idx x size w (putField word hi (hi - 1) 3)).setFld (ringHead mtype idx) 63 60 2 ∧ m'.ringSt mtype idx = 2)) ∧
  (
    (∀ (die ring op : Nat) (x : Context) (c : Instr) (s : State),
      (c = .lossyEncode die ring ∧ op = 0) ∨ (c = .lossyDecode die ring ∧ op = 1) ∨ (c = .losslessEncode die ring ∧ op = 2) ∨
        (c = .losslessDecode die ring ∧ op = 3) →
      let idx := 32 * die + ring
      s.m.entryReady 2 idx 64 x = true → (∀ e ∈ s.m.eng.codecs, e.1 ≠ idx) →
      let m := s.m.entryTaken 2 idx 64 x
      let w := s.m.entryWords 2 idx 64 x
      let j : CJob := ⟨w⟩
      let v := ringMover 2 idx x
      let r := runCodec m v j
      let job : CodecJob := { result := if r.subs = 0 then 1 else 2, dmgSub := r.subs, firstDmg := r.first.getD 0, dlen := r.dlen, encode := op == 2 }
      (j.op ≠ op → j.op ≤ 3 → Gives c s s.m) ∧
      (j.op = op → m.cjobBad j = true → Gives c s (m.haltRing 2 idx x 64 7 63 (wordAt w 7))) ∧
      (3 < j.op → m.cjobBad j = true → Gives c s (m.haltRing 2 idx x 64 7 63 (wordAt w 7))) ∧
      (j.op = op → m.cjobBad j = false → r.dead = false → r.needs ≠ [] → Gives c s (m.request v r.needs)) ∧
      (j.op = op → m.cjobBad j = false → r.dead = true → Gives c s (r.m.dropReads v)) ∧
      (j.op = op → m.cjobBad j = false → r.dead = false → r.needs = [] → Gives c s
        ({ r.m.dropReads v with eng.codecs := Tbl.put (r.m.dropReads v).eng.codecs idx job }.beat 2 idx))) ∧
    (∀ (die ring : Nat) (x : Context) (k : Nat) (e : CodecJob) (s : State),
      let idx := 32 * die + ring
      (s.m.eng.codecs.find? fun e => e.1 == idx) = some (k, e) → s.m.ringOf 2 idx = some x → s.m.ringSt 2 idx < 2 →
      s.m.allAcked (Master.code (.codec idx)) = true →
      let a := s.m.entryAddr 2 idx x 64 (s.m.headOf 2 idx)
      let w := leWords 8 (s.m.readMem a 64)
      s.m.outputsWait ⟨w⟩ = false →
      let w7 := putField (putField (putField (wordAt w 7) 63 62 e.result) 61 54 e.dmgSub) 47 0 e.firstDmg
      let m1 := if e.encode then (s.m.entryWrite 2 idx x 64 4 (putField (wordAt w 4) 63 48 (e.dlen % 65536))).entryWrite 2 idx x 64 5
          (putField (wordAt w 5) 63 42 (e.dlen / 65536))
        else s.m
      let m2 := (m1.entryWrite 2 idx x 64 7 w7).nextEntry 2 idx
      let m3 := { m2 with eng.codecs := Tbl.drop m2.eng.codecs idx }.signalAfter (bit (wordAt w 0) 39) x a 7 (field (wordAt w 5) 41 32)
        (field (wordAt w 5) 31 0)
      (e.result ≠ 2 → Gives (.codecJobEnd die ring) s m3) ∧
      (e.result = 2 → Gives (.codecJobEnd die ring) s ((m3.draw.2.satFld (Reg.cmpRingHead die ring) 43 12 1).faultFor (m3.draw.1.toNat % 256)
        2 idx x.tenant x.ctx 0 0 0 0 0 (m3.commandOf x.tenant x.ctx)))))

/-- The Drover at the origin (R227, R230 to R236): a dispatch whose lists and headers pass every check arms its hosted queues and sends one
claim for each expert; a grant moves its rows and closes its segment; a claim that a full host turned back is sent again every 200 µs, until
ARM_TMO is over; a job ends with its receipts once every segment is closed; a combine whose queues have completed and whose rows are here
returns them, and disarms its queues, and one that names another node's queue or one that has not completed ends with REASON 6 or 8.
The Drover at the host of a queue (R228 to R231, R234): a claim at a queue armed with its EXCH is granted at most the room that is left,
so that FILL never passes CAPACITY, and its origin is answered; any other claim is held while the host holds fewer than 1,024, and else
turned back; the last of PEERS closes completes the queue; a held claim is answered as expired after ARM_TMO, and a job of this module is told
at once. -/
def Obligations.DroverRows : Prop :=
  (
    (∀ (tile ring : Nat) (x : Context) (m1 m2 m3 : Block) (hs ms route : List Byte) (s : State),
      let idx := 8 * tile + ring
      let d : XD := ⟨s.m.entryWords 3 idx 128 x⟩
      let v := ringMover 3 idx x
      let ents := hostEnts d.hosted hs
      let map := (List.range d.experts).map fun e => leAt ms (8 * e) 8
      let ch := routeChoices d route
      let a := m3.armHosted idx d x v ents
      s.m.entryReady 3 idx 128 x = true → (∀ e ∈ s.m.eng.xjobs, e.1 ≠ idx) → d.op = 0 → d.reserved = false → d.misaligned = false →
      d.outOfRange x = false → (s.m.entryTaken 3 idx 128 x).engRead v (d.addr 9) (32 * d.hosted) = .data m1 hs false →
      m1.engRead v (d.addr 5) (8 * d.experts) = .data m2 ms false → (∀ e ∈ ents, e.rsv = 0 ∧ e.misaligned d.op = false) →
      (∀ q ∈ map, m2.mapBad q = false) → m2.headerReads v ents = ([], none) → m2.engRead v (d.addr 2) (32 * d.tokens) = .data m3 route false →
      (∀ tc ∈ ch, tc.2.2 < d.experts ∨ tc.2.2 = 0xFFFF) → a.2.1 = [] →
      let segs := map.zipIdx.map fun qe =>
        ({ expert := qe.2, qaddr := qe.1, choices := (ch.filter fun tc => tc.2.2 == qe.2).map fun tc => (tc.1, tc.2.1), since := s.m.time, sent := s.m.time } : Seg)
      let job : XJob := { words := d.w, exch := d.exch, segs := segs, reason := 0, hosted := a.2.2 }
      let m4 := ({ a.1 with eng.xjobs := Tbl.put a.1.eng.xjobs idx job }.beat 3 idx).dropReads v
      Gives (.exchangeDispatch tile ring) s
        (a.2.2.foldl (fun m q => m.serveHeld q d.exch) (segs.foldl (fun m g => m.xsend (.claim (segClaim m x d g))) m4))) ∧
    (∀ (tile ring expert grant base rows : Nat) (k : Nat) (j : XJob) (x : Context) (g : Seg) (s : State),
      let idx := 8 * tile + ring
      (s.m.eng.xjobs.find? fun e => e.1 == idx) = some (k, j) → s.m.ringOf 3 idx = some x → s.m.ringSt 3 idx < 2 →
      (j.segs.find? fun y => y.expert == expert) = some g →
      (g.phase = 0 →
        Gives (.grantArrival tile ring expert .full grant base rows) s (s.m.modSeg idx expert fun y => { y with nacked := true }) ∧
        Gives (.grantArrival tile ring expert .held grant base rows) s (s.m.modSeg idx expert fun y => { y with nacked := false }) ∧
        Gives (.grantArrival tile ring expert .expired grant base rows) s (s.m.expireSeg idx expert) ∧
        (let g1 : Seg := { g with phase := 1, grant := min grant g.choices.length, base := base, rowsOff := rows, nacked := false }
         Gives (.grantArrival tile ring expert .granted grant base rows) s ((s.m.modSeg idx expert fun _ => g1).moveRows idx x j g1)) ∧
        (g.nacked = true → g.sent + 5000 ≤ s.m.time → s.m.time < g.since + s.m.fld (Reg.drvCfg tile) 39 0 →
          Gives (.claimResend tile ring expert) s ((s.m.modSeg idx expert fun y => { y with sent := s.m.time }).xsend (.claim (segClaim s.m x ⟨j.words⟩ g)))) ∧
        (g.nacked = true → g.sent + 5000 ≤ s.m.time → g.since + s.m.fld (Reg.drvCfg tile) 39 0 ≤ s.m.time →
          Gives (.claimResend tile ring expert) s (s.m.expireSeg idx expert)) ∧
        (g.nacked = false ∨ s.m.time < g.sent + 5000 → Gives (.claimResend tile ring expert) s s.m)) ∧
      (g.phase = 1 → ∀ a, Gives (.grantArrival tile ring expert a grant base rows) s (s.m.moveRows idx x j g)) ∧
      (2 ≤ g.phase → ∀ a, Gives (.grantArrival tile ring expert a grant base rows) s s.m)) ∧
    (∀ (tile ring : Nat) (k : Nat) (j : XJob) (x : Context) (m : Block) (s : State),
      let idx := 8 * tile + ring
      let d : XD := ⟨j.words⟩
      let p := s.m.payQueues
      (p.eng.xjobs.find? fun e => e.1 == idx) = some (k, j) → p.ringOf 3 idx = some x → p.ringSt 3 idx < 2 → (∀ g ∈ j.segs, 2 ≤ g.phase) →
      j.timedOut = true ∨ (∀ q ∈ j.hosted, ∀ a, p.armedAt q = some a → a.complete = true ∧ a.owed = false) →
      p.allAcked (ringMover 3 idx x).code = true →
      p.engWrite (ringMover 3 idx x) (d.addr 6)
        ((List.range d.tokens).flatMap fun t => (List.range d.k).flatMap fun c => leBytes 4 (j.receipt t c)) false = (m, true) →
      let late := j.hosted.foldl (fun m q => if (m.armedAt q).any (fun a => !a.complete) then m.disarm q else m) m
      (j.reason ≠ 0 → Gives (.dispatchJobEnd tile ring) s (m.endExchange idx x d 3 j.reason (j.segs.any (·.refused)))) ∧
      (j.reason = 0 → j.timedOut = false → Gives (.dispatchJobEnd tile ring) s (m.endExchange idx x d 1 0 (j.segs.any (·.refused)))) ∧
      (j.reason = 0 → j.timedOut = true → Gives (.dispatchJobEnd tile ring) s (late.endExchange idx x d 2 7 (j.segs.any (·.refused))))) ∧
    (∀ (tile ring : Nat) (x : Context) (m1 m2 : Block) (hs ms : List Byte) (s : State),
      let idx := 8 * tile + ring
      let p := s.m.payQueues
      let d : XD := ⟨p.entryWords 3 idx 128 x⟩
      let v := ringMover 3 idx x
      let map := (List.range d.experts).map fun e => leAt ms (8 * e) 8
      p.entryReady 3 idx 128 x = true → (∀ e ∈ p.eng.xjobs, e.1 ≠ idx) → d.op = 1 → d.reserved = false → d.misaligned = false →
      d.outOfRange x = false → (p.entryTaken 3 idx 128 x).engRead v (d.addr 9) (32 * d.hosted) = .data m1 hs false →
      m1.engRead v (d.addr 5) (8 * d.experts) = .data m2 ms false → (∀ q ∈ map, m2.mapBad q = false) →
      ((∀ y ∈ hostEnts d.hosted hs, y.rsv = 0 ∧ y.misaligned d.op = false) →
        let work := (hostEnts d.hosted hs).map fun e => (e, if m2.onModule (e.qaddr, 128) then
          (m2.armedAt (localPart e.qaddr)).filter fun a => a.complete && a.exch == d.exch && a.tenant == x.tenant else none)
        let jobs := work.filterMap fun ea => ea.2.map fun a => (ea.1, a)
        let r := jobs.foldl (fun (r : Block × Bool) ea => if r.2 then r.1.combineRows idx x d ea.1 ea.2 else r) (m2, true)
        (m2.combineReason work ≠ 0 → Gives (.exchangeCombine tile ring) s (m2.endExchange idx x d 3 (m2.combineReason work) false)) ∧
        (m2.combineReason work = 0 → (∃ ea ∈ jobs, ea.2.owed = true) → Gives (.exchangeCombine tile ring) s p) ∧
        (m2.combineReason work = 0 → (∀ ea ∈ jobs, ea.2.owed = false) →
        (∀ ea ∈ jobs, ∀ k < ea.2.fill, m2.engNeeds v (ownGlobal (ea.2.qaddr + 128 + 16 * k)) 16 = [] ∧
          m2.engNeeds v (ea.1.outAddr + k * ea.1.outPitch) d.rowBytes = []) → r.2 = true →
        Gives (.exchangeCombine tile ring) s
          ((jobs.foldl (fun m ea => (m.closeOrigins v d ea.2).disarm ea.2.qaddr)
            ((r.1.dropReads v).addFld (Reg.drvRowsSent tile ring) 63 0 (total (jobs.map fun ea => ea.2.fill)))).endExchange idx x d 1 0 false))))) ∧
  (
    (∀ (tile : Nat) (c : Claim) (a : Armed) (s : State), s.m.armedAt (localPart c.qaddr) = some a → a.exch = c.exch → a.complete = false →
      Gives (.claimArrival tile c) s (s.m.serveClaim a c)) ∧
    (∀ (m : Block) (a : Armed) (c : Claim), a.fill ≤ a.capacity → m.armedAt a.qaddr = some a →
      let fits := c.rowBytes = a.rowBytes ∧ c.tenant = a.tenant
      let m' := m.serveClaim a c
      ∃ b, m'.armedAt a.qaddr = some b ∧ b.fill ≤ b.capacity ∧ b.routed = a.routed + c.n ∧
        b.fill + b.skipped = a.fill + a.skipped + c.n ∧ b.origins = a.origins ++ [(c.node, c.tenant, c.ctx, c.combHitch)] ∧
        (fits → b.fill = min (a.fill + c.n) a.capacity ∧
          m'.eng.xout = m.eng.xout ++ [.answer c .granted (b.fill - a.fill) a.fill (field (wordAt (leWords 16 a.header) 1) 63 32)]) ∧
        (¬ fits → b.fill = a.fill ∧ m'.eng.xout = m.eng.xout ++ [.answer c .refused 0 a.fill (field (wordAt (leWords 16 a.header) 1) 63 32)])) ∧
    (∀ (tile : Nat) (c : Claim) (s : State), (∀ a, s.m.armedAt (localPart c.qaddr) = some a → a.exch ≠ c.exch ∨ a.complete = true) →
      let l := Tbl.getD [] s.m.eng.heldClaims tile
      (l.length < 1024 → Gives (.claimArrival tile c) s
        ({ s.m with eng.heldClaims := Tbl.put s.m.eng.heldClaims tile (l ++ [({ claim := c, since := s.m.time } : HeldClaim)]) }.xsend (.answer c .held 0 0 0))) ∧
      (1024 ≤ l.length → Gives (.claimArrival tile c) s (s.m.xsend (.answer c .full 0 0 0)))) ∧
    (∀ (tile q exch : Nat) (s : State), s.m.armedAt (localPart q) = none → Gives (.segmentCloseArrival tile q exch) s s.m) ∧
    (∀ (tile q exch : Nat) (a : Armed) (s : State), s.m.armedAt (localPart q) = some a → a.exch = exch → a.complete = false →
      let a1 := { a with segments := a.segments + 1 }
      let m := s.m.modArmed a.qaddr fun _ => a1
      (a.segments + 1 = a.peers → Gives (.segmentCloseArrival tile q exch) s (m.finishQueue a1).payQueues) ∧
      (a.segments + 1 ≠ a.peers → Gives (.segmentCloseArrival tile q exch) s m)) ∧
    (∀ (tile i : Nat) (s : State), (Tbl.getD [] s.m.eng.heldClaims tile)[i]? = none → Gives (.claimArmTimeout tile i) s (s.m.expireResends tile)) ∧
    (∀ (tile i : Nat) (h : HeldClaim) (s : State), (Tbl.getD [] s.m.eng.heldClaims tile)[i]? = some h →
      let m := { s.m with eng.heldClaims := Tbl.put s.m.eng.heldClaims tile (removeAt (Tbl.getD [] s.m.eng.heldClaims tile) i) }
      let claims (e : Nat × XJob) : Bool := e.2.exch == h.claim.exch &&
        ((s.m.ringOf 3 e.1).any fun x => x.tenant == h.claim.tenant && x.ctx == h.claim.ctx) &&
        e.2.segs.any fun g => g.phase == 0 && g.expert == h.claim.expert && g.qaddr == h.claim.qaddr
      let over_ := h.since + s.m.fld (Reg.drvCfg tile) 39 0 ≤ s.m.time
      (¬ over_ → Gives (.claimArmTimeout tile i) s s.m) ∧
      (over_ → h.claim.node ≠ s.m.ownNode ∨ s.m.eng.xjobs.find? claims = none →
        Gives (.claimArmTimeout tile i) s (m.xsend (.answer h.claim .expired 0 0 0))) ∧
      (∀ e, over_ → h.claim.node = s.m.ownNode → s.m.eng.xjobs.find? claims = some e →
        Gives (.claimArmTimeout tile i) s (m.expireSeg e.1 h.claim.expert))))

/-- The Groom's rows (R262 to R278): the descriptor at HEAD runs when the row is the one that its RULE and SPARSE name; one whose parameters lie
outside the pool window is refused, and so is one that its own words, its parameters or its regions make malformed, with the lowest of the
codes; one with none of R278's conditions is applied, and GROOM_DESCRIPTOR_END then writes the header and RESULT, moves HEAD on and signals,
and a listed descriptor makes room for the next of its list. GROOM_UPDATE gives its list to the lowest ring of the unit that its context owns. -/
def Obligations.GroomRows : Prop :=
  (∀ (stack ring : Nat) (row : GD → Bool) (x : Context) (c : Instr) (s : State),
    (c = .momentumSgd stack ring ∧ row = plainRow 0) ∨ (c = .adamw stack ring ∧ row = plainRow 1) ∨ (c = .signMomentum stack ring ∧ row = plainRow 2) ∨
      (c = .factoredSecondMoment stack ring ∧ row = plainRow 3) ∨ (c = .generalRecurrence stack ring ∧ row = plainRow 4) ∨
      (c = .sparseRowUpdate stack ring ∧ row = fun d => d.sparse) →
    let idx := 4 * stack + ring
    s.m.entryReady 4 idx 128 x = true → (∀ e ∈ s.m.eng.grooms, e.1 ≠ idx) →
    let m := s.m.entryTaken 4 idx 128 x
    let d : GD := ⟨s.m.entryWords 4 idx 128 x⟩
    let v := ringMover 4 idx x
    (row d = false → Gives c s s.m) ∧
    (∀ (m2 : Block) (pb : List Byte),
      let q : Prm := ⟨(List.range 10).map fun i => BitVec.ofNat 32 (leAt pb (8 * i) 4)⟩
      let codes := (if d.reserved then [1] else []) ++ (if d.outOfRange then [3] else []) ++
        (if d.rule == 4 && !m.inPoolWindow x (d.addr 11) 256 then [2] else []) ++
        (if ((List.range 10).any fun i => leAt pb (8 * i + 4) 4 != 0) || ((List.range 6).any fun i => leAt pb (80 + 8 * i) 8 != 0) then [1] else []) ++
        (if d.rule == 3 && !(Val.zero.lt (q.at 6).val && Val.zero.lt (q.at 7).val) then [3] else []) ++
        (if (d.regions q).all (m2.inStack stack) then [] else [2]) ++ (if regionsMeet (d.regions q) then [3] else [])
      row d = true → m.inPoolWindow x (d.addr 15) 128 = true → m.engRead v (ownGlobal (localPart (d.addr 15))) 128 = .data m2 pb false →
      lowest codes ≠ 0 → Gives c s (m2.refuseGroom idx x d (lowest codes))) ∧
    (row d = true → m.inPoolWindow x (d.addr 15) 128 = false → Gives c s (m.refuseGroom idx x d (if d.reserved then 1 else 2))) ∧
    (∀ (m2 m3 m4 : Block) (pb il pg : List Byte),
      let q : Prm := ⟨(List.range 10).map fun i => BitVec.ofNat 32 (leAt pb (8 * i) 4)⟩
      let rows := (List.range d.rows).map fun i => leAt il (4 * i) 4
      row d = true → d.reserved = false → d.outOfRange = false → m.inPoolWindow x (d.addr 15) 128 = true →
      (d.rule = 4 → m.inPoolWindow x (d.addr 11) 256 = true) →
      m.engRead v (ownGlobal (localPart (d.addr 15))) 128 = .data m2 pb false →
      (∀ i < 10, leAt pb (8 * i + 4) 4 = 0) → (∀ i < 6, leAt pb (80 + 8 * i) 8 = 0) →
      (d.rule = 3 → Val.zero.lt (q.at 6).val = true ∧ Val.zero.lt (q.at 7).val = true) →
      (∀ e ∈ d.regions q, m2.inStack stack e = true) → regionsMeet (d.regions q) = false →
      m2.engRead v (ownGlobal (localPart (d.addr 11))) (if d.sparse then 4 * d.rows else 0) = .data m3 il false →
      m3.engRead v (ownGlobal (localPart (d.addr 11))) (if d.rule = 4 then 256 else 0) = .data m4 pg false →
      (d.rule = 4 → m4.genrecMask.testBit stack = true ∧ progBad (leWords 32 pg) = false) →
      (d.sparse = true → (∀ ab ∈ rows.zip (rows.drop 1), ab.1 < ab.2) ∧ ∀ r ∈ rows, r < d.tableRows) →
      (d.paced = true → m4.ownsGroup x.tenant d.group = true) →
      Gives c s (m4.startGroom idx stack v d q il (leWords 32 pg)))) ∧
  (∀ (stack ring : Nat) (x : Context) (k : Nat) (e : GroomJob) (m1 : Block) (s : State),
    let idx := 4 * stack + ring
    let d : GD := ⟨leWords 16 (s.m.readMem (s.m.entryAddr 4 idx x 128 (s.m.headOf 4 idx)) 128)⟩
    let v := ringMover 4 idx x
    let fin : AttM Unit := do
      let hd ← grmHeader v d
      putHeader v d ((hd.set 0 (putField (wordAt hd 0) 63 32 e.step)).set 1 (putField (wordAt hd 1) 63 62 0))
    (s.m.eng.grooms.find? fun e => e.1 == idx) = some (k, e) → s.m.ringOf 4 idx = some x → s.m.ringSt 4 idx < 2 →
    fin.run s.m = (.ok (), m1) →
    let m2 := (m1.entryWrite 4 idx x 128 3 (putField (putField (wordAt d.w 3) 63 62 e.result) 61 56 e.reason)).nextEntry 4 idx
    let m3 := { m2 with eng.grooms := Tbl.drop m2.eng.grooms idx }.signalAfter d.sig x (s.m.entryAddr 4 idx x 128 (s.m.headOf 4 idx)) 3
      (field (wordAt d.w 0) 27 18) (field (wordAt d.w 1) 31 0)
    let mine (l : QueueId × Nat × Nat × List Nat) : Bool := l.2.1 == idx && l.2.2.2.contains (s.m.headOf 4 idx)
    (m3.eng.groomLists.find? mine = none → Gives (.groomDescriptorEnd stack ring) s m3) ∧
    (∀ l, m3.eng.groomLists.find? mine = some l → Gives (.groomDescriptorEnd stack ring) s
      ((m3.modList l.1 fun l => (l.1, l.2.1, l.2.2.1, l.2.2.2.erase (s.m.headOf 4 idx))).feedList l.1))) ∧
  (∀ q c s, s.m.runs q 0x120 c = true →
    let u := field (c.p 1) 20 16
    let a := (c.p 0).toNat
    let n := 128 * field (c.p 1) 15 0
    ((∀ k < 4, s.m.ownedBy (Reg.grmRingOwner u k) q.tenant q.ctx = false) → Gives (.groomUpdate q) s (s.m.complete q 7 0)) ∧
    (∀ k < 4, (∀ j < k, s.m.ownedBy (Reg.grmRingOwner u j) q.tenant q.ctx = false) → s.m.ownedBy (Reg.grmRingOwner u k) q.tenant q.ctx = true →
      (s.m.check q.tenant q.ctx a n false = none → s.m.remoteNode a = none → Gives (.groomUpdate q) s
        (({ s.m.setWait q .unit with eng.groomLists := s.m.eng.groomLists ++ [(q, 4 * u + k, 0, [])] }).feedList q)) ∧
      (s.m.check q.tenant q.ctx a n false ≠ none ∨ s.m.remoteNode a ≠ none → Gives (.groomUpdate q) s (s.m.complete q 2 0))))

/-- The Pacer (R281, R282, R284): a query answers its group's multiplier for its step and who may not commit is marked; a commit that its
owner or firmware makes takes a sound shadow and marks an unsound one; the exact multiplier is 1 at the end of a linear warm-up, at every step after it
without decay, and at the first step of a linear decay. -/
def Obligations.PacerRows : Prop :=
  (∀ (g t : Nat) (s : State), s.m.tuning = true → g < 256 → t < 2 ^ 32 → Completes (.pacerQuery .firmware g t) s fun m =>
    m.reg Reg.pcrQueryIn = BitVec.ofNat 64 (g * 2 ^ 32 + t) ∧ m.reg Reg.pcrQueryOut = BitVec.ofNat 64 (s.m.multiplier g t).toNat ∧
    m.eng = { s.m.eng with pacerAsked := true, pacerDenied := m.eng.pacerDenied } ∧
      OnlyRegs [Reg.pcrQueryIn, Reg.pcrQueryOut] { s.m with eng := m.eng } m) ∧
  (∀ (g : Nat) (s : State), s.m.tuning = true → g < 256 →
    let p : PEntry := ⟨s.m.reg (Reg.pcrGShape g), s.m.reg (Reg.pcrGLen g), s.m.reg (Reg.pcrGVals g), s.m.reg (Reg.pcrGGamma g)⟩
    (p.sound = true → Completes (.pacerCommit .firmware g) s fun m =>
      m.pacerEntry g = [p.shape, p.len, p.vals, p.gamma] ∧ m.fld (Reg.pcrGCtl g) 63 63 = 0 ∧
        OnlyRegs [Reg.pcrGCtl g] { s.m with eng := m.eng } m ∧ ∀ k, k ≠ g → m.pacerEntry k = s.m.pacerEntry k) ∧
    (p.sound = false → Completes (.pacerCommit .firmware g) s fun m =>
      m.fld (Reg.pcrGCtl g) 63 63 = 1 ∧ OnlyRegs [Reg.pcrGCtl g] s.m m)) ∧
  (∀ (p : PEntry), fixOf p.s0 ≤ fixOne → fixOf p.f ≤ fixOne →
    (p.warm = 1 → 0 < p.w → p.exact p.w = fixOne) ∧
    (p.decay = 0 → ∀ t, p.w < t → p.exact t = fixOne) ∧
    (p.decay = 2 → p.exact (p.w + 1) = fixOne) ∧
    (p.warm = 1 → ∀ t t', 0 < t → t ≤ t' → t' ≤ p.w → p.exact t ≤ p.exact t') ∧
    (p.decay = 2 → p.restart = false → ∀ t t', p.w < t → t ≤ t' → p.exact t' ≤ p.exact t ∧ fixOf p.f ≤ p.exact t'))

/-- Collectives (R355 to R360, R465): COLLECTIVE hands its descriptor to the engine, with the reason that its checks give; the four rows start a
sound one of their operation once its source bytes are here; an arriving segment is taken by a collective that has started, else kept, and at
1,024 kept ones turned back; an abort or the timer sets the reason; the end, once the output is at its home, writes RESULT and completes the
command with the reason's status. -/
def Obligations.CollectiveRows : Prop :=
  (∀ q c s, s.m.runs q 0x130 c = true →
    let ga := (c.p 0).toNat
    let a := localPart ga
    let m0 := s.m.correct a 128
    let w := leWords 16 (m0.readMem a 128)
    let c0 : Coll := { die := field (wordAt w 0) 46 43, q := q, words := w, addr := ga, members := [], start := m0.time }
    let own (c1 : Coll) : Block := { m0.setWait q .unit with eng.colls := m0.eng.colls ++ [{ c1 with reason := m0.collRefusal c1 }] }
    let c1 : Coll := { c0 with members := (List.range c0.n).map (m0.memberNode (wordAt w 5).toNat) }
    let mine := s.m.remoteNode ga = none ∧ s.m.check q.tenant q.ctx ga 128 false = none ∧ s.m.check q.tenant q.ctx ga 128 true = none
    (¬ mine → Gives (.collective q) s (s.m.complete q 2 0)) ∧
    (mine → s.m.heldExclusive a 128 = true → Gives (.collective q) s (s.m.snoopReads a 128)) ∧
    (mine → s.m.heldExclusive a 128 = false → m0.poisoned a 128 = true → Gives (.collective q) s (m0.complete q 2 0)) ∧
    (mine → s.m.heldExclusive a 128 = false → m0.poisoned a 128 = false →
      (c0.n < 2 ∨ m0.collExtent c0 (wordAt w 5).toNat (2 * c0.n) false = false → Gives (.collective q) s (own c0)) ∧
      (2 ≤ c0.n → m0.collExtent c0 (wordAt w 5).toNat (2 * c0.n) false = true →
        (m0.collRefusal c1 = 0 → Gives (.collective q) s (own c1)) ∧
        (m0.collRefusal c1 ≠ 0 → Gives (.collective q) s (c1.others.foldl (fun m i => m.collSend c1 i none) (own c1)))))) ∧
  (∀ (die op : Nat) (c : Instr) (s : State),
    (c = .allReduce die ∧ op = 0) ∨ (c = .reduceScatter die ∧ op = 1) ∨ (c = .allGather die ∧ op = 2) ∨ (c = .allToAll die ∧ op = 3) →
    let ready (k : Coll) : Bool := k.die == die && k.op == op && !k.started && k.reason == 0
    (s.m.eng.colls.find? ready = none → Gives c s s.m) ∧
    (∀ k, s.m.eng.colls.find? ready = some k →
      let ext := (s.m.collSources k).filter fun e => e.2 != 0
      let got := ext.foldl (fun (g : Got) e => g.join fun m => m.engRead k.mover e.1 e.2) (.data s.m [] false)
      (∀ kind ga n, got = .bad kind ga n → Gives c s (s.m.collFail k 2)) ∧
      (∀ l, got = .need l → Gives c s (s.m.request k.mover (ext.flatMap fun e => s.m.engNeeds k.mover e.1 e.2)))) ∧
    (∀ k m bs p, s.m.eng.colls.find? ready = some k →
      let ext := (s.m.collSources k).filter fun e => e.2 != 0
      let bad := ext.foldl (fun (r : List (Nat × Nat) × Nat) e => (r.1 ++ m.badParts (localPart e.1) e.2 r.2, r.2 + e.2)) ([], 0)
      let k1 := { k with started := true, src := bs, srcBad := bad.1 }
      (ext.foldl (fun (g : Got) e => g.join fun m => m.engRead k.mover e.1 e.2) (.data s.m [] false)) = .data m bs p →
      Gives c s (((m.setColl k1).collFirst k1).collCatchUp k1))) ∧
  (∀ (die node master seq : Nat) (g : CollSeg) (s : State), die < s.m.tileCount → s.m.pwr.pstate ≠ 2 →
    let answer (m : Block) (kind : Nat) : Block :=
      m.reply { kind := kind, srcNode := m.ownNode, dstNode := node, tenant := g.tenant, ctx := g.ctx, master := master, seq := seq, tag := 0
                addr := 0, data := [], mask := [], poison := false, hitch := 0, inc := 0 }
    let held := s.m.eng.collHeld.filter fun e => e.1 == die
    let early := ∀ c, s.m.coll? die g.tenant g.ctx g.collId = some c → c.started = false ∧ c.reason = 0
    (s.m.revoked g.tenant g.ctx = true → Gives (.collectiveSegment die node master seq g) s (answer (s.m.addFld Reg.cmdDropped 63 0 1) 5)) ∧
    (s.m.revoked g.tenant g.ctx = false →
      (∀ c, s.m.coll? die g.tenant g.ctx g.collId = some c → c.started = true ∨ c.reason ≠ 0 → Gives (.collectiveSegment die node master seq g) s
        (answer ((s.m.collTake c g).beat 5 die) 5)) ∧
      (early → held.length < 1024 → Gives (.collectiveSegment die node master seq g) s
        (answer { s.m with eng.collHeld := s.m.eng.collHeld ++ [(die, g)] } 5)) ∧
      (early → 1024 ≤ held.length → Gives (.collectiveSegment die node master seq g) s (answer s.m 6)))) ∧
  (∀ (die t x id : Nat) (c : Coll) (s : State), s.m.coll? die t x id = some c →
    (c.reason = 0 → Gives (.collectiveAbort die t x id) s (s.m.setColl { c with reason := 4 })) ∧
    (c.reason ≠ 0 → Gives (.collectiveAbort die t x id) s s.m)) ∧
  (∀ (q : QueueId) (c : Coll) (s : State), (s.m.eng.colls.find? fun c => c.q == q) = some c → s.m.peerHeld q = false → c.reason = 0 →
    (c.start + s.m.fld Reg.fabCollTmo 39 0 ≤ s.m.time → Gives (.collectiveTimeout q) s (s.m.setColl { c with reason := 7 })) ∧
    (s.m.time < c.start + s.m.fld Reg.fabCollTmo 39 0 → Gives (.collectiveTimeout q) s s.m)) ∧
  (∀ (q : QueueId) (c : Coll) (s : State), (s.m.eng.colls.find? fun c => c.q == q) = some c → c.die < s.m.tileCount →
    let gone : Block := { s.m with
      eng.colls := s.m.eng.colls.filter fun (x : Coll) => x.q != q
      eng.collOut := s.m.eng.collOut.filter fun (x : CollOut) => !(c.owns x && x.seg.isSome) }
    let told (reason : Nat) : Block :=
      let m2 := (gone.collPut c (c.addr + 64) (leBytes 8 (collResult reason * 2 ^ 62 + reason * 2 ^ 56)) []).getD gone
      (if bit (wordAt c.words 0) 47 then m2.signal q.tenant q.ctx (field (wordAt c.words 0) 41 32) (field (wordAt c.words 0) 31 0) else m2).addFld
        (Reg.fabCollDone c.die) 63 0 1
    let home := c.done = true ∧ (∀ e ∈ s.m.collOutputs c, s.m.writeWaits (localPart e.1) e.2 = false) ∧
      ∀ o ∈ s.m.eng.collOut, c.owns o = true → o.seg = none
    let copies := s.m.hostCopies ((localPart c.addr + 64) / 128)
    (c.reason = 0 → ¬ home → Gives (.collectiveEnd q) s s.m) ∧
    (c.reason ≠ 0 ∨ home → copies ≠ [] → Gives (.collectiveEnd q) s (s.m.snoopEntries copies)) ∧
    (copies = [] →
      (c.reason = 0 → home → c.damaged = false → c.tooBig = false → Gives (.collectiveEnd q) s ((told 0).complete q 0 0)) ∧
      (c.reason = 0 → home → c.damaged = false → c.tooBig = true → Gives (.collectiveEnd q) s ((told 5).complete q 4 0)) ∧
      (c.reason = 0 → home → c.damaged = true → Gives (.collectiveEnd q) s ((told 6).complete q 0xB 0)) ∧
      (c.reason = 4 → Gives (.collectiveEnd q) s (((told 4).satFld (Reg.fabCollFail c.die) 31 0 1).complete q 4 0)) ∧
      (c.reason = 7 → Gives (.collectiveEnd q) s (((told 7).satFld (Reg.fabCollFail c.die) 63 32 1).complete q 0x14 0)) ∧
      (c.reason ∉ [0, 4, 6, 7] → Gives (.collectiveEnd q) s ((told c.reason).complete q 4 0))))

/-- What arrives over a port that carries traffic (R350 to R354, Table 14.7): the next burst of its pair is applied and answered, once no host
copy stands in its way; an earlier one is answered again and does nothing else; a later one waits in the reorder store, or is turned back
when the store is full; one for another node is dropped and counted; one that arrives in M2 wakes the module (R431). Reads are answered; read
data, acknowledgements, purges and negative acknowledgements close what they answer; unanswered bursts are sent again. A lost frame is
counted, and the third replay in a row that fails makes the lane with the most corrected symbols fail (R339). -/
def Obligations.FabricTransactions : Prop :=
  (∀ (port : Nat) (b0 : Burst) (c : Instr) (k : Nat) (s : State),
    (c = .fabricWrite port b0 ∧ k = 0) ∨ (c = .signalledWrite port b0 ∧ k = 1) ∨ (c = .fabricSignal port b0 ∧ k = 2) →
    let b : Burst := { b0 with kind := k }
    let p := s.m.rxPair b.master b.srcNode
    let ahead := (b.seq + 2 ^ 32 - p.expect) % 2 ^ 32
    let m1 := s.m.setRxPair { p with early := p.early ++ [(port / 4, b)] }
    (s.m.portUsable port = false → Gives c s s.m) ∧
    (s.m.portUsable port = true → s.m.pwr.pstate ≠ 2 →
      (s.m.forUs b = false → Gives c s (s.m.satFld Reg.fabDrop 63 32 1)) ∧
      (s.m.forUs b = true → 2 ^ 31 ≤ ahead → Gives c s (s.m.reply (answerBurst s.m b 5 0))) ∧
      (s.m.forUs b = true → ahead < 2 ^ 31 → (∃ e ∈ p.early, e.2.seq = b.seq) → Gives c s s.m) ∧
      (s.m.forUs b = true → 0 < ahead → ahead < 2 ^ 31 → (∀ e ∈ p.early, e.2.seq ≠ b.seq) →
        0x800000 < s.m.storeUsed (port / 4) + burstBytes b → Gives c s (s.m.reply (answerBurst s.m b 6 0))) ∧
      (s.m.forUs b = true → 0 < ahead → ahead < 2 ^ 31 → p.early = [] → b.seq ≠ p.expect → p.master = b.master → p.node = b.srcNode →
        s.m.storeUsed (port / 4) + burstBytes b ≤ 0x800000 → Gives c s m1) ∧
      (s.m.forUs b = true → b.seq = p.expect → p.expect < 2 ^ 32 → p.early = [] → p.master = b.master → p.node = b.srcNode →
        (m1.burstHeld b = [] → Gives c s ((m1.applyBurst b).setRxPair { p with expect := (p.expect + 1) % 2 ^ 32 })) ∧
        (m1.burstHeld b ≠ [] → Gives c s ((m1.burstHeld b).foldl (fun m w => m.snoopCopies w.1 w.2) m1)))) ∧
    (s.m.portUsable port = true → s.m.pwr.pstate = 2 → Gives c s s.m.askWake)) ∧
  (∀ (m : Block) (b : Burst),
    (m.revoked b.tenant b.ctx = true → m.applyBurst b = (m.addFld Reg.cmdDropped 63 0 1).reply (answerBurst m b 5 0)) ∧
    (m.revoked b.tenant b.ctx = false → b.kind ≤ 1 → ∀ k, m.arrivalCheck b.tenant b.ctx b.addr b.data.length true = some k →
      m.applyBurst b = m.reply (answerBurst m b 6 k)) ∧
    (m.revoked b.tenant b.ctx = false → b.kind = 0 → m.arrivalCheck b.tenant b.ctx b.addr b.data.length true = none →
      m.applyBurst b = (m.writeGranules b.addr b.data b.mask b.poison (b.data.length / 128 + 2)).reply (answerBurst m b 5 0)) ∧
    (m.revoked b.tenant b.ctx = false → b.kind = 1 → m.arrivalCheck b.tenant b.ctx b.addr b.data.length true = none →
      let w := m.writeGranules b.addr b.data b.mask b.poison (b.data.length / 128 + 2)
      ∀ a, w.hitchAddr b.tenant b.ctx b.hitch = some a → m.applyBurst b = (w.hitchAdd a b.inc).reply (answerBurst m b 5 0)) ∧
    (m.revoked b.tenant b.ctx = false → b.kind = 2 → m.hitchAddr b.tenant b.ctx b.hitch = none →
      m.applyBurst b = (m.satFld Reg.fabDrop 31 0 1).reply (answerBurst m b 6 7)) ∧
    (m.revoked b.tenant b.ctx = false → b.kind = 2 → ∀ a, m.hitchAddr b.tenant b.ctx b.hitch = some a →
      m.applyBurst b = (m.hitchAdd a b.inc).reply (answerBurst m b 5 0))) ∧
  (∀ (port n : Nat) (b : Burst) (s : State), s.m.portUsable port = true → s.m.pwr.pstate ≠ 2 →
    (s.m.forUs b = true → Gives (.readRequest port b n) s (s.m.serveRead b n)) ∧
    (s.m.peerReg b = none → s.m.revoked b.tenant b.ctx = false → s.m.arrivalCheck b.tenant b.ctx b.addr (128 * n) false = none →
      s.m.heldExclusive b.addr (128 * n) = false →
      let m := s.m.correct b.addr (128 * n)
      s.m.serveRead b n = m.answerRead b n fun i => (m, m.readMem (b.addr + 128 * i) 128, m.poisoned (b.addr + 128 * i) 128)) ∧
    (∀ off, s.m.peerReg b = some off → s.m.serveRead b n = s.m.peerRead b off) ∧
    (s.m.forUs b = false → Gives (.readRequest port b n) s (s.m.satFld Reg.fabDrop 63 32 1))) ∧
  (∀ (port : Nat) (b : Burst) (r : RemoteRead) (s : State), s.m.portUsable port = true → s.m.forUs b = true →
    (s.m.fab.reads.find? fun r => r.tag == b.tag && r.node == b.srcNode && r.data.isNone) = some r →
    (s.m.revoked r.tenant r.ctx = false → Gives (.readData port b) s
      { s.m with fab.reads := mapIf (· == r) (fun x => { x with data := some (slice b.data 0 x.bytes, b.poison), hitch := b.tagged }) s.m.fab.reads }) ∧
    (s.m.revoked r.tenant r.ctx = true → Gives (.readData port b) s { s.m with fab.reads := s.m.fab.reads.filter (· != r) })) ∧
  (∀ (port master node seq : Nat) (s : State), s.m.portUsable port = true → Gives (.acknowledgement port master node seq) s (s.m.release master node seq)) ∧
  (∀ (port master node id kind : Nat) (s : State), s.m.portUsable port = true →
    (∀ r, (s.m.fab.reads.find? fun r => r.tag == id && r.master == master && r.node == node && r.data.isNone) = some r →
      Gives (.negativeAcknowledgement port master node true id kind) s
        ({ s.m with fab.reads := s.m.fab.reads.filter (· != r) }.curbSource master r.tenant r.ctx kind r.addr r.bytes node)) ∧
    (kind = 0 → Gives (.negativeAcknowledgement port master node false id kind) s
      ((s.m.routePair (s.m.txPair master node) fun _ u => u.burst.seq == id).routeColl fun _ x =>
        Master.code (.coll x.die) == master && x.node == node && x.id == id)) ∧
    (∀ u, kind ≠ 0 → ((s.m.txPair master node).unacked.find? fun u => u.burst.seq == id) = some u →
      Gives (.negativeAcknowledgement port master node false id kind) s
        ((s.m.release master node id).curbSource master u.burst.tenant u.burst.ctx kind u.burst.addr u.burst.data.length node))) ∧
  (∀ (port : Nat) (b : Burst) (s : State), s.m.portUsable port = true → s.m.forUs b = true →
    let p := s.m.rxPair b.master b.srcNode
    p.early = [] → (b.seq + 2 ^ 32 - p.expect) % 2 ^ 32 < 2 ^ 31 → Gives (.purge port b) s (s.m.setRxPair { p with expect := b.seq })) ∧
  (∀ (master node seq : Nat) (s : State), (s.m.txPair master node).unacked = [] → s.m.eng.collOut = [] →
    Gives (.burstResendTimeout master node seq) s (s.m.setTxPair (s.m.txPair master node))) ∧
  (∀ (master node seq : Nat) (u : TxBurst) (s : State), (s.m.txPair master node).unacked = [u] → s.m.eng.collOut = [] → u.burst.seq = seq →
    u.port ≠ none → u.sentAt + 5000 ≤ s.m.time → (s.m.route (s.m.txPair master node).node u).2.eng.collOut = [] →
    let r := s.m.route (s.m.txPair master node).node u
    Gives (.burstResendTimeout master node seq) s (r.2.setTxPair { s.m.txPair master node with unacked := [r.1] })) ∧
  (∀ (port : Nat) (again : Bool) (symbols : List Nat) (codewords : Nat) (s : State), s.m.portSt port = 2 ∨ s.m.portSt port = 3 →
    let m := (s.m.satFld (Reg.fabPortErr port) 31 16 1).satFld (Reg.fabPortErr port) 63 32 codewords
    let n := if again then (s.m.fport port).replays + 1 else 0
    m.fld (Reg.fabPortErr port) 31 16 = min (s.m.fld (Reg.fabPortErr port) 31 16 + 1) 0xFFFF ∧
    (n < 3 → Gives (.frameReplay ⟨port, again, symbols, codewords⟩) s (m.setFport port { s.m.fport port with replays := n })) ∧
    (3 ≤ n → Gives (.frameReplay ⟨port, again, symbols, codewords⟩) s
      ((m.setFport port { s.m.fport port with replays := 0 }).declareLane port (m.worstLane port symbols)))) ∧
  (∀ (p failures : Nat) (s : State), p < 2 → s.m.choSt p = 2 ∨ s.m.choSt p = 3 → failures < 8 → Completes (.linkLevelReplay p failures) s fun m =>
    m.fld (Reg.choPortErr p) 63 48 = min (s.m.fld (Reg.choPortErr p) 63 48 + 1) 0xFFFF ∧ OnlyRegs [Reg.choPortErr p] s.m m)

/-- Fabric ports and routes (R339 to R341, R346, R348, R505): lanes that fail, by more corrected symbols than FAB_LANE_SER.MAX, by a lost lock
or told by the other end, and spares that train, retraining, the neighbour that training
finds, its acceptance, holding a port down, cables, the node number of the first valid write, and routing entries, malformed ones noted in
FAB_RT_ERR.
Nodes (R350, R464, R465): a node without a usable path for the hold time is lost, its held bursts dropped and counted; the first RECOVERING
of a node holds the commands that name it, a rejoin inside the hold runs them again, and at the hold's end they complete PEER_LOST. -/
def Obligations.FabricPortsAndNodes : Prop :=
  (
    (∀ (port lane : Nat) (s : State), s.m.portSt port = 2 ∨ s.m.portSt port = 3 →
      ((s.m.goodLanes port).contains lane = true →
        Gives (.laneFailing port ⟨lane, .told⟩) s (s.m.loseLane port lane) ∧ Gives (.laneFailing port ⟨lane, .lock⟩) s (s.m.declareLane port lane) ∧
        (∀ n, s.m.fld Reg.fabLaneSer 31 0 < n → Gives (.laneFailing port ⟨lane, .symbols n⟩) s (s.m.declareLane port lane)) ∧
        (∀ n ≤ s.m.fld Reg.fabLaneSer 31 0, Gives (.laneFailing port ⟨lane, .symbols n⟩) s s.m)) ∧
      ((s.m.goodLanes port).contains lane = false → ∀ cause, Gives (.laneFailing port ⟨lane, cause⟩) s s.m)) ∧
    (∀ (port l : Nat) (s : State), (s.m.fport port).training = some l → s.m.portSt port = 2 ∨ s.m.portSt port = 3 →
      let x := s.m.fport port
      let m1 := s.m.setFport port { x with inUse := x.inUse ++ [l], training := none, toFix := x.toFix.drop 1 }
      Gives (.spareLaneTrained port) s (((m1.laneWear port (x.toFix.headD 0) l).trainSpare port).stepLanes port)) ∧
    (∀ (port : Nat) (s : State), port < s.m.portCount → s.m.portSt port ≠ 5 → Gives (.fabPortRetrain .firmware port) s (s.m.retrainPort port)) ∧
    (∀ (port : Nat) (nbr : Neighbour) (failed : Nat) (s : State), s.m.portSt port = 1 →
      let m1 := s.m.setFld (Reg.fabPortStatus port) 53 44 (failed % 2 ^ (8 + s.m.spareLanes))
      let good := (m1.goodLanes port).take 8
      let x : FabPort := { m1.fport port with now := some nbr, inUse := if laneWidth good.length = 0 then [] else good }
      let word := putField (putField (putField (putField 0 63 52 nbr.node) 51 46 nbr.port) 45 42 nbr.bpos) 31 0 nbr.serial
      let m2 := (m1.setReg (Reg.fabPortNbr port) word).setFport port x
      ((s.m.fport port).acked = some nbr → Gives (.fabPortTrained port nbr failed) s
        ((m2.setFld (Reg.fabPortStatus port) 63 60 2).showLanes port).reroute) ∧
      ((s.m.fport port).acked ≠ some nbr → Gives (.fabPortTrained port nbr failed) s
        ((m2.setFld (Reg.fabPortStatus port) 63 60 3).showLanes port).reroute)) ∧
    (∀ (port : Nat) (s : State), s.m.portSt port = 2 ∨ s.m.portSt port = 3 → Gives (.ackNbr .firmware port) s
      ((s.m.setFport port { s.m.fport port with acked := (s.m.fport port).now }).setFld (Reg.fabPortStatus port) 63 60 2).reroute) ∧
    (∀ (port : Nat) (s : State), port < s.m.portCount →
      Gives (.fabPortDisable .firmware port true) s ((s.m.setFld (Reg.fabPortCtl port) 0 0 1).portOff port 5) ∧
      (s.m.portSt port = 5 → Gives (.fabPortDisable .firmware port false) s ((s.m.setFld (Reg.fabPortCtl port) 0 0 0).retrainPort port))) ∧
    (∀ (node : Nat) (s : State), node < 0xFFF →
      (s.m.fld Reg.fabNode 63 63 = 0 → Completes (.nodeAssign .firmware node) s fun m =>
        m.fld Reg.fabNode 63 63 = 1 ∧ m.fld Reg.fabNode 11 0 = node ∧ OnlyRegs [Reg.fabNode] s.m m) ∧
      (s.m.fld Reg.fabNode 63 63 = 1 → Gives (.nodeAssign .firmware node) s s.m)) ∧
    (∀ (node : Nat) (entry : Word) (s : State), node < 0xFFF →
      ((∀ i < 4, s.m.pathBad entry i = false) → Gives (.routingEntryWrite .firmware node entry) s (s.m.setReg (Reg.fabRoute node) entry).reroute) ∧
      ((∃ i < 4, s.m.pathBad entry i = true) → Completes (.routingEntryWrite .firmware node entry) s fun m =>
        m.fld Reg.fabRtErr 63 63 = 1 ∧ m.fld Reg.fabRtErr 11 0 = node ∧ OnlyRegs [Reg.fabRtErr] s.m m)) ∧
    (∀ (connector p : Nat) (s : State), s.m.connectorPorts connector = [p] →
      (s.m.portSt p = 5 → Gives (.cableUnplug connector) s (s.m.setFport p { s.m.fport p with cable := false }) ∧
        Gives (.cablePlug connector) s (s.m.setFport p { s.m.fport p with cable := true })) ∧
      (s.m.portSt p ≠ 5 →
        let off := ((s.m.setFport p { s.m.fport p with cable := false }).portOff p 4).setFld (Reg.fabPortStatus p) 53 44 (2 ^ (8 + s.m.spareLanes) - 1)
        (s.m.inFrames p = true → Gives (.cableUnplug connector) s off.portEvent) ∧
        (s.m.inFrames p = false → Gives (.cableUnplug connector) s off) ∧
        Gives (.cablePlug connector) s ((s.m.setFport p { s.m.fport p with cable := true }).retrainPort p)))) ∧
  (
    (∀ (node e : Nat) (k : Nat) (s : State), (s.m.fab.unreach.find? fun x => x.1 == node) = some (k, e) → s.m.nodeUsable node = false →
      (s.m.time < e + s.m.fld Reg.fabUnreach 39 0 → Gives (.nodeLost node) s s.m) ∧
      (e + s.m.fld Reg.fabUnreach 39 0 ≤ s.m.time → (∀ p ∈ s.m.fab.tx, p.node ≠ node) → s.m.fab.reads = [] → s.m.eng.collOut = [] →
        let m2 := { s.m with fab.unreach := Tbl.drop s.m.fab.unreach node, fab.lostNodes := insertNat s.m.fab.lostNodes node }
        Gives (.nodeLost node) s
          (((m2.setReg Reg.fabLost (putField (putBit (m2.reg Reg.fabLost) 63 true) 11 0 node)).satFld Reg.fabLost 43 12 1).payQueues.trace 5 4))) ∧
    (∀ (node : Nat) (s : State), (∀ e ∈ s.m.fab.recovering, e.1 ≠ node) → Completes (.recoveringReceived node) s fun m =>
      m.fab = { s.m.fab with recovering := s.m.fab.recovering ++ [(node, s.m.time)] } ∧
      m.cmd = { s.m.cmd with cmds := mapIf (fun c => s.m.namesNode c node) (fun c => { c with peers := c.peers ++ [(node, s.m.time)] }) s.m.cmd.cmds } ∧
      OnlyRegs [] { s.m with fab := m.fab, cmd := m.cmd } m) ∧
    (∀ (node k e : Nat) (s : State), (s.m.fab.recovering.find? fun x => x.1 == node) = some (k, e) →
      let held := s.m.cmd.cmds.filter fun c => c.peers.any fun p => p.1 == node
      (s.m.time < e + s.m.fld Reg.fabCollTmo 39 0 → (∀ c ∈ held, c.started = false) → Gives (.rejoinReceived node) s
        { s.m with fab.recovering := s.m.fab.recovering.filter fun e => e.1 != node, cmd.cmds := s.m.cmd.cmds.map fun (c : Cmd) => c.unhold node }) ∧
      (s.m.time < e + s.m.fld Reg.fabCollTmo 39 0 → ∀ c, held = [c] → c.started = true →
        let m1 := { s.m with fab.recovering := s.m.fab.recovering.filter fun e => e.1 != node, cmd.cmds := s.m.cmd.cmds.map fun (c : Cmd) => c.unhold node }
        (∀ x, m1.running c.q = some x → Gives (.rejoinReceived node) s (m1.rerun x))) ∧
      (e + s.m.fld Reg.fabCollTmo 39 0 ≤ s.m.time → Gives (.rejoinReceived node) s s.m) ∧
      (s.m.time < e + s.m.fld Reg.fabCollTmo 39 0 → Gives (.peerHoldExpiry node) s s.m) ∧
      (e + s.m.fld Reg.fabCollTmo 39 0 ≤ s.m.time → held = [] → Gives (.peerHoldExpiry node) s
        { s.m with fab.recovering := s.m.fab.recovering.filter fun e => e.1 != node }) ∧
      (e + s.m.fld Reg.fabCollTmo 39 0 ≤ s.m.time → ∀ c, held = [c] →
        let m2 := { s.m with
          fab.recovering := s.m.fab.recovering.filter fun e => e.1 != node
          cmd.cmds := ((s.m.cmd.cmds.filter c.same).map fun (x : Cmd) => { x with started := true }) ++ s.m.cmd.cmds.filter fun x => !c.same x }
        (c.started = true → Gives (.peerHoldExpiry node) s ((m2.stopWork c.q).endTask c.q 0x14 0)) ∧
        (c.started = false → Gives (.peerHoldExpiry node) s (m2.complete c.q 0x14 0)))))

/-- Chotus (R364 to R379): training brings a port up at the width its lanes give, fails it, or keeps it down when its host does not fit the
mapping; the mapping is fixed after training; accepted requests are served and others dropped and counted; snoops end by their
responses or fail the port after 1 ms; a host without heartbeats is lost, its return inside the hold resumes it, and at the hold's end
its tenants are destroyed. -/
def Obligations.ChotusRows : Prop :=
  (∀ (p id lanes : Nat) (s : State), p < 2 → s.m.choSt p = 1 →
    (chotusWidth lanes = 0 → Gives (.chotusPortTraining p id lanes) s (s.m.setReg (Reg.choPortStatus p) (putField 0 63 60 4)).flushHost) ∧
    (chotusWidth lanes ≠ 0 → s.m.joins p id = false → Gives (.chotusPortTraining p id lanes) s
      ((s.m.setReg (Reg.choPortStatus p) 0).modChotus p fun x => { x with barred := true }).flushHost) ∧
    (chotusWidth lanes ≠ 0 → s.m.joins p id = true →
      let lost := (s.m.chotus p).lossTick.isSome
      let word := putField (putField (putField 0 63 60 (if lost then 3 else 2)) 59 55 (chotusWidth lanes)) 31 0 id
      let m1 := ((s.m.setReg (Reg.choPortStatus p) word).setReg (Reg.choHbLast p) (BitVec.ofNat 64 s.m.time)).modChotus p
        fun x => { x with everUp := true }
      let m2 := if m1.fld Reg.choMode 63 62 = 1 ∧ m1.choSt 0 = 2 ∧ m1.choSt 1 = 2 then m1.setFld Reg.choMode 63 62 2 else m1
      let m3 := if m2.cho.modeOpen then { m2 with cho.modeOpen := false, cho.modeTick := m2.time + 2500000 } else m2
      (lost = false → Gives (.chotusPortTraining p id lanes) s (m3.sendPending p).flushHost) ∧
      (lost = true → Gives (.chotusPortTraining p id lanes) s m3.flushHost))) ∧
  (∀ (s : State), s.m.fld Reg.choMode 63 62 = 0 → s.m.cho.modeOpen = false → s.m.cho.modeTick ≤ s.m.time → s.m.pwr.rst = none → s.m.pwr.powered = true →
    let id (p : Nat) : Nat := s.m.fld (Reg.choPortStatus p) 31 0
    (s.m.choSt 0 = 2 → s.m.choSt 1 ≠ 2 → Gives .chotusModeFix s (({ s.m with cho.modeIds := [id 0] }.setFld Reg.choMode 63 62 1).flushHost)) ∧
    (s.m.choSt 0 ≠ 2 → s.m.choSt 1 = 2 → Gives .chotusModeFix s (({ s.m with cho.modeIds := [id 1] }.setFld Reg.choMode 63 62 1).flushHost)) ∧
    (s.m.choSt 0 = 2 → s.m.choSt 1 = 2 → id 0 = id 1 → Gives .chotusModeFix s
      (({ s.m with cho.modeIds := [id 0, id 1] }.setFld Reg.choMode 63 62 2).flushHost)) ∧
    (s.m.choSt 0 = 2 → s.m.choSt 1 = 2 → id 0 ≠ id 1 → Gives .chotusModeFix s
      (({ s.m with cho.modeIds := [id 0, id 1] }.setFld Reg.choMode 63 62 3).flushHost)) ∧
    (s.m.choSt 0 ≠ 2 → s.m.choSt 1 ≠ 2 → Gives .chotusModeFix s { s.m with cho.modeOpen := true })) ∧
  (∀ (p t a : Nat) (op : HostOp) (s : State), p < 2 → s.m.choSt p = 2 ∨ s.m.choSt p = 3 →
    (s.m.tagOk p t = true → Gives (.hostRequest p t a op) s (s.m.serveHost p t a op)) ∧
    (s.m.tagOk p t = false → Gives (.hostRequest p t a op) s (s.m.dropHost p op))) ∧
  (∀ (m : Block) (p t a n : Nat),
    (m.hostCheck t a n false = false → m.serveHost p t a (.read n) = m.dropHost p (.read n)) ∧
    (m.hostCheck t a n false = true → m.otherCopies p a n false = [] → m.serveHost p t a (.read n) = m.hostRead p a n)) ∧
  (∀ (p a : Nat) (d : Option (List Byte)) (s : State),
    ((∃ x ∈ s.m.cho.snoops, x.gran = a / 128 ∧ x.port = p) → Gives (.snoopResponse p a d) s (s.m.copyGone (a / 128) p d false).pumpAll) ∧
    ((∀ x ∈ s.m.cho.snoops, x.gran ≠ a / 128 ∨ x.port ≠ p) → Gives (.snoopResponse p a d) s s.m)) ∧
  (∀ (p : Nat) (s : State), p < 2 →
    ((∀ x ∈ s.m.cho.snoops, x.port ≠ p ∨ s.m.time < x.since + 25000) → Gives (.snoopTimeout p) s s.m) ∧
    ((∃ x ∈ s.m.cho.snoops, x.port = p ∧ x.since + 25000 ≤ s.m.time) →
      let m1 := s.m.chotusDown p 4
      Gives (.snoopTimeout p) s ((m1.cho.directory.filter fun d => d.port == p).foldl (fun m d => m.copyGone d.gran p none true) m1).pumpAll)) ∧
  (∀ (p lanes : Nat) (s : State), p < 2 → s.m.choSt p = 2 ∨ s.m.choSt p = 3 → Gives (.chotusLaneFail p lanes) s (s.m.chotusRetrain p)) ∧
  (∀ (p : Nat) (s : State), p < 2 →
    (s.m.fld (Reg.choPortCtl p) 0 0 = 0 → (s.m.chotus p).barred = false → Gives (.chotusPortRetrain .firmware p) s (s.m.chotusRetrain p)) ∧
    Gives (.chotusPortDisable .firmware p true) s ((s.m.setFld (Reg.choPortCtl p) 0 0 1).chotusDown p 0) ∧
    (s.m.fld (Reg.choPortCtl p) 0 0 = 1 → (s.m.chotus p).barred = false →
      Gives (.chotusPortDisable .firmware p false) s ((s.m.setFld (Reg.choPortCtl p) 0 0 0).chotusDown p 1))) ∧
  (∀ (p t : Nat) (s : State), p < 2 → s.m.choSt p = 2 ∨ s.m.choSt p = 3 → s.m.tagOk p t = true → s.m.fld Reg.choMode 63 62 ≠ 2 →
    let m1 := (s.m.setReg (Reg.choHbLast p) (BitVec.ofNat 64 s.m.time)).modChotus p fun x => { x with noFurther := false }
    ((s.m.chotus p).lossTick = none → Gives (.heartbeatWrite (.host p t) p) s m1) ∧
    (∀ l, (s.m.chotus p).lossTick = some l → s.m.time < l + m1.fld Reg.choHold 39 0 → Gives (.heartbeatWrite (.host p t) p) s (m1.hostBack p))) ∧
  (∀ (p : Nat) (s : State), p < 2 → s.m.fwRuns = true → s.m.fld Reg.choMode 63 62 ≠ 2 → (s.m.chotus p).everUp = true →
    (s.m.chotus p).lossTick = none → (s.m.chotus p).noFurther = false →
    let due := (s.m.reg (Reg.choHbLast p)).toNat + s.m.fld Reg.choHbTmo 39 0
    (s.m.time < due → Gives (.hostLost p) s s.m) ∧
    (due ≤ s.m.time → s.m.choSt p = 2 →
      let m1 := (s.m.setFld (Reg.choPortStatus p) 63 60 3).modChotus p fun y => { y with lossTick := some due }
      let queues := mapIf (fun q : Queue => s.m.hostPort q.id.tenant == p)
        (fun q => { q with lossTail := some (if ringOnModule q then q.sqTail else q.sqHead) }) s.m.cmd.queues
      Gives (.hostLost p) s ({ m1 with cmd.queues := queues }.i3cEvent 2))) ∧
  (∀ (p l : Nat) (s : State), (s.m.chotus p).lossTick = some l → (s.m.time < l + s.m.fld Reg.choHold 39 0 → Gives (.hostHoldExpiry p) s s.m) ∧
    (l + s.m.fld Reg.choHold 39 0 ≤ s.m.time → s.m.fld Reg.choMode 63 62 ≠ 2 → s.m.choSt p = 3 →
      let inHost (a : Nat) : Bool := decide (hostBase ≤ localPart a) && s.m.hostPortOf (localPart a) == p
      let doomed := (s.m.cmd.tenants.filter fun t => t.id != 0 && t.exists_ && !t.dying && s.m.hostPort t.id == p).map (·.id)
      let ctxs := (s.m.cmd.contexts.filter fun x => x.tenant == 0 && x.exists_ && x.tear.isNone &&
        (s.m.cmd.queues.any fun q => q.id.tenant == 0 && q.id.ctx == x.ctx && (inHost q.sqBase || inHost q.cqBase))).map (·.ctx)
      let m1 := ((s.m.modChotus p fun x => { x with lossTick := none, noFurther := true, kept := [], pendIrq := [] }).setReg (Reg.choIrqPend p) 0).setFld
        (Reg.choPortStatus p) 63 60 2
      let m2 := ctxs.foldl (fun m c => m.beginTeardown 0 c none false) (doomed.foldl (fun m t => m.destroyTenant t none) m1)
      (inHost (s.m.reg Reg.cmdSysSq).toNat = false → Gives (.hostHoldExpiry p) s m2) ∧
      (inHost (s.m.reg Reg.cmdSysSq).toNat = true → Gives (.hostHoldExpiry p) s (m2.sysOff.setFld Reg.cmdSysCfg 63 63 0))))

/-- Mailboxes and the I3C port (R313, R314, R381): GO by the owner of an open mailbox starts a request and wakes the module, and sets only OVERRUN
while one is in progress; the port's address and event commands set its address, its event enable and its event bits, and its reads return
their bytes.
The answer to a mailbox request (R314, R315): its bytes stand in the mailbox's response half, DONE is set, the request is over, and the
response's header carries the opcode, the body's length, the sequence number, the tenant and the status. -/
def Obligations.MailboxAndI3C : Prop :=
  (
    (∀ (p t k : Nat) (s : State), s.m.choSt p = 2 → s.m.tagOk p t = true → k < 64 → s.m.mailboxOpen (.host p t) k = true →
      (s.m.cho.mbBusy.contains k = true → Completes (.mailboxGo (.host p t) k) s fun m =>
        m.fld (Reg.cmdMbCtl k) 2 2 = 1 ∧ OnlyRegs [Reg.cmdMbCtl k] s.m m) ∧
      (s.m.cho.mbBusy.contains k = false → Gives (.mailboxGo (.host p t) k) s ({ s.m with cho.mbBusy := insertNat s.m.cho.mbBusy k }.askWake))) ∧
    (∀ (s : State), s.m.i3cRuns = true →
      (∀ a, a < 128 → s.m.cho.i3cDyn = none → Gives (.entdaa a) s { s.m with cho.i3cDyn := some a }) ∧
      (s.m.cho.i3cDyn = none → Gives .setdasa s { s.m with cho.i3cDyn := some (0x50 + s.m.fld Reg.aonStraps 3 0) }) ∧
      Gives .rstdaa s { s.m with cho.i3cDyn := none } ∧
      (∀ (f : Instr), f = .getpid ∨ f = .getbcr ∨ f = .getdcr ∨ f = .getstatus → Completes f s fun m =>
        (∃ b, m.cho.i3cReads = s.m.cho.i3cReads ++ [b] ∧ (f = .getpid → b.length = 6) ∧ (f = .getbcr ∨ f = .getdcr → b.length = 1) ∧
          (f = .getstatus → b.length = 2)) ∧ OnlyRegs [] { s.m with cho := m.cho, free := m.free } m) ∧
      (∀ k : Byte, k.toNat.testBit 0 = true → Gives (.enec k) s { s.m with cho.i3cEnable := true } ∧ Gives (.disec k) s { s.m with cho.i3cEnable := false }) ∧
      (∀ k : Byte, k.toNat.testBit 0 = false → Gives (.enec k) s s.m ∧ Gives (.disec k) s s.m) ∧
      (∀ bits, Completes (.i3cEventClear bits) s fun m => (∀ i < 16, m.cho.i3cEvents.testBit i = (s.m.cho.i3cEvents.testBit i && !bits.testBit i)) ∧
        OnlyRegs [] { s.m with cho := m.cho } m)) ∧
    (∀ (c : Instr) (a : Nat) (k : Byte) (s : State), s.m.i3cRuns = false →
      c ∈ [.entdaa a, .setdasa, .rstdaa, .getpid, .getbcr, .getdcr, .getstatus, .enec k, .disec k, .i3cEventClear a] → Gives c s s.m)) ∧
  (
    ∀ (m : Block) (k status : Nat) (r : MgmtReq) (body : List Byte), r.port = .mailbox k → r.major = 3 → r.opcode < 2 ^ 16 → r.seq < 2 ^ 16 →
      status < 2 ^ 16 → body.length ≤ 4080 → m.mbuf.wf → k < 64 →
      let t := m.fld (Reg.cmdMbCtl k) 60 56
      let m' := m.respond r status body
      let h := m'.mbuf.readN (mailboxKey k + 0x1000) 16
      m'.fld (Reg.cmdMbCtl k) 1 1 = 1 ∧ m'.cho.mbBusy = m.cho.mbBusy.filter (· != k) ∧
      leAt h 0 2 = 3 ∧ leAt h 2 2 = r.opcode ∧ leAt h 4 2 = body.length ∧ leAt h 6 2 = r.seq ∧ leAt h 8 1 = t ∧ leAt h 9 1 = 1 ∧ leAt h 10 2 = status ∧
      leAt h 12 4 = 0 ∧ m'.mbuf.readN (mailboxKey k + 0x1010) body.length = body ∧
      (∀ a, a < mailboxKey k + 0x1000 ∨ mailboxKey k + 0x1010 + body.length ≤ a → m'.mbuf.read a = m.mbuf.read a))

/-- Management requests (R314 to R317, R473, R495 to R498): each row answers the request of its opcode that stands at its port, with status OK
and the bytes that Table 12.16 lists, with status 2 when its body is malformed, and, where a tenant may not ask, with status 3; a request
that fails the header or policy check is answered with that status by whatever row finds it; a reset is answered and made due 10 ms later. -/
def Obligations.ManagementRows : Prop :=
  (∀ (p : Port) (m : Block) (r : MgmtReq) (s : State), s.m.heard p 0x01 = some (m, r) →
    (restZero r.body 0 = true → Gives (.identify p) s (m.respond r 0 m.capBytes)) ∧
    (restZero r.body 0 = false → Gives (.identify p) s (m.respond r 2 []))) ∧
  (∀ (p : Port) (m : Block) (r : MgmtReq) (s : State), s.m.heard p 0x02 = some (m, r) → 1 ≤ r.body.length →
    (leAt r.body 0 1 = 0 → restZero r.body 0 = true → Gives (.healthSummary p) s (m.respond r 0 (m.healthBytes (m.portTenant p)))) ∧
    (leAt r.body 0 1 = 1 → 8 ≤ r.body.length → 1 ≤ leAt r.body 5 2 → leAt r.body 5 2 ≤ 63 → leAt r.body 7 1 < 32 → restZero r.body 8 = true →
      (m.portTenant p = 0 ∨ leAt r.body 7 1 = m.portTenant p → Gives (.healthFaultRecords p) s (m.respond r 0 (recordsBody (leAt r.body 1 4)
        (((m.flt.faults.filter fun f => f.tenant == leAt r.body 7 1 && decide (leAt r.body 1 4 ≤ f.seq)).take (min (leAt r.body 5 2) (recordRoom p))).map
          fun f => (f.seq, f.bytes))))) ∧
      (m.portTenant p ≠ 0 → leAt r.body 7 1 ≠ m.portTenant p → Gives (.healthFaultRecords p) s (m.respond r 3 []))) ∧
    (leAt r.body 0 1 = 1 → Gives (.healthSummary p) s s.m)) ∧
  (∀ (p : Port) (m : Block) (r : MgmtReq) (s : State), s.m.heard p 0x03 = some (m, r) → restZero r.body 0 = true →
    Gives (.telemetry p) s (m.respond r 0 (wordBytes (([Reg.pwrState, Reg.pwrInput, Reg.pwrEnergy] ++ (List.range 8).map Reg.pwrRail ++
      (List.range 16).map Reg.pwrTemp).map m.regValue)))) ∧
  (∀ (p : Port) (m : Block) (r : MgmtReq) (s : State), s.m.heard p 0x12 = some (m, r) → restZero r.body 0 = true →
    Gives (.fwStatus p) s (m.respond r 0 (wordBytes ([Reg.fwRun, Reg.fwStaged, Reg.fwAct, Reg.fwActTime, Reg.fwActEnd].map m.regValue)))) ∧
  (∀ (p : Port) (m : Block) (r : MgmtReq) (s : State), s.m.heard p 0x20 = some (m, r) → r.body ≠ [] → attestBodyOk r.body = true →
    (leAt r.body 0 1 = 0 → Gives (.attestGenerate p) s
      ({ m with cho.reportPend := m.cho.reportPend ++ [(r, m.report (r.body.drop 16))] }.inProgress p)) ∧
    (leAt r.body 0 1 = 1 → (∀ e, (m.cho.reports.find? fun e => e.1 == portKey p) = some e → Gives (.attestRead p) s (m.readPart r e.2)) ∧
      ((m.cho.reports.find? fun e => e.1 == portKey p) = none → Gives (.attestRead p) s (m.respond r 7 []))) ∧
    (leAt r.body 0 1 = 2 → Gives (.attestReadChain p) s (m.readPart r m.fw.chain))) ∧
  (∀ (p : Port) (e : MgmtReq × List Byte) (s : State), (s.m.cho.reportPend.find? fun e => portKey e.1.port == portKey p) = some e →
    let rep := e.2 ++ slice (Config.mlDsaSign Config.identitySeed (sha3 e.2)) 0 4627
    Gives (.attestSigned p) s ({ s.m with
      cho.reportPend := s.m.cho.reportPend.filter fun (x : MgmtReq × List Byte) => portKey x.1.port != portKey p
      cho.reports := Tbl.put s.m.cho.reports (portKey p) rep }.respond e.1 0 (leBytes 4 rep.length))) ∧
  (∀ (p : Port) (cold : Bool) (c : Instr) (m : Block) (r : MgmtReq) (s : State), s.m.heard p 0x30 = some (m, r) → r.body.length = 8 →
    leAt r.body 1 3 = 0 → leAt r.body 4 4 = 0x4D545352 →
    (c = .resetModuleWarm p ∧ cold = false ∧ leAt r.body 0 1 = 0) ∨ (c = .resetModuleCold p ∧ cold = true ∧ leAt r.body 0 1 = 1) →
    (m.tripAllows cold (portSource p) = true → Gives c s
      ({ m with cho.resetPend := m.cho.resetPend ++ [(cold, m.time + 250000, portSource p)] }.respond r 0 [])) ∧
    (m.tripAllows cold (portSource p) = false → Gives c s (m.respond r 8 []))) ∧
  (∀ (s : State), s.m.cho.resetPend = [] → Gives .resetDelayExpiry s s.m) ∧
  (∀ (cold : Bool) (due source : Nat) (rest : List (Bool × Nat × Nat)) (s : State), s.m.cho.resetPend = (cold, due, source) :: rest →
    (s.m.time < due → Gives .resetDelayExpiry s s.m) ∧
    (due ≤ s.m.time → Gives .resetDelayExpiry s ({ s.m with cho.resetPend := rest }.requestReset cold source))) ∧
  (∀ (p : Port) (m : Block) (r : MgmtReq) (s : State), s.m.heard p 0x40 = some (m, r) → 8 ≤ r.body.length → restZero r.body 8 = true →
    let off := leAt r.body 4 4
    ((m.flt.hangs.find? fun h => decide (leAt r.body 0 4 ≤ h.seq)) = none → Gives (.hangRead p) s (m.respond r 7 [])) ∧
    (∀ h, (m.flt.hangs.find? fun h => decide (leAt r.body 0 4 ≤ h.seq)) = some h → off < h.bytes.length → Gives (.hangRead p) s
      (m.respond r 0 (leBytes 4 h.seq ++ leBytes 4 h.bytes.length ++ leBytes 4 off ++ [0, 0, 0, 0] ++ (h.bytes.drop off).take 4064)))) ∧
  (∀ (p : Port) (m : Block) (r : MgmtReq) (s : State), s.m.heard p 0x50 = some (m, r) → 6 ≤ r.body.length → 1 ≤ leAt r.body 4 2 → leAt r.body 4 2 ≤ 63 →
    restZero r.body 6 = true → Gives (.logRead p) s (m.respond r 0 (recordsBody (leAt r.body 0 4)
      (((m.fw.log.filter fun x => decide (leAt r.body 0 4 ≤ x.seq)).take (leAt r.body 4 2)).map fun x => (x.seq, x.bytes))))) ∧
  (∀ (s : State), s.m.romTakes (.net 0 []) ≠ none → s.m.fw.staging = none → Completes .netBootBroadcast s fun m =>
    m.pwr.pins.mgmtOn = true ∧ m.cho.netOut.length = s.m.cho.netOut.length + 1 ∧ OnlyRegs [] { s.m with cho := m.cho, pwr := m.pwr } m)

/-- Firmware update (R393, R396 to R401): staging begins where none runs and the slot is erased from its start, takes data whose sectors are
erased and keeps the rest waiting, ends with an image checked for gaps, and is dropped by ABORT; an activation starts to drain, or waits
for the window's end in an emergency, or leaves the boot to the next reset; its steps follow when their conditions hold. -/
def Obligations.FirmwareUpdate : Prop :=
  (∀ (p : Port) (m : Block) (r : MgmtReq) (s : State), s.m.heard p 0x10 = some (m, r) → stageBodyOk r.body = true → m.fwAnswers = true →
    (leAt r.body 0 1 = 0 →
      (m.stagedSt = 1 ∨ m.stagedSt = 2 ∨ m.actSt ≠ 0 → Gives (.fwStageBegin p) s (m.respond r 8 [])) ∧
      (m.stagedSt ≠ 1 → m.stagedSt ≠ 2 → m.actSt = 0 → Gives (.fwStageBegin p) s ((m.stageBegin (leAt r.body 8 8)).respond r 0 []))) ∧
    (leAt r.body 0 1 = 1 →
      (m.fw.staging = none → Gives (.fwStageData p) s (m.respond r 8 [])) ∧
      (∀ x, m.fw.staging = some x →
        (x.open_ m.fuse.sector x.waiting r = true → Gives (.fwStageData p) s
          ({ m with fw.staging := some { x with written := x.written ++ [r.data] } }.respond r 0 [])) ∧
        (x.open_ m.fuse.sector x.waiting r = false → Gives (.fwStageData p) s
          ({ m with fw.staging := some { x with waiting := x.waiting ++ [r] } }.inProgress p)))) ∧
    (leAt r.body 0 1 = 2 →
      (m.fw.staging = none → Gives (.fwStageEnd p) s (m.respond r 8 [])) ∧
      (∀ x, m.fw.staging = some x → x.waiting = [] → x.image.any Option.isNone = true → Gives (.fwStageEnd p) s
        (({ m with fw.staging := none }.setReg Reg.fwStaged (putField 0 63 60 4)).respond r 2 [])) ∧
      (∀ x, m.fw.staging = some x → x.waiting = [] → x.image.any Option.isNone = false → Gives (.fwStageEnd p) s
        ((m.stageEnd x).1.respond r (m.stageEnd x).2 []))) ∧
    (leAt r.body 0 1 = 3 →
      (m.fw.staging = none → Gives (.fwStageAbort p) s (m.stageAbort.respond r 0 [])) ∧
      (∀ x, m.fw.staging = some x → x.waiting = [] → Gives (.fwStageAbort p) s (m.stageAbort.respond r 0 [])))) ∧
  (∀ (n : Nat) (x : Staging) (s : State), s.m.fw.staging = some x → s.m.fwAnswers = true → x.slot ≤ 1 → x.waiting = [] →
    Completes (.sectorEraseDone n) s fun m => m.fw = { s.m.fw with staging := some { x with erased := x.erased + n } } ∧ OnlyRegs [] { s.m with fw := m.fw } m) ∧
  (∀ (p : Port) (w : Nat) (c : Instr) (m : Block) (r : MgmtReq) (s : State), s.m.heard p 0x11 = some (m, r) → 16 ≤ r.body.length →
    leAt r.body 0 1 = w → leAt r.body 1 7 = 0 → restZero r.body 16 = true → (c = .fwActivateNow p ∧ w = 0) ∨ (c = .fwActivateAtReset p ∧ w = 1) →
    let m1 := m.setReg Reg.fwActTime (BitVec.ofNat 64 m.time)
    (m.stagedSt ≠ 3 → Gives c s (m.respond r 7 [])) ∧
    (m.stagedSt = 3 → leAt r.body 8 4 ≠ m.fld Reg.fwStaged 31 0 ∨ m.actSt ≠ 0 → Gives c s (m.respond r 8 [])) ∧
    (m.stagedSt = 3 → leAt r.body 8 4 = m.fld Reg.fwStaged 31 0 → m.actSt = 0 →
      (w = 0 → m.pwr.emergOpen = true → Gives c s ((m1.deferAct m.time).respond r 0 [1])) ∧
      (w = 0 → m.pwr.emergOpen = false → Gives c s
        ({ m1 with fw.act := some { request := m.time, began := m.time } }.startDrain.respond r 0 [0])) ∧
      (w = 1 → Gives c s (((m1.writeOpt fun o => { o with prefSlot := m1.targetSlot, trial := true, tries := 0 }).setFld Reg.fwAct 63 60 4).respond r 0 [2])))) ∧
  (∀ (a : Activation) (s : State), s.m.fw.act = some a →
    (s.m.actSt = 2 → s.m.fwRuns = true → (∀ c ∈ s.m.cmd.cmds, c.pace = none) →
      ((∀ c ∈ s.m.cmd.cmds, c.started = false) ∨ a.began + s.m.fld Reg.fwActDrain 39 0 ≤ s.m.time → Gives .activationDrainLimit s
        ({ s.m.loose.foldl (fun (b : Block) n => b.pullUp n) s.m with fw.act := some { a with pulled := s.m.loose } }.handover)) ∧
      ((∃ c ∈ s.m.cmd.cmds, c.started = true) → s.m.time < a.began + s.m.fld Reg.fwActDrain 39 0 → Gives .activationDrainLimit s s.m)) ∧
    (s.m.actSt = 1 →
      (s.m.time < a.request + s.m.fld Reg.fwActDefer 39 0 → Gives .activationDeferExpiry s s.m) ∧
      (a.request + s.m.fld Reg.fwActDefer 39 0 ≤ s.m.time → Gives .activationDeferExpiry s (s.m.endAct 2)))) ∧
  (∀ (s : State), s.m.actSt = 3 → s.m.fw.fwUp = false → s.m.pwr.rst = none → s.m.pwr.powered = true →
    let t := s.m.fw.opt.prefSlot
    Gives .activationRestartDone s
      (if s.m.sound (s.m.slotImage t) then (s.m.startImage t (s.m.slotImage t)).takeOver s.m.actPulled
       else if s.m.sound (s.m.slotImage (1 - t)) then
         ({ s.m with fw.fallback := true }.startImage (1 - t) (s.m.slotImage (1 - t))).takeOver s.m.actPulled
       else { s.m with fw.recoveryWait := true }))

/-- Module resets (R408 to R412, R416 to R420): who asks for one with the confirmation value starts it where none runs, an absorbed request is
counted, a cold one replaces a warm one; RST_CAUSE and RST_TIME name the reset once it is asserted, and the counters of warm resets count;
a release before the hold is over, or without the reference, does nothing. -/
def Obligations.ModuleResets : Prop :=
  (∀ (cold : Bool) (c : Requester → Nat → Instr) (s : State), (c = .rstCmdWarm ∧ cold = false) ∨ (c = .rstCmdCold ∧ cold = true) →
    Gives (c .firmware 0x5A3C) s (s.m.requestReset cold 7) ∧
    (∀ p, s.m.choSt p = 2 → Gives (c (.host p 0) 0x5A3C) s (s.m.requestReset cold 3)) ∧
    (∀ r k, k ≠ 0x5A3C → r = .firmware ∨ r = .peer → Gives (c r k) s s.m)) ∧
  (∀ (m : Block) (cold : Bool) (source : Nat), m.pwr.powered = true → m.pwr.stuck = false → m.tripAllows cold source = true →
    (∀ r, m.pwr.rst = some r →
      (cold = false ∨ r.cold = true → m.requestReset cold source = m.satFld Reg.rstStatus 47 32 1) ∧
      (cold = true → r.cold = false → (m.requestReset cold source).pwr.rst =
        some { r with cold := true, source := source, request := m.time, asserted := none })) ∧
    (m.pwr.rst = none → m.optLoading = false →
      ∃ r, (m.requestReset cold source).pwr.rst = some r ∧ r.cold = cold ∧ r.source = source ∧ r.request = m.time ∧ r.asserted = none)) ∧
  (∀ (n : Nat) (s : State), 3 ≤ n → s.m.pwr.powered = true → Gives (.modRstNAssert n) s { s.m.requestReset false 2 with
    pwr.holdUntil := max s.m.pwr.holdUntil (s.m.time + 25000), pwr.lowUntil := max s.m.pwr.lowUntil (s.m.time + (n - 3)) }) ∧
  (∀ (n : Nat) (s : State), n < 3 → Gives (.modRstNAssert n) s s.m) ∧
  (∀ (r : ResetInProgress) (s : State), s.m.pwr.rst = some r → r.asserted = none → s.m.pwr.stuck = false →
    (r.cold = false → Gives .warmReset s (s.m.assertWarm r) ∧ Gives .coldReset s s.m) ∧
    (r.cold = true → Gives .coldReset s (s.m.assertCold r) ∧ Gives .warmReset s s.m)) ∧
  (∀ (m : Block) (r : ResetInProgress), r.source < 16 → r.request < 2 ^ 64 →
    (let m' := m.assertWarm r
     m'.fld Reg.rstCause 63 60 = 1 ∧ m'.fld Reg.rstCause 59 56 = r.source ∧ (m'.reg Reg.rstTime).toNat = r.request ∧ m'.phase = 0 ∧
       m'.fw.fwUp = false ∧ m'.time = m.time ∧ m'.pwr.pstate = 0 ∧ (∀ n < 128, m'.coreSt n = 0) ∧ m'.tags = []) ∧
    (r.restart = true →
      let m' := m.assertCold r
      m'.fld Reg.rstCause 63 60 = 0 ∧ m'.fld Reg.rstCause 59 56 = r.source ∧ m'.reg Reg.rstTime = 0 ∧ m'.phase = 0 ∧ m'.cores = [] ∧ m'.cmd.cmds = [])) ∧
  (∀ (r : ResetInProgress) (a : Nat) (s : State), s.m.pwr.rst = some r → r.asserted = some a →
    s.m.pwr.stuck = true ∨ s.m.pwr.refclk = false ∨ 2 ≤ s.m.clkMode ∨ s.m.time < s.m.pwr.holdUntil ∨ s.m.time < s.m.pwr.lowUntil ∨
      (r.cold = false ∧ s.m.time < a + 25000) → Gives .resetRelease s s.m) ∧
  (∀ (r : ResetInProgress) (a : Nat) (s : State), s.m.pwr.rst = some r → r.asserted = some a → s.m.pwr.stuck = false → s.m.pwr.refclk = true →
    s.m.clkMode < 2 → s.m.pwr.holdUntil ≤ s.m.time → s.m.pwr.lowUntil ≤ s.m.time → r.cold = false → r.restart = false → a + 25000 ≤ s.m.time →
    (s.m.measureRom).pwr.stuck = false →
    let m := s.m.measureRom
    let o := m.fw.opt
    let d := sha3 (Config.optionBlockBytes [o.seq, o.prefSlot, if o.trial then 1 else 0, o.tries, o.paceSlot, o.sadGib, o.reserveMib, o.traceEn.toNat])
    let m3 := { m.extend 3 0 d with
      pwr := { m.pwr with rst := none, coldOpt := false, wdogStart := m.time, pstate := 0
                          recovery := m.pwr.recovery.map fun (x : Nat × Nat) => (x.1, 3) } }
    Gives .resetRelease s (((m3.allTiles fun _ t => { t with pllOn := true, idleFrom := m3.time }).setFld Reg.rstStatus 63 60 2).boot))

/-- Power, boot and narrower resets (R390 to R392, R407 to R409, R414, R416, R419, R424): PWR_GOOD rising and falling, an input voltage
fault, the boot's end of option loading, its watchdog, the trial's confirmation after 60 s, and the reset commands of a core, a tile, an
engine and a fabric port, which are counted as absorbed while a module reset runs. -/
def Obligations.PowerAndBoot : Prop :=
  (∀ (straps : Nat) (s : State), (s.m.pwr.powered = true → Gives (.powerOn straps) s s.m) ∧
    (s.m.pwr.powered = false → Gives (.powerOn straps) s ({ s.m.coldKeep false with
      pwr.powered := true, pwr.straps := straps, pwr.holdUntil := 0, pwr.lowUntil := 0 }.assertCold { cold := true, source := 1, request := 0 }))) ∧
  (∀ (s : State), s.m.pwr.powered = true → Completes .powerLoss s fun m =>
    m.pwr.powered = false ∧ m.cores = [] ∧ m.cmd.queues = [] ∧ m.fw.fwUp = false ∧ s.m.fuse.svnFuses ≤ m.fuse.svnFuses ∧ (∀ a, a < hostBase → m.mem.read a = 0)) ∧
  (∀ (mv ticks : Nat) (s : State), s.m.pwr.powered = true →
    ((mv < 44000 ∧ 2500 ≤ ticks) ∨ (57000 < mv ∧ 250 ≤ ticks) → Gives (.inputVoltageFault mv ticks) s s.m.powerDown) ∧
    (44000 ≤ mv → mv ≤ 57000 → Gives (.inputVoltageFault mv ticks) s s.m)) ∧
  (∀ (slot : Nat) (s : State), s.m.phase = 2 → s.m.fw.fwUp = false → s.m.pwr.rst = none → s.m.fw.bootSlot = some slot →
    let img := if slot ≤ 1 then s.m.slotImage slot else s.m.fw.netImage
    Gives (.firmwareLoaded slot) s
      (if s.m.sound img then
        { (({ s.m.startImage slot img with fw.netImage := [], fw.staging := none }).setFld Reg.rstStatus 63 60 3).trainingStarts with
          pwr.wdogStart := if slot ≤ 1 then s.m.pwr.wdogStart else s.m.time }
       else if slot ≤ 1 then s.m.pickSlot else { s.m with fw.bootSlot := none, fw.netImage := [] })) ∧
  (∀ (s : State), s.m.phase = 3 → s.m.pwr.rst = none → s.m.pwr.powered = true → s.m.fw.fwUp = false →
    let m1 := s.m.mountControl.fillMaps.fillBanks
    let m2 := (if s.m.pwr.recovery.isSome then m1.remountBanks else m1).repairRows.bringHbm.bringTier.configure
    let m3 := { m2.fillCap with
      fw.fwUp := true, fw.fetchStop := false, pwr.pins.modReady := true, pwr.pins.mgmtOn := true, pwr.recovery := m2.pwr.recovery.map fun (x : Nat × Nat) => (x.1, 4) }
    let m4 := (m3.setFld Reg.rstStatus 63 60 4).setFld Reg.rstStatus 59 56 0
    (m4.bootSrc < 2 → Gives .optionLoadingEnd s m4.freeChotus.freeEvotrix) ∧ (2 ≤ m4.bootSrc → Gives .optionLoadingEnd s m4.freeEvotrix)) ∧
  (∀ (s : State), s.m.phase = 3 → s.m.pwr.rst = none →
    (s.m.time < s.m.pwr.wdogStart + 500000000 → Gives .optionWatchdogExpiry s s.m) ∧
    (s.m.pwr.wdogStart + 500000000 ≤ s.m.time → Gives .optionWatchdogExpiry s ((s.m.satFld Reg.rstStatus 59 56 1).requestReset false 6))) ∧
  (∀ (s : State), s.m.fwRuns = true → s.m.pwr.pstate = 0 → s.m.fld Reg.fwRun 61 61 = 1 → s.m.fld Reg.fwRun 60 60 = 0 →
    (s.m.time < s.m.fw.runSince + 1500000000 → Gives .trialConfirm s s.m) ∧
    (s.m.fw.runSince + 1500000000 ≤ s.m.time → Completes .trialConfirm s fun m =>
      m.fld Reg.fwRun 61 61 = 0 ∧ m.fw.opt.trial = false ∧ m.fw.opt.tries = 0)) ∧
  (∀ (d : Nat) (s : State), s.m.pwr.powered = true → s.m.fld Reg.aonStraps 61 61 = 1 → d < s.m.domains →
    let m := (s.m.setFld Reg.rstStatus 16 16 1).setFld Reg.rstStatus 15 0 d
    (s.m.pwr.rst ≠ none → Gives (.domainResetFail d) s { m with pwr.stuck := true }) ∧
    (∀ r, s.m.pwr.rst = none → (s.m.pwr.narrow.find? fun r => s.m.reaches r d) = some r → Gives (.domainResetFail d) s (m.escalate r))) ∧
  (∀ (n : Nat) (c : Instr) (f : Block → Block) (s : State),
    (c = .rstCmdCore .firmware n 0x5A3C ∧ n < s.m.coreCount ∧ f = fun m => m.coreLevel n) ∨
      (c = .rstCmdTile .firmware n 0x5A3C ∧ n < s.m.tileCount ∧ f = fun m => m.tileLevel n) ∨
      (∃ e, engineOf n = some e ∧ c = .rstCmdEngine .firmware n 0x5A3C ∧ f = fun m => (m.resetEngine e).noteReset 0 n none) ∨
      (c = .rstCmdFabricPort .firmware n 0x5A3C ∧ f = fabPortRetrainEffect .firmware n) →
    (s.m.pwr.rst ≠ none → Gives c s (s.m.satFld Reg.rstStatus 47 32 1)) ∧
    (s.m.pwr.rst = none → s.m.fw.fwUp = true → Gives c s (f s.m)) ∧
    (s.m.pwr.rst = none → s.m.fw.fwUp = false → Gives c s s.m)) ∧
  (∀ (ticks : Nat) (s : State), s.m.alive = true → s.m.pwr.refclk = true →
    (ticks < 250 → Gives (.refclkLoss ticks) s s.m) ∧
    (250 ≤ ticks →
      let m1 := ({ s.m with pwr.refclk := false }.satFld Reg.aonRefclk 31 0 1).emergency 5
      (m1.fw.fwUp = true → Gives (.refclkLoss ticks) s m1.startRecovery) ∧ (m1.fw.fwUp = false → Gives (.refclkLoss ticks) s m1))) ∧
  (∀ (s : State), Gives .refclkReturn s { s.m with pwr.refclk := true })

/-- Power states, emergencies and the cap (R423, R430 to R439, R496): each cause that holds for its time opens or joins the emergency, a cause that
has ended leaves it and the window closes when none is left; PLLs of idle tiles stop; M1 and M2 are entered when their conditions
hold and M2 is left on a request, with the stacks trained again, ready or failed (R165); a thermal trip takes the module to M3; the coolant's warning lowers the cap. -/
def Obligations.PowerRows : Prop :=
  (∀ (c : Instr) (cause : Nat) (s : State), s.m.alive = true →
    (∃ k, 2 ≤ k ∧ ((c = .brakeAssert k ∧ cause = 1) ∨ (c = .thermAlertAssert k ∧ cause = 2))) ∨ (∃ ca k, 16000 < ca ∧ 500 ≤ k ∧ c = .overcurrentDetect ca k ∧ cause = 3) →
    Gives c s (s.m.emergency cause)) ∧
  (∀ (k ca : Nat) (s : State), k < 2 → Gives (.brakeAssert k) s s.m ∧ Gives (.thermAlertAssert k) s s.m ∧ (ca ≤ 16000 → Gives (.overcurrentDetect ca k) s s.m)) ∧
  (∀ (t temp : Nat) (s : State), s.m.alive = true → t < s.m.tileCount →
    (s.m.fld Reg.pwrTherm 31 16 ≤ temp → Gives (.tileEmergencyTemp t temp) s ((s.m.modTile t fun x => { x with temp := temp, hot := true }).emergency 4)) ∧
    (temp < s.m.fld Reg.pwrTherm 31 16 → Gives (.tileEmergencyTemp t temp) s s.m)) ∧
  (∀ (m : Block) (cause : Nat), cause ≤ 5 → 1 ≤ cause → m.pwr.causes.contains cause = false →
    (m.emergency cause).pwr.causes = m.pwr.causes ++ [cause] ∧ (m.emergency cause).pwr.emergOpen = true) ∧
  (∀ (cause ticks : Nat) (s : State), (s.m.causeOver cause ticks = true → Gives (.emergencyCauseEnd cause ticks) s (s.m.endCause cause)) ∧
    (ticks < 25000 → Gives (.emergencyCauseEnd cause ticks) s s.m)) ∧
  (∀ (s : State), s.m.pwr.emergOpen = true →
    (s.m.pwr.causes ≠ [] → Gives .emergencyWindowClose s s.m) ∧
    (s.m.pwr.causes = [] → s.m.clocksBack = true →
      let m1 := { s.m with
        pwr.emergOpen := false, pwr.effCap := s.m.pwr.effCap || s.m.pwr.effDue, pwr.effDue := false, pwr.capLater := none, pwr.under97 := 0 }
      (s.m.pwr.capLater = none → Gives .emergencyWindowClose s (m1.windowClosed.actResume.trace 8 6)) ∧
      (∀ w, s.m.pwr.capLater = some w →
        let c := max 2880 (min w s.m.sustained)
        (s.m.pwr.capSaved = none → Gives .emergencyWindowClose s ((m1.setFld Reg.pwrCap 15 0 c).windowClosed.actResume.trace 8 6)) ∧
        (∀ x, s.m.pwr.capSaved = some x → Gives .emergencyWindowClose s
          (({ m1 with pwr.capSaved := some c }.setFld Reg.pwrCap 15 0 (min c (s.m.sustained * 9 / 10))).windowClosed.actResume.trace 8 6))))) ∧
  (∀ (mw mv ca : Nat) (temps : List Nat) (s : State), s.m.alive = true → s.m.fw.fwUp = true →
    let m1 := s.m.telemetry mw mv ca temps
    (m1.pwr.emergOpen = true → Gives (.powerCapWindow mw mv ca temps) s m1) ∧
    (m1.pwr.emergOpen = false → Gives (.powerCapWindow mw mv ca temps) s (m1.capStep mw mv))) ∧
  (∀ (m : Block) (mw mv t : Nat), t < m.tileCount →
    (1000 * m.capNow mv < mw → ((m.capStep mw mv).tile t).mhz = stepDown m.fg (m.tile t).mhz) ∧
    (mw ≤ 1000 * m.capNow mv → m.fld Reg.pwrTherm 47 32 ≤ (m.tile t).temp → ((m.capStep mw mv).tile t).mhz = stepDown m.fg (m.tile t).mhz) ∧
    (mw ≤ 1000 * m.capNow mv → (m.tile t).temp < m.fld Reg.pwrTherm 47 32 → 100 * mw < 97 * 1000 * m.capNow mv → 9 ≤ m.pwr.under97 →
      ((m.capStep mw mv).tile t).mhz = min 3000 ((m.tile t).mhz + 100)) ∧
    (mw ≤ 1000 * m.capNow mv → (m.tile t).temp < m.fld Reg.pwrTherm 47 32 → 97 * 1000 * m.capNow mv ≤ 100 * mw → ((m.capStep mw mv).tile t).mhz = (m.tile t).mhz)) ∧
  (∀ (mv ticks : Nat) (s : State), (48000 ≤ mv → 25000000 ≤ ticks → Gives (.effectiveCapEnd mv ticks) s { s.m with pwr.effCap := false }) ∧
    (mv < 48000 ∨ ticks < 25000000 → Gives (.effectiveCapEnd mv ticks) s s.m)) ∧
  (∀ (i o sec : Nat) (s : State), s.m.alive = true → s.m.fw.fwUp = true →
    let m1 := s.m.setFld Reg.pwrCool 31 0 (i % 65536 * 65536 + o % 65536)
    let cap := s.m.fld Reg.pwrCap 15 0
    (400 < i → 1 ≤ sec → s.m.fld Reg.pwrCool 63 63 = 0 → Gives (.coolantWarn i o sec) s
      ({ m1.setFld Reg.pwrCool 63 63 1 with pwr.pins.modAlertN := false, pwr.capSaved := some cap }.setFld Reg.pwrCap 15 0 (min cap (s.m.sustained * 9 / 10)))) ∧
    (i ≤ 400 → o ≤ i + 150 → Gives (.coolantWarn i o sec) s m1)) ∧
  (∀ (t : Nat) (s : State), t < s.m.tileCount → s.m.fwRuns = true → (∀ c < 8, (s.m.core (8 * t + c)).task = none) →
    (s.m.tile t).idleFrom + s.m.fld Reg.tileClkIdle 31 0 ≤ s.m.time → Gives (.tilePllIdleStop t) s (s.m.modTile t fun x => { x with pllOn := false })) ∧
  (∀ (t c : Nat) (s : State), c < 8 → (s.m.core (8 * t + c)).task ≠ none → Gives (.tilePllIdleStop t) s s.m) ∧
  (∀ (s : State), s.m.fwRuns = true →
    (s.m.pwr.pstate = 0 → (∀ t < s.m.tileCount, (s.m.tile t).pllOn = false) → Gives .m1Entry s { s.m with pwr.pstate := 1, fw.awayAt := s.m.time }) ∧
    (∀ t < s.m.tileCount, (s.m.tile t).pllOn = true → Gives .m1Entry s s.m) ∧
    (s.m.fld Reg.pwrCtl 1 0 = 2 → s.m.quiet = true → s.m.pwr.pstate = 0 → Gives .m2Entry s
      (({ s.m with fw.awayAt := s.m.time, pwr.pstate := 2, pwr.wake := false }.memState 2 3).allTiles fun _ t => { t with pllOn := false })) ∧
    (s.m.quiet = false → Gives .m2Entry s s.m)) ∧
  (∀ (s : State), Gives (.standbyRequest .firmware) s (s.m.setReg Reg.pwrCtl 2)) ∧
  (∀ (s : State), s.m.pwr.pstate = 2 →
    (s.m.pwr.wake = true ∨ s.m.fld Reg.pwrCtl 1 0 = 0 →
      let m1 := (s.m.stacksTo 3 1).trainStacks
      Gives .m2Wake s ((({ m1.toM0 with pwr.wake := false }.memState 3 2).allTiles fun _ t => { t with pllOn := true, idleFrom := s.m.time }).applyBrake)) ∧
    (s.m.pwr.wake = false → s.m.fld Reg.pwrCtl 1 0 ≠ 0 → Gives .m2Wake s s.m)) ∧
  (∀ (m : Block) (k : Nat), k < 16 → let m' := m.trainStack k
    (m.flt.deadStacks.contains k = false → m'.fld (Reg.hbmStatus k) 63 60 = 2 ∧ m'.flt.failedStacks.contains k = false) ∧
    (m.flt.deadStacks.contains k = true → m'.fld (Reg.hbmStatus k) 63 60 = 4 ∧ m'.flt.failedStacks.contains k = true)) ∧
  (∀ (t temp : Nat) (s : State), s.m.alive = true → t < s.m.tileCount →
    (temp < s.m.fld Reg.pwrTherm 15 0 → Gives (.thermalTrip t temp) s s.m) ∧
    (s.m.fld Reg.pwrTherm 15 0 ≤ temp → Completes (.thermalTrip t temp) s fun m =>
      m.pwr.pstate = 3 ∧ m.pwr.trip = true ∧ m.fw.fwUp = false ∧ m.cores = [] ∧ m.cmd.cmds = [] ∧ m.cmd.queues = [] ∧
        (∀ a, a < hostBase → m.mem.read a = 0) ∧ (∀ a, hostBase ≤ a → m.mem.read a = s.m.mem.read a)))

/-- Curbs, stops and hangs (R98, R442 to R450): a curbed core freezes in STATE 5 with cause CURBED, its queued outputs and copies
dropped, and the curb is noted with the access that failed; a stop for another fault ends the command FAULTED with the number of its record;
CURB_HANDLING writes the oldest curb's record, ends its command and holds its context; a hung core is reset at core level and another hung master
at engine level; a reset that its limit finds still under way escalates.
Recovery and repair (R453, R460 to R471): recovery starts on its triggers, ends when firmware has run its phases, and fails without stack 1;
a damaged core is remounted and its command runs again, and a core with 64 corrected errors in a day at an idle moment while a spare is
left. -/
def Obligations.FaultsAndRecovery : Prop :=
  (
    (∀ (m : Block) (n kind a len : Nat), n < 128 →
      let m' := m.curbCore n kind a len
      m'.coreSt n = 5 ∧ m'.fld (Reg.coreSeqStatus n) 63 56 = 7 ∧ m'.pc n = m.pc n ∧ (m'.core n).loads = [] ∧ (m'.core n).matQ = [] ∧ (m'.core n).copyQ = [] ∧
      (m'.core n).vecQ = [] ∧ (m'.core n).sfuQ = [] ∧ (m'.core n).att = none ∧
      (m'.core n).hold = .none ∧ (m'.core n).stores = (m.core n).stores ∧
      (∃ k, m'.flt.curbs = m.flt.curbs ++ [k] ∧ k.kind = kind ∧ k.mtype = 0 ∧ k.mindex = n ∧ k.tenant = m.coreTenant n ∧ k.ctx = m.coreCtx n ∧ k.addr = a ∧ k.len = len) ∧
      SameRegsBut [Reg.coreSeqStatus n, Reg.coreHitchWait n] m m' ∧ SameMem m m' ∧ SameCoresBut n m m') ∧
    (∀ (m : Block) (n cause : Nat), m.coreSt n = 1 ∨ m.coreSt n = 2 ∨ m.coreSt n = 3 → (m.core n).task = none →
      m.faultStop n cause = m.stopCore n cause) ∧
    (∀ (m : Block) (n cause : Nat) (q : QueueId), (m.core n).task = some q → let m1 := m.stopCore n cause
      m.faultStop n cause = (m1.faultFor 9 0 n q.tenant q.ctx 0 0 cause 0 0 (some q)).endTask q 0xB (m1.faultSeq q.tenant)) ∧
    (∀ (m : Block) (t : Nat) (r : FaultRec), (m.flt.faults.filter (·.tenant == t)).length ≤ 1024 →
      let m' := m.addFault t r
      (m'.flt.faults.filter (·.tenant == t)).length ≤ 1024 ∧ m'.faultSeq t = (m.faultSeq t + 1) % 2 ^ 32 ∧
        (∃ x ∈ m'.flt.faults, x.tenant = t ∧ x.seq = m.faultSeq t ∧ x.time = m.time ∧ x.kind = r.kind) ∧
        (∀ u, u ≠ t → m'.faultSeq u = m.faultSeq u ∧ m'.flt.faults.filter (·.tenant == u) = m.flt.faults.filter (·.tenant == u))) ∧
    (∀ (s : State), s.m.flt.curbs = [] → Gives .curbHandling s s.m) ∧
    (∀ (k : Curb) (ks : List Curb) (x : Context) (s : State), s.m.flt.curbs = k :: ks → s.m.context? k.tenant k.ctx = some x →
      let rest := { s.m with flt.curbs := ks }
      let note (flags : Nat) : Block :=
        (rest.faultFor k.kind k.mtype k.mindex k.tenant k.ctx k.addr k.len k.cause ((if k.remote.isSome then 1 else 0) + flags) (k.remote.getD 0) k.q).trace 7 5
      (x.tear.isSome → Gives .curbHandling s (note 0)) ∧
      (x.tear = none → k.q = none → Gives .curbHandling s ((note 2).modContext k.tenant k.ctx fun x => { x with held := true })) ∧
      (∀ q c, x.tear = none → k.q = some q → (note 2).running q = some c → c.faultSeq = none → Gives .curbHandling s
        ((((note 2).stopServing q).endTask q 0xB (s.m.faultSeq k.tenant)).modContext k.tenant k.ctx fun x => { x with held := true }))) ∧
    (∀ (cls idx : Nat) (s : State), cls ≠ 8 → s.m.hung cls idx = false → Gives (.watchdogHang cls idx) s s.m) ∧
    (∀ (n : Nat) (s : State), s.m.hung 0 n = true →
      let q := s.m.hungCmd 0 n
      let m1 := (s.m.capture 1 n 0 [(0, n)]).failHung 0 n q
      Gives (.watchdogHang 0 n) s (((m1.resetCore n).replayAll ((m1.onCores [n]).filter fun c => some c.q != q)).noteReset 1 n none)) ∧
    (∀ (cls idx : Nat) (s : State), cls = 2 ∨ cls = 3 ∨ cls = 4 → s.m.hung cls idx = true →
      Gives (.watchdogHang cls idx) s
        (((s.m.failHung cls idx (s.m.hungCmd cls idx)).resetEngine (hungEngine cls idx)).noteReset 0 (hungEngine cls idx).index none)) ∧
    (∀ (k : Nat) (s : State), s.m.fwRuns = true → k ≤ 6 → Gives (.controlCoreWatchdog k) s
      ({ s.m with fw.ctrlFailed := insertNat s.m.fw.ctrlFailed k }.startRecovery)) ∧
    (∀ (level idx : Nat) (r : NarrowReset) (s : State), (s.m.pwr.narrow.find? fun r => r.level == level && r.idx == idx) = some r →
      (s.m.time < r.since + s.m.escLimit level → Gives (.escalationTimeout level idx) s s.m) ∧
      (r.since + s.m.escLimit level ≤ s.m.time → Gives (.escalationTimeout level idx) s (s.m.escalate r)))) ∧
  (
    (∀ (k : Nat) (s : State), s.m.fwRuns = true → 1 ≤ k → k ≤ 5 → Gives (.deviceRecovery k) s { s.m with pwr.recoverAgain := false }.startRecovery) ∧
    (∀ (k : Nat) (s : State), k < 1 ∨ 6 < k → Gives (.deviceRecovery k) s s.m) ∧
    (∀ (start p : Nat) (s : State), s.m.pwr.recovery = some (start, p) →
      (s.m.fw.fwUp = false → Gives .recoveryEnd s s.m) ∧
      (s.m.fw.fwUp = true → s.m.pwr.rst = none → s.m.phase = 4 → s.m.pwr.healthState ≠ 2 →
        (s.m.flt.failedStacks.contains 1 = true → Gives .recoveryEnd s { s.m with pwr.healthState := 2 }) ∧
        (s.m.flt.failedStacks.contains 1 = false →
          let m2 := { s.m.layMemories.sendRejoin with fab.sendRecovering := false, pwr.recovery := none, pwr.healthState := 0 }
          let m3 := (m2.setReg Reg.aonRecovEnd (BitVec.ofNat 64 m2.time)).setFld Reg.aonRecov 31 0 (min ((m2.time - start) * 40 / 1000000) (2 ^ 32 - 1))
          let m5 := (if m3.pwr.causes.contains 5 then m3.endCause 5 else m3).windowClosed.replayBook.trace 7 5
          (m5.pwr.recoverAgain = false → Gives .recoveryEnd s m5) ∧
          (m5.pwr.recoverAgain = true → Gives .recoveryEnd s { m5 with pwr.recoverAgain := false }.startRecovery)))) ∧
    (∀ (n : Nat) (s : State), n < s.m.coreCount → s.m.fwRuns = true → s.m.phys n ≠ 0xF →
      let cmds := s.m.onCores [n]
      let off := cmds.foldl (fun m c => (m.stopServing c.q).releaseCores c.q) s.m
      (s.m.coreDamaged n = true → Gives (.coreRemount n 2) s
        (cmds.foldl (fun m c => m.replay c) (off.remountCore n 2 (max 1 (s.m.core n).cmUncorr.length)))) ∧
      (2 ≤ (s.m.core n).hangs → Gives (.coreRemount n 3) s (cmds.foldl (fun m c => m.replay c) (off.remountCore n 3 (s.m.core n).hangs))) ∧
      (s.m.coreDamaged n = false → Gives (.coreRemount n 2) s s.m)) ∧
    (∀ (n : Nat) (s : State), n < s.m.coreCount → s.m.fwRuns = true →
      let k := ((s.m.core n).cmCorr.filter fun t => decide (s.m.time < t + day)).length
      (64 ≤ k → (s.m.core n).task = none → (s.m.core n).saved = none → (s.m.spareOf (n / 8)).isSome → s.m.phys n ≠ 0xF →
        Gives (.coreIdleRemount n) s (s.m.remountCore n 1 k)) ∧
      (k < 64 → Gives (.coreIdleRemount n) s s.m)))

/-- Security (R480, R488, R489, R491): an extension replaces a measurement by the digest of the old value and the new digest, and is logged while
the log has room; the SVN commit starts when it is not refused, never lowers the count of blown fuses and never takes it above 64; the management
key is set from its words, which restarts both counters, and cleared. -/
def Obligations.SecurityRows : Prop :=
  (∀ (m : Block) (r src : Nat) (d x : List Byte), m.sec.meas[r]? = some x → m.sec.events.length < 32 →
    let m' := m.extend r src d
    m'.sec.meas[r]? = some (sha3 (x ++ d)) ∧ (∀ k, k ≠ r → m'.sec.meas[k]? = m.sec.meas[k]?) ∧ m'.sec.events.length = m.sec.events.length + 1 ∧
      (∃ e, m'.sec.events = m.sec.events ++ [e] ∧ e.reg = r ∧ e.source = src ∧ e.time = m.time ∧ e.digest = d) ∧ OnlyRegs [] { m with sec := m'.sec } m') ∧
  (∀ (m : Block) (r src : Nat) (d : List Byte), 32 ≤ m.sec.events.length → (m.extend r src d).sec.events = m.sec.events ∧
    (m.extend r src d).fld Reg.secStatus 60 60 = 1) ∧
  (∀ (k : Nat) (s : State), k = 4 ∨ k = 5 → Gives (.secExtend .firmware k) s (s.m.extend k 1 (wordBytes s.m.sec.digest))) ∧
  (∀ (p k : Nat) (s : State), s.m.choSt p = 2 → Gives (.secExtend (.host p 0) k) s s.m) ∧
  (∀ (s : State), s.m.sec.svnBusy = false →
    (s.m.svnRefused = true → Completes (.svnCommit .firmware 0x5356) s fun m => m.fld Reg.secSvnCtl 63 63 = 1 ∧ OnlyRegs [Reg.secSvnCtl] s.m m) ∧
    (s.m.svnRefused = false → Completes (.svnCommit .firmware 0x5356) s fun m =>
      m.fld Reg.secSvnCtl 63 62 = 1 ∧ m.sec = { s.m.sec with svnBusy := true } ∧ OnlyRegs [Reg.secSvnCtl] { s.m with sec := m.sec } m)) ∧
  (∀ (k : Nat) (s : State), k ≠ 0x5356 → Gives (.svnCommit .firmware k) s s.m) ∧
  (∀ (s : State), (s.m.sec.svnBusy = false → Gives .svnCommitComplete s s.m) ∧
    (s.m.sec.svnBusy = true → s.m.fuse.svnFuses ≤ 64 → Completes .svnCommitComplete s fun m =>
      m.fuse.svnFuses = max s.m.fuse.svnFuses (min 64 s.m.fw.runSvn) ∧ s.m.fuse.svnFuses ≤ m.fuse.svnFuses ∧ m.fuse.svnFuses ≤ 64 ∧
      m.sec.svnBusy = false ∧ m.fld Reg.secSvnCtl 62 62 = 0)) ∧
  (∀ (s : State),
    Gives (.mgmtKeySet .firmware) s { s.m with sec.mgmtKey := some (wordBytes s.m.sec.mgmtWords), sec.mgmtRx := 0, sec.mgmtTx := 1 } ∧
    Gives (.mgmtKeyClear .firmware) s { s.m with sec.mgmtKey := none, sec.mgmtWords := List.replicate 4 0 }) ∧
  (∀ (p t : Nat) (s : State), s.m.choSt p = 2 → s.m.tagOk p t = true → t ≠ 0 →
    Gives (.mgmtKeySet (.host p t)) s s.m ∧ Gives (.mgmtKeyClear (.host p t)) s s.m ∧ Gives (.svnCommit (.host p t) 0x5356) s s.m)

/-- A step runs the command at the front of the queue on the block, with the rest of the queue left waiting. With nothing waiting one tick of the
timebase passes while the module has power (R425; the model's choice of what an empty queue means, log entry 16): the tick counts, and nothing
else happens unless a PACED command's time is up (R330) or a core has work that goes on by itself (R81). -/
def Obligations.StepRunsFrontCommand : Prop :=
  (∀ (c : Instr) (s : State) (rest : List Instr), step { s with pending := c :: rest } = exec c { s with pending := rest }) ∧
  (∀ (s : State), s.pending = [] → step s = .next { s with m := s.m.tick.settle }) ∧
  (∀ (m : Block), m.pwr.powered = false → m.tick = m) ∧
  (∀ (m : Block), m.pwr.powered = true → (∀ c ∈ m.cmd.cmds, m.overrun c = false) →
    (∀ e ∈ m.cores, (m.core e.1).goesOn = false ∧ ((m.core e.1).task ≠ none ∨ m.fld (Reg.coreTaskId e.1) 63 63 = 0)) →
    m.tick = { m with time := m.time + 1 })

/-- From every state whose memories are in canonical form a step answers a next state, never a fault or a refusal, takes one command off the queue, and
leaves the memories in canonical form; and in that form memories that read alike at every address are equal. -/
def Obligations.EveryStepKeepsMemoriesCanonical : Prop :=
  (∀ (s : State), s.m.Canonical → ∃ s' : State, step s = .next s' ∧ s'.pending = s.pending.tail ∧ s'.m.Canonical) ∧
  (∀ (a b : Memory), a.wf → b.wf → (∀ k, a.read k = b.read k) → a = b) ∧
  (∀ (m : Block), m.settle.Canonical ∧ (m.Canonical → m.settle = m) ∧ ∀ k, m.settle.mem.read k = m.mem.read k)

/-- The state after reset: no command waits, every memory is in canonical form and reads zero (the model's choice, log entry 11), no core runs, the
tick is 0, and the registers hold the reset values that the chapters' register tables state. -/
def Obligations.ResetState : Prop :=
  let m := State.reset.m
  State.reset.pending = [] ∧ m.Canonical ∧ (∀ a, m.mem.read a = 0) ∧ m.time = 0 ∧ (∀ n < 128, m.coreSt n = 0) ∧ m.cmd.queues = [] ∧
    m.cmd.cmds = [] ∧ m.flt.faults = [] ∧ m.cho.i3cDyn = none ∧
    (∀ n < 128, m.reg (Reg.coreHitchTmo n) = 0x017D7840) ∧ (∀ t < 16, m.reg (Reg.drvCfg t) = 0x017D7840) ∧
    m.reg Reg.paceAdm = 0x9C4 ∧ m.reg Reg.paceSlot = 0x186A ∧ m.reg Reg.paceFg = 0x960 ∧ m.reg Reg.paceLhop = 0xFA ∧ m.reg Reg.paceCopy = 0x186A0 ∧
    m.reg Reg.fabUnreach = 0x02FAF080 ∧ m.reg Reg.fabCollTmo = 0x2CB41780 ∧ m.reg Reg.fabLaneSer = 0x10000 ∧
    m.reg Reg.choHbTmo = 0x02FAF080 ∧ m.reg Reg.choHold = 0x59682F00 ∧ m.reg Reg.fwActDrain = 0x07735940 ∧ m.reg Reg.fwActDefer = 0x0EE6B280 ∧
    m.reg Reg.fwTraceLvl = 1 ∧ m.reg Reg.tileClkIdle = 0x61A8 ∧ m.reg Reg.pwrCap = 0x1C20 ∧ m.reg Reg.pwrLimits = 0x3E8 ∧
    m.reg Reg.pwrTherm = 0x03B6041A047E ∧ m.reg Reg.aonEscEngine = 0x9C4 ∧ m.reg Reg.aonEscCore = 0x61A8 ∧ m.reg Reg.aonEscTile = 0x3D090 ∧
    (∀ k ∈ [0, 1, 3, 4], m.reg (Reg.aonWdog k) = 0x05F5E100) ∧ m.reg (Reg.aonWdog 2) = 0x017D7840 ∧ m.reg (Reg.aonWdog 5) = 0x3B9ACA00 ∧
    (∀ k ∈ [6, 7], m.reg (Reg.aonWdog k) = 0x002625A0) ∧ m.reg (Reg.aonWdog 8) = 0x0003D090
end

