-- ==== Sys2Proof/Laws/Memory.lean ====
section
/-! SUPPORT. The laws of memory: what a read gives after a write, a zero-fill or a normalisation, and that every memory operation
keeps the canonical form. -/
namespace Sys2Proof.Machine

/-- Addresses below every listed one read 0x00. -/
theorem Memory.read_of_lt (m : Memory) (a : Nat) (h : ∀ c ∈ m, a < c.1) : m.read a = 0 := by
  induction m with
  | nil => rfl
  | cons c t ih =>
    obtain ⟨k, v⟩ := c
    have hk : a < k := h (k, v) (by simp)
    simp only [Memory.read]
    rw [if_neg (by omega)]
    exact ih fun c hc => h c (by simp [hc])

/-- A write leaves every other address alone, whatever the list. -/
theorem Memory.read_write_ne (m : Memory) (a b : Nat) (v : Byte) (h : b ≠ a) : (m.write a v).read b = m.read b := by
  induction m with
  | nil =>
    simp only [Memory.write]
    split <;> simp [Memory.read, Ne.symm h]
  | cons c t ih =>
    obtain ⟨k, w⟩ := c
    simp only [Memory.write]
    split
    · split <;> simp [Memory.read, Ne.symm h]
    · split
      · rename_i hk
        subst hk
        split <;> simp [Memory.read, Ne.symm h]
      · simp [Memory.read, ih]

/-- A read after a write to the same address gives the byte written, in a memory in canonical form. -/
theorem Memory.read_write_self (m : Memory) (a : Nat) (v : Byte) (h : m.wf) : (m.write a v).read a = v := by
  induction m with
  | nil =>
    simp only [Memory.write]
    split <;> simp_all [Memory.read]
  | cons c t ih =>
    obtain ⟨k, w⟩ := c
    have ht : Memory.wf t := ⟨(List.pairwise_cons.mp h.1).2, fun c hc => h.2 c (by simp [hc])⟩
    have hgt : ∀ c ∈ t, k < c.1 := (List.pairwise_cons.mp h.1).1
    simp only [Memory.write]
    split
    · split
      · rename_i hlt hv
        subst hv
        rw [Memory.read_of_lt]
        intro c hc
        rcases List.mem_cons.mp hc with rfl | hc
        · exact hlt
        · exact Nat.lt_trans hlt (hgt c hc)
      · simp [Memory.read]
    · split
      · rename_i hk
        subst hk
        split
        · rename_i hv
          subst hv
          exact Memory.read_of_lt t a hgt
        · simp [Memory.read]
      · rename_i h1 h2
        simp only [Memory.read]
        rw [if_neg (by omega)]
        exact ih ht

/-- A listed address after a write is the address written or was listed. -/
theorem Memory.mem_write {m : Memory} {a : Nat} {v : Byte} {c : Host.Cell} (h : c ∈ m.write a v) : (c = (a, v) ∧ v ≠ 0) ∨ c ∈ m := by
  induction m with
  | nil =>
    simp only [Memory.write] at h
    split at h <;> simp_all
  | cons d t ih =>
    obtain ⟨k, w⟩ := d
    simp only [Memory.write] at h
    split at h
    · split at h <;> simp_all
    · split at h
      · split at h <;> simp_all
        tauto
      · rcases List.mem_cons.mp h with rfl | h
        · simp
        · rcases ih h with h | h
          · exact .inl h
          · exact .inr (by simp [h])

/-- A write keeps the canonical form. -/
theorem Memory.wf_write (m : Memory) (a : Nat) (v : Byte) (h : m.wf) : (m.write a v).wf := by
  induction m with
  | nil =>
    simp only [Memory.write]
    split
    · exact h
    · rename_i hv
      exact ⟨by simp, fun c hc => by rw [List.mem_singleton.mp hc]; exact hv⟩
  | cons c t ih =>
    obtain ⟨k, w⟩ := c
    have ht : Memory.wf t := ⟨(List.pairwise_cons.mp h.1).2, fun c hc => h.2 c (by simp [hc])⟩
    have hgt : ∀ c ∈ t, k < c.1 := (List.pairwise_cons.mp h.1).1
    have hw : w ≠ 0 := h.2 (k, w) (by simp)
    simp only [Memory.write]
    split
    · rename_i hlt
      split
      · exact h
      · rename_i hv
        refine ⟨List.pairwise_cons.mpr ⟨fun c hc => ?_, h.1⟩, fun c hc => ?_⟩
        · rcases List.mem_cons.mp hc with rfl | hc
          · exact hlt
          · exact Nat.lt_trans hlt (hgt c hc)
        · rcases List.mem_cons.mp hc with rfl | hc
          · exact hv
          · exact h.2 c hc
    · split
      · rename_i hk
        subst hk
        split
        · exact ht
        · rename_i hv
          refine ⟨List.pairwise_cons.mpr ⟨hgt, ht.1⟩, fun c hc => ?_⟩
          rcases List.mem_cons.mp hc with rfl | hc
          · exact hv
          · exact ht.2 c hc
      · rename_i h1 h2
        have hr := ih ht
        refine ⟨List.pairwise_cons.mpr ⟨fun c hc => ?_, hr.1⟩, fun c hc => ?_⟩
        · rcases Memory.mem_write hc with ⟨rfl, _⟩ | hc
          · show k < a
            omega
          · exact hgt c hc
        · rcases List.mem_cons.mp hc with rfl | hc
          · exact hw
          · exact hr.2 c hc

/-- Writing bytes keeps the canonical form. -/
theorem Memory.wf_writeN (bs : List Byte) (m : Memory) (a : Nat) (h : m.wf) : (m.writeN a bs).wf := by
  induction bs generalizing m a with
  | nil => exact h
  | cons b bs ih => exact ih _ _ (m.wf_write a b h)

/-- A masked write keeps the canonical form. -/
theorem Memory.wf_writeMasked (bs : List Byte) (mask : List Bool) (m : Memory) (a : Nat) (h : m.wf) : (m.writeMasked a bs mask).wf := by
  induction bs generalizing m a mask with
  | nil => cases mask <;> exact h
  | cons b bs ih =>
    cases mask with
    | nil => exact ih _ _ _ (m.wf_write a b h)
    | cons k ks =>
      simp only [Memory.writeMasked]
      split
      · exact ih _ _ _ (m.wf_write a b h)
      · exact ih _ _ _ h

/-- Zero-filling keeps the canonical form. -/
theorem Memory.wf_clear (m : Memory) (a n : Nat) (h : m.wf) : (m.clear a n).wf :=
  ⟨h.1.filter _, fun c hc => h.2 c (List.mem_of_mem_filter hc)⟩

/-- The canonical form of any list is canonical. -/
theorem Memory.wf_canon (m : Memory) : m.canon.wf := by
  induction m with
  | nil => exact ⟨List.Pairwise.nil, fun c hc => by simp [Memory.canon] at hc⟩
  | cons c t ih => exact Memory.wf_write _ c.1 c.2 ih

/-- The canonical form reads as the list does. -/
@[simp] theorem Memory.read_canon (m : Memory) (a : Nat) : m.canon.read a = m.read a := by
  induction m with
  | nil => rfl
  | cons c t ih =>
    obtain ⟨k, v⟩ := c
    show (Memory.write (Memory.canon t) k v).read a = _
    simp only [Memory.read]
    split
    · rename_i hk
      subst hk
      exact Memory.read_write_self _ _ _ (Memory.wf_canon t)
    · rename_i hk
      rw [Memory.read_write_ne _ _ _ _ (Ne.symm hk)]
      exact ih

/-- Writing a byte below every listed one of a canonical memory lists it first. -/
theorem Memory.write_lt (m : Memory) (a : Nat) (v : Byte) (hv : v ≠ 0) (h : ∀ c ∈ m, a < c.1) : m.write a v = (a, v) :: m := by
  cases m with
  | nil => exact if_neg hv
  | cons c t =>
    obtain ⟨k, w⟩ := c
    rw [Memory.write, if_pos (h (k, w) (by simp)), if_neg hv]

/-- A memory in canonical form is its own canonical form. -/
theorem Memory.canon_of_wf (m : Memory) (h : m.wf) : m.canon = m := by
  induction m with
  | nil => rfl
  | cons c t ih =>
    obtain ⟨k, v⟩ := c
    have ht : Memory.wf t := ⟨(List.pairwise_cons.mp h.1).2, fun c hc => h.2 c (by simp [hc])⟩
    show Memory.write (Memory.canon t) k v = _
    rw [ih ht]
    exact Memory.write_lt t k v (h.2 (k, v) (by simp)) (List.pairwise_cons.mp h.1).1

/-- Reading bytes in a row reads each of them. -/
theorem Memory.readN_eq_map (m : Memory) (n a : Nat) : m.readN a n = (List.range n).map fun i => m.read (a + i) := by
  induction n generalizing a with
  | zero => rfl
  | succ n ih =>
    rw [Memory.readN, ih, List.range_succ_eq_map, List.map_cons, List.map_map]
    simp only [Nat.add_zero, List.cons.injEq, true_and]
    exact List.map_congr_left fun i _ => by simp only [Function.comp_apply]; congr 1; omega

/-- Bytes read one by one. -/
theorem Memory.readN_congr (m m' : Memory) (n a : Nat) (h : ∀ i, m'.read i = m.read i) : m'.readN a n = m.readN a n := by
  induction n generalizing a with
  | zero => rfl
  | succ n ih => simp [Memory.readN, h, ih]

/-- The canonical form reads as the list does, byte strings too. -/
@[simp] theorem Memory.readN_canon (m : Memory) (a n : Nat) : m.canon.readN a n = m.readN a n :=
  Memory.readN_congr _ _ _ _ fun i => Memory.read_canon m i

/-- A read outside the bytes that a write stores. -/
theorem Memory.read_writeN_out (bs : List Byte) (m : Memory) (a b : Nat) (h : b < a ∨ a + bs.length ≤ b) :
    (m.writeN a bs).read b = m.read b := by
  induction bs generalizing m a with
  | nil => rfl
  | cons v bs ih =>
    simp only [List.length_cons] at h
    rw [Memory.writeN, ih _ _ (by omega), Memory.read_write_ne _ _ _ _ (by omega)]

/-- Reading back what was written. -/
theorem Memory.readN_writeN (bs : List Byte) (m : Memory) (a : Nat) (h : m.wf) : (m.writeN a bs).readN a bs.length = bs := by
  induction bs generalizing m a with
  | nil => rfl
  | cons v bs ih =>
    simp only [Memory.writeN, List.length_cons, Memory.readN]
    rw [ih _ _ (m.wf_write a v h), Memory.read_writeN_out _ _ _ _ (by omega), Memory.read_write_self m a v h]

/-- A masked write leaves the bytes outside it alone. -/
theorem Memory.read_writeMasked_out (bs : List Byte) (mask : List Bool) (m : Memory) (a b : Nat) (h : b < a ∨ a + bs.length ≤ b) :
    (m.writeMasked a bs mask).read b = m.read b := by
  induction bs generalizing m a mask with
  | nil => cases mask <;> rfl
  | cons v bs ih =>
    simp only [List.length_cons] at h
    cases mask with
    | nil => rw [Memory.writeMasked, ih _ _ _ (by omega), Memory.read_write_ne _ _ _ _ (by omega)]
    | cons k ks =>
      rw [Memory.writeMasked, ih _ _ _ (by omega)]
      split
      · rw [Memory.read_write_ne _ _ _ _ (by omega)]
      · rfl

/-- A zero-fill clears its bytes and leaves the others. -/
theorem Memory.read_clear (m : Memory) (a n b : Nat) : (m.clear a n).read b = if a ≤ b ∧ b < a + n then 0 else m.read b := by
  induction m with
  | nil => simp [Memory.clear, Memory.read]
  | cons c t ih =>
    obtain ⟨k, v⟩ := c
    by_cases hk : a ≤ k ∧ k < a + n
    · have e : Memory.clear ((k, v) :: t) a n = Memory.clear t a n := List.filter_cons_of_neg (by simp [hk])
      rw [e, ih]
      by_cases hb : a ≤ b ∧ b < a + n
      · simp [hb]
      · have hne : k ≠ b := fun e => hb (e ▸ hk)
        simp [hb, Memory.read, hne]
    · have hp : (!(decide (a ≤ k) && decide (k < a + n))) = true := by
        simp only [Bool.not_eq_true', Bool.and_eq_false_iff, decide_eq_false_iff_not]
        omega
      have e : Memory.clear ((k, v) :: t) a n = (k, v) :: Memory.clear t a n := List.filter_cons_of_pos hp
      rw [e, Memory.read, Memory.read, ih]
      by_cases hkb : k = b
      · subst hkb
        simp [hk]
      · simp [hkb]

end Sys2Proof.Machine
end

