-- ==== Sys2Proof/Laws/Engines.lean ====
section
/-! SUPPORT. What the engines share: the entry that a ready ring gives, a read that finds its bytes, and what a write to this module's own
memory leaves alone. -/
namespace Sys2Proof.Machine

/-- A ring with a sound, present entry hands it to what the engine does with it. -/
theorem Block.takeEntry_of_ready {m : Block} {t i n : Nat} {x : Context} (h : m.entryReady t i n x = true) (k : Block → Context → List Word → Block) :
    m.takeEntry t i n k = k (m.entryTaken t i n x) x (m.entryWords t i n x) := by
  simp only [Block.entryReady, Bool.and_eq_true, beq_iff_eq, decide_eq_true_eq, bne_iff_ne, ne_eq, Bool.not_eq_true'] at h
  obtain ⟨⟨⟨⟨h1, h2⟩, h3⟩, h5⟩, h4⟩ := h
  simp only [Block.takeEntry, h1, h4, h3, h5, Nat.not_le.2 h2, or_self, ↓reduceIte, Bool.false_eq_true]
  rfl

/-- A read whose bytes are there goes on with them. -/
theorem Block.withRead_of_data {m : Block} {v : Mover} {a n : Nat} {m1 : Block} {bs : List Byte}
    (h : m.engRead v a n = .data m1 bs false) (k : Block → List Byte → Block) : m.withRead v a n k = k m1 bs := by
  simp [Block.withRead, h]

end Sys2Proof.Machine
end

