-- ==== Sys2Proof/Laws/State.lean ====
section
/-! SUPPORT. What each named update of the block leaves alone, field by field: true by computation and used by simp, so that no later
proof unfolds a record update. -/
namespace Sys2Proof.Machine

@[simp] theorem Block.setReg_mem (m : Block) (r : Nat) (w : Word) : (m.setReg r w).mem = m.mem := (rfl)
@[simp] theorem Block.setReg_bufs (m : Block) (r : Nat) (w : Word) : (m.setReg r w).bufs = m.bufs := (rfl)
@[simp] theorem Block.setReg_mbuf (m : Block) (r : Nat) (w : Word) : (m.setReg r w).mbuf = m.mbuf := (rfl)
@[simp] theorem Block.setReg_poison (m : Block) (r : Nat) (w : Word) : (m.setReg r w).poison = m.poison := (rfl)
@[simp] theorem Block.setReg_bufPoison (m : Block) (r : Nat) (w : Word) : (m.setReg r w).bufPoison = m.bufPoison := (rfl)
@[simp] theorem Block.setReg_tags (m : Block) (r : Nat) (w : Word) : (m.setReg r w).tags = m.tags := (rfl)
@[simp] theorem Block.setReg_ecc (m : Block) (r : Nat) (w : Word) : (m.setReg r w).ecc = m.ecc := (rfl)
@[simp] theorem Block.setReg_stale (m : Block) (r : Nat) (w : Word) : (m.setReg r w).stale = m.stale := (rfl)
@[simp] theorem Block.setReg_dimms (m : Block) (r : Nat) (w : Word) : (m.setReg r w).dimms = m.dimms := (rfl)
@[simp] theorem Block.setReg_time (m : Block) (r : Nat) (w : Word) : (m.setReg r w).time = m.time := (rfl)
@[simp] theorem Block.setReg_cores (m : Block) (r : Nat) (w : Word) : (m.setReg r w).cores = m.cores := (rfl)
@[simp] theorem Block.setReg_tiles (m : Block) (r : Nat) (w : Word) : (m.setReg r w).tiles = m.tiles := (rfl)
@[simp] theorem Block.setReg_chans (m : Block) (r : Nat) (w : Word) : (m.setReg r w).chans = m.chans := (rfl)
@[simp] theorem Block.setReg_cmd (m : Block) (r : Nat) (w : Word) : (m.setReg r w).cmd = m.cmd := (rfl)
@[simp] theorem Block.setReg_page (m : Block) (r : Nat) (w : Word) : (m.setReg r w).page = m.page := (rfl)
@[simp] theorem Block.setReg_eng (m : Block) (r : Nat) (w : Word) : (m.setReg r w).eng = m.eng := (rfl)
@[simp] theorem Block.setReg_fab (m : Block) (r : Nat) (w : Word) : (m.setReg r w).fab = m.fab := (rfl)
@[simp] theorem Block.setReg_cho (m : Block) (r : Nat) (w : Word) : (m.setReg r w).cho = m.cho := (rfl)
@[simp] theorem Block.setReg_fw (m : Block) (r : Nat) (w : Word) : (m.setReg r w).fw = m.fw := (rfl)
@[simp] theorem Block.setReg_pwr (m : Block) (r : Nat) (w : Word) : (m.setReg r w).pwr = m.pwr := (rfl)
@[simp] theorem Block.setReg_flt (m : Block) (r : Nat) (w : Word) : (m.setReg r w).flt = m.flt := (rfl)
@[simp] theorem Block.setReg_sec (m : Block) (r : Nat) (w : Word) : (m.setReg r w).sec = m.sec := (rfl)
@[simp] theorem Block.setReg_fuse (m : Block) (r : Nat) (w : Word) : (m.setReg r w).fuse = m.fuse := (rfl)
@[simp] theorem Block.setReg_free (m : Block) (r : Nat) (w : Word) : (m.setReg r w).free = m.free := (rfl)

@[simp] theorem Block.setFld_mem (m : Block) (r hi lo v : Nat) : (m.setFld r hi lo v).mem = m.mem := (rfl)
@[simp] theorem Block.setFld_bufs (m : Block) (r hi lo v : Nat) : (m.setFld r hi lo v).bufs = m.bufs := (rfl)
@[simp] theorem Block.setFld_mbuf (m : Block) (r hi lo v : Nat) : (m.setFld r hi lo v).mbuf = m.mbuf := (rfl)
@[simp] theorem Block.setFld_poison (m : Block) (r hi lo v : Nat) : (m.setFld r hi lo v).poison = m.poison := (rfl)
@[simp] theorem Block.setFld_bufPoison (m : Block) (r hi lo v : Nat) : (m.setFld r hi lo v).bufPoison = m.bufPoison := (rfl)
@[simp] theorem Block.setFld_tags (m : Block) (r hi lo v : Nat) : (m.setFld r hi lo v).tags = m.tags := (rfl)
@[simp] theorem Block.setFld_ecc (m : Block) (r hi lo v : Nat) : (m.setFld r hi lo v).ecc = m.ecc := (rfl)
@[simp] theorem Block.setFld_stale (m : Block) (r hi lo v : Nat) : (m.setFld r hi lo v).stale = m.stale := (rfl)
@[simp] theorem Block.setFld_dimms (m : Block) (r hi lo v : Nat) : (m.setFld r hi lo v).dimms = m.dimms := (rfl)
@[simp] theorem Block.setFld_time (m : Block) (r hi lo v : Nat) : (m.setFld r hi lo v).time = m.time := (rfl)
@[simp] theorem Block.setFld_cores (m : Block) (r hi lo v : Nat) : (m.setFld r hi lo v).cores = m.cores := (rfl)
@[simp] theorem Block.setFld_tiles (m : Block) (r hi lo v : Nat) : (m.setFld r hi lo v).tiles = m.tiles := (rfl)
@[simp] theorem Block.setFld_chans (m : Block) (r hi lo v : Nat) : (m.setFld r hi lo v).chans = m.chans := (rfl)
@[simp] theorem Block.setFld_cmd (m : Block) (r hi lo v : Nat) : (m.setFld r hi lo v).cmd = m.cmd := (rfl)
@[simp] theorem Block.setFld_page (m : Block) (r hi lo v : Nat) : (m.setFld r hi lo v).page = m.page := (rfl)
@[simp] theorem Block.setFld_eng (m : Block) (r hi lo v : Nat) : (m.setFld r hi lo v).eng = m.eng := (rfl)
@[simp] theorem Block.setFld_fab (m : Block) (r hi lo v : Nat) : (m.setFld r hi lo v).fab = m.fab := (rfl)
@[simp] theorem Block.setFld_cho (m : Block) (r hi lo v : Nat) : (m.setFld r hi lo v).cho = m.cho := (rfl)
@[simp] theorem Block.setFld_fw (m : Block) (r hi lo v : Nat) : (m.setFld r hi lo v).fw = m.fw := (rfl)
@[simp] theorem Block.setFld_pwr (m : Block) (r hi lo v : Nat) : (m.setFld r hi lo v).pwr = m.pwr := (rfl)
@[simp] theorem Block.setFld_flt (m : Block) (r hi lo v : Nat) : (m.setFld r hi lo v).flt = m.flt := (rfl)
@[simp] theorem Block.setFld_sec (m : Block) (r hi lo v : Nat) : (m.setFld r hi lo v).sec = m.sec := (rfl)
@[simp] theorem Block.setFld_fuse (m : Block) (r hi lo v : Nat) : (m.setFld r hi lo v).fuse = m.fuse := (rfl)
@[simp] theorem Block.setFld_free (m : Block) (r hi lo v : Nat) : (m.setFld r hi lo v).free = m.free := (rfl)

@[simp] theorem Block.addFld_mem (m : Block) (r hi lo k : Nat) : (m.addFld r hi lo k).mem = m.mem := (rfl)
@[simp] theorem Block.addFld_bufs (m : Block) (r hi lo k : Nat) : (m.addFld r hi lo k).bufs = m.bufs := (rfl)
@[simp] theorem Block.addFld_mbuf (m : Block) (r hi lo k : Nat) : (m.addFld r hi lo k).mbuf = m.mbuf := (rfl)
@[simp] theorem Block.addFld_poison (m : Block) (r hi lo k : Nat) : (m.addFld r hi lo k).poison = m.poison := (rfl)
@[simp] theorem Block.addFld_bufPoison (m : Block) (r hi lo k : Nat) : (m.addFld r hi lo k).bufPoison = m.bufPoison := (rfl)
@[simp] theorem Block.addFld_tags (m : Block) (r hi lo k : Nat) : (m.addFld r hi lo k).tags = m.tags := (rfl)
@[simp] theorem Block.addFld_ecc (m : Block) (r hi lo k : Nat) : (m.addFld r hi lo k).ecc = m.ecc := (rfl)
@[simp] theorem Block.addFld_stale (m : Block) (r hi lo k : Nat) : (m.addFld r hi lo k).stale = m.stale := (rfl)
@[simp] theorem Block.addFld_dimms (m : Block) (r hi lo k : Nat) : (m.addFld r hi lo k).dimms = m.dimms := (rfl)
@[simp] theorem Block.addFld_time (m : Block) (r hi lo k : Nat) : (m.addFld r hi lo k).time = m.time := (rfl)
@[simp] theorem Block.addFld_cores (m : Block) (r hi lo k : Nat) : (m.addFld r hi lo k).cores = m.cores := (rfl)
@[simp] theorem Block.addFld_tiles (m : Block) (r hi lo k : Nat) : (m.addFld r hi lo k).tiles = m.tiles := (rfl)
@[simp] theorem Block.addFld_chans (m : Block) (r hi lo k : Nat) : (m.addFld r hi lo k).chans = m.chans := (rfl)
@[simp] theorem Block.addFld_cmd (m : Block) (r hi lo k : Nat) : (m.addFld r hi lo k).cmd = m.cmd := (rfl)
@[simp] theorem Block.addFld_page (m : Block) (r hi lo k : Nat) : (m.addFld r hi lo k).page = m.page := (rfl)
@[simp] theorem Block.addFld_eng (m : Block) (r hi lo k : Nat) : (m.addFld r hi lo k).eng = m.eng := (rfl)
@[simp] theorem Block.addFld_fab (m : Block) (r hi lo k : Nat) : (m.addFld r hi lo k).fab = m.fab := (rfl)
@[simp] theorem Block.addFld_cho (m : Block) (r hi lo k : Nat) : (m.addFld r hi lo k).cho = m.cho := (rfl)
@[simp] theorem Block.addFld_fw (m : Block) (r hi lo k : Nat) : (m.addFld r hi lo k).fw = m.fw := (rfl)
@[simp] theorem Block.addFld_pwr (m : Block) (r hi lo k : Nat) : (m.addFld r hi lo k).pwr = m.pwr := (rfl)
@[simp] theorem Block.addFld_flt (m : Block) (r hi lo k : Nat) : (m.addFld r hi lo k).flt = m.flt := (rfl)
@[simp] theorem Block.addFld_sec (m : Block) (r hi lo k : Nat) : (m.addFld r hi lo k).sec = m.sec := (rfl)
@[simp] theorem Block.addFld_fuse (m : Block) (r hi lo k : Nat) : (m.addFld r hi lo k).fuse = m.fuse := (rfl)
@[simp] theorem Block.addFld_free (m : Block) (r hi lo k : Nat) : (m.addFld r hi lo k).free = m.free := (rfl)

@[simp] theorem Block.satFld_mem (m : Block) (r hi lo k : Nat) : (m.satFld r hi lo k).mem = m.mem := (rfl)
@[simp] theorem Block.satFld_bufs (m : Block) (r hi lo k : Nat) : (m.satFld r hi lo k).bufs = m.bufs := (rfl)
@[simp] theorem Block.satFld_mbuf (m : Block) (r hi lo k : Nat) : (m.satFld r hi lo k).mbuf = m.mbuf := (rfl)
@[simp] theorem Block.satFld_poison (m : Block) (r hi lo k : Nat) : (m.satFld r hi lo k).poison = m.poison := (rfl)
@[simp] theorem Block.satFld_bufPoison (m : Block) (r hi lo k : Nat) : (m.satFld r hi lo k).bufPoison = m.bufPoison := (rfl)
@[simp] theorem Block.satFld_tags (m : Block) (r hi lo k : Nat) : (m.satFld r hi lo k).tags = m.tags := (rfl)
@[simp] theorem Block.satFld_ecc (m : Block) (r hi lo k : Nat) : (m.satFld r hi lo k).ecc = m.ecc := (rfl)
@[simp] theorem Block.satFld_stale (m : Block) (r hi lo k : Nat) : (m.satFld r hi lo k).stale = m.stale := (rfl)
@[simp] theorem Block.satFld_dimms (m : Block) (r hi lo k : Nat) : (m.satFld r hi lo k).dimms = m.dimms := (rfl)
@[simp] theorem Block.satFld_time (m : Block) (r hi lo k : Nat) : (m.satFld r hi lo k).time = m.time := (rfl)
@[simp] theorem Block.satFld_cores (m : Block) (r hi lo k : Nat) : (m.satFld r hi lo k).cores = m.cores := (rfl)
@[simp] theorem Block.satFld_tiles (m : Block) (r hi lo k : Nat) : (m.satFld r hi lo k).tiles = m.tiles := (rfl)
@[simp] theorem Block.satFld_chans (m : Block) (r hi lo k : Nat) : (m.satFld r hi lo k).chans = m.chans := (rfl)
@[simp] theorem Block.satFld_cmd (m : Block) (r hi lo k : Nat) : (m.satFld r hi lo k).cmd = m.cmd := (rfl)
@[simp] theorem Block.satFld_page (m : Block) (r hi lo k : Nat) : (m.satFld r hi lo k).page = m.page := (rfl)
@[simp] theorem Block.satFld_eng (m : Block) (r hi lo k : Nat) : (m.satFld r hi lo k).eng = m.eng := (rfl)
@[simp] theorem Block.satFld_fab (m : Block) (r hi lo k : Nat) : (m.satFld r hi lo k).fab = m.fab := (rfl)
@[simp] theorem Block.satFld_cho (m : Block) (r hi lo k : Nat) : (m.satFld r hi lo k).cho = m.cho := (rfl)
@[simp] theorem Block.satFld_fw (m : Block) (r hi lo k : Nat) : (m.satFld r hi lo k).fw = m.fw := (rfl)
@[simp] theorem Block.satFld_pwr (m : Block) (r hi lo k : Nat) : (m.satFld r hi lo k).pwr = m.pwr := (rfl)
@[simp] theorem Block.satFld_flt (m : Block) (r hi lo k : Nat) : (m.satFld r hi lo k).flt = m.flt := (rfl)
@[simp] theorem Block.satFld_sec (m : Block) (r hi lo k : Nat) : (m.satFld r hi lo k).sec = m.sec := (rfl)
@[simp] theorem Block.satFld_fuse (m : Block) (r hi lo k : Nat) : (m.satFld r hi lo k).fuse = m.fuse := (rfl)
@[simp] theorem Block.satFld_free (m : Block) (r hi lo k : Nat) : (m.satFld r hi lo k).free = m.free := (rfl)

@[simp] theorem Block.setCore_regs (m : Block) (n : Nat) (c : CoreState) : (m.setCore n c).regs = m.regs := (rfl)
@[simp] theorem Block.setCore_mem (m : Block) (n : Nat) (c : CoreState) : (m.setCore n c).mem = m.mem := (rfl)
@[simp] theorem Block.setCore_bufs (m : Block) (n : Nat) (c : CoreState) : (m.setCore n c).bufs = m.bufs := (rfl)
@[simp] theorem Block.setCore_mbuf (m : Block) (n : Nat) (c : CoreState) : (m.setCore n c).mbuf = m.mbuf := (rfl)
@[simp] theorem Block.setCore_poison (m : Block) (n : Nat) (c : CoreState) : (m.setCore n c).poison = m.poison := (rfl)
@[simp] theorem Block.setCore_bufPoison (m : Block) (n : Nat) (c : CoreState) : (m.setCore n c).bufPoison = m.bufPoison := (rfl)
@[simp] theorem Block.setCore_tags (m : Block) (n : Nat) (c : CoreState) : (m.setCore n c).tags = m.tags := (rfl)
@[simp] theorem Block.setCore_ecc (m : Block) (n : Nat) (c : CoreState) : (m.setCore n c).ecc = m.ecc := (rfl)
@[simp] theorem Block.setCore_stale (m : Block) (n : Nat) (c : CoreState) : (m.setCore n c).stale = m.stale := (rfl)
@[simp] theorem Block.setCore_dimms (m : Block) (n : Nat) (c : CoreState) : (m.setCore n c).dimms = m.dimms := (rfl)
@[simp] theorem Block.setCore_time (m : Block) (n : Nat) (c : CoreState) : (m.setCore n c).time = m.time := (rfl)
@[simp] theorem Block.setCore_tiles (m : Block) (n : Nat) (c : CoreState) : (m.setCore n c).tiles = m.tiles := (rfl)
@[simp] theorem Block.setCore_chans (m : Block) (n : Nat) (c : CoreState) : (m.setCore n c).chans = m.chans := (rfl)
@[simp] theorem Block.setCore_cmd (m : Block) (n : Nat) (c : CoreState) : (m.setCore n c).cmd = m.cmd := (rfl)
@[simp] theorem Block.setCore_page (m : Block) (n : Nat) (c : CoreState) : (m.setCore n c).page = m.page := (rfl)
@[simp] theorem Block.setCore_eng (m : Block) (n : Nat) (c : CoreState) : (m.setCore n c).eng = m.eng := (rfl)
@[simp] theorem Block.setCore_fab (m : Block) (n : Nat) (c : CoreState) : (m.setCore n c).fab = m.fab := (rfl)
@[simp] theorem Block.setCore_cho (m : Block) (n : Nat) (c : CoreState) : (m.setCore n c).cho = m.cho := (rfl)
@[simp] theorem Block.setCore_fw (m : Block) (n : Nat) (c : CoreState) : (m.setCore n c).fw = m.fw := (rfl)
@[simp] theorem Block.setCore_pwr (m : Block) (n : Nat) (c : CoreState) : (m.setCore n c).pwr = m.pwr := (rfl)
@[simp] theorem Block.setCore_flt (m : Block) (n : Nat) (c : CoreState) : (m.setCore n c).flt = m.flt := (rfl)
@[simp] theorem Block.setCore_sec (m : Block) (n : Nat) (c : CoreState) : (m.setCore n c).sec = m.sec := (rfl)
@[simp] theorem Block.setCore_fuse (m : Block) (n : Nat) (c : CoreState) : (m.setCore n c).fuse = m.fuse := (rfl)
@[simp] theorem Block.setCore_free (m : Block) (n : Nat) (c : CoreState) : (m.setCore n c).free = m.free := (rfl)

@[simp] theorem Block.modCore_regs (m : Block) (n : Nat) (f : CoreState → CoreState) : (m.modCore n f).regs = m.regs := (rfl)
@[simp] theorem Block.modCore_mem (m : Block) (n : Nat) (f : CoreState → CoreState) : (m.modCore n f).mem = m.mem := (rfl)
@[simp] theorem Block.modCore_bufs (m : Block) (n : Nat) (f : CoreState → CoreState) : (m.modCore n f).bufs = m.bufs := (rfl)
@[simp] theorem Block.modCore_mbuf (m : Block) (n : Nat) (f : CoreState → CoreState) : (m.modCore n f).mbuf = m.mbuf := (rfl)
@[simp] theorem Block.modCore_poison (m : Block) (n : Nat) (f : CoreState → CoreState) : (m.modCore n f).poison = m.poison := (rfl)
@[simp] theorem Block.modCore_bufPoison (m : Block) (n : Nat) (f : CoreState → CoreState) : (m.modCore n f).bufPoison = m.bufPoison := (rfl)
@[simp] theorem Block.modCore_tags (m : Block) (n : Nat) (f : CoreState → CoreState) : (m.modCore n f).tags = m.tags := (rfl)
@[simp] theorem Block.modCore_ecc (m : Block) (n : Nat) (f : CoreState → CoreState) : (m.modCore n f).ecc = m.ecc := (rfl)
@[simp] theorem Block.modCore_stale (m : Block) (n : Nat) (f : CoreState → CoreState) : (m.modCore n f).stale = m.stale := (rfl)
@[simp] theorem Block.modCore_dimms (m : Block) (n : Nat) (f : CoreState → CoreState) : (m.modCore n f).dimms = m.dimms := (rfl)
@[simp] theorem Block.modCore_time (m : Block) (n : Nat) (f : CoreState → CoreState) : (m.modCore n f).time = m.time := (rfl)
@[simp] theorem Block.modCore_tiles (m : Block) (n : Nat) (f : CoreState → CoreState) : (m.modCore n f).tiles = m.tiles := (rfl)
@[simp] theorem Block.modCore_chans (m : Block) (n : Nat) (f : CoreState → CoreState) : (m.modCore n f).chans = m.chans := (rfl)
@[simp] theorem Block.modCore_cmd (m : Block) (n : Nat) (f : CoreState → CoreState) : (m.modCore n f).cmd = m.cmd := (rfl)
@[simp] theorem Block.modCore_page (m : Block) (n : Nat) (f : CoreState → CoreState) : (m.modCore n f).page = m.page := (rfl)
@[simp] theorem Block.modCore_eng (m : Block) (n : Nat) (f : CoreState → CoreState) : (m.modCore n f).eng = m.eng := (rfl)
@[simp] theorem Block.modCore_fab (m : Block) (n : Nat) (f : CoreState → CoreState) : (m.modCore n f).fab = m.fab := (rfl)
@[simp] theorem Block.modCore_cho (m : Block) (n : Nat) (f : CoreState → CoreState) : (m.modCore n f).cho = m.cho := (rfl)
@[simp] theorem Block.modCore_fw (m : Block) (n : Nat) (f : CoreState → CoreState) : (m.modCore n f).fw = m.fw := (rfl)
@[simp] theorem Block.modCore_pwr (m : Block) (n : Nat) (f : CoreState → CoreState) : (m.modCore n f).pwr = m.pwr := (rfl)
@[simp] theorem Block.modCore_flt (m : Block) (n : Nat) (f : CoreState → CoreState) : (m.modCore n f).flt = m.flt := (rfl)
@[simp] theorem Block.modCore_sec (m : Block) (n : Nat) (f : CoreState → CoreState) : (m.modCore n f).sec = m.sec := (rfl)
@[simp] theorem Block.modCore_fuse (m : Block) (n : Nat) (f : CoreState → CoreState) : (m.modCore n f).fuse = m.fuse := (rfl)
@[simp] theorem Block.modCore_free (m : Block) (n : Nat) (f : CoreState → CoreState) : (m.modCore n f).free = m.free := (rfl)

@[simp] theorem Block.setTile_regs (m : Block) (t : Nat) (x : TileState) : (m.setTile t x).regs = m.regs := (rfl)
@[simp] theorem Block.setTile_mem (m : Block) (t : Nat) (x : TileState) : (m.setTile t x).mem = m.mem := (rfl)
@[simp] theorem Block.setTile_bufs (m : Block) (t : Nat) (x : TileState) : (m.setTile t x).bufs = m.bufs := (rfl)
@[simp] theorem Block.setTile_mbuf (m : Block) (t : Nat) (x : TileState) : (m.setTile t x).mbuf = m.mbuf := (rfl)
@[simp] theorem Block.setTile_poison (m : Block) (t : Nat) (x : TileState) : (m.setTile t x).poison = m.poison := (rfl)
@[simp] theorem Block.setTile_bufPoison (m : Block) (t : Nat) (x : TileState) : (m.setTile t x).bufPoison = m.bufPoison := (rfl)
@[simp] theorem Block.setTile_tags (m : Block) (t : Nat) (x : TileState) : (m.setTile t x).tags = m.tags := (rfl)
@[simp] theorem Block.setTile_ecc (m : Block) (t : Nat) (x : TileState) : (m.setTile t x).ecc = m.ecc := (rfl)
@[simp] theorem Block.setTile_stale (m : Block) (t : Nat) (x : TileState) : (m.setTile t x).stale = m.stale := (rfl)
@[simp] theorem Block.setTile_dimms (m : Block) (t : Nat) (x : TileState) : (m.setTile t x).dimms = m.dimms := (rfl)
@[simp] theorem Block.setTile_time (m : Block) (t : Nat) (x : TileState) : (m.setTile t x).time = m.time := (rfl)
@[simp] theorem Block.setTile_cores (m : Block) (t : Nat) (x : TileState) : (m.setTile t x).cores = m.cores := (rfl)
@[simp] theorem Block.setTile_chans (m : Block) (t : Nat) (x : TileState) : (m.setTile t x).chans = m.chans := (rfl)
@[simp] theorem Block.setTile_cmd (m : Block) (t : Nat) (x : TileState) : (m.setTile t x).cmd = m.cmd := (rfl)
@[simp] theorem Block.setTile_page (m : Block) (t : Nat) (x : TileState) : (m.setTile t x).page = m.page := (rfl)
@[simp] theorem Block.setTile_eng (m : Block) (t : Nat) (x : TileState) : (m.setTile t x).eng = m.eng := (rfl)
@[simp] theorem Block.setTile_fab (m : Block) (t : Nat) (x : TileState) : (m.setTile t x).fab = m.fab := (rfl)
@[simp] theorem Block.setTile_cho (m : Block) (t : Nat) (x : TileState) : (m.setTile t x).cho = m.cho := (rfl)
@[simp] theorem Block.setTile_fw (m : Block) (t : Nat) (x : TileState) : (m.setTile t x).fw = m.fw := (rfl)
@[simp] theorem Block.setTile_pwr (m : Block) (t : Nat) (x : TileState) : (m.setTile t x).pwr = m.pwr := (rfl)
@[simp] theorem Block.setTile_flt (m : Block) (t : Nat) (x : TileState) : (m.setTile t x).flt = m.flt := (rfl)
@[simp] theorem Block.setTile_sec (m : Block) (t : Nat) (x : TileState) : (m.setTile t x).sec = m.sec := (rfl)
@[simp] theorem Block.setTile_fuse (m : Block) (t : Nat) (x : TileState) : (m.setTile t x).fuse = m.fuse := (rfl)
@[simp] theorem Block.setTile_free (m : Block) (t : Nat) (x : TileState) : (m.setTile t x).free = m.free := (rfl)

@[simp] theorem Block.modTile_regs (m : Block) (t : Nat) (f : TileState → TileState) : (m.modTile t f).regs = m.regs := (rfl)
@[simp] theorem Block.modTile_mem (m : Block) (t : Nat) (f : TileState → TileState) : (m.modTile t f).mem = m.mem := (rfl)
@[simp] theorem Block.modTile_bufs (m : Block) (t : Nat) (f : TileState → TileState) : (m.modTile t f).bufs = m.bufs := (rfl)
@[simp] theorem Block.modTile_mbuf (m : Block) (t : Nat) (f : TileState → TileState) : (m.modTile t f).mbuf = m.mbuf := (rfl)
@[simp] theorem Block.modTile_poison (m : Block) (t : Nat) (f : TileState → TileState) : (m.modTile t f).poison = m.poison := (rfl)
@[simp] theorem Block.modTile_bufPoison (m : Block) (t : Nat) (f : TileState → TileState) : (m.modTile t f).bufPoison = m.bufPoison := (rfl)
@[simp] theorem Block.modTile_tags (m : Block) (t : Nat) (f : TileState → TileState) : (m.modTile t f).tags = m.tags := (rfl)
@[simp] theorem Block.modTile_ecc (m : Block) (t : Nat) (f : TileState → TileState) : (m.modTile t f).ecc = m.ecc := (rfl)
@[simp] theorem Block.modTile_stale (m : Block) (t : Nat) (f : TileState → TileState) : (m.modTile t f).stale = m.stale := (rfl)
@[simp] theorem Block.modTile_dimms (m : Block) (t : Nat) (f : TileState → TileState) : (m.modTile t f).dimms = m.dimms := (rfl)
@[simp] theorem Block.modTile_time (m : Block) (t : Nat) (f : TileState → TileState) : (m.modTile t f).time = m.time := (rfl)
@[simp] theorem Block.modTile_cores (m : Block) (t : Nat) (f : TileState → TileState) : (m.modTile t f).cores = m.cores := (rfl)
@[simp] theorem Block.modTile_chans (m : Block) (t : Nat) (f : TileState → TileState) : (m.modTile t f).chans = m.chans := (rfl)
@[simp] theorem Block.modTile_cmd (m : Block) (t : Nat) (f : TileState → TileState) : (m.modTile t f).cmd = m.cmd := (rfl)
@[simp] theorem Block.modTile_page (m : Block) (t : Nat) (f : TileState → TileState) : (m.modTile t f).page = m.page := (rfl)
@[simp] theorem Block.modTile_eng (m : Block) (t : Nat) (f : TileState → TileState) : (m.modTile t f).eng = m.eng := (rfl)
@[simp] theorem Block.modTile_fab (m : Block) (t : Nat) (f : TileState → TileState) : (m.modTile t f).fab = m.fab := (rfl)
@[simp] theorem Block.modTile_cho (m : Block) (t : Nat) (f : TileState → TileState) : (m.modTile t f).cho = m.cho := (rfl)
@[simp] theorem Block.modTile_fw (m : Block) (t : Nat) (f : TileState → TileState) : (m.modTile t f).fw = m.fw := (rfl)
@[simp] theorem Block.modTile_pwr (m : Block) (t : Nat) (f : TileState → TileState) : (m.modTile t f).pwr = m.pwr := (rfl)
@[simp] theorem Block.modTile_flt (m : Block) (t : Nat) (f : TileState → TileState) : (m.modTile t f).flt = m.flt := (rfl)
@[simp] theorem Block.modTile_sec (m : Block) (t : Nat) (f : TileState → TileState) : (m.modTile t f).sec = m.sec := (rfl)
@[simp] theorem Block.modTile_fuse (m : Block) (t : Nat) (f : TileState → TileState) : (m.modTile t f).fuse = m.fuse := (rfl)
@[simp] theorem Block.modTile_free (m : Block) (t : Nat) (f : TileState → TileState) : (m.modTile t f).free = m.free := (rfl)

@[simp] theorem Block.setChan_regs (m : Block) (t k : Nat) (l : List CopyJob) : (m.setChan t k l).regs = m.regs := (rfl)
@[simp] theorem Block.setChan_mem (m : Block) (t k : Nat) (l : List CopyJob) : (m.setChan t k l).mem = m.mem := (rfl)
@[simp] theorem Block.setChan_bufs (m : Block) (t k : Nat) (l : List CopyJob) : (m.setChan t k l).bufs = m.bufs := (rfl)
@[simp] theorem Block.setChan_mbuf (m : Block) (t k : Nat) (l : List CopyJob) : (m.setChan t k l).mbuf = m.mbuf := (rfl)
@[simp] theorem Block.setChan_poison (m : Block) (t k : Nat) (l : List CopyJob) : (m.setChan t k l).poison = m.poison := (rfl)
@[simp] theorem Block.setChan_bufPoison (m : Block) (t k : Nat) (l : List CopyJob) : (m.setChan t k l).bufPoison = m.bufPoison := (rfl)
@[simp] theorem Block.setChan_tags (m : Block) (t k : Nat) (l : List CopyJob) : (m.setChan t k l).tags = m.tags := (rfl)
@[simp] theorem Block.setChan_ecc (m : Block) (t k : Nat) (l : List CopyJob) : (m.setChan t k l).ecc = m.ecc := (rfl)
@[simp] theorem Block.setChan_stale (m : Block) (t k : Nat) (l : List CopyJob) : (m.setChan t k l).stale = m.stale := (rfl)
@[simp] theorem Block.setChan_dimms (m : Block) (t k : Nat) (l : List CopyJob) : (m.setChan t k l).dimms = m.dimms := (rfl)
@[simp] theorem Block.setChan_time (m : Block) (t k : Nat) (l : List CopyJob) : (m.setChan t k l).time = m.time := (rfl)
@[simp] theorem Block.setChan_cores (m : Block) (t k : Nat) (l : List CopyJob) : (m.setChan t k l).cores = m.cores := (rfl)
@[simp] theorem Block.setChan_tiles (m : Block) (t k : Nat) (l : List CopyJob) : (m.setChan t k l).tiles = m.tiles := (rfl)
@[simp] theorem Block.setChan_cmd (m : Block) (t k : Nat) (l : List CopyJob) : (m.setChan t k l).cmd = m.cmd := (rfl)
@[simp] theorem Block.setChan_page (m : Block) (t k : Nat) (l : List CopyJob) : (m.setChan t k l).page = m.page := (rfl)
@[simp] theorem Block.setChan_eng (m : Block) (t k : Nat) (l : List CopyJob) : (m.setChan t k l).eng = m.eng := (rfl)
@[simp] theorem Block.setChan_fab (m : Block) (t k : Nat) (l : List CopyJob) : (m.setChan t k l).fab = m.fab := (rfl)
@[simp] theorem Block.setChan_cho (m : Block) (t k : Nat) (l : List CopyJob) : (m.setChan t k l).cho = m.cho := (rfl)
@[simp] theorem Block.setChan_fw (m : Block) (t k : Nat) (l : List CopyJob) : (m.setChan t k l).fw = m.fw := (rfl)
@[simp] theorem Block.setChan_pwr (m : Block) (t k : Nat) (l : List CopyJob) : (m.setChan t k l).pwr = m.pwr := (rfl)
@[simp] theorem Block.setChan_flt (m : Block) (t k : Nat) (l : List CopyJob) : (m.setChan t k l).flt = m.flt := (rfl)
@[simp] theorem Block.setChan_sec (m : Block) (t k : Nat) (l : List CopyJob) : (m.setChan t k l).sec = m.sec := (rfl)
@[simp] theorem Block.setChan_fuse (m : Block) (t k : Nat) (l : List CopyJob) : (m.setChan t k l).fuse = m.fuse := (rfl)
@[simp] theorem Block.setChan_free (m : Block) (t k : Nat) (l : List CopyJob) : (m.setChan t k l).free = m.free := (rfl)

@[simp] theorem Block.modQueue_regs (m : Block) (q : QueueId) (f : Queue → Queue) : (m.modQueue q f).regs = m.regs := (rfl)
@[simp] theorem Block.modQueue_mem (m : Block) (q : QueueId) (f : Queue → Queue) : (m.modQueue q f).mem = m.mem := (rfl)
@[simp] theorem Block.modQueue_bufs (m : Block) (q : QueueId) (f : Queue → Queue) : (m.modQueue q f).bufs = m.bufs := (rfl)
@[simp] theorem Block.modQueue_mbuf (m : Block) (q : QueueId) (f : Queue → Queue) : (m.modQueue q f).mbuf = m.mbuf := (rfl)
@[simp] theorem Block.modQueue_poison (m : Block) (q : QueueId) (f : Queue → Queue) : (m.modQueue q f).poison = m.poison := (rfl)
@[simp] theorem Block.modQueue_bufPoison (m : Block) (q : QueueId) (f : Queue → Queue) : (m.modQueue q f).bufPoison = m.bufPoison := (rfl)
@[simp] theorem Block.modQueue_tags (m : Block) (q : QueueId) (f : Queue → Queue) : (m.modQueue q f).tags = m.tags := (rfl)
@[simp] theorem Block.modQueue_ecc (m : Block) (q : QueueId) (f : Queue → Queue) : (m.modQueue q f).ecc = m.ecc := (rfl)
@[simp] theorem Block.modQueue_stale (m : Block) (q : QueueId) (f : Queue → Queue) : (m.modQueue q f).stale = m.stale := (rfl)
@[simp] theorem Block.modQueue_dimms (m : Block) (q : QueueId) (f : Queue → Queue) : (m.modQueue q f).dimms = m.dimms := (rfl)
@[simp] theorem Block.modQueue_time (m : Block) (q : QueueId) (f : Queue → Queue) : (m.modQueue q f).time = m.time := (rfl)
@[simp] theorem Block.modQueue_cores (m : Block) (q : QueueId) (f : Queue → Queue) : (m.modQueue q f).cores = m.cores := (rfl)
@[simp] theorem Block.modQueue_tiles (m : Block) (q : QueueId) (f : Queue → Queue) : (m.modQueue q f).tiles = m.tiles := (rfl)
@[simp] theorem Block.modQueue_chans (m : Block) (q : QueueId) (f : Queue → Queue) : (m.modQueue q f).chans = m.chans := (rfl)
@[simp] theorem Block.modQueue_page (m : Block) (q : QueueId) (f : Queue → Queue) : (m.modQueue q f).page = m.page := (rfl)
@[simp] theorem Block.modQueue_eng (m : Block) (q : QueueId) (f : Queue → Queue) : (m.modQueue q f).eng = m.eng := (rfl)
@[simp] theorem Block.modQueue_fab (m : Block) (q : QueueId) (f : Queue → Queue) : (m.modQueue q f).fab = m.fab := (rfl)
@[simp] theorem Block.modQueue_cho (m : Block) (q : QueueId) (f : Queue → Queue) : (m.modQueue q f).cho = m.cho := (rfl)
@[simp] theorem Block.modQueue_fw (m : Block) (q : QueueId) (f : Queue → Queue) : (m.modQueue q f).fw = m.fw := (rfl)
@[simp] theorem Block.modQueue_pwr (m : Block) (q : QueueId) (f : Queue → Queue) : (m.modQueue q f).pwr = m.pwr := (rfl)
@[simp] theorem Block.modQueue_flt (m : Block) (q : QueueId) (f : Queue → Queue) : (m.modQueue q f).flt = m.flt := (rfl)
@[simp] theorem Block.modQueue_sec (m : Block) (q : QueueId) (f : Queue → Queue) : (m.modQueue q f).sec = m.sec := (rfl)
@[simp] theorem Block.modQueue_fuse (m : Block) (q : QueueId) (f : Queue → Queue) : (m.modQueue q f).fuse = m.fuse := (rfl)
@[simp] theorem Block.modQueue_free (m : Block) (q : QueueId) (f : Queue → Queue) : (m.modQueue q f).free = m.free := (rfl)

@[simp] theorem Block.modCmd_regs (m : Block) (q : QueueId) (f : Cmd → Cmd) : (m.modCmd q f).regs = m.regs := (rfl)
@[simp] theorem Block.modCmd_mem (m : Block) (q : QueueId) (f : Cmd → Cmd) : (m.modCmd q f).mem = m.mem := (rfl)
@[simp] theorem Block.modCmd_bufs (m : Block) (q : QueueId) (f : Cmd → Cmd) : (m.modCmd q f).bufs = m.bufs := (rfl)
@[simp] theorem Block.modCmd_mbuf (m : Block) (q : QueueId) (f : Cmd → Cmd) : (m.modCmd q f).mbuf = m.mbuf := (rfl)
@[simp] theorem Block.modCmd_poison (m : Block) (q : QueueId) (f : Cmd → Cmd) : (m.modCmd q f).poison = m.poison := (rfl)
@[simp] theorem Block.modCmd_bufPoison (m : Block) (q : QueueId) (f : Cmd → Cmd) : (m.modCmd q f).bufPoison = m.bufPoison := (rfl)
@[simp] theorem Block.modCmd_tags (m : Block) (q : QueueId) (f : Cmd → Cmd) : (m.modCmd q f).tags = m.tags := (rfl)
@[simp] theorem Block.modCmd_ecc (m : Block) (q : QueueId) (f : Cmd → Cmd) : (m.modCmd q f).ecc = m.ecc := (rfl)
@[simp] theorem Block.modCmd_stale (m : Block) (q : QueueId) (f : Cmd → Cmd) : (m.modCmd q f).stale = m.stale := (rfl)
@[simp] theorem Block.modCmd_dimms (m : Block) (q : QueueId) (f : Cmd → Cmd) : (m.modCmd q f).dimms = m.dimms := (rfl)
@[simp] theorem Block.modCmd_time (m : Block) (q : QueueId) (f : Cmd → Cmd) : (m.modCmd q f).time = m.time := (rfl)
@[simp] theorem Block.modCmd_cores (m : Block) (q : QueueId) (f : Cmd → Cmd) : (m.modCmd q f).cores = m.cores := (rfl)
@[simp] theorem Block.modCmd_tiles (m : Block) (q : QueueId) (f : Cmd → Cmd) : (m.modCmd q f).tiles = m.tiles := (rfl)
@[simp] theorem Block.modCmd_chans (m : Block) (q : QueueId) (f : Cmd → Cmd) : (m.modCmd q f).chans = m.chans := (rfl)
@[simp] theorem Block.modCmd_page (m : Block) (q : QueueId) (f : Cmd → Cmd) : (m.modCmd q f).page = m.page := (rfl)
@[simp] theorem Block.modCmd_eng (m : Block) (q : QueueId) (f : Cmd → Cmd) : (m.modCmd q f).eng = m.eng := (rfl)
@[simp] theorem Block.modCmd_fab (m : Block) (q : QueueId) (f : Cmd → Cmd) : (m.modCmd q f).fab = m.fab := (rfl)
@[simp] theorem Block.modCmd_cho (m : Block) (q : QueueId) (f : Cmd → Cmd) : (m.modCmd q f).cho = m.cho := (rfl)
@[simp] theorem Block.modCmd_fw (m : Block) (q : QueueId) (f : Cmd → Cmd) : (m.modCmd q f).fw = m.fw := (rfl)
@[simp] theorem Block.modCmd_pwr (m : Block) (q : QueueId) (f : Cmd → Cmd) : (m.modCmd q f).pwr = m.pwr := (rfl)
@[simp] theorem Block.modCmd_flt (m : Block) (q : QueueId) (f : Cmd → Cmd) : (m.modCmd q f).flt = m.flt := (rfl)
@[simp] theorem Block.modCmd_sec (m : Block) (q : QueueId) (f : Cmd → Cmd) : (m.modCmd q f).sec = m.sec := (rfl)
@[simp] theorem Block.modCmd_fuse (m : Block) (q : QueueId) (f : Cmd → Cmd) : (m.modCmd q f).fuse = m.fuse := (rfl)
@[simp] theorem Block.modCmd_free (m : Block) (q : QueueId) (f : Cmd → Cmd) : (m.modCmd q f).free = m.free := (rfl)

@[simp] theorem Block.modContext_regs (m : Block) (t c : Nat) (f : Context → Context) : (m.modContext t c f).regs = m.regs := (rfl)
@[simp] theorem Block.modContext_mem (m : Block) (t c : Nat) (f : Context → Context) : (m.modContext t c f).mem = m.mem := (rfl)
@[simp] theorem Block.modContext_bufs (m : Block) (t c : Nat) (f : Context → Context) : (m.modContext t c f).bufs = m.bufs := (rfl)
@[simp] theorem Block.modContext_mbuf (m : Block) (t c : Nat) (f : Context → Context) : (m.modContext t c f).mbuf = m.mbuf := (rfl)
@[simp] theorem Block.modContext_poison (m : Block) (t c : Nat) (f : Context → Context) : (m.modContext t c f).poison = m.poison := (rfl)
@[simp] theorem Block.modContext_bufPoison (m : Block) (t c : Nat) (f : Context → Context) : (m.modContext t c f).bufPoison = m.bufPoison := (rfl)
@[simp] theorem Block.modContext_tags (m : Block) (t c : Nat) (f : Context → Context) : (m.modContext t c f).tags = m.tags := (rfl)
@[simp] theorem Block.modContext_ecc (m : Block) (t c : Nat) (f : Context → Context) : (m.modContext t c f).ecc = m.ecc := (rfl)
@[simp] theorem Block.modContext_stale (m : Block) (t c : Nat) (f : Context → Context) : (m.modContext t c f).stale = m.stale := (rfl)
@[simp] theorem Block.modContext_dimms (m : Block) (t c : Nat) (f : Context → Context) : (m.modContext t c f).dimms = m.dimms := (rfl)
@[simp] theorem Block.modContext_time (m : Block) (t c : Nat) (f : Context → Context) : (m.modContext t c f).time = m.time := (rfl)
@[simp] theorem Block.modContext_cores (m : Block) (t c : Nat) (f : Context → Context) : (m.modContext t c f).cores = m.cores := (rfl)
@[simp] theorem Block.modContext_tiles (m : Block) (t c : Nat) (f : Context → Context) : (m.modContext t c f).tiles = m.tiles := (rfl)
@[simp] theorem Block.modContext_chans (m : Block) (t c : Nat) (f : Context → Context) : (m.modContext t c f).chans = m.chans := (rfl)
@[simp] theorem Block.modContext_page (m : Block) (t c : Nat) (f : Context → Context) : (m.modContext t c f).page = m.page := (rfl)
@[simp] theorem Block.modContext_eng (m : Block) (t c : Nat) (f : Context → Context) : (m.modContext t c f).eng = m.eng := (rfl)
@[simp] theorem Block.modContext_fab (m : Block) (t c : Nat) (f : Context → Context) : (m.modContext t c f).fab = m.fab := (rfl)
@[simp] theorem Block.modContext_cho (m : Block) (t c : Nat) (f : Context → Context) : (m.modContext t c f).cho = m.cho := (rfl)
@[simp] theorem Block.modContext_fw (m : Block) (t c : Nat) (f : Context → Context) : (m.modContext t c f).fw = m.fw := (rfl)
@[simp] theorem Block.modContext_pwr (m : Block) (t c : Nat) (f : Context → Context) : (m.modContext t c f).pwr = m.pwr := (rfl)
@[simp] theorem Block.modContext_flt (m : Block) (t c : Nat) (f : Context → Context) : (m.modContext t c f).flt = m.flt := (rfl)
@[simp] theorem Block.modContext_sec (m : Block) (t c : Nat) (f : Context → Context) : (m.modContext t c f).sec = m.sec := (rfl)
@[simp] theorem Block.modContext_fuse (m : Block) (t c : Nat) (f : Context → Context) : (m.modContext t c f).fuse = m.fuse := (rfl)
@[simp] theorem Block.modContext_free (m : Block) (t c : Nat) (f : Context → Context) : (m.modContext t c f).free = m.free := (rfl)

@[simp] theorem Block.modChotus_regs (m : Block) (p : Nat) (f : ChotusState → ChotusState) : (m.modChotus p f).regs = m.regs := (rfl)
@[simp] theorem Block.modChotus_mem (m : Block) (p : Nat) (f : ChotusState → ChotusState) : (m.modChotus p f).mem = m.mem := (rfl)
@[simp] theorem Block.modChotus_bufs (m : Block) (p : Nat) (f : ChotusState → ChotusState) : (m.modChotus p f).bufs = m.bufs := (rfl)
@[simp] theorem Block.modChotus_mbuf (m : Block) (p : Nat) (f : ChotusState → ChotusState) : (m.modChotus p f).mbuf = m.mbuf := (rfl)
@[simp] theorem Block.modChotus_poison (m : Block) (p : Nat) (f : ChotusState → ChotusState) : (m.modChotus p f).poison = m.poison := (rfl)
@[simp] theorem Block.modChotus_bufPoison (m : Block) (p : Nat) (f : ChotusState → ChotusState) : (m.modChotus p f).bufPoison = m.bufPoison := (rfl)
@[simp] theorem Block.modChotus_tags (m : Block) (p : Nat) (f : ChotusState → ChotusState) : (m.modChotus p f).tags = m.tags := (rfl)
@[simp] theorem Block.modChotus_ecc (m : Block) (p : Nat) (f : ChotusState → ChotusState) : (m.modChotus p f).ecc = m.ecc := (rfl)
@[simp] theorem Block.modChotus_stale (m : Block) (p : Nat) (f : ChotusState → ChotusState) : (m.modChotus p f).stale = m.stale := (rfl)
@[simp] theorem Block.modChotus_dimms (m : Block) (p : Nat) (f : ChotusState → ChotusState) : (m.modChotus p f).dimms = m.dimms := (rfl)
@[simp] theorem Block.modChotus_time (m : Block) (p : Nat) (f : ChotusState → ChotusState) : (m.modChotus p f).time = m.time := (rfl)
@[simp] theorem Block.modChotus_cores (m : Block) (p : Nat) (f : ChotusState → ChotusState) : (m.modChotus p f).cores = m.cores := (rfl)
@[simp] theorem Block.modChotus_tiles (m : Block) (p : Nat) (f : ChotusState → ChotusState) : (m.modChotus p f).tiles = m.tiles := (rfl)
@[simp] theorem Block.modChotus_chans (m : Block) (p : Nat) (f : ChotusState → ChotusState) : (m.modChotus p f).chans = m.chans := (rfl)
@[simp] theorem Block.modChotus_cmd (m : Block) (p : Nat) (f : ChotusState → ChotusState) : (m.modChotus p f).cmd = m.cmd := (rfl)
@[simp] theorem Block.modChotus_page (m : Block) (p : Nat) (f : ChotusState → ChotusState) : (m.modChotus p f).page = m.page := (rfl)
@[simp] theorem Block.modChotus_eng (m : Block) (p : Nat) (f : ChotusState → ChotusState) : (m.modChotus p f).eng = m.eng := (rfl)
@[simp] theorem Block.modChotus_fab (m : Block) (p : Nat) (f : ChotusState → ChotusState) : (m.modChotus p f).fab = m.fab := (rfl)
@[simp] theorem Block.modChotus_fw (m : Block) (p : Nat) (f : ChotusState → ChotusState) : (m.modChotus p f).fw = m.fw := (rfl)
@[simp] theorem Block.modChotus_pwr (m : Block) (p : Nat) (f : ChotusState → ChotusState) : (m.modChotus p f).pwr = m.pwr := (rfl)
@[simp] theorem Block.modChotus_flt (m : Block) (p : Nat) (f : ChotusState → ChotusState) : (m.modChotus p f).flt = m.flt := (rfl)
@[simp] theorem Block.modChotus_sec (m : Block) (p : Nat) (f : ChotusState → ChotusState) : (m.modChotus p f).sec = m.sec := (rfl)
@[simp] theorem Block.modChotus_fuse (m : Block) (p : Nat) (f : ChotusState → ChotusState) : (m.modChotus p f).fuse = m.fuse := (rfl)
@[simp] theorem Block.modChotus_free (m : Block) (p : Nat) (f : ChotusState → ChotusState) : (m.modChotus p f).free = m.free := (rfl)

@[simp] theorem Block.setPc_mem (m : Block) (n pc : Nat) : (m.setPc n pc).mem = m.mem := (rfl)
@[simp] theorem Block.setPc_bufs (m : Block) (n pc : Nat) : (m.setPc n pc).bufs = m.bufs := (rfl)
@[simp] theorem Block.setPc_mbuf (m : Block) (n pc : Nat) : (m.setPc n pc).mbuf = m.mbuf := (rfl)
@[simp] theorem Block.setPc_poison (m : Block) (n pc : Nat) : (m.setPc n pc).poison = m.poison := (rfl)
@[simp] theorem Block.setPc_bufPoison (m : Block) (n pc : Nat) : (m.setPc n pc).bufPoison = m.bufPoison := (rfl)
@[simp] theorem Block.setPc_tags (m : Block) (n pc : Nat) : (m.setPc n pc).tags = m.tags := (rfl)
@[simp] theorem Block.setPc_ecc (m : Block) (n pc : Nat) : (m.setPc n pc).ecc = m.ecc := (rfl)
@[simp] theorem Block.setPc_stale (m : Block) (n pc : Nat) : (m.setPc n pc).stale = m.stale := (rfl)
@[simp] theorem Block.setPc_dimms (m : Block) (n pc : Nat) : (m.setPc n pc).dimms = m.dimms := (rfl)
@[simp] theorem Block.setPc_time (m : Block) (n pc : Nat) : (m.setPc n pc).time = m.time := (rfl)
@[simp] theorem Block.setPc_cores (m : Block) (n pc : Nat) : (m.setPc n pc).cores = m.cores := (rfl)
@[simp] theorem Block.setPc_tiles (m : Block) (n pc : Nat) : (m.setPc n pc).tiles = m.tiles := (rfl)
@[simp] theorem Block.setPc_chans (m : Block) (n pc : Nat) : (m.setPc n pc).chans = m.chans := (rfl)
@[simp] theorem Block.setPc_cmd (m : Block) (n pc : Nat) : (m.setPc n pc).cmd = m.cmd := (rfl)
@[simp] theorem Block.setPc_page (m : Block) (n pc : Nat) : (m.setPc n pc).page = m.page := (rfl)
@[simp] theorem Block.setPc_eng (m : Block) (n pc : Nat) : (m.setPc n pc).eng = m.eng := (rfl)
@[simp] theorem Block.setPc_fab (m : Block) (n pc : Nat) : (m.setPc n pc).fab = m.fab := (rfl)
@[simp] theorem Block.setPc_cho (m : Block) (n pc : Nat) : (m.setPc n pc).cho = m.cho := (rfl)
@[simp] theorem Block.setPc_fw (m : Block) (n pc : Nat) : (m.setPc n pc).fw = m.fw := (rfl)
@[simp] theorem Block.setPc_pwr (m : Block) (n pc : Nat) : (m.setPc n pc).pwr = m.pwr := (rfl)
@[simp] theorem Block.setPc_flt (m : Block) (n pc : Nat) : (m.setPc n pc).flt = m.flt := (rfl)
@[simp] theorem Block.setPc_sec (m : Block) (n pc : Nat) : (m.setPc n pc).sec = m.sec := (rfl)
@[simp] theorem Block.setPc_fuse (m : Block) (n pc : Nat) : (m.setPc n pc).fuse = m.fuse := (rfl)
@[simp] theorem Block.setPc_free (m : Block) (n pc : Nat) : (m.setPc n pc).free = m.free := (rfl)

@[simp] theorem Block.setSreg_regs (m : Block) (n r : Nat) (w : Word) : (m.setSreg n r w).regs = m.regs := (rfl)
@[simp] theorem Block.setSreg_mem (m : Block) (n r : Nat) (w : Word) : (m.setSreg n r w).mem = m.mem := (rfl)
@[simp] theorem Block.setSreg_bufs (m : Block) (n r : Nat) (w : Word) : (m.setSreg n r w).bufs = m.bufs := (rfl)
@[simp] theorem Block.setSreg_mbuf (m : Block) (n r : Nat) (w : Word) : (m.setSreg n r w).mbuf = m.mbuf := (rfl)
@[simp] theorem Block.setSreg_poison (m : Block) (n r : Nat) (w : Word) : (m.setSreg n r w).poison = m.poison := (rfl)
@[simp] theorem Block.setSreg_bufPoison (m : Block) (n r : Nat) (w : Word) : (m.setSreg n r w).bufPoison = m.bufPoison := (rfl)
@[simp] theorem Block.setSreg_tags (m : Block) (n r : Nat) (w : Word) : (m.setSreg n r w).tags = m.tags := (rfl)
@[simp] theorem Block.setSreg_ecc (m : Block) (n r : Nat) (w : Word) : (m.setSreg n r w).ecc = m.ecc := (rfl)
@[simp] theorem Block.setSreg_stale (m : Block) (n r : Nat) (w : Word) : (m.setSreg n r w).stale = m.stale := (rfl)
@[simp] theorem Block.setSreg_dimms (m : Block) (n r : Nat) (w : Word) : (m.setSreg n r w).dimms = m.dimms := (rfl)
@[simp] theorem Block.setSreg_time (m : Block) (n r : Nat) (w : Word) : (m.setSreg n r w).time = m.time := (rfl)
@[simp] theorem Block.setSreg_tiles (m : Block) (n r : Nat) (w : Word) : (m.setSreg n r w).tiles = m.tiles := (rfl)
@[simp] theorem Block.setSreg_chans (m : Block) (n r : Nat) (w : Word) : (m.setSreg n r w).chans = m.chans := (rfl)
@[simp] theorem Block.setSreg_cmd (m : Block) (n r : Nat) (w : Word) : (m.setSreg n r w).cmd = m.cmd := (rfl)
@[simp] theorem Block.setSreg_page (m : Block) (n r : Nat) (w : Word) : (m.setSreg n r w).page = m.page := (rfl)
@[simp] theorem Block.setSreg_eng (m : Block) (n r : Nat) (w : Word) : (m.setSreg n r w).eng = m.eng := (rfl)
@[simp] theorem Block.setSreg_fab (m : Block) (n r : Nat) (w : Word) : (m.setSreg n r w).fab = m.fab := (rfl)
@[simp] theorem Block.setSreg_cho (m : Block) (n r : Nat) (w : Word) : (m.setSreg n r w).cho = m.cho := (rfl)
@[simp] theorem Block.setSreg_fw (m : Block) (n r : Nat) (w : Word) : (m.setSreg n r w).fw = m.fw := (rfl)
@[simp] theorem Block.setSreg_pwr (m : Block) (n r : Nat) (w : Word) : (m.setSreg n r w).pwr = m.pwr := (rfl)
@[simp] theorem Block.setSreg_flt (m : Block) (n r : Nat) (w : Word) : (m.setSreg n r w).flt = m.flt := (rfl)
@[simp] theorem Block.setSreg_sec (m : Block) (n r : Nat) (w : Word) : (m.setSreg n r w).sec = m.sec := (rfl)
@[simp] theorem Block.setSreg_fuse (m : Block) (n r : Nat) (w : Word) : (m.setSreg n r w).fuse = m.fuse := (rfl)
@[simp] theorem Block.setSreg_free (m : Block) (n r : Nat) (w : Word) : (m.setSreg n r w).free = m.free := (rfl)

@[simp] theorem Block.setCoreSt_mem (m : Block) (n st : Nat) : (m.setCoreSt n st).mem = m.mem := (rfl)
@[simp] theorem Block.setCoreSt_bufs (m : Block) (n st : Nat) : (m.setCoreSt n st).bufs = m.bufs := (rfl)
@[simp] theorem Block.setCoreSt_mbuf (m : Block) (n st : Nat) : (m.setCoreSt n st).mbuf = m.mbuf := (rfl)
@[simp] theorem Block.setCoreSt_poison (m : Block) (n st : Nat) : (m.setCoreSt n st).poison = m.poison := (rfl)
@[simp] theorem Block.setCoreSt_bufPoison (m : Block) (n st : Nat) : (m.setCoreSt n st).bufPoison = m.bufPoison := (rfl)
@[simp] theorem Block.setCoreSt_tags (m : Block) (n st : Nat) : (m.setCoreSt n st).tags = m.tags := (rfl)
@[simp] theorem Block.setCoreSt_ecc (m : Block) (n st : Nat) : (m.setCoreSt n st).ecc = m.ecc := (rfl)
@[simp] theorem Block.setCoreSt_stale (m : Block) (n st : Nat) : (m.setCoreSt n st).stale = m.stale := (rfl)
@[simp] theorem Block.setCoreSt_dimms (m : Block) (n st : Nat) : (m.setCoreSt n st).dimms = m.dimms := (rfl)
@[simp] theorem Block.setCoreSt_time (m : Block) (n st : Nat) : (m.setCoreSt n st).time = m.time := (rfl)
@[simp] theorem Block.setCoreSt_cores (m : Block) (n st : Nat) : (m.setCoreSt n st).cores = m.cores := (rfl)
@[simp] theorem Block.setCoreSt_tiles (m : Block) (n st : Nat) : (m.setCoreSt n st).tiles = m.tiles := (rfl)
@[simp] theorem Block.setCoreSt_chans (m : Block) (n st : Nat) : (m.setCoreSt n st).chans = m.chans := (rfl)
@[simp] theorem Block.setCoreSt_cmd (m : Block) (n st : Nat) : (m.setCoreSt n st).cmd = m.cmd := (rfl)
@[simp] theorem Block.setCoreSt_page (m : Block) (n st : Nat) : (m.setCoreSt n st).page = m.page := (rfl)
@[simp] theorem Block.setCoreSt_eng (m : Block) (n st : Nat) : (m.setCoreSt n st).eng = m.eng := (rfl)
@[simp] theorem Block.setCoreSt_fab (m : Block) (n st : Nat) : (m.setCoreSt n st).fab = m.fab := (rfl)
@[simp] theorem Block.setCoreSt_cho (m : Block) (n st : Nat) : (m.setCoreSt n st).cho = m.cho := (rfl)
@[simp] theorem Block.setCoreSt_fw (m : Block) (n st : Nat) : (m.setCoreSt n st).fw = m.fw := (rfl)
@[simp] theorem Block.setCoreSt_pwr (m : Block) (n st : Nat) : (m.setCoreSt n st).pwr = m.pwr := (rfl)
@[simp] theorem Block.setCoreSt_flt (m : Block) (n st : Nat) : (m.setCoreSt n st).flt = m.flt := (rfl)
@[simp] theorem Block.setCoreSt_sec (m : Block) (n st : Nat) : (m.setCoreSt n st).sec = m.sec := (rfl)
@[simp] theorem Block.setCoreSt_fuse (m : Block) (n st : Nat) : (m.setCoreSt n st).fuse = m.fuse := (rfl)
@[simp] theorem Block.setCoreSt_free (m : Block) (n st : Nat) : (m.setCoreSt n st).free = m.free := (rfl)

@[simp] theorem Block.beat_regs (m : Block) (cls idx : Nat) : (m.beat cls idx).regs = m.regs := (rfl)
@[simp] theorem Block.beat_mem (m : Block) (cls idx : Nat) : (m.beat cls idx).mem = m.mem := (rfl)
@[simp] theorem Block.beat_bufs (m : Block) (cls idx : Nat) : (m.beat cls idx).bufs = m.bufs := (rfl)
@[simp] theorem Block.beat_mbuf (m : Block) (cls idx : Nat) : (m.beat cls idx).mbuf = m.mbuf := (rfl)
@[simp] theorem Block.beat_poison (m : Block) (cls idx : Nat) : (m.beat cls idx).poison = m.poison := (rfl)
@[simp] theorem Block.beat_bufPoison (m : Block) (cls idx : Nat) : (m.beat cls idx).bufPoison = m.bufPoison := (rfl)
@[simp] theorem Block.beat_tags (m : Block) (cls idx : Nat) : (m.beat cls idx).tags = m.tags := (rfl)
@[simp] theorem Block.beat_ecc (m : Block) (cls idx : Nat) : (m.beat cls idx).ecc = m.ecc := (rfl)
@[simp] theorem Block.beat_stale (m : Block) (cls idx : Nat) : (m.beat cls idx).stale = m.stale := (rfl)
@[simp] theorem Block.beat_dimms (m : Block) (cls idx : Nat) : (m.beat cls idx).dimms = m.dimms := (rfl)
@[simp] theorem Block.beat_time (m : Block) (cls idx : Nat) : (m.beat cls idx).time = m.time := (rfl)
@[simp] theorem Block.beat_cores (m : Block) (cls idx : Nat) : (m.beat cls idx).cores = m.cores := (rfl)
@[simp] theorem Block.beat_tiles (m : Block) (cls idx : Nat) : (m.beat cls idx).tiles = m.tiles := (rfl)
@[simp] theorem Block.beat_chans (m : Block) (cls idx : Nat) : (m.beat cls idx).chans = m.chans := (rfl)
@[simp] theorem Block.beat_cmd (m : Block) (cls idx : Nat) : (m.beat cls idx).cmd = m.cmd := (rfl)
@[simp] theorem Block.beat_page (m : Block) (cls idx : Nat) : (m.beat cls idx).page = m.page := (rfl)
@[simp] theorem Block.beat_eng (m : Block) (cls idx : Nat) : (m.beat cls idx).eng = m.eng := (rfl)
@[simp] theorem Block.beat_fab (m : Block) (cls idx : Nat) : (m.beat cls idx).fab = m.fab := (rfl)
@[simp] theorem Block.beat_cho (m : Block) (cls idx : Nat) : (m.beat cls idx).cho = m.cho := (rfl)
@[simp] theorem Block.beat_fw (m : Block) (cls idx : Nat) : (m.beat cls idx).fw = m.fw := (rfl)
@[simp] theorem Block.beat_pwr (m : Block) (cls idx : Nat) : (m.beat cls idx).pwr = m.pwr := (rfl)
@[simp] theorem Block.beat_sec (m : Block) (cls idx : Nat) : (m.beat cls idx).sec = m.sec := (rfl)
@[simp] theorem Block.beat_fuse (m : Block) (cls idx : Nat) : (m.beat cls idx).fuse = m.fuse := (rfl)
@[simp] theorem Block.beat_free (m : Block) (cls idx : Nat) : (m.beat cls idx).free = m.free := (rfl)

@[simp] theorem Block.advance_mem (m : Block) (i : Issue) : (m.advance i).mem = m.mem := (rfl)
@[simp] theorem Block.advance_bufs (m : Block) (i : Issue) : (m.advance i).bufs = m.bufs := (rfl)
@[simp] theorem Block.advance_mbuf (m : Block) (i : Issue) : (m.advance i).mbuf = m.mbuf := (rfl)
@[simp] theorem Block.advance_poison (m : Block) (i : Issue) : (m.advance i).poison = m.poison := (rfl)
@[simp] theorem Block.advance_bufPoison (m : Block) (i : Issue) : (m.advance i).bufPoison = m.bufPoison := (rfl)
@[simp] theorem Block.advance_tags (m : Block) (i : Issue) : (m.advance i).tags = m.tags := (rfl)
@[simp] theorem Block.advance_ecc (m : Block) (i : Issue) : (m.advance i).ecc = m.ecc := (rfl)
@[simp] theorem Block.advance_stale (m : Block) (i : Issue) : (m.advance i).stale = m.stale := (rfl)
@[simp] theorem Block.advance_dimms (m : Block) (i : Issue) : (m.advance i).dimms = m.dimms := (rfl)
@[simp] theorem Block.advance_time (m : Block) (i : Issue) : (m.advance i).time = m.time := (rfl)
@[simp] theorem Block.advance_cores (m : Block) (i : Issue) : (m.advance i).cores = m.cores := (rfl)
@[simp] theorem Block.advance_tiles (m : Block) (i : Issue) : (m.advance i).tiles = m.tiles := (rfl)
@[simp] theorem Block.advance_chans (m : Block) (i : Issue) : (m.advance i).chans = m.chans := (rfl)
@[simp] theorem Block.advance_cmd (m : Block) (i : Issue) : (m.advance i).cmd = m.cmd := (rfl)
@[simp] theorem Block.advance_page (m : Block) (i : Issue) : (m.advance i).page = m.page := (rfl)
@[simp] theorem Block.advance_eng (m : Block) (i : Issue) : (m.advance i).eng = m.eng := (rfl)
@[simp] theorem Block.advance_fab (m : Block) (i : Issue) : (m.advance i).fab = m.fab := (rfl)
@[simp] theorem Block.advance_cho (m : Block) (i : Issue) : (m.advance i).cho = m.cho := (rfl)
@[simp] theorem Block.advance_fw (m : Block) (i : Issue) : (m.advance i).fw = m.fw := (rfl)
@[simp] theorem Block.advance_pwr (m : Block) (i : Issue) : (m.advance i).pwr = m.pwr := (rfl)
@[simp] theorem Block.advance_sec (m : Block) (i : Issue) : (m.advance i).sec = m.sec := (rfl)
@[simp] theorem Block.advance_fuse (m : Block) (i : Issue) : (m.advance i).fuse = m.fuse := (rfl)
@[simp] theorem Block.advance_free (m : Block) (i : Issue) : (m.advance i).free = m.free := (rfl)

@[simp] theorem Block.settle_regs (m : Block) : (m.settle).regs = m.regs := (rfl)
@[simp] theorem Block.settle_poison (m : Block) : (m.settle).poison = m.poison := (rfl)
@[simp] theorem Block.settle_bufPoison (m : Block) : (m.settle).bufPoison = m.bufPoison := (rfl)
@[simp] theorem Block.settle_tags (m : Block) : (m.settle).tags = m.tags := (rfl)
@[simp] theorem Block.settle_ecc (m : Block) : (m.settle).ecc = m.ecc := (rfl)
@[simp] theorem Block.settle_stale (m : Block) : (m.settle).stale = m.stale := (rfl)
@[simp] theorem Block.settle_dimms (m : Block) : (m.settle).dimms = m.dimms := (rfl)
@[simp] theorem Block.settle_time (m : Block) : (m.settle).time = m.time := (rfl)
@[simp] theorem Block.settle_cores (m : Block) : (m.settle).cores = m.cores := (rfl)
@[simp] theorem Block.settle_tiles (m : Block) : (m.settle).tiles = m.tiles := (rfl)
@[simp] theorem Block.settle_chans (m : Block) : (m.settle).chans = m.chans := (rfl)
@[simp] theorem Block.settle_cmd (m : Block) : (m.settle).cmd = m.cmd := (rfl)
@[simp] theorem Block.settle_page (m : Block) : (m.settle).page = m.page := (rfl)
@[simp] theorem Block.settle_eng (m : Block) : (m.settle).eng = m.eng := (rfl)
@[simp] theorem Block.settle_fab (m : Block) : (m.settle).fab = m.fab := (rfl)
@[simp] theorem Block.settle_cho (m : Block) : (m.settle).cho = m.cho := (rfl)
@[simp] theorem Block.settle_fw (m : Block) : (m.settle).fw = m.fw := (rfl)
@[simp] theorem Block.settle_pwr (m : Block) : (m.settle).pwr = m.pwr := (rfl)
@[simp] theorem Block.settle_flt (m : Block) : (m.settle).flt = m.flt := (rfl)
@[simp] theorem Block.settle_sec (m : Block) : (m.settle).sec = m.sec := (rfl)
@[simp] theorem Block.settle_fuse (m : Block) : (m.settle).fuse = m.fuse := (rfl)
@[simp] theorem Block.settle_free (m : Block) : (m.settle).free = m.free := (rfl)

end Sys2Proof.Machine
end

