-- ==== Sys2Proof/Laws/Registers.lean ====
section
/-! SUPPORT. The laws of tables, registers and bit fields: what a read gives after a write to the same key, register or field, and that
the others stand. -/
namespace Sys2Proof.Machine

/-- Reading the key that was put. -/
@[simp] theorem Tbl.getD_put_self {α : Type} (d : α) (t : Tbl α) (a : Nat) (v : α) : Tbl.getD d (Tbl.put t a v) a = v := by
  induction t with
  | nil => simp [Tbl.put, Tbl.getD]
  | cons e t ih =>
    obtain ⟨k, w⟩ := e
    simp only [Tbl.put]
    split
    · simp [Tbl.getD]
    · split
      · simp [Tbl.getD]
      · rename_i h1 h2
        simp only [Tbl.getD]
        rw [if_neg (by omega)]
        exact ih

/-- Reading another key. -/
theorem Tbl.getD_put_ne {α : Type} (d : α) (t : Tbl α) (a b : Nat) (v : α) (h : b ≠ a) : Tbl.getD d (Tbl.put t a v) b = Tbl.getD d t b := by
  induction t with
  | nil => simp [Tbl.put, Tbl.getD, Ne.symm h]
  | cons e t ih =>
    obtain ⟨k, w⟩ := e
    simp only [Tbl.put]
    split
    · simp [Tbl.getD, Ne.symm h]
    · split
      · rename_i hk
        subst hk
        simp [Tbl.getD, Ne.symm h]
      · simp [Tbl.getD, ih]

/-- What a table holds after a key is put. -/
theorem Tbl.mem_put {α : Type} {t : Tbl α} {a : Nat} {v : α} {e : Nat × α} (h : e ∈ Tbl.put t a v) : e = (a, v) ∨ e ∈ t := by
  induction t with
  | nil => simp_all [Tbl.put]
  | cons x xs ih =>
    obtain ⟨k, w⟩ := x
    simp only [Tbl.put] at h
    split at h
    · simp_all
    · split at h
      · simp only [List.mem_cons] at h ⊢
        exact h.imp_right .inr
      · simp only [List.mem_cons] at h ⊢
        rcases h with h | h
        · exact .inr (.inl h)
        · exact (ih h).imp_right .inr

/-- The other keys stay. -/
theorem Tbl.mem_put_of_ne {α : Type} {t : Tbl α} {a : Nat} (v : α) {e : Nat × α} (h : e ∈ t) (hne : e.1 ≠ a) : e ∈ Tbl.put t a v := by
  induction t with
  | nil => simp at h
  | cons x xs ih =>
    obtain ⟨k, w⟩ := x
    simp only [Tbl.put]
    simp only [List.mem_cons] at h
    split
    · simp [h]
    · split
      · rcases h with h | h
        · subst h; simp_all
        · simp [h]
      · rcases h with h | h
        · simp [h]
        · simp [ih h]

/-- What a key holds is in the table, when it is not the default. -/
theorem Tbl.getD_mem {α : Type} (d : α) (t : Tbl α) (a : Nat) : Tbl.getD d t a = d ∨ (a, Tbl.getD d t a) ∈ t := by
  induction t with
  | nil => exact .inl rfl
  | cons x xs ih =>
    obtain ⟨k, w⟩ := x
    simp only [Tbl.getD]
    split
    · rename_i h; subst h; exact .inr (by simp)
    · exact ih.imp_right fun h => by simp [h]

/-- The first entry with the key that was put. -/
theorem Tbl.find_put_self {α : Type} (t : Tbl α) (a : Nat) (v : α) : (Tbl.put t a v).find? (fun e => e.1 == a) = some (a, v) := by
  induction t with
  | nil => simp [Tbl.put]
  | cons e t ih =>
    obtain ⟨k, w⟩ := e
    simp only [Tbl.put]
    split
    · simp
    · split
      · simp
      · rename_i h1 h2
        rw [List.find?_cons_of_neg (by simp; omega)]
        exact ih

/-- The first entry with another key. -/
theorem Tbl.find_put_ne {α : Type} (t : Tbl α) (a b : Nat) (v : α) (h : b ≠ a) :
    (Tbl.put t a v).find? (fun e => e.1 == b) = t.find? (fun e => e.1 == b) := by
  induction t with
  | nil => simp [Tbl.put, Ne.symm h]
  | cons e t ih =>
    obtain ⟨k, w⟩ := e
    simp only [Tbl.put]
    split
    · rw [List.find?_cons_of_neg (by simp [Ne.symm h])]
    · split
      · rename_i hk
        subst hk
        rw [List.find?_cons_of_neg (by simp [Ne.symm h]), List.find?_cons_of_neg (by simp [Ne.symm h])]
      · simp only [List.find?_cons, ih]

/-- A register holds what was written to it. -/
@[simp] theorem Block.reg_setReg_self (m : Block) (r : Nat) (w : Word) : (m.setReg r w).reg r = w := by
  simp [Block.reg, Block.setReg, Tbl.find_put_self]

/-- The other registers stand. -/
theorem Block.reg_setReg_ne (m : Block) (r r' : Nat) (w : Word) (h : r' ≠ r) : (m.setReg r w).reg r' = m.reg r' := by
  simp [Block.reg, Block.setReg, Tbl.find_put_ne _ _ _ _ h]

/-- A field's write is a register's write. -/
@[simp] theorem Block.reg_setFld_self (m : Block) (r hi lo v : Nat) : (m.setFld r hi lo v).reg r = putField (m.reg r) hi lo v := by
  simp [Block.setFld]

/-- The other registers stand. -/
theorem Block.reg_setFld_ne (m : Block) (r r' hi lo v : Nat) (h : r' ≠ r) : (m.setFld r hi lo v).reg r' = m.reg r' :=
  m.reg_setReg_ne r r' _ h

/-- The other registers stand. -/
theorem Block.reg_addFld_ne (m : Block) (r r' hi lo k : Nat) (h : r' ≠ r) : (m.addFld r hi lo k).reg r' = m.reg r' :=
  m.reg_setReg_ne r r' _ h

/-- The other registers stand. -/
theorem Block.reg_satFld_ne (m : Block) (r r' hi lo k : Nat) (h : r' ≠ r) : (m.satFld r hi lo k).reg r' = m.reg r' :=
  m.reg_setReg_ne r r' _ h

/-- Registers are read from `regs` and the variant alone. -/
theorem Block.reg_congr (m m' : Block) (r : Nat) (h : m'.regs = m.regs) (hv : m'.fuse = m.fuse) : m'.reg r = m.reg r := by
  simp [Block.reg, h, hv]

/-- Normalising the memories leaves the registers. -/
@[simp] theorem Block.reg_settle (m : Block) (r : Nat) : m.settle.reg r = m.reg r := (rfl)
/-- A core's update leaves the registers. -/
@[simp] theorem Block.reg_modCore (m : Block) (n r : Nat) (f : CoreState → CoreState) : (m.modCore n f).reg r = m.reg r := (rfl)
/-- A tile's update leaves the registers. -/
@[simp] theorem Block.reg_modTile (m : Block) (t r : Nat) (f : TileState → TileState) : (m.modTile t f).reg r = m.reg r := (rfl)
/-- A scalar register's update leaves the registers of the map. -/
@[simp] theorem Block.reg_setSreg (m : Block) (n k r : Nat) (w : Word) : (m.setSreg n k w).reg r = m.reg r := (rfl)
/-- A note of progress leaves the registers. -/
@[simp] theorem Block.reg_beat (m : Block) (c i r : Nat) : (m.beat c i).reg r = m.reg r := (rfl)
/-- A queue's update leaves the registers. -/
@[simp] theorem Block.reg_modQueue (m : Block) (q : QueueId) (f : Queue → Queue) (r : Nat) : (m.modQueue q f).reg r = m.reg r := (rfl)
/-- A command's update leaves the registers. -/
@[simp] theorem Block.reg_modCmd (m : Block) (q : QueueId) (f : Cmd → Cmd) (r : Nat) : (m.modCmd q f).reg r = m.reg r := (rfl)
/-- A context's update leaves the registers. -/
@[simp] theorem Block.reg_modContext (m : Block) (t c : Nat) (f : Context → Context) (r : Nat) : (m.modContext t c f).reg r = m.reg r := (rfl)

/-- A core holds what was put. -/
@[simp] theorem Block.core_setCore_self (m : Block) (n : Nat) (c : CoreState) : (m.setCore n c).core n = c := by
  simp [Block.core, Block.setCore]
/-- The other cores stand. -/
theorem Block.core_setCore_ne (m : Block) (n k : Nat) (c : CoreState) (h : k ≠ n) : (m.setCore n c).core k = m.core k := by
  simp [Block.core, Block.setCore, Tbl.getD_put_ne _ _ _ _ _ h]
/-- A core after its update. -/
@[simp] theorem Block.core_modCore_self (m : Block) (n : Nat) (f : CoreState → CoreState) : (m.modCore n f).core n = f (m.core n) := by
  simp [Block.modCore]
/-- The other cores stand. -/
theorem Block.core_modCore_ne (m : Block) (n k : Nat) (f : CoreState → CoreState) (h : k ≠ n) : (m.modCore n f).core k = m.core k :=
  m.core_setCore_ne n k _ h
/-- A tile after its update. -/
@[simp] theorem Block.tile_modTile_self (m : Block) (t : Nat) (f : TileState → TileState) : (m.modTile t f).tile t = f (m.tile t) := by
  simp [Block.tile, Block.modTile, Block.setTile]
/-- The other tiles stand. -/
theorem Block.tile_modTile_ne (m : Block) (t k : Nat) (f : TileState → TileState) (h : k ≠ t) : (m.modTile t f).tile k = m.tile k := by
  simp [Block.tile, Block.modTile, Block.setTile, Tbl.getD_put_ne _ _ _ _ _ h]
/-- A register's write leaves the cores. -/
@[simp] theorem Block.core_setReg (m : Block) (r n : Nat) (w : Word) : (m.setReg r w).core n = m.core n := (rfl)
/-- A field's write leaves the cores. -/
@[simp] theorem Block.core_setFld (m : Block) (r hi lo v n : Nat) : (m.setFld r hi lo v).core n = m.core n := (rfl)
/-- Normalising the memories leaves the cores. -/
@[simp] theorem Block.core_settle (m : Block) (n : Nat) : m.settle.core n = m.core n := (rfl)
/-- A field is a field of the register. -/
theorem Block.fld_eq (m : Block) (r hi lo : Nat) : m.fld r hi lo = field (m.reg r) hi lo := rfl

/-- Bits of a field. -/
theorem testBit_field (w : Word) (hi lo i : Nat) : (field w hi lo).testBit i = (decide (i < hi + 1 - lo) && w.toNat.testBit (lo + i)) := by
  simp [field, Nat.testBit_mod_two_pow, Nat.testBit_shiftRight]

/-- Bits of a word after a field is put. -/
theorem testBit_putField (w : Word) (hi lo v i : Nat) :
    (putField w hi lo v).toNat.testBit i =
      (decide (i < 64) && if lo ≤ i ∧ i < hi + 1 then v.testBit (i - lo) else w.toNat.testBit i) := by
  simp only [putField, BitVec.toNat_ofNat, Nat.testBit_mod_two_pow, Nat.testBit_or, Nat.testBit_xor, Nat.testBit_shiftLeft,
    Nat.testBit_two_pow_sub_one]
  by_cases h1 : lo ≤ i
  · by_cases h2 : i < hi + 1
    · have h3 : i - lo < hi + 1 - lo := by omega
      simp [h1, h2, h3]
    · have h3 : ¬ i - lo < hi + 1 - lo := by omega
      have h4 : ¬ (lo ≤ i ∧ i < hi + 1) := by omega
      simp [h1, h2, h3]
  · simp [h1]

/-- A field that was put, where it fits in the word. -/
@[simp] theorem field_putField_self (w : Word) (hi lo v : Nat) (h : hi < 64) : field (putField w hi lo v) hi lo = v % 2 ^ (hi + 1 - lo) := by
  apply Nat.eq_of_testBit_eq
  intro i
  rw [testBit_field, testBit_putField, Nat.testBit_mod_two_pow]
  by_cases hi' : i < hi + 1 - lo
  · have h1 : lo + i < 64 := by omega
    have h2 : lo ≤ lo + i ∧ lo + i < hi + 1 := by omega
    simp [hi', h1, h2]
  · simp [hi']

/-- A field that lies apart from the one put. -/
theorem field_putField_apart (w : Word) (hi lo v hi' lo' : Nat) (h : hi' < lo ∨ hi < lo') (h64 : hi' < 64) :
    field (putField w hi lo v) hi' lo' = field w hi' lo' := by
  apply Nat.eq_of_testBit_eq
  intro i
  rw [testBit_field, testBit_field, testBit_putField]
  by_cases hi'' : i < hi' + 1 - lo'
  · have h1 : lo' + i < 64 := by omega
    have h2 : ¬ (lo ≤ lo' + i ∧ lo' + i < hi + 1) := by omega
    rw [if_neg h2]
    simp [hi'', h1]
  · simp [hi'']

/-- A field reads as it was set. -/
theorem Block.fld_setFld_self (m : Block) (r hi lo v : Nat) (h : hi < 64) : (m.setFld r hi lo v).fld r hi lo = v % 2 ^ (hi + 1 - lo) := by
  simp [Block.fld, h]

/-- A field apart from the one set stands. -/
theorem Block.fld_setFld_apart (m : Block) (r hi lo v hi' lo' : Nat) (h : hi' < lo ∨ hi < lo') (h64 : hi' < 64) :
    (m.setFld r hi lo v).fld r hi' lo' = m.fld r hi' lo' := by
  simp [Block.fld, field_putField_apart _ _ _ _ _ _ h h64]

/-- A field of another register stands. -/
theorem Block.fld_setFld_ne (m : Block) (r hi lo v r' hi' lo' : Nat) (h : r' ≠ r) : (m.setFld r hi lo v).fld r' hi' lo' = m.fld r' hi' lo' := by
  rw [Block.fld, Block.fld, m.reg_setFld_ne r r' hi lo v h]

/-- A saturating count never falls and never passes the top of its field. -/
theorem satAdd_bounds (n v k : Nat) (h : v ≤ 2 ^ n - 1) : v ≤ satAdd n v k ∧ satAdd n v k ≤ 2 ^ n - 1 := by
  simp only [satAdd]
  omega

end Sys2Proof.Machine
end

