-- ==== Sys2Proof/Laws/Issue.lean ====
section
/-! SUPPORT. The shared operations that every command goes through: the commit of an effect, the issue of an instruction, and the test for
the running command. A proof about a command cites these and never unfolds them. -/
namespace Sys2Proof.Machine

/-- A command answers what its effect gives. -/
theorem gives_of_commit {c : Instr} {s : State} {m m' : Block} (h : exec c s = s.commit m) (e : m = m') : Gives c s m' := e ▸ h

/-- What holds of a command's effect on the block holds of its answer, when it does not depend on the memories' form. -/
theorem completes_of_commit {c : Instr} {s : State} {m : Block} {post : Block → Prop} (h : exec c s = s.commit m) (e : post m.settle) :
    Completes c s post := ⟨_, h, rfl, e⟩

/-- What a named answer says as a completion. -/
theorem Gives.completes {c : Instr} {s : State} {m : Block} {post : Block → Prop} (h : Gives c s m) (e : post m.settle) : Completes c s post :=
  ⟨_, h, rfl, e⟩

/-- A core that fetches the instruction issues it: its work is done on the block after the fetch, with the pc past it. -/
theorem Block.issue_of_fetch {m f : Block} {i : Issue} (h : m.fetch i = some f) (k : Block → Block) : m.issue i k = k (f.advance i) := by
  simp only [Block.fetch] at h
  split at h
  · rename_i h1
    simp only [Bool.and_eq_true, decide_eq_true_eq] at h1
    split at h
    · cases h
    · rename_i a ha
      split at h
      · cases h
      · rename_i hp
        cases h
        simp [Block.issue, h1.1, ha, hp, Nat.not_le.mpr h1.2]
  · cases h

/-- A core that issues runs. -/
theorem Block.issuing_of_fetch {m f : Block} {i : Issue} (h : m.fetch i = some f) : m.issuing i.core = true := by
  simp only [Block.fetch] at h
  split at h
  · rename_i h1
    exact (Bool.and_eq_true _ _ |>.mp h1).1
  · cases h

/-- Without memory errors and failed stacks a read finds nothing. -/
theorem Block.correct_of_clean (m : Block) (a n : Nat) (h : m.ecc = []) (hf : m.flt.failedStacks = []) : m.correct a n = m := by
  simp [Block.correct, Block.countReads, h, hf]

/-- And a fetch then leaves the block as it is. -/
theorem Block.fetch_of_clean {m f : Block} {i : Issue} (h : m.fetch i = some f) (he : m.ecc = []) (hf : m.flt.failedStacks = []) : f = m := by
  simp only [Block.fetch] at h
  split at h
  · split at h
    · cases h
    · split at h
      · cases h
      · cases h
        exact m.correct_of_clean _ _ he hf
  · cases h

/-- A core that does not issue is unchanged. -/
theorem Block.issue_of_not_issuing (m : Block) (i : Issue) (k : Block → Block) (h : m.issuing i.core = false) : m.issue i k = m := by
  simp [Block.issue, h]

/-- What the issue of an instruction can do: nothing, a stop with ILLEGAL, a curb of the fetch, or the instruction's work. -/
theorem Block.issue_cases (m : Block) (i : Issue) (k : Block → Block) :
    m.issue i k = m ∨ m.issue i k = m.faultStop i.core 5 ∨
      m.issue i k = m.curbWindow i.core 0 ((m.core i.core).codeOff + m.pc i.core) i.len ∨
      (∃ a, m.cmAddr? i.core ((m.core i.core).codeOff + m.pc i.core) i.len = some a ∧
        m.issue i k = (m.correct a i.len).curbCore i.core 8 ((m.core i.core).codeOff + m.pc i.core) i.len) ∨
      ∃ f, m.fetch i = some f ∧ m.issue i k = k (f.advance i) := by
  cases hf : m.fetch i with
  | some f => exact .inr (.inr (.inr (.inr ⟨f, rfl, Block.issue_of_fetch hf k⟩)))
  | none =>
    simp only [Block.issue]
    split
    · exact .inl rfl
    · rename_i h1
      split
      · exact .inr (.inl rfl)
      · rename_i h2
        split
        · exact .inr (.inr (.inl rfl))
        · rename_i a ha
          split
          · exact .inr (.inr (.inr (.inl ⟨a, ha, rfl⟩)))
          · rename_i hp
            exfalso
            simp only [Block.fetch, ha, hp] at hf
            simp_all

/-- The core itself does not change as the pc moves past an instruction. -/
@[simp] theorem Block.core_advance (m : Block) (i : Issue) (n : Nat) : (m.advance i).core n = m.core n := (rfl)
/-- Nor do the scalar sources. -/
@[simp] theorem Block.src_advance (m : Block) (i : Issue) (n : Nat) (x : Src) : (m.advance i).src n x = m.src n x := by
  cases x <;> rfl
/-- Nor a scalar register. -/
@[simp] theorem Block.sreg_advance (m : Block) (i : Issue) (n r : Nat) : (m.advance i).sreg n r = m.sreg n r := (rfl)

/-- The pc register and the progress counter of a core are different registers. -/
theorem Reg.coreSeqPc_ne_progress (n : Nat) : Reg.coreSeqPc n ≠ Reg.coreSeqProgress n := by
  simp [Reg.coreSeqPc, Reg.coreSeqProgress]

/-- The pc after an instruction: past it, in 48 bits. -/
@[simp] theorem Block.pc_advance (m : Block) (i : Issue) : (m.advance i).pc i.core = (m.pc i.core + i.len) % 2 ^ 48 := by
  simp [Block.advance, Block.pc, Block.fld, Block.setPc, Block.addFld, Block.reg_setFld_ne _ _ _ _ _ _ (Reg.coreSeqPc_ne_progress i.core)]

/-- The registers an issue leaves alone. -/
theorem Block.reg_advance (m : Block) (i : Issue) (r : Nat) (h : r ∉ issueRegs i.core) : (m.advance i).reg r = m.reg r := by
  simp only [issueRegs, List.mem_cons, List.not_mem_nil, or_false, not_or] at h
  simp [Block.advance, Block.setPc, Block.addFld, Block.reg_setFld_ne _ _ _ _ _ _ h.1, Block.reg_setFld_ne _ _ _ _ _ _ h.2]

/-- The running command of a queue, for a row whose command runs and waits for nothing. -/
theorem Block.onCommand_of_runs (m : Block) (q : QueueId) (op : Nat) (c : Cmd) (k : Cmd → Block) (h : m.runs q op c = true) :
    m.onCommand q op k = k c := by
  simp only [Block.runs, Bool.and_eq_true, beq_iff_eq] at h
  simp [Block.onCommand, h.1.1, h.1.2, h.2]

/-- The running command that the test names. -/
theorem Block.running_of_runs (m : Block) (q : QueueId) (op : Nat) (c : Cmd) (h : m.runs q op c = true) :
    m.running q = some c ∧ c.opcode = op ∧ c.wait = .none := by
  simp only [Block.runs, Bool.and_eq_true, beq_iff_eq] at h
  exact ⟨h.1.1, h.1.2, h.2⟩

/-- An enable that nothing holds back is performed. -/
theorem Block.enable_of_free (m : Block) (c : Cmd) (k : Block → Cmd → Block) (h : m.blocked c = false) : m.enable c k = k m c := by
  simp [Block.enable, h]

/-- What a completion does when its command runs: the cores are released, the entry is retired, the record delivered, the queue's next
packet made ready (R299 to R302), and what waited for it let go. -/
theorem Block.completeOne_of_running (m : Block) (q : QueueId) (c : Cmd) (st res : Nat) (h : m.running q = some c)
    (hl : c.finalStatus m.time st = st) (h1 : st ≠ 0x11) (h2 : st ≠ 0x12) :
    m.completeOne q st res =
      ((((m.releaseCores q).retire c).deliver q (c.record m.time st res) (bit (wordAt c.packet 0) 46) (some c)).markReady q) := by
  simp [Block.completeOne, h, hl, h1, h2]

/-- A command without a running packet completes nothing. -/
theorem Block.completeOne_of_none (m : Block) (q : QueueId) (st res : Nat) (h : m.running q = none) : m.completeOne q st res = m := by
  simp [Block.completeOne, h]

/-- A stop records the first cause that a core meets (R98). -/
theorem Block.stopCore_of_running (m : Block) (n cause : Nat) (h : m.coreSt n = 1 ∨ m.coreSt n = 2 ∨ m.coreSt n = 3) :
    m.stopCore n cause =
      (((m.setCoreSt n 4).setFld (Reg.coreSeqStatus n) 63 56 cause).setFld (Reg.coreHitchWait n) 63 63 0).modCore n
        fun c => { c with hold := .none } := by
  simp [Block.stopCore, h]

/-- A core that is idle, stopped or curbed keeps its state. -/
theorem Block.stopCore_of_not_running (m : Block) (n cause : Nat) (h : ¬ (m.coreSt n = 1 ∨ m.coreSt n = 2 ∨ m.coreSt n = 3)) :
    m.stopCore n cause = m := by
  simp [Block.stopCore, h]

/-- Where a record goes when its queue exists, its host is present and its slot can be written. -/
theorem Block.deliver_of_room (m : Block) (qid : QueueId) (q : Queue) (rec : Completion) (irq : Bool) (entry : Option Cmd)
    (hq : m.queue? qid = some q) (hh : m.hostHeld qid.tenant = false) (he : q.held = []) (hr : m.slotWaits q = false) :
    m.deliver qid rec irq entry = m.postRecord q rec irq := by
  simp [Block.deliver, hq, hh, he, hr]

/-- An accepted request of the system's host acts. -/
theorem Block.byHost_of_ok (m : Block) (p t : Nat) (f : Block → Block) (h : m.choSt p = 2) (ht : m.tagOk p t = true) :
    m.byHost (.host p t) f = f m := by
  simp [Block.byHost, h, ht]

/-- Firmware's accesses pass no host check. -/
@[simp] theorem Block.byHost_firmware (m : Block) (f : Block → Block) : m.byHost .firmware f = f m := (rfl)
/-- Nor do a core's. -/
@[simp] theorem Block.byHost_core (m : Block) (n : Nat) (f : Block → Block) : m.byHost (.core n) f = f m := (rfl)

end Sys2Proof.Machine
end

