-- ==== Sys2Proof/Laws/Frames.lean ====
section
/-! SUPPORT. Frames: what an update leaves alone, built up from the updates that a command makes. -/
namespace Sys2Proof.Machine

/-- Nothing changes. -/
theorem OnlyCore.refl (n : Nat) (rs : List Nat) (m : Block) : OnlyCore n rs m m :=
  ⟨fun _ _ => rfl, ⟨fun _ => rfl, rfl, rfl⟩, ⟨fun _ => rfl, fun _ => rfl⟩, fun _ _ => rfl, rfl⟩

/-- Two changes of the same core. -/
theorem OnlyCore.trans {n : Nat} {rs : List Nat} {a b c : Block} (h : OnlyCore n rs a b) (h' : OnlyCore n rs b c) : OnlyCore n rs a c := by
  obtain ⟨h1, ⟨h2, h3, h4⟩, ⟨h5, h6⟩, h7, h8⟩ := h
  obtain ⟨g1, ⟨g2, g3, g4⟩, ⟨g5, g6⟩, g7, g8⟩ := h'
  exact ⟨fun r hr => (g1 r hr).trans (h1 r hr), ⟨fun x => (g2 x).trans (h2 x), g3.trans h3, g4.trans h4⟩,
    ⟨fun x => (g5 x).trans (h5 x), fun x => (g6 x).trans (h6 x)⟩, fun k hk => (g7 k hk).trans (h7 k hk), g8.trans h8⟩

/-- A longer list of registers. -/
theorem OnlyCore.mono {n : Nat} {rs rs' : List Nat} {a b : Block} (h : OnlyCore n rs a b) (hs : ∀ r ∈ rs, r ∈ rs') : OnlyCore n rs' a b :=
  ⟨fun r hr => h.1 r fun hh => hr (hs r hh), h.2⟩

/-- The canonical form of the memories changes no byte. -/
theorem OnlyCore.settle (n : Nat) (rs : List Nat) (m : Block) : OnlyCore n rs m m.settle :=
  ⟨fun _ _ => rfl, ⟨fun a => by simp [Block.settle, Block.byteAt, Block.staleAt], rfl, rfl⟩, ⟨fun a => by simp [Block.settle], fun a => by simp [Block.settle]⟩,
    fun _ _ => rfl, rfl⟩

/-- A change of the core's own state. -/
theorem OnlyCore.modCore (n : Nat) (rs : List Nat) (m : Block) (f : CoreState → CoreState) : OnlyCore n rs m (m.modCore n f) :=
  ⟨fun _ _ => rfl, ⟨fun _ => rfl, rfl, rfl⟩, ⟨fun _ => rfl, fun _ => rfl⟩, fun k hk => m.core_modCore_ne n k f hk, rfl⟩

/-- A change of a listed register. -/
theorem OnlyCore.setReg (n : Nat) (rs : List Nat) (m : Block) (r : Nat) (w : Word) (h : r ∈ rs) : OnlyCore n rs m (m.setReg r w) :=
  ⟨fun x hx => m.reg_setReg_ne r x w fun e => hx (e ▸ h), ⟨fun _ => rfl, rfl, rfl⟩, ⟨fun _ => rfl, fun _ => rfl⟩, fun _ _ => rfl, rfl⟩

/-- A change of a field of a listed register. -/
theorem OnlyCore.setFld (n : Nat) (rs : List Nat) (m : Block) (r hi lo v : Nat) (h : r ∈ rs) : OnlyCore n rs m (m.setFld r hi lo v) :=
  OnlyCore.setReg n rs m r _ h

/-- An addition to a field of a listed register. -/
theorem OnlyCore.addFld (n : Nat) (rs : List Nat) (m : Block) (r hi lo v : Nat) (h : r ∈ rs) : OnlyCore n rs m (m.addFld r hi lo v) :=
  OnlyCore.setReg n rs m r _ h

/-- A progress note. -/
theorem OnlyCore.beat (n : Nat) (rs : List Nat) (m : Block) (c i : Nat) : OnlyCore n rs m (m.beat c i) :=
  ⟨fun _ _ => rfl, ⟨fun _ => rfl, rfl, rfl⟩, ⟨fun _ => rfl, fun _ => rfl⟩, fun _ _ => rfl, rfl⟩

/-- The issue of an instruction. -/
theorem OnlyCore.advance (m : Block) (i : Issue) (rs : List Nat) : OnlyCore i.core (issueRegs i.core ++ rs) m (m.advance i) :=
  ((OnlyCore.setFld _ _ _ _ _ _ _ (by simp [issueRegs])).trans (OnlyCore.addFld _ _ _ _ _ _ _ (by simp [issueRegs]))).trans
    (OnlyCore.beat _ _ _ _ _)

/-- A whole register read as a field. -/
theorem field_whole (w : Word) : field w 63 0 = w.toNat := by
  have := w.isLt
  simp [field]
  omega

/-- A whole register set as a field. -/
theorem putField_whole (w : Word) (v : Nat) : putField w 63 0 v = BitVec.ofNat 64 v := by
  apply BitVec.eq_of_toNat_eq
  apply Nat.eq_of_testBit_eq
  intro j
  rw [testBit_putField, BitVec.toNat_ofNat, Nat.testBit_mod_two_pow]
  by_cases h : j < 64 <;> simp [h]

/-- The progress counter after an issue. -/
theorem Block.progress_advance (m : Block) (i : Issue) :
    (m.advance i).reg (Reg.coreSeqProgress i.core) = m.reg (Reg.coreSeqProgress i.core) + 1 := by
  have h := m.reg_setFld_ne (Reg.coreSeqPc i.core) (Reg.coreSeqProgress i.core) 47 0 (m.pc i.core + i.len) (Reg.coreSeqPc_ne_progress i.core).symm
  simp only [Block.advance, Block.reg_beat, Block.addFld, Block.reg_setFld_self, Block.setPc, putField_whole, Block.fld, field_whole, h]
  exact BitVec.eq_of_toNat_eq (by simp [BitVec.toNat_add])

/-- An instruction that changes only the core's own state. -/
theorem Ran.advance (m : Block) (i : Issue) (c : CoreState) (f : CoreState → CoreState) (h : f (m.core i.core) = c) :
    Ran i (m.pcAfter i) c [] m ((m.advance i).modCore i.core f).settle := by
  refine ⟨?_, ?_, ?_, ?_⟩
  · exact m.pc_advance i
  · exact m.progress_advance i
  · simp [h]
  · exact ((OnlyCore.advance m i []).trans (OnlyCore.modCore _ _ _ f)).trans (OnlyCore.settle _ _ _)

/-- An instruction that moves the pc, too. -/
theorem Ran.jump (m : Block) (i : Issue) (pc : Nat) (c : CoreState) (f : CoreState → CoreState) (h : f (m.core i.core) = c) :
    Ran i (pc % 2 ^ 48) c [] m (((m.advance i).modCore i.core f).setPc i.core pc).settle := by
  refine ⟨?_, ?_, ?_, ?_⟩
  · exact Block.fld_setFld_self _ _ _ _ _ (by decide)
  · exact (Block.reg_setFld_ne _ _ _ _ _ _ (Reg.coreSeqPc_ne_progress i.core).symm).trans (m.progress_advance i)
  · simp [Block.setPc, h]
  · exact (((OnlyCore.advance m i []).trans (OnlyCore.modCore _ _ _ f)).trans
      (OnlyCore.setFld _ _ _ _ _ _ _ (by simp [issueRegs]))).trans (OnlyCore.settle _ _ _)

/-- An instruction that changes nothing of the core but its pc and its count. -/
theorem Ran.plain (m : Block) (i : Issue) : Ran i (m.pcAfter i) (m.core i.core) [] m (m.advance i).settle :=
  ⟨m.pc_advance i, m.progress_advance i, rfl, (OnlyCore.advance m i []).trans (OnlyCore.settle _ _ _)⟩

/-- An instruction that only moves the pc. -/
theorem Ran.setPc (m : Block) (i : Issue) (pc : Nat) : Ran i (pc % 2 ^ 48) (m.core i.core) [] m ((m.advance i).setPc i.core pc).settle :=
  ⟨Block.fld_setFld_self _ _ _ _ _ (by decide),
    (Block.reg_setFld_ne _ _ _ _ _ _ (Reg.coreSeqPc_ne_progress i.core).symm).trans (m.progress_advance i), rfl,
    ((OnlyCore.advance m i []).trans (OnlyCore.setFld _ _ _ _ _ _ _ (by simp [issueRegs]))).trans (OnlyCore.settle _ _ _)⟩

end Sys2Proof.Machine
end

