-- ==== Sys2Proof/Laws/Granules.lean ====
section
/-! SUPPORT. Memory errors and writes at home, granule by granule (R114, R135 to R137): they change bytes, poison, counters and what the Chotus
ports hold; the cores' work, the tiles, queues and engines stand, the memory stays canonical, and where no error and no foreign key lies no
byte outside those written changes. -/
namespace Sys2Proof.Machine

/-- What finding errors and writing at home leave alone: the machine's units. -/
def Block.SameUnits (m m' : Block) : Prop :=
  (∀ n, (m'.core n).work = (m.core n).work) ∧ m'.tiles = m.tiles ∧ m'.chans = m.chans ∧ m'.cmd = m.cmd ∧ m'.eng = m.eng ∧ m'.fab = m.fab ∧
    m'.fw = m.fw ∧ m'.pwr = m.pwr ∧ m'.time = m.time ∧ m'.tags = m.tags ∧ m'.bufs = m.bufs ∧ m'.fuse = m.fuse

/-- Nothing changes. -/
theorem Block.SameUnits.refl (m : Block) : m.SameUnits m := ⟨fun _ => rfl, rfl, rfl, rfl, rfl, rfl, rfl, rfl, rfl, rfl, rfl, rfl⟩

/-- A change of the bytes and of the keys they stand under. -/
theorem Block.SameUnits.withMem (m : Block) (x : Memory) (y : List (Nat × Nat × Nat)) : m.SameUnits { m with mem := x, stale := y } :=
  Block.SameUnits.refl m

/-- Two updates in turn. -/
theorem Block.SameUnits.trans {a b c : Block} (h : a.SameUnits b) (h' : b.SameUnits c) : a.SameUnits c := by
  obtain ⟨h1, h2, h3, h4, h5, h6, h7, h8, h9, h10, h11, h12⟩ := h
  obtain ⟨k1, k2, k3, k4, k5, k6, k7, k8, k9, k10, k11, k12⟩ := h'
  exact ⟨fun n => (k1 n).trans (h1 n), k2.trans h2, k3.trans h3, k4.trans h4, k5.trans h5, k6.trans h6, k7.trans h7, k8.trans h8, k9.trans h9,
    k10.trans h10, k11.trans h11, k12.trans h12⟩

/-- No error and no foreign key: what memory holds is what it reads as. -/
def Block.Clean (m : Block) : Prop := m.ecc = [] ∧ m.stale = []

/-- A saturating counter is a register. -/
theorem Block.satFld_units (m : Block) (r hi lo k : Nat) : m.SameUnits (m.satFld r hi lo k) ∧ (m.satFld r hi lo k).mem = m.mem :=
  ⟨Block.SameUnits.refl m, rfl⟩

/-- The wear ledger is none of the units. -/
theorem Block.addWear_units (m : Block) (kind reason unit from_ to_ count : Nat) :
    m.SameUnits (m.addWear kind reason unit from_ to_ count) ∧ (m.addWear kind reason unit from_ to_ count).mem = m.mem := by
  unfold Block.addWear
  split <;> exact ⟨Block.SameUnits.refl m, rfl⟩

/-- Counting a poisoning changes registers only. -/
theorem Block.countPoison_units (m : Block) (a : Nat) : m.SameUnits (m.countPoison a) ∧ (m.countPoison a).mem = m.mem := by
  unfold Block.countPoison
  split
  · exact m.satFld_units _ _ _ _
  · exact m.satFld_units _ _ _ _
  · exact m.satFld_units _ _ _ _
  · exact ⟨Block.SameUnits.refl m, rfl⟩

/-- Counting a dropped write changes registers and the wear ledger only. -/
theorem Block.countDrop_units (m : Block) (a : Nat) : m.SameUnits (m.countDrop a) ∧ (m.countDrop a).mem = m.mem := by
  unfold Block.countDrop
  split
  · exact m.satFld_units _ _ _ _
  · exact m.satFld_units _ _ _ _
  · exact m.satFld_units _ _ _ _
  · exact m.addWear_units _ _ _ _ _ _
  · exact ⟨Block.SameUnits.refl m, rfl⟩

/-- Poisoning a granule changes no byte. -/
theorem Block.poisonGranule_units (m : Block) (g : Nat) : m.SameUnits (m.poisonGranule g) ∧ (m.poisonGranule g).mem = m.mem := by
  unfold Block.poisonGranule
  split
  · exact ⟨Block.SameUnits.refl m, rfl⟩
  · exact Block.countPoison_units { m with poison := insertNat m.poison g } (128 * g)

/-- Noting an error changes registers, the wear ledger and its notes only. -/
theorem Block.noteError_units (m : Block) (a kind : Nat) : m.SameUnits (m.noteError a kind) ∧ (m.noteError a kind).mem = m.mem := by
  have hret (m : Block) (a k : Nat) : m.SameUnits (m.retirePage a k) ∧ (m.retirePage a k).mem = m.mem := by
    unfold Block.retirePage
    split
    · exact ⟨Block.SameUnits.refl m, rfl⟩
    · have h := m.addWear_units 4 7 (a / 0x1000000000) (0x200000 * (a / 0x200000)) (2 ^ 64 - 1) k
      have h' := Block.satFld_units (m.addWear 4 7 (a / 0x1000000000) (0x200000 * (a / 0x200000)) (2 ^ 64 - 1) k)
        (Reg.hbmStatus (a / 0x1000000000)) 31 0 1
      exact ⟨h.1.trans h'.1, h'.2.trans h.2⟩
  have hcount (m : Block) : m.SameUnits (m.countError a kind) ∧ (m.countError a kind).mem = m.mem := by
    unfold Block.countError
    split
    · split
      · exact hret m a 1
      · dsimp only
        split
        · exact hret _ a _
        · exact ⟨Block.SameUnits.refl m, rfl⟩
    · dsimp only
      split <;> exact ⟨Block.SameUnits.refl m, rfl⟩
    · exact ⟨Block.SameUnits.refl m, rfl⟩
  unfold Block.noteError
  dsimp only
  split
  · split
    · exact ⟨(m.satFld_units _ _ _ _).1.trans (hcount _).1, (hcount _).2⟩
    · exact ⟨(m.satFld_units _ _ _ _).1.trans (hcount _).1, (hcount _).2⟩
  · split
    · rename_i n _ _
      refine ⟨Block.SameUnits.trans ?_ (hcount _).1, (hcount _).2.trans (m.addWear_units 7 kind (n / 8) n (2 ^ 64 - 1) 1).2⟩
      refine (m.addWear_units 7 kind (n / 8) n (2 ^ 64 - 1) 1).1.trans ⟨fun k => ?_, rfl, rfl, rfl, rfl, rfl, rfl, rfl, rfl, rfl, rfl, rfl⟩
      by_cases hk : k = n
      · subst hk
        simp only [Block.core_modCore_self]
        split <;> rfl
      · rw [Block.core_modCore_ne _ _ _ _ hk]
    · exact hcount m

/-- What finding errors and writing at home does: the units stand and a canonical memory stays canonical. -/
def Block.Quiet (m m' : Block) : Prop := m.SameUnits m' ∧ (m.mem.wf → m'.mem.wf)

/-- Nothing changes. -/
theorem Block.Quiet.refl (m : Block) : m.Quiet m := ⟨Block.SameUnits.refl m, id⟩

/-- Two updates in turn. -/
theorem Block.Quiet.trans {a b c : Block} (h : a.Quiet b) (h' : b.Quiet c) : a.Quiet c := ⟨h.1.trans h'.1, fun w => h'.2 (h.2 w)⟩

/-- An update of the units' bystanders that keeps the memory. -/
theorem Block.Quiet.of_units {m m' : Block} (h : m.SameUnits m' ∧ m'.mem = m.mem) : m.Quiet m' := ⟨h.1, fun w => h.2 ▸ w⟩

/-- A fold of quiet updates is quiet. -/
theorem Block.Quiet.foldl {α : Type} (f : Block → α → Block) (h : ∀ (m : Block) (x : α), m.Quiet (f m x)) (l : List α) (m : Block) : m.Quiet (l.foldl f m) := by
  induction l generalizing m with
  | nil => exact Block.Quiet.refl m
  | cons x l ih => exact (h m x).trans (ih _)

/-- Finding an error is quiet. -/
theorem Block.quiet_findError (m : Block) (e : Nat × List Nat) : m.Quiet (m.findError e) := by
  have hn (m : Block) (a k : Nat) : m.Quiet (m.noteError a k) := .of_units (m.noteError_units a k)
  have hp (m : Block) (g : Nat) : m.Quiet (m.poisonGranule g) := .of_units (m.poisonGranule_units g)
  refine Block.Quiet.trans (b := { m with ecc := m.ecc.erase e }) (Block.Quiet.refl m) ?_
  unfold Block.findError
  dsimp only
  generalize ({ m with ecc := m.ecc.erase e } : Block) = m1
  split
  · exact hn m1 _ _
  · exact (hn m1 _ _).trans (hp _ _)
  · have hd : m1.Quiet m1.draw.2 := Block.Quiet.refl m1
    have hw : m1.Quiet { (m1.draw.2.drawBytes 128).2 with
        mem := (m1.draw.2.drawBytes 128).2.mem.writeN (128 * e.1) (((m1.draw.2.drawBytes 128).1 ++ List.replicate 128 0).take 128) } :=
      ⟨Block.SameUnits.refl m1, fun w => Memory.wf_writeN _ _ _ w⟩
    split
    · exact hd.trans ((hn _ _ _).trans (hp _ _))
    · exact hw
    · exact hw.trans (hn _ _ _)

/-- Counting the reads of failed stacks is quiet. -/
theorem Block.quiet_countReads (m : Block) (a n : Nat) : m.Quiet (m.countReads a n) := by
  unfold Block.countReads
  split
  · exact Block.Quiet.refl m
  · refine Block.Quiet.foldl _ (fun m s => ?_) _ _
    dsimp only
    split
    · exact Block.Quiet.refl m
    · exact .of_units (m.satFld_units _ _ _ _)

/-- A read that meets errors is quiet. -/
theorem Block.quiet_correct (m : Block) (a n : Nat) : m.Quiet (m.correct a n) :=
  (m.quiet_countReads a n).trans (Block.Quiet.foldl _ Block.quiet_findError _ _)

/-- Counting poisoned data for a host is quiet. -/
theorem Block.countHostPoison_units (m : Block) (a : Nat) (bad : Bool) :
    m.SameUnits (m.countHostPoison a bad) ∧ (m.countHostPoison a bad).mem = m.mem := by
  unfold Block.countHostPoison
  split
  · exact m.satFld_units _ _ _ _
  · exact ⟨Block.SameUnits.refl m, rfl⟩

/-- Storing a granule under the key it is read with is quiet. -/
theorem Block.quiet_thaw (m : Block) (g : Nat) : m.Quiet (m.thaw g) := by
  have h (x : List Byte) : m.Quiet { m.fresh g 1 with mem := m.mem.writeN (128 * g) x } :=
    ⟨Block.SameUnits.withMem m _ _, fun w => Memory.wf_writeN x m.mem (128 * g) w⟩
  unfold Block.thaw
  generalize (List.range 128).map (fun i => m.byteAt (128 * g + i)) = x
  split
  · exact Block.Quiet.refl m
  · exact h x

/-- One granule's write is quiet. -/
theorem Block.quiet_applyGranule (m : Block) (a : Nat) (bs : List Byte) (mask : List Bool) (bad : Bool) :
    m.Quiet (m.applyGranule a bs mask bad) := by
  have hp (m : Block) (g : Nat) : m.Quiet (m.poisonGranule g) := .of_units (m.poisonGranule_units g)
  have hc (m : Block) : m.Quiet (m.countDrop a) := .of_units (m.countDrop_units a)
  unfold Block.applyGranule
  dsimp only
  split
  · exact hc m
  · split
    · have h : m.Quiet { (m.countHostPoison a bad).fresh (a / 128) 1 with
          mem := m.mem.writeMasked a bs mask, ecc := m.ecc.filter fun e => e.1 != a / 128 } :=
        ⟨(m.countHostPoison_units a bad).1, fun w => Memory.wf_writeMasked _ _ _ _ w⟩
      split
      · exact h.trans (hp _ _)
      · exact h
    · have h0 : m.Quiet ((m.correct (128 * (a / 128)) 128).thaw (a / 128)) := (m.quiet_correct _ _).trans (Block.quiet_thaw _ _)
      split
      · exact h0.trans (hc _)
      · have h := h0.trans (c := { ((m.correct (128 * (a / 128)) 128).thaw (a / 128)).countHostPoison a bad with
            mem := ((m.correct (128 * (a / 128)) 128).thaw (a / 128)).mem.writeMasked a bs mask })
          ⟨(Block.countHostPoison_units _ a bad).1, fun w => Memory.wf_writeMasked _ _ _ _ w⟩
        split
        · exact h.trans (hp _ _)
        · exact h

/-- And so is a master's write, which a host copy may hold back (R372). -/
theorem Block.quiet_writeGranule (m : Block) (a : Nat) (bs : List Byte) (mask : List Bool) (bad : Bool) :
    m.Quiet (m.writeGranule a bs mask bad) := by
  unfold Block.writeGranule
  dsimp only
  split
  · exact Block.Quiet.refl m
  · split
    · exact m.quiet_applyGranule a bs mask bad
    · exact Block.Quiet.refl m

/-- A write of several granules is quiet. -/
theorem Block.quiet_writeGranules (k : Nat) (m : Block) (a : Nat) (bs : List Byte) (mask : List Bool) (bad : Bool) :
    m.Quiet (m.writeGranules a bs mask bad k) := by
  induction k generalizing m a bs mask with
  | zero => exact Block.Quiet.refl m
  | succ k ih =>
    unfold Block.writeGranules
    split
    · exact Block.Quiet.refl m
    · exact (m.quiet_writeGranule a _ _ bad).trans (ih _ _ _ _)

/-- Where no error and no foreign key lies, a write of one granule leaves the memory as it is or writes its bytes under the mask, and still
neither lies there. -/
theorem Block.mem_applyGranule (m : Block) (a : Nat) (bs : List Byte) (mask : List Bool) (bad : Bool) (h : m.Clean) :
    (m.applyGranule a bs mask bad).Clean ∧
      ((m.applyGranule a bs mask bad).mem = m.mem ∨ (m.applyGranule a bs mask bad).mem = m.mem.writeMasked a bs mask) := by
  have hp (m : Block) (g : Nat) : (m.poisonGranule g).mem = m.mem ∧ (m.poisonGranule g).ecc = m.ecc ∧ (m.poisonGranule g).stale = m.stale := by
    unfold Block.poisonGranule
    split
    · exact ⟨rfl, rfl, rfl⟩
    · unfold Block.countPoison
      split <;> exact ⟨rfl, rfl, rfl⟩
  have hc (m : Block) : (m.countDrop a).mem = m.mem ∧ (m.countDrop a).ecc = m.ecc ∧ (m.countDrop a).stale = m.stale := by
    unfold Block.countDrop
    split <;> first | exact ⟨rfl, rfl, rfl⟩ | (unfold Block.addWear; split <;> exact ⟨rfl, rfl, rfl⟩)
  have hh (m : Block) : (m.countHostPoison a bad).mem = m.mem ∧ (m.countHostPoison a bad).ecc = m.ecc ∧ (m.countHostPoison a bad).stale = m.stale := by
    unfold Block.countHostPoison
    split <;> exact ⟨rfl, rfl, rfl⟩
  have hr (l : List Nat) (n : Nat) (m : Block) : let f := fun (m : Block) s =>
        (let k := min ((128 * (a / 128) + (n - 1)) / 128 + 1) ((s + 1) * 2 ^ 29) - max (128 * (a / 128) / 128) (s * 2 ^ 29)
         if n = 0 ∨ k = 0 then m else m.satFld (Reg.hbmPoison s) 31 0 k)
      (l.foldl f m).mem = m.mem ∧ (l.foldl f m).ecc = m.ecc ∧ (l.foldl f m).stale = m.stale := by
    dsimp only
    induction l generalizing m with
    | nil => exact ⟨rfl, rfl, rfl⟩
    | cons x l ih =>
      simp only [List.foldl_cons]
      refine ⟨(ih _).1.trans ?_, (ih _).2.1.trans ?_, (ih _).2.2.trans ?_⟩ <;> split <;> rfl
  obtain ⟨he, hs⟩ := h
  unfold Block.applyGranule
  dsimp only
  split
  · exact ⟨⟨(hc m).2.1.trans he, (hc m).2.2.trans hs⟩, .inl (hc m).1⟩
  · split
    · have hx : (({ (m.countHostPoison a bad).fresh (a / 128) 1 with
          mem := m.mem.writeMasked a bs mask, ecc := m.ecc.filter fun e => e.1 != a / 128 } : Block)).Clean :=
        ⟨by simp [he], by simp [Block.fresh, (hh m).2.2, hs]⟩
      split
      · exact ⟨⟨(hp _ _).2.1.trans hx.1, (hp _ _).2.2.trans hx.2⟩, .inr (hp _ _).1⟩
      · exact ⟨hx, .inr rfl⟩
    · have h0 : ((m.correct (128 * (a / 128)) 128).thaw (a / 128)).mem = m.mem ∧
          ((m.correct (128 * (a / 128)) 128).thaw (a / 128)).Clean := by
        have h1 : (m.countReads (128 * (a / 128)) 128).mem = m.mem ∧ (m.countReads (128 * (a / 128)) 128).ecc = m.ecc ∧
            (m.countReads (128 * (a / 128)) 128).stale = m.stale := by
          unfold Block.countReads
          split
          · exact ⟨rfl, rfl, rfl⟩
          · exact hr m.flt.failedStacks 128 m
        have h2 : m.correct (128 * (a / 128)) 128 = m.countReads (128 * (a / 128)) 128 := by
          have h3 : (m.countReads (128 * (a / 128)) 128).ecc = [] := h1.2.1.trans he
          simp only [Block.correct, h3]
          rfl
        have h4 : (m.countReads (128 * (a / 128)) 128).stale = [] := h1.2.2.trans hs
        rw [h2, Block.thaw, Block.staleAt, h4]
        exact ⟨h1.1, h1.2.1.trans he, h4⟩
      generalize ((m.correct (128 * (a / 128)) 128).thaw (a / 128)) = m0 at h0
      split
      · exact ⟨⟨(hc m0).2.1.trans h0.2.1, (hc m0).2.2.trans h0.2.2⟩, .inl ((hc m0).1.trans h0.1)⟩
      · have hx : (({ m0.countHostPoison a bad with mem := m0.mem.writeMasked a bs mask } : Block)).Clean :=
          ⟨(hh m0).2.1.trans h0.2.1, (hh m0).2.2.trans h0.2.2⟩
        split
        · exact ⟨⟨(hp _ _).2.1.trans hx.1, (hp _ _).2.2.trans hx.2⟩, .inr ((hp _ _).1.trans (by rw [h0.1]))⟩
        · exact ⟨hx, .inr (by rw [h0.1])⟩

/-- Where no error and no foreign key lies, a write of several granules changes no byte outside those written. -/
theorem Block.read_writeGranules_out (k : Nat) (m : Block) (a b : Nat) (bs : List Byte) (mask : List Bool) (bad : Bool) (hm : m.Clean)
    (h : b < a ∨ a + bs.length ≤ b) : (m.writeGranules a bs mask bad k).mem.read b = m.mem.read b := by
  induction k generalizing m a bs mask with
  | zero => rfl
  | succ k ih =>
    unfold Block.writeGranules
    split
    · rfl
    · dsimp only
      have hw : (m.writeGranule a (bs.take (128 - a % 128)) (mask.take (128 - a % 128)) bad).Clean ∧
          ((m.writeGranule a (bs.take (128 - a % 128)) (mask.take (128 - a % 128)) bad).mem = m.mem ∨
            (m.writeGranule a (bs.take (128 - a % 128)) (mask.take (128 - a % 128)) bad).mem =
              m.mem.writeMasked a (bs.take (128 - a % 128)) (mask.take (128 - a % 128))) := by
        unfold Block.writeGranule
        dsimp only
        split
        · exact ⟨hm, .inl rfl⟩
        · split
          · exact m.mem_applyGranule a _ _ bad hm
          · exact ⟨hm, .inl rfl⟩
      rw [ih _ _ _ _ hw.1]
      · rcases hw.2 with e | e
        · rw [e]
        · rw [e]
          refine Memory.read_writeMasked_out _ _ _ _ _ ?_
          rw [List.length_take]
          omega
      · rw [List.length_drop]
        omega

/-- A write at home is quiet, and where no error and no foreign key lies the bytes outside it stand. -/
theorem Block.homeWrite_frame (m : Block) (a : Nat) (bs : List Byte) :
    m.Quiet (m.homeWrite a bs) ∧ (m.Clean → ∀ b, (b < a ∨ a + bs.length ≤ b) → (m.homeWrite a bs).mem.read b = m.mem.read b) :=
  ⟨Block.quiet_writeGranules _ m a bs [] false, fun hm b h => m.read_writeGranules_out _ a b bs [] false hm h⟩

end Sys2Proof.Machine
end

