-- ==== Sys2Proof/Laws/Hitches.lean ====
section
/-! SUPPORT. Bytes and hitches: a number laid out as bytes and read back, the value of a hitch after it is set (R99, R107), and what a set
does to the cores that wait for it. -/
namespace Sys2Proof.Machine

/-- The number that n bytes spell is below 2^(8n). -/
theorem leNat_lt (bs : List Byte) : leNat bs < 2 ^ (8 * bs.length) := by
  induction bs with
  | nil => simp [leNat]
  | cons b bs ih =>
    simp only [leNat, List.length_cons]
    have := b.isLt
    rw [show 8 * (bs.length + 1) = 8 * bs.length + 8 from by ring, Nat.pow_add]
    omega

/-- Laying a number out as n bytes and reading it back. -/
theorem leNat_leBytes (n v : Nat) : leNat (leBytes n v) = v % 2 ^ (8 * n) := by
  induction n generalizing v with
  | zero => simp [leBytes, leNat, Nat.mod_one]
  | succ n ih =>
    simp only [leBytes, leNat, ih, BitVec.toNat_ofNat]
    rw [show 8 * (n + 1) = 8 + 8 * n from by ring, Nat.pow_add, Nat.mod_mul]

/-- The layout takes n bytes. -/
@[simp] theorem length_leBytes (n v : Nat) : (leBytes n v).length = n := by
  induction n generalizing v with
  | zero => rfl
  | succ n ih => simp [leBytes, ih]

/-- Where no byte is stored under another key, reading bytes reads the memory. -/
theorem Block.readMem_of_fresh (m : Block) (a n : Nat) (h : ∀ i < n, m.staleAt ((a + i) / 128) = none) : m.readMem a n = m.mem.readN a n := by
  unfold Block.readMem
  split
  · rfl
  · rw [Memory.readN_eq_map]
    refine List.map_congr_left fun i hi => ?_
    simp [Block.byteAt, h i (List.mem_range.mp hi)]

/-- A hitch holds the 64 bits that are left in it. -/
theorem Block.hitchVal_hitchPut (m : Block) (a v : Nat) (h : m.mem.wf) (ha : a % 8 = 0) (hs : m.staleAt (a / 128) = none) :
    (m.hitchPut a v).hitchVal a = v % 2 ^ 64 := by
  have h1 := Memory.readN_writeN (leBytes 8 (v % 2 ^ 64)) m.mem a h
  rw [length_leBytes] at h1
  have hf : ∀ i < 8, (m.hitchPut a v).staleAt ((a + i) / 128) = none := fun i hi => by
    rw [show (a + i) / 128 = a / 128 from by omega]
    exact hs
  rw [Block.hitchVal, Block.readMem_of_fresh _ _ _ hf]
  simp only [Block.hitchPut, h1, leNat_leBytes]
  simp

/-- An operation on a hitch that no host copy holds back and no poison discards: the errors of its granule are found, and its value is left. -/
theorem Block.hitchOp_of_free (m : Block) (a : Nat) (add : Bool) (v : Nat) (h : m.hostCopies (a / 128) = [])
    (hp : (m.correct a 8).poison.contains (a / 128) = false) :
    m.hitchOp a add v = (m.correct a 8).hitchPut a (if add then (m.correct a 8).hitchVal a + v else v) := by
  simp only [Block.hitchOp, h, Block.hitchApply, hp]
  simp

/-- A map over a table that keeps the default acts on each entry. -/
theorem Tbl.getD_map {α : Type} (t : Tbl α) (d : α) (f : Nat → α → α) (hd : ∀ n, f n d = d) (n : Nat) :
    Tbl.getD d (t.map fun e => (e.1, f e.1 e.2)) n = f n (Tbl.getD d t n) := by
  induction t with
  | nil => simp [Tbl.getD, hd]
  | cons x xs ih =>
    obtain ⟨k, v⟩ := x
    simp only [List.map_cons, Tbl.getD]
    split
    · rename_i h; subst h; rfl
    · exact ih

/-- Each core that waits for the hitch sees the value left. -/
theorem Block.core_hitchPut (m : Block) (a v n : Nat) : (m.hitchPut a v).core n = m.seeHitch a (v % 2 ^ 64) n (m.core n) := by
  exact Tbl.getD_map m.cores {} (fun n c => m.seeHitch a (v % 2 ^ 64) n c) (fun n => by simp [Block.seeHitch, Block.waitMet]) n

/-- The eight bytes of the hitch change and no other. -/
theorem Block.read_hitchPut_out (m : Block) (a v x : Nat) (h : x < a ∨ a + 8 ≤ x) : (m.hitchPut a v).mem.read x = m.mem.read x := by
  refine Memory.read_writeN_out _ _ _ _ ?_
  rw [length_leBytes]
  exact h

/-- The memory stays canonical. -/
theorem Block.wf_hitchPut (m : Block) (a v : Nat) (h : m.mem.wf) : (m.hitchPut a v).mem.wf := Memory.wf_writeN _ _ _ h

end Sys2Proof.Machine
end

