-- ==== Sys2Proof/WellFormed.lean ====
section
/-! DEFINITION. Which commands are well formed: the units, registers, queues and nodes that a row names are numbers that the widest
module has (Tables 0.2 and 6.1). `exec` is total all the same: a row that names an absent unit leaves the block as its meaning says. -/
namespace Sys2Proof

/-- Two Chotus ports, 32 tenants, 128 cores. -/
def Requester.wf : Requester → Bool
  | .host p t => decide (p < 2) && decide (t < 32)
  | .core n => decide (n < 128)
  | .firmware => true
  | .peer => true

/-- A core's issue takes at least one byte. -/
def Issue.wf (i : Issue) : Bool := decide (i.core < 128) && decide (1 ≤ i.len)

/-- 32 tenants of 256 contexts of 16 queues (R286). -/
def QueueId.wf (q : QueueId) : Bool := decide (q.tenant < 32) && decide (q.ctx < 256) && decide (q.queue < 16)

/-- 32 scalar registers (R80). -/
def Src.wf : Src → Bool
  | .reg r => decide (r < 32)
  | .imm _ => true

/-- Offsets and global addresses are 64-bit numbers. -/
def Loc.wf (l : Loc) : Bool := decide (l.off < 2 ^ 64)

/-- Both planes of a row. -/
def Row.wf (r : Row) : Bool := r.loc.wf && r.scales.wf

/-- 64 mailboxes; an I3C message of at most 4,096 bytes. -/
def Port.wf : Port → Bool
  | .mailbox k => decide (k < 64)
  | .net src _ => decide (src < 2 ^ 32)
  | .i3c msg => decide (msg.length ≤ 4096)

/-- Fields of Table 14.7 within their widths. -/
def Burst.wf (b : Burst) : Bool :=
  decide (b.srcNode < 4096) && decide (b.dstNode < 4096) && decide (b.tenant < 32) && decide (b.ctx < 256) && decide (b.seq < 2 ^ 32)

/-- A claim's node, tenant and context. -/
def Claim.wf (c : Claim) : Bool := decide (c.node < 4096) && decide (c.tenant < 32) && decide (c.ctx < 256)

/-- A segment's tenant and context. -/
def CollSeg.wf (s : CollSeg) : Bool := decide (s.tenant < 32) && decide (s.ctx < 256)

/-- Widths of FAB_PORT_NBR. -/
def Neighbour.wf (n : Neighbour) : Bool := decide (n.node < 4096) && decide (n.port < 64) && decide (n.bpos < 16) && decide (n.serial < 2 ^ 32)

/-- Whether the operands of a command are within what the module has. -/
def Instr.wf : Instr → Bool
  | .scalarOp i _ rd a b => i.wf && decide (rd < 32) && a.wf && b.wf
  | .branch i _ a b _ => i.wf && a.wf && b.wf
  | .loop i count _ => i.wf && decide (count < 32)
  | .endloop i => i.wf
  | .call i _ => i.wf
  | .ret i => i.wf
  | .drain i _ => i.wf
  | .drainComplete core => decide (core < 128)
  | .end_ i => i.wf
  | .matmul i _ => i.wf
  | .matmulComplete core => decide (core < 128)
  | .vectorElementwise i _ dst a b c _ => i.wf && dst.wf && a.wf && b.wf && c.wf
  | .vectorConvert i dst src _ => i.wf && dst.wf && src.wf
  | .vectorReduce i _ dst src _ => i.wf && dst.wf && src.wf
  | .topk i scores _ _ _ _ _ route wgt => i.wf && scores.wf && route.wf && wgt.wf
  | .compensatedSplit i src hi lo _ => i.wf && src.wf && hi.wf && lo.wf
  | .compensatedCombine i main comp dst _ => i.wf && main.wf && comp.wf && dst.wf
  | .gather i dst src idx _ _ => i.wf && dst.wf && src.wf && idx.wf
  | .scatter i dst src idx _ _ => i.wf && dst.wf && src.wf && idx.wf
  | .globalLoad i src _ dst => i.wf && src.wf && dst.wf
  | .globalLoadReturn core _ => decide (core < 128)
  | .coherentPointLoad i src _ dst => i.wf && src.wf && dst.wf
  | .globalStore i dst _ src => i.wf && dst.wf && src.wf
  | .storeReachesHome core _ => decide (core < 128)
  | .signalledStore i _ _ src _ _ => i.wf && src.wf
  | .attentionPass i _ => i.wf
  | .exp i _ _ _ _ => i.wf
  | .rsqrt i _ _ _ _ => i.wf
  | .recip i _ _ _ _ => i.wf
  | .copySubmit i _ _ => i.wf
  | .dmaSliceTimeout tile engine _ => decide (tile < 16) && decide (engine < 4)
  | .copyDescriptorComplete tile channel => decide (tile < 16) && decide (channel ≤ 128)
  | .hsignal i _ v => i.wf && v.wf
  | .hwait i _ target => i.wf && target.wf
  | .hwaitSatisfied core => decide (core < 128)
  | .hitchTimeout core => decide (core < 128)
  | .hpoll i _ rd => i.wf && decide (rd < 32)
  | .hreset i _ v => i.wf && v.wf
  | .acquire i => i.wf
  | .release i => i.wf
  | .fence i => i.wf
  | .orderHoldEnd core => decide (core < 128)
  | .coreSeqStop r core => r.wf && decide (core < 128)
  | .coreArrClr r core => r.wf && decide (core < 128)
  | .lcInvalidate r tile => r.wf && decide (tile < 16)
  | .lcCounterClr r tile => r.wf && decide (tile < 16)
  | .attClr r core => r.wf && decide (core < 128)
  | .drvClr r tile ring => r.wf && decide (tile < 16) && decide (ring < 8)
  | .grmClr r stack => r.wf && decide (stack < 32)
  | .sadClr r => r.wf
  | .registerWrite r _ _ _ => r.wf
  | .doorbellSqTail r q _ => r.wf && q.wf
  | .doorbellCqHead r q _ => r.wf && q.wf
  | .sysAdminEnable r _ _ => r.wf
  | .packetFetch q => q.wf
  | .pacedAdmission q => q.wf
  | .dispatch => true
  | .agingPromotion q => q.wf
  | .pacedLeadStart q => q.wf
  | .pulledUpResume core => decide (core < 128)
  | .pacedOverrunStop q => q.wf
  | .suspensionEnd => true
  | .nop q => q.wf
  | .tenantCreate q => q.wf
  | .tenantDestroy q => q.wf
  | .tenantKeyLoad q => q.wf
  | .rangeSet q => q.wf
  | .rangeClear q => q.wf
  | .mailboxAssign q => q.wf
  | .contextCreate q => q.wf
  | .contextDestroy q => q.wf
  | .contextReset q => q.wf
  | .queueCreate q => q.wf
  | .queueDestroy q => q.wf
  | .resourceAssign q => q.wf
  | .resourceRelease q => q.wf
  | .programLoad q => q.wf
  | .programUnload q => q.wf
  | .taskRun q => q.wf
  | .hitchSignal q => q.wf
  | .copy q tile => q.wf && decide (tile < 16)
  | .saddleLoad q => q.wf
  | .saddleUpdate q => q.wf
  | .saddleUnload q => q.wf
  | .groomUpdate q => q.wf
  | .collective q => q.wf
  | .teardownDrainEnd tenant ctx => decide (tenant < 32) && decide (ctx < 256)
  | .teardownDrainTimeout tenant ctx => decide (tenant < 32) && decide (ctx < 256)
  | .purgeEnd tenant ctx => decide (tenant < 32) && decide (ctx < 256)
  | .scrubEnd _ => true
  | .deferredPerform q => q.wf
  | .pagingSegmentComplete engine => decide (engine < 16)
  | .pageInComplete _ => true
  | .pageOut _ => true
  | .patrolScrub stack => decide (stack < 48)
  | .ddrChannelFailure channel => decide (channel < 16)
  | .cmpRingTail r die ring _ => r.wf && decide (die < 16) && decide (ring < 32)
  | .lossyEncode die ring => decide (die < 16) && decide (ring < 32)
  | .lossyDecode die ring => decide (die < 16) && decide (ring < 32)
  | .losslessEncode die ring => decide (die < 16) && decide (ring < 32)
  | .losslessDecode die ring => decide (die < 16) && decide (ring < 32)
  | .codecJobEnd die ring => decide (die < 16) && decide (ring < 32)
  | .drvRingTail r tile ring _ => r.wf && decide (tile < 16) && decide (ring < 8)
  | .exchangeDispatch tile ring => decide (tile < 16) && decide (ring < 8)
  | .exchangeCombine tile ring => decide (tile < 16) && decide (ring < 8)
  | .claimArrival tile c => decide (tile < 16) && c.wf
  | .grantArrival tile ring _ _ _ _ _ => decide (tile < 16) && decide (ring < 8)
  | .segmentCloseArrival tile _ _ => decide (tile < 16)
  | .claimArmTimeout tile _ => decide (tile < 16)
  | .claimResend tile ring _ => decide (tile < 16) && decide (ring < 8)
  | .dispatchJobEnd tile ring => decide (tile < 16) && decide (ring < 8)
  | .grmRingTail r stack ring _ => r.wf && decide (stack < 32) && decide (ring < 4)
  | .momentumSgd stack ring => decide (stack < 32) && decide (ring < 4)
  | .adamw stack ring => decide (stack < 32) && decide (ring < 4)
  | .signMomentum stack ring => decide (stack < 32) && decide (ring < 4)
  | .factoredSecondMoment stack ring => decide (stack < 32) && decide (ring < 4)
  | .generalRecurrence stack ring => decide (stack < 32) && decide (ring < 4)
  | .sparseRowUpdate stack ring => decide (stack < 32) && decide (ring < 4)
  | .groomDescriptorEnd stack ring => decide (stack < 32) && decide (ring < 4)
  | .pacerQuery r group _ => r.wf && decide (group < 256)
  | .pacerCommit r group => r.wf && decide (group < 256)
  | .allReduce die => decide (die < 16)
  | .reduceScatter die => decide (die < 16)
  | .allGather die => decide (die < 16)
  | .allToAll die => decide (die < 16)
  | .collectiveSegment die node _ _ s => decide (die < 16) && decide (node < 4096) && s.wf
  | .collectiveAbort die tenant ctx _ => decide (die < 16) && decide (tenant < 32) && decide (ctx < 256)
  | .collectiveTimeout q => q.wf
  | .collectiveEnd q => q.wf
  | .fabricWrite port b => decide (port < 48) && b.wf
  | .signalledWrite port b => decide (port < 48) && b.wf
  | .fabricSignal port b => decide (port < 48) && b.wf
  | .readRequest port b _ => decide (port < 48) && b.wf
  | .readData port b => decide (port < 48) && b.wf
  | .acknowledgement port _ node _ => decide (port < 48) && decide (node < 4096)
  | .negativeAcknowledgement port _ node _ _ _ => decide (port < 48) && decide (node < 4096)
  | .purge port b => decide (port < 48) && b.wf
  | .burstResendTimeout _ node _ => decide (node < 4096)
  | .laneFailing port _ => decide (port < 48)
  | .spareLaneTrained port => decide (port < 48)
  | .fabPortRetrain r port => r.wf && decide (port < 48)
  | .fabPortTrained port nbr _ => decide (port < 48) && nbr.wf
  | .ackNbr r port => r.wf && decide (port < 48)
  | .fabPortDisable r port _ => r.wf && decide (port < 48)
  | .nodeAssign r node => r.wf && decide (node < 4096)
  | .routingEntryWrite r node _ => r.wf && decide (node < 4096)
  | .nodeLost node => decide (node < 4096)
  | .cableUnplug _ => true
  | .cablePlug _ => true
  | .recoveringReceived node => decide (node < 4096)
  | .rejoinReceived node => decide (node < 4096)
  | .peerHoldExpiry node => decide (node < 4096)
  | .chotusPortTraining port _ _ => decide (port < 2)
  | .chotusModeFix => true
  | .hostRequest port _ _ _ => decide (port < 2)
  | .snoopResponse port _ _ => decide (port < 2)
  | .snoopTimeout port => decide (port < 2)
  | .chotusLaneFail port _ => decide (port < 2)
  | .chotusPortRetrain r port => r.wf && decide (port < 2)
  | .chotusPortDisable r port _ => r.wf && decide (port < 2)
  | .heartbeatWrite r port => r.wf && decide (port < 2)
  | .hostLost port => decide (port < 2)
  | .hostHoldExpiry port => decide (port < 2)
  | .mailboxGo r k => r.wf && decide (k < 64)
  | .identify p => p.wf
  | .healthSummary p => p.wf
  | .healthFaultRecords p => p.wf
  | .telemetry p => p.wf
  | .fwStageBegin p => p.wf
  | .fwStageData p => p.wf
  | .fwStageEnd p => p.wf
  | .fwStageAbort p => p.wf
  | .fwActivateNow p => p.wf
  | .fwActivateAtReset p => p.wf
  | .activationDrainLimit => true
  | .activationRestartDone => true
  | .activationDeferExpiry => true
  | .fwStatus p => p.wf
  | .attestGenerate p => p.wf
  | .attestRead p => p.wf
  | .attestReadChain p => p.wf
  | .resetModuleWarm p => p.wf
  | .resetModuleCold p => p.wf
  | .resetDelayExpiry => true
  | .hangRead p => p.wf
  | .logRead p => p.wf
  | .netBootBroadcast => true
  | .entdaa addr => decide (addr < 128)
  | .enec _ => true
  | .disec _ => true
  | .i3cEventClear bits => decide (bits < 65536)
  | .rstCmdWarm r _ => r.wf
  | .rstCmdCold r _ => r.wf
  | .rstCmdTile r tile _ => r.wf && decide (tile < 16)
  | .rstCmdCore r core _ => r.wf && decide (core < 128)
  | .rstCmdEngine r _ _ => r.wf
  | .rstCmdFabricPort r port _ => r.wf && decide (port < 48)
  | .powerOn _ => true
  | .powerLoss => true
  | .inputVoltageFault _ _ => true
  | .modRstNAssert _ => true
  | .warmReset => true
  | .coldReset => true
  | .resetRelease => true
  | .firmwareLoaded _ => true
  | .optionLoadingEnd => true
  | .optionWatchdogExpiry => true
  | .trialConfirm => true
  | .domainResetFail _ => true
  | .refclkLoss _ => true
  | .refclkReturn => true
  | .tilePllIdleStop tile => decide (tile < 16)
  | .controlCoreWatchdog core => decide (core < 8)
  | .powerCapWindow _ _ _ _ => true
  | .standbyRequest r => r.wf
  | .m2Entry => true
  | .m2Wake => true
  | .m1Entry => true
  | .brakeAssert _ => true
  | .thermAlertAssert _ => true
  | .overcurrentDetect _ _ => true
  | .tileEmergencyTemp tile _ => decide (tile < 16)
  | .emergencyCauseEnd _ _ => true
  | .emergencyWindowClose => true
  | .thermalTrip tile _ => decide (tile < 16)
  | .coolantWarn _ _ _ => true
  | .effectiveCapEnd _ _ => true
  | .watchdogHang _ _ => true
  | .escalationTimeout _ _ => true
  | .curbHandling => true
  | .deviceRecovery _ => true
  | .recoveryEnd => true
  | .coreRemount core _ => decide (core < 128)
  | .coreIdleRemount core => decide (core < 128)
  | .secExtend r _ => r.wf
  | .svnCommit r _ => r.wf
  | .svnCommitComplete => true
  | .mgmtKeySet r => r.wf
  | .mgmtKeyClear r => r.wf
  | .frameReplay frame => decide (frame.port < 48)
  | .linkLevelReplay port _ => decide (port < 2)
  | .sectorEraseDone _ => true
  | .attestSigned p => p.wf
  | .rangeZeroFillEnd q => q.wf
  | .setdasa => true
  | .rstdaa => true
  | .getpid => true
  | .getbcr => true
  | .getdcr => true
  | .getstatus => true

end Sys2Proof
end

