-- ==== Sys2Proof/Laws/PerInstr.lean ====
section
/-! SUPPORT. Statements for all commands, one lemma per constructor of Instr. Family Issues: a well-formed command that a core issues names a core of
the widest module and an instruction of at least one byte. -/
namespace Sys2Proof.Laws.Issues
open Sys2Proof.Machine

/-- What the family says of a command. -/
def Statement (c : Instr) : Prop := ∀ x, issueOf c = some x → c.wf = true → x.wf = true

/-- A command that no core issues. -/
theorem of_none {c : Instr} (h : issueOf c = none) : Statement c := fun _ e => nomatch h.symm.trans e

/-- A command whose well-formedness holds that of its issue. -/
theorem of_some {c : Instr} {i : Issue} (h : issueOf c = some i) (w : c.wf = true → i.wf = true) : Statement c := fun x e v => by
  cases h.symm.trans e
  exact w v

/-- The first of two checks. -/
theorem fst {a b : Bool} (h : (a && b) = true) : a = true := (Bool.and_eq_true_iff.1 h).1

theorem scalarOp (i : Issue) (op : ScalarOp) (rd : Nat) (a b : Src) : Statement (.scalarOp i op rd a b) := of_some rfl fun w => fst (fst (fst w))
theorem branch (i : Issue) (c : Cond) (a b : Src) (target : Nat) : Statement (.branch i c a b target) := of_some rfl fun w => fst (fst w)
theorem loop (i : Issue) (count : Nat) (skipTo : Nat) : Statement (.loop i count skipTo) := of_some rfl fun w => fst w
theorem endloop (i : Issue) : Statement (.endloop i) := of_some rfl fun w => w
theorem call (i : Issue) (target : Nat) : Statement (.call i target) := of_some rfl fun w => w
theorem ret (i : Issue) : Statement (.ret i) := of_some rfl fun w => w
theorem drain (i : Issue) (mask : Nat) : Statement (.drain i mask) := of_some rfl fun w => w
theorem drainComplete (core : Nat) : Statement (.drainComplete core) := of_none rfl
theorem end_ (i : Issue) : Statement (.end_ i) := of_some rfl fun w => w
theorem matmul (i : Issue) (desc : Nat) : Statement (.matmul i desc) := of_some rfl fun w => w
theorem matmulComplete (core : Nat) : Statement (.matmulComplete core) := of_none rfl
theorem vectorElementwise (i : Issue) (op : VecOp) (dst a b c : Row) (count : Nat) : Statement (.vectorElementwise i op dst a b c count) :=
  of_some rfl fun w => fst (fst (fst (fst w)))
theorem vectorConvert (i : Issue) (dst src : Row) (count : Nat) : Statement (.vectorConvert i dst src count) := of_some rfl fun w => fst (fst w)
theorem vectorReduce (i : Issue) (op : RedOp) (dst src : Row) (count : Nat) : Statement (.vectorReduce i op dst src count) :=
  of_some rfl fun w => fst (fst w)
theorem topk (i : Issue) (scores : Loc) (bf16 : Bool) (spitch rows experts k : Nat) (route wgt : Loc) :
    Statement (.topk i scores bf16 spitch rows experts k route wgt) :=
  of_some rfl fun w => fst (fst (fst w))
theorem compensatedSplit (i : Issue) (src hi lo : Loc) (count : Nat) : Statement (.compensatedSplit i src hi lo count) :=
  of_some rfl fun w => fst (fst (fst w))
theorem compensatedCombine (i : Issue) (main comp dst : Loc) (count : Nat) : Statement (.compensatedCombine i main comp dst count) :=
  of_some rfl fun w => fst (fst (fst w))
theorem gather (i : Issue) (dst src idx : Loc) (esize count : Nat) : Statement (.gather i dst src idx esize count) :=
  of_some rfl fun w => fst (fst (fst w))
theorem scatter (i : Issue) (dst src idx : Loc) (esize count : Nat) : Statement (.scatter i dst src idx esize count) :=
  of_some rfl fun w => fst (fst (fst w))
theorem globalLoad (i : Issue) (src : Loc) (bytes : Nat) (dst : Loc) : Statement (.globalLoad i src bytes dst) := of_some rfl fun w => fst (fst w)
theorem globalLoadReturn (core idx : Nat) : Statement (.globalLoadReturn core idx) := of_none rfl
theorem coherentPointLoad (i : Issue) (src : Loc) (bytes : Nat) (dst : Loc) : Statement (.coherentPointLoad i src bytes dst) :=
  of_some rfl fun w => fst (fst w)
theorem globalStore (i : Issue) (dst : Loc) (bytes : Nat) (src : Loc) : Statement (.globalStore i dst bytes src) :=
  of_some rfl fun w => fst (fst w)
theorem storeReachesHome (core idx : Nat) : Statement (.storeReachesHome core idx) := of_none rfl
theorem signalledStore (i : Issue) (dst : Nat) (bytes : Nat) (src : Loc) (hitch inc : Nat) :
    Statement (.signalledStore i dst bytes src hitch inc) :=
  of_some rfl fun w => fst w
theorem attentionPass (i : Issue) (desc : Nat) : Statement (.attentionPass i desc) := of_some rfl fun w => w
theorem exp (i : Issue) (dst src : Nat) (bf16 : Bool) (count : Nat) : Statement (.exp i dst src bf16 count) := of_some rfl fun w => w
theorem rsqrt (i : Issue) (dst src : Nat) (bf16 : Bool) (count : Nat) : Statement (.rsqrt i dst src bf16 count) := of_some rfl fun w => w
theorem recip (i : Issue) (dst src : Nat) (bf16 : Bool) (count : Nat) : Statement (.recip i dst src bf16 count) := of_some rfl fun w => w
theorem copySubmit (i : Issue) (channel desc : Nat) : Statement (.copySubmit i channel desc) := of_some rfl fun w => w
theorem dmaSliceTimeout (tile engine granules : Nat) : Statement (.dmaSliceTimeout tile engine granules) := of_none rfl
theorem copyDescriptorComplete (tile channel : Nat) : Statement (.copyDescriptorComplete tile channel) := of_none rfl
theorem hsignal (i : Issue) (hitch : Nat) (v : Src) : Statement (.hsignal i hitch v) := of_some rfl fun w => fst w
theorem hwait (i : Issue) (hitch : Nat) (target : Src) : Statement (.hwait i hitch target) := of_some rfl fun w => fst w
theorem hwaitSatisfied (core : Nat) : Statement (.hwaitSatisfied core) := of_none rfl
theorem hitchTimeout (core : Nat) : Statement (.hitchTimeout core) := of_none rfl
theorem hpoll (i : Issue) (hitch rd : Nat) : Statement (.hpoll i hitch rd) := of_some rfl fun w => fst w
theorem hreset (i : Issue) (hitch : Nat) (v : Src) : Statement (.hreset i hitch v) := of_some rfl fun w => fst w
theorem acquire (i : Issue) : Statement (.acquire i) := of_some rfl fun w => w
theorem release (i : Issue) : Statement (.release i) := of_some rfl fun w => w
theorem fence (i : Issue) : Statement (.fence i) := of_some rfl fun w => w
theorem orderHoldEnd (core : Nat) : Statement (.orderHoldEnd core) := of_none rfl
theorem coreSeqStop (r : Requester) (core : Nat) : Statement (.coreSeqStop r core) := of_none rfl
theorem coreArrClr (r : Requester) (core : Nat) : Statement (.coreArrClr r core) := of_none rfl
theorem lcInvalidate (r : Requester) (tile : Nat) : Statement (.lcInvalidate r tile) := of_none rfl
theorem lcCounterClr (r : Requester) (tile : Nat) : Statement (.lcCounterClr r tile) := of_none rfl
theorem attClr (r : Requester) (core : Nat) : Statement (.attClr r core) := of_none rfl
theorem drvClr (r : Requester) (tile ring : Nat) : Statement (.drvClr r tile ring) := of_none rfl
theorem grmClr (r : Requester) (stack : Nat) : Statement (.grmClr r stack) := of_none rfl
theorem sadClr (r : Requester) : Statement (.sadClr r) := of_none rfl
theorem registerWrite (r : Requester) (addr : Nat) (half : Bool) (value : Word) : Statement (.registerWrite r addr half value) := of_none rfl
theorem doorbellSqTail (r : Requester) (q : QueueId) (index : Nat) : Statement (.doorbellSqTail r q index) := of_none rfl
theorem doorbellCqHead (r : Requester) (q : QueueId) (index : Nat) : Statement (.doorbellCqHead r q index) := of_none rfl
theorem sysAdminEnable (r : Requester) (log2Cq log2Sq : Nat) : Statement (.sysAdminEnable r log2Cq log2Sq) := of_none rfl
theorem packetFetch (q : QueueId) : Statement (.packetFetch q) := of_none rfl
theorem pacedAdmission (q : QueueId) : Statement (.pacedAdmission q) := of_none rfl
theorem dispatch : Statement .dispatch := of_none rfl
theorem agingPromotion (q : QueueId) : Statement (.agingPromotion q) := of_none rfl
theorem pacedLeadStart (q : QueueId) : Statement (.pacedLeadStart q) := of_none rfl
theorem pulledUpResume (core : Nat) : Statement (.pulledUpResume core) := of_none rfl
theorem pacedOverrunStop (q : QueueId) : Statement (.pacedOverrunStop q) := of_none rfl
theorem suspensionEnd : Statement .suspensionEnd := of_none rfl
theorem nop (q : QueueId) : Statement (.nop q) := of_none rfl
theorem tenantCreate (q : QueueId) : Statement (.tenantCreate q) := of_none rfl
theorem tenantDestroy (q : QueueId) : Statement (.tenantDestroy q) := of_none rfl
theorem tenantKeyLoad (q : QueueId) : Statement (.tenantKeyLoad q) := of_none rfl
theorem rangeSet (q : QueueId) : Statement (.rangeSet q) := of_none rfl
theorem rangeClear (q : QueueId) : Statement (.rangeClear q) := of_none rfl
theorem mailboxAssign (q : QueueId) : Statement (.mailboxAssign q) := of_none rfl
theorem contextCreate (q : QueueId) : Statement (.contextCreate q) := of_none rfl
theorem contextDestroy (q : QueueId) : Statement (.contextDestroy q) := of_none rfl
theorem contextReset (q : QueueId) : Statement (.contextReset q) := of_none rfl
theorem queueCreate (q : QueueId) : Statement (.queueCreate q) := of_none rfl
theorem queueDestroy (q : QueueId) : Statement (.queueDestroy q) := of_none rfl
theorem resourceAssign (q : QueueId) : Statement (.resourceAssign q) := of_none rfl
theorem resourceRelease (q : QueueId) : Statement (.resourceRelease q) := of_none rfl
theorem programLoad (q : QueueId) : Statement (.programLoad q) := of_none rfl
theorem programUnload (q : QueueId) : Statement (.programUnload q) := of_none rfl
theorem taskRun (q : QueueId) : Statement (.taskRun q) := of_none rfl
theorem hitchSignal (q : QueueId) : Statement (.hitchSignal q) := of_none rfl
theorem copy (q : QueueId) (tile : Nat) : Statement (.copy q tile) := of_none rfl
theorem saddleLoad (q : QueueId) : Statement (.saddleLoad q) := of_none rfl
theorem saddleUpdate (q : QueueId) : Statement (.saddleUpdate q) := of_none rfl
theorem saddleUnload (q : QueueId) : Statement (.saddleUnload q) := of_none rfl
theorem groomUpdate (q : QueueId) : Statement (.groomUpdate q) := of_none rfl
theorem collective (q : QueueId) : Statement (.collective q) := of_none rfl
theorem teardownDrainEnd (tenant ctx : Nat) : Statement (.teardownDrainEnd tenant ctx) := of_none rfl
theorem teardownDrainTimeout (tenant ctx : Nat) : Statement (.teardownDrainTimeout tenant ctx) := of_none rfl
theorem purgeEnd (tenant ctx : Nat) : Statement (.purgeEnd tenant ctx) := of_none rfl
theorem scrubEnd (idx : Nat) : Statement (.scrubEnd idx) := of_none rfl
theorem deferredPerform (q : QueueId) : Statement (.deferredPerform q) := of_none rfl
theorem pagingSegmentComplete (engine : Nat) : Statement (.pagingSegmentComplete engine) := of_none rfl
theorem pageInComplete (obj : Nat) : Statement (.pageInComplete obj) := of_none rfl
theorem pageOut (obj : Nat) : Statement (.pageOut obj) := of_none rfl
theorem patrolScrub (stack : Nat) : Statement (.patrolScrub stack) := of_none rfl
theorem ddrChannelFailure (channel : Nat) : Statement (.ddrChannelFailure channel) := of_none rfl
theorem cmpRingTail (r : Requester) (die ring tail : Nat) : Statement (.cmpRingTail r die ring tail) := of_none rfl
theorem lossyEncode (die ring : Nat) : Statement (.lossyEncode die ring) := of_none rfl
theorem lossyDecode (die ring : Nat) : Statement (.lossyDecode die ring) := of_none rfl
theorem losslessEncode (die ring : Nat) : Statement (.losslessEncode die ring) := of_none rfl
theorem losslessDecode (die ring : Nat) : Statement (.losslessDecode die ring) := of_none rfl
theorem codecJobEnd (die ring : Nat) : Statement (.codecJobEnd die ring) := of_none rfl
theorem drvRingTail (r : Requester) (tile ring tail : Nat) : Statement (.drvRingTail r tile ring tail) := of_none rfl
theorem exchangeDispatch (tile ring : Nat) : Statement (.exchangeDispatch tile ring) := of_none rfl
theorem exchangeCombine (tile ring : Nat) : Statement (.exchangeCombine tile ring) := of_none rfl
theorem claimArrival (tile : Nat) (c : Claim) : Statement (.claimArrival tile c) := of_none rfl
theorem grantArrival (tile ring expert : Nat) (answer : ClaimAnswer) (grant base rowsOff : Nat) :
    Statement (.grantArrival tile ring expert answer grant base rowsOff) :=
  of_none rfl
theorem segmentCloseArrival (tile : Nat) (qaddr exch : Nat) : Statement (.segmentCloseArrival tile qaddr exch) := of_none rfl
theorem claimArmTimeout (tile idx : Nat) : Statement (.claimArmTimeout tile idx) := of_none rfl
theorem claimResend (tile ring expert : Nat) : Statement (.claimResend tile ring expert) := of_none rfl
theorem dispatchJobEnd (tile ring : Nat) : Statement (.dispatchJobEnd tile ring) := of_none rfl
theorem grmRingTail (r : Requester) (stack ring tail : Nat) : Statement (.grmRingTail r stack ring tail) := of_none rfl
theorem momentumSgd (stack ring : Nat) : Statement (.momentumSgd stack ring) := of_none rfl
theorem adamw (stack ring : Nat) : Statement (.adamw stack ring) := of_none rfl
theorem signMomentum (stack ring : Nat) : Statement (.signMomentum stack ring) := of_none rfl
theorem factoredSecondMoment (stack ring : Nat) : Statement (.factoredSecondMoment stack ring) := of_none rfl
theorem generalRecurrence (stack ring : Nat) : Statement (.generalRecurrence stack ring) := of_none rfl
theorem sparseRowUpdate (stack ring : Nat) : Statement (.sparseRowUpdate stack ring) := of_none rfl
theorem groomDescriptorEnd (stack ring : Nat) : Statement (.groomDescriptorEnd stack ring) := of_none rfl
theorem pacerQuery (r : Requester) (group step : Nat) : Statement (.pacerQuery r group step) := of_none rfl
theorem pacerCommit (r : Requester) (group : Nat) : Statement (.pacerCommit r group) := of_none rfl
theorem allReduce (die : Nat) : Statement (.allReduce die) := of_none rfl
theorem reduceScatter (die : Nat) : Statement (.reduceScatter die) := of_none rfl
theorem allGather (die : Nat) : Statement (.allGather die) := of_none rfl
theorem allToAll (die : Nat) : Statement (.allToAll die) := of_none rfl
theorem collectiveSegment (die node master seq : Nat) (s : CollSeg) : Statement (.collectiveSegment die node master seq s) := of_none rfl
theorem collectiveAbort (die tenant ctx collId : Nat) : Statement (.collectiveAbort die tenant ctx collId) := of_none rfl
theorem collectiveTimeout (q : QueueId) : Statement (.collectiveTimeout q) := of_none rfl
theorem collectiveEnd (q : QueueId) : Statement (.collectiveEnd q) := of_none rfl
theorem fabricWrite (port : Nat) (b : Burst) : Statement (.fabricWrite port b) := of_none rfl
theorem signalledWrite (port : Nat) (b : Burst) : Statement (.signalledWrite port b) := of_none rfl
theorem fabricSignal (port : Nat) (b : Burst) : Statement (.fabricSignal port b) := of_none rfl
theorem readRequest (port : Nat) (b : Burst) (granules : Nat) : Statement (.readRequest port b granules) := of_none rfl
theorem readData (port : Nat) (b : Burst) : Statement (.readData port b) := of_none rfl
theorem acknowledgement (port master node seq : Nat) : Statement (.acknowledgement port master node seq) := of_none rfl
theorem negativeAcknowledgement (port master node : Nat) (read : Bool) (id kind : Nat) :
    Statement (.negativeAcknowledgement port master node read id kind) :=
  of_none rfl
theorem purge (port : Nat) (b : Burst) : Statement (.purge port b) := of_none rfl
theorem burstResendTimeout (master node seq : Nat) : Statement (.burstResendTimeout master node seq) := of_none rfl
theorem laneFailing (port : Nat) (report : LaneReport) : Statement (.laneFailing port report) := of_none rfl
theorem spareLaneTrained (port : Nat) : Statement (.spareLaneTrained port) := of_none rfl
theorem fabPortRetrain (r : Requester) (port : Nat) : Statement (.fabPortRetrain r port) := of_none rfl
theorem fabPortTrained (port : Nat) (nbr : Neighbour) (failed : Nat) : Statement (.fabPortTrained port nbr failed) := of_none rfl
theorem ackNbr (r : Requester) (port : Nat) : Statement (.ackNbr r port) := of_none rfl
theorem fabPortDisable (r : Requester) (port : Nat) (disable : Bool) : Statement (.fabPortDisable r port disable) := of_none rfl
theorem nodeAssign (r : Requester) (node : Nat) : Statement (.nodeAssign r node) := of_none rfl
theorem routingEntryWrite (r : Requester) (node : Nat) (entry : Word) : Statement (.routingEntryWrite r node entry) := of_none rfl
theorem nodeLost (node : Nat) : Statement (.nodeLost node) := of_none rfl
theorem cableUnplug (connector : Nat) : Statement (.cableUnplug connector) := of_none rfl
theorem cablePlug (connector : Nat) : Statement (.cablePlug connector) := of_none rfl
theorem recoveringReceived (node : Nat) : Statement (.recoveringReceived node) := of_none rfl
theorem rejoinReceived (node : Nat) : Statement (.rejoinReceived node) := of_none rfl
theorem peerHoldExpiry (node : Nat) : Statement (.peerHoldExpiry node) := of_none rfl
theorem chotusPortTraining (port hostId lanes : Nat) : Statement (.chotusPortTraining port hostId lanes) := of_none rfl
theorem chotusModeFix : Statement .chotusModeFix := of_none rfl
theorem hostRequest (port tag addr : Nat) (op : HostOp) : Statement (.hostRequest port tag addr op) := of_none rfl
theorem snoopResponse (port addr : Nat) (dirty : Option (List Byte)) : Statement (.snoopResponse port addr dirty) := of_none rfl
theorem snoopTimeout (port : Nat) : Statement (.snoopTimeout port) := of_none rfl
theorem chotusLaneFail (port lanes : Nat) : Statement (.chotusLaneFail port lanes) := of_none rfl
theorem chotusPortRetrain (r : Requester) (port : Nat) : Statement (.chotusPortRetrain r port) := of_none rfl
theorem chotusPortDisable (r : Requester) (port : Nat) (disable : Bool) : Statement (.chotusPortDisable r port disable) := of_none rfl
theorem heartbeatWrite (r : Requester) (port : Nat) : Statement (.heartbeatWrite r port) := of_none rfl
theorem hostLost (port : Nat) : Statement (.hostLost port) := of_none rfl
theorem hostHoldExpiry (port : Nat) : Statement (.hostHoldExpiry port) := of_none rfl
theorem mailboxGo (r : Requester) (k : Nat) : Statement (.mailboxGo r k) := of_none rfl
theorem identify (p : Port) : Statement (.identify p) := of_none rfl
theorem healthSummary (p : Port) : Statement (.healthSummary p) := of_none rfl
theorem healthFaultRecords (p : Port) : Statement (.healthFaultRecords p) := of_none rfl
theorem telemetry (p : Port) : Statement (.telemetry p) := of_none rfl
theorem fwStageBegin (p : Port) : Statement (.fwStageBegin p) := of_none rfl
theorem fwStageData (p : Port) : Statement (.fwStageData p) := of_none rfl
theorem fwStageEnd (p : Port) : Statement (.fwStageEnd p) := of_none rfl
theorem fwStageAbort (p : Port) : Statement (.fwStageAbort p) := of_none rfl
theorem fwActivateNow (p : Port) : Statement (.fwActivateNow p) := of_none rfl
theorem fwActivateAtReset (p : Port) : Statement (.fwActivateAtReset p) := of_none rfl
theorem activationDrainLimit : Statement .activationDrainLimit := of_none rfl
theorem activationRestartDone : Statement .activationRestartDone := of_none rfl
theorem activationDeferExpiry : Statement .activationDeferExpiry := of_none rfl
theorem fwStatus (p : Port) : Statement (.fwStatus p) := of_none rfl
theorem attestGenerate (p : Port) : Statement (.attestGenerate p) := of_none rfl
theorem attestRead (p : Port) : Statement (.attestRead p) := of_none rfl
theorem attestReadChain (p : Port) : Statement (.attestReadChain p) := of_none rfl
theorem resetModuleWarm (p : Port) : Statement (.resetModuleWarm p) := of_none rfl
theorem resetModuleCold (p : Port) : Statement (.resetModuleCold p) := of_none rfl
theorem resetDelayExpiry : Statement .resetDelayExpiry := of_none rfl
theorem hangRead (p : Port) : Statement (.hangRead p) := of_none rfl
theorem logRead (p : Port) : Statement (.logRead p) := of_none rfl
theorem netBootBroadcast : Statement .netBootBroadcast := of_none rfl
theorem entdaa (addr : Nat) : Statement (.entdaa addr) := of_none rfl
theorem enec (mask : Byte) : Statement (.enec mask) := of_none rfl
theorem disec (mask : Byte) : Statement (.disec mask) := of_none rfl
theorem i3cEventClear (bits : Nat) : Statement (.i3cEventClear bits) := of_none rfl
theorem rstCmdWarm (r : Requester) (confirm : Nat) : Statement (.rstCmdWarm r confirm) := of_none rfl
theorem rstCmdCold (r : Requester) (confirm : Nat) : Statement (.rstCmdCold r confirm) := of_none rfl
theorem rstCmdTile (r : Requester) (tile confirm : Nat) : Statement (.rstCmdTile r tile confirm) := of_none rfl
theorem rstCmdCore (r : Requester) (core confirm : Nat) : Statement (.rstCmdCore r core confirm) := of_none rfl
theorem rstCmdEngine (r : Requester) (engine confirm : Nat) : Statement (.rstCmdEngine r engine confirm) := of_none rfl
theorem rstCmdFabricPort (r : Requester) (port confirm : Nat) : Statement (.rstCmdFabricPort r port confirm) := of_none rfl
theorem powerOn (straps : Nat) : Statement (.powerOn straps) := of_none rfl
theorem powerLoss : Statement .powerLoss := of_none rfl
theorem inputVoltageFault (mv ticks : Nat) : Statement (.inputVoltageFault mv ticks) := of_none rfl
theorem modRstNAssert (samples : Nat) : Statement (.modRstNAssert samples) := of_none rfl
theorem warmReset : Statement .warmReset := of_none rfl
theorem coldReset : Statement .coldReset := of_none rfl
theorem resetRelease : Statement .resetRelease := of_none rfl
theorem firmwareLoaded (slot : Nat) : Statement (.firmwareLoaded slot) := of_none rfl
theorem optionLoadingEnd : Statement .optionLoadingEnd := of_none rfl
theorem optionWatchdogExpiry : Statement .optionWatchdogExpiry := of_none rfl
theorem trialConfirm : Statement .trialConfirm := of_none rfl
theorem domainResetFail (domain : Nat) : Statement (.domainResetFail domain) := of_none rfl
theorem refclkLoss (ticks : Nat) : Statement (.refclkLoss ticks) := of_none rfl
theorem refclkReturn : Statement .refclkReturn := of_none rfl
theorem tilePllIdleStop (tile : Nat) : Statement (.tilePllIdleStop tile) := of_none rfl
theorem controlCoreWatchdog (core : Nat) : Statement (.controlCoreWatchdog core) := of_none rfl
theorem powerCapWindow (mw mv ca : Nat) (temps : List Nat) : Statement (.powerCapWindow mw mv ca temps) := of_none rfl
theorem standbyRequest (r : Requester) : Statement (.standbyRequest r) := of_none rfl
theorem m2Entry : Statement .m2Entry := of_none rfl
theorem m2Wake : Statement .m2Wake := of_none rfl
theorem m1Entry : Statement .m1Entry := of_none rfl
theorem brakeAssert (ticks : Nat) : Statement (.brakeAssert ticks) := of_none rfl
theorem thermAlertAssert (ticks : Nat) : Statement (.thermAlertAssert ticks) := of_none rfl
theorem overcurrentDetect (ca ticks : Nat) : Statement (.overcurrentDetect ca ticks) := of_none rfl
theorem tileEmergencyTemp (tile temp : Nat) : Statement (.tileEmergencyTemp tile temp) := of_none rfl
theorem emergencyCauseEnd (cause ticks : Nat) : Statement (.emergencyCauseEnd cause ticks) := of_none rfl
theorem emergencyWindowClose : Statement .emergencyWindowClose := of_none rfl
theorem thermalTrip (tile temp : Nat) : Statement (.thermalTrip tile temp) := of_none rfl
theorem coolantWarn (inlet outlet secondsHot : Nat) : Statement (.coolantWarn inlet outlet secondsHot) := of_none rfl
theorem effectiveCapEnd (mv ticks : Nat) : Statement (.effectiveCapEnd mv ticks) := of_none rfl
theorem watchdogHang (cls idx : Nat) : Statement (.watchdogHang cls idx) := of_none rfl
theorem escalationTimeout (level idx : Nat) : Statement (.escalationTimeout level idx) := of_none rfl
theorem curbHandling : Statement .curbHandling := of_none rfl
theorem deviceRecovery (trigger : Nat) : Statement (.deviceRecovery trigger) := of_none rfl
theorem recoveryEnd : Statement .recoveryEnd := of_none rfl
theorem coreRemount (core reason : Nat) : Statement (.coreRemount core reason) := of_none rfl
theorem coreIdleRemount (core : Nat) : Statement (.coreIdleRemount core) := of_none rfl
theorem secExtend (r : Requester) (reg : Nat) : Statement (.secExtend r reg) := of_none rfl
theorem svnCommit (r : Requester) (confirm : Nat) : Statement (.svnCommit r confirm) := of_none rfl
theorem svnCommitComplete : Statement .svnCommitComplete := of_none rfl
theorem mgmtKeySet (r : Requester) : Statement (.mgmtKeySet r) := of_none rfl
theorem mgmtKeyClear (r : Requester) : Statement (.mgmtKeyClear r) := of_none rfl
theorem frameReplay (frame : LostFrame) : Statement (.frameReplay frame) := of_none rfl
theorem linkLevelReplay (port : Nat) (failures : Nat) : Statement (.linkLevelReplay port failures) := of_none rfl
theorem sectorEraseDone (sectors : Nat) : Statement (.sectorEraseDone sectors) := of_none rfl
theorem attestSigned (p : Port) : Statement (.attestSigned p) := of_none rfl
theorem rangeZeroFillEnd (q : QueueId) : Statement (.rangeZeroFillEnd q) := of_none rfl
theorem setdasa : Statement .setdasa := of_none rfl
theorem rstdaa : Statement .rstdaa := of_none rfl
theorem getpid : Statement .getpid := of_none rfl
theorem getbcr : Statement .getbcr := of_none rfl
theorem getdcr : Statement .getdcr := of_none rfl
theorem getstatus : Statement .getstatus := of_none rfl

end Sys2Proof.Laws.Issues
end

