-- ==== Sys2Proof/Laws/Stops.lean ====
section
/-! SUPPORT. A core's state: what a stop of a running core does (R98), what it leaves alone, and what an issued instruction needs of it. -/
namespace Sys2Proof.Machine

/-- A core that issues is running. -/
theorem Block.coreSt_of_issuing {m : Block} {n : Nat} (h : m.issuing n = true) : m.coreSt n = 1 := by
  simp only [Block.issuing, Bool.and_eq_true, beq_iff_eq] at h
  exact h.1.1

/-- And so is one that fetches an instruction. -/
theorem Block.coreSt_of_fetch {m f : Block} {i : Issue} (h : m.fetch i = some f) : m.coreSt i.core = 1 :=
  Block.coreSt_of_issuing (Block.issuing_of_fetch h)

/-- An issue leaves every core's state, cause and event field alone. -/
@[simp] theorem Block.fld_status_advance (m : Block) (i : Issue) (n hi lo : Nat) :
    (m.advance i).fld (Reg.coreSeqStatus n) hi lo = m.fld (Reg.coreSeqStatus n) hi lo := by
  have h : Reg.coreSeqStatus n ∉ issueRegs i.core := by
    simp [issueRegs, Reg.coreSeqStatus, Reg.coreSeqPc, Reg.coreSeqProgress]
    omega
  simp [Block.fld, m.reg_advance i _ h]

/-- And so its state. -/
@[simp] theorem Block.coreSt_advance (m : Block) (i : Issue) (n : Nat) : (m.advance i).coreSt n = m.coreSt n := Block.fld_status_advance m i n _ _

/-- A running core that stops is STOPPED with the cause given (R98). -/
theorem Block.stopCore_state (m : Block) (n : Nat) (cause : Nat) (hc : cause < 256) (h : m.coreSt n = 1) :
    (m.stopCore n cause).coreSt n = 4 ∧ (m.stopCore n cause).fld (Reg.coreSeqStatus n) 63 56 = cause := by
  have hne : Reg.coreSeqStatus n ≠ Reg.coreHitchWait n := by simp [Reg.coreSeqStatus, Reg.coreHitchWait]
  rw [Block.stopCore_of_running _ _ _ (.inl h)]
  constructor
  · simp only [Block.coreSt, Block.fld_eq, Block.reg_modCore, Block.reg_setFld_ne _ _ _ _ _ _ hne, Block.setCoreSt, Block.reg_setFld_self]
    rw [field_putField_apart _ _ _ _ _ _ (by omega) (by omega), field_putField_self _ _ _ _ (by omega)]
    rfl
  · simp only [Block.fld_eq, Block.reg_modCore, Block.reg_setFld_ne _ _ _ _ _ _ hne, Block.setCoreSt, Block.reg_setFld_self]
    rw [field_putField_self _ _ _ _ (by omega)]
    omega

/-- A stop leaves the state of every other core alone. -/
theorem Block.fld_stopCore_other (m : Block) (n k : Nat) (cause hi lo : Nat) (h : m.coreSt n = 1) (hk : k ≠ n) :
    (m.stopCore n cause).fld (Reg.coreSeqStatus k) hi lo = m.fld (Reg.coreSeqStatus k) hi lo := by
  have hne : Reg.coreSeqStatus k ≠ Reg.coreHitchWait n := by simp [Reg.coreSeqStatus, Reg.coreHitchWait]; omega
  have hne' : Reg.coreSeqStatus k ≠ Reg.coreSeqStatus n := by simp [Reg.coreSeqStatus]; omega
  rw [Block.stopCore_of_running _ _ _ (.inl h)]
  simp only [Block.fld_eq, Block.reg_modCore, Block.reg_setFld_ne _ _ _ _ _ _ hne, Block.setCoreSt, Block.reg_setFld_ne _ _ _ _ _ _ hne']

/-- A stop ends what held the core and changes nothing else in it. -/
theorem Block.cores_stopCore (m : Block) (n cause : Nat) (h : m.coreSt n = 1) :
    (m.stopCore n cause).cores = Tbl.put m.cores n { m.core n with hold := .none } := by
  rw [Block.stopCore_of_running _ _ _ (.inl h)]; rfl

/-- A stop of one core keeps the others of its task in the list of the task's cores. -/
theorem Block.mem_taskCores_stopCore (m : Block) (n cause k : Nat) (q : QueueId) (h : m.coreSt n = 1) (hne : k ≠ n) :
    k ∈ (m.stopCore n cause).taskCores q ↔ k ∈ m.taskCores q := by
  simp only [Block.taskCores, Block.cores_stopCore _ _ _ h, List.mem_map, List.mem_filter]
  constructor
  · rintro ⟨e, ⟨h1, h2⟩, rfl⟩
    rcases Tbl.mem_put h1 with h3 | h3
    · subst h3; exact absurd rfl hne
    · exact ⟨e, ⟨h3, h2⟩, rfl⟩
  · rintro ⟨e, ⟨h1, h2⟩, rfl⟩
    exact ⟨e, ⟨Tbl.mem_put_of_ne _ h1 hne, h2⟩, rfl⟩

end Sys2Proof.Machine
end

