-- ==== Sys2Proof/Laws/Units.lean ====
section
/-! SUPPORT. The queues of a core's units (R80 to R82): an instruction that a unit takes as it is issued, and a core whose units have nothing
to go on with. -/
namespace Sys2Proof.Machine

/-- A fetch changes nothing of a core but its notes of memory errors. -/
theorem Block.core_fetch {m f : Block} {i : Issue} (h : m.fetch i = some f) (n : Nat) : (f.core n).work = (m.core n).work := by
  simp only [Block.fetch] at h
  split at h
  · split at h
    · cases h
    · split at h
      · cases h
      · cases h
        exact (m.quiet_correct _ _).1.1 n
  · cases h

/-- An instruction that the vector unit takes as it is issued: its work is done, and then the core's units go on. -/
theorem issueVec_of_fetchVec {m m1 m2 : Block} {i : Issue} {st : Nat} {v : Instr} (h : m.fetchVec i = some (st, m1))
    (hp : vecPerform i.core st v m1 = some m2) : issueVec i v m = m2.settleCore i.core := by
  simp only [Block.fetchVec] at h
  split at h
  · rename_i he
    rw [List.isEmpty_iff] at he
    obtain ⟨f, hf, hs⟩ := Option.map_eq_some_iff.mp h
    have hq : (f.core i.core).vecQ = [] := (congrArg CoreState.vecQ (Block.core_fetch hf i.core)).trans he
    have h16 : ¬ (m.core i.core).vecQ.length ≥ 16 := by simp [he]
    rw [issueVec, if_neg h16, Block.issue_of_fetch hf]
    simp only [Block.core_advance, hq, List.isEmpty_nil, if_true, hs, hp]
  · cases h

/-- The same for the special-function unit. -/
theorem issueSfu_of_fetchSfu {m m1 : Block} {i : Issue} {v : Instr} (h : m.fetchSfu i = some m1) :
    issueSfu i v m = (sfuPerform i.core v m1).settleCore i.core := by
  simp only [Block.fetchSfu] at h
  split at h
  · rename_i he
    rw [List.isEmpty_iff] at he
    obtain ⟨f, hf, rfl⟩ := Option.map_eq_some_iff.mp h
    have hq : (f.core i.core).sfuQ = [] := (congrArg CoreState.sfuQ (Block.core_fetch hf i.core)).trans he
    have h16 : ¬ (m.core i.core).sfuQ.length ≥ 16 := by simp [he]
    rw [issueSfu, if_neg h16, Block.issue_of_fetch hf]
    simp [hq]
  · cases h

/-- A core whose units have no work and that has no signal to send goes on with nothing. -/
theorem Block.settleCore_of_idle (m : Block) (n : Nat) (hv : (m.core n).vecQ = []) (hs : (m.core n).sfuQ = []) (hg : (m.core n).signals = []) :
    m.settleCore n = m := by
  simp [Block.settleCore, Block.settleVec, Block.settleSfu, Block.flushSignals, hv, hs, hg]

end Sys2Proof.Machine
end

