-- ==== Sys2Proof/Tests/Slice0.lean ====
section
/-! SUPPORT. Tests. An ill-formed command for each check of WellFormed, a few results worked out by hand from the spec, and, for each statement of
Certificates/Slice0/Obligations.lean, a theorem named witness_<statement> with concrete states and operands that meet the hypotheses of its
clauses. -/
namespace Sys2Proof.Tests
set_option Elab.async false
open Sys2Proof.Machine

/- Small states -/

/-- A powered module in M0 whose firmware runs. -/
def up : Block := { pwr := { powered := true, pstate := 0 }, fw := { fwUp := true } }

/-- Core 0 runs a task of tenant 1, context 1: a window of 64 KiB at the start of core memory, its CODE section the first 4 KiB. -/
def run0 : Block :=
  { up with
    regs := [(Reg.coreSeqStatus 0, 0x100000000), (Reg.coreTaskId 0, 0x8000000000000101), (Reg.coreCmBound 0, 0x10000), (Reg.coreHitchCfg 0, 0x400000000)]
    cores := [(0, { codeSize := 0x1000 })] }

/-- An instruction of core 0, 8 bytes long. -/
def i0 : Issue := ⟨0, 8⟩

/-- The state of a block. -/
def st (m : Block) : State := { m := m }

/-- The block once core 0 has fetched an instruction, and once the vector unit has taken it. -/
def fetched (m : Block) : Block := (m.fetch i0).getD m
def taken (m : Block) : Block := ((m.fetchVec i0).map (·.2)).getD m

theorem test_core_issues : run0.canIssue i0 = true ∧ (run0.fetchVec i0).isSome = true ∧ (run0.fetchSfu i0).isSome = true := by decide


/- Well-formedness: for each check of Instr.wf a command that fails this check alone, each refused; the same commands with the operand in range
are accepted. -/

def l0 : Loc := ⟨.core, 0⟩
def lX : Loc := ⟨.glob, 2 ^ 64⟩
def r0 : Row := ⟨l0, .fp32, .none, l0, 0⟩
def rX : Row := ⟨l0, .fp32, .none, lX, 0⟩
def q0 : QueueId := ⟨31, 255, 15⟩
def qX : QueueId := ⟨0, 0, 16⟩
def iX : Issue := ⟨0, 0⟩
def b0 : Burst := ⟨0, 0, 4095, 31, 255, 0, 0, 0, 0, [], [], false, 0, 0, false⟩
def bX : Burst := ⟨0, 0, 4096, 31, 255, 0, 0, 0, 0, [], [], false, 0, 0, false⟩
def c0 : Claim := ⟨0, 4095, 31, 255, 0, 0, 0, 0, 0⟩
def cX : Claim := ⟨0, 4095, 31, 256, 0, 0, 0, 0, 0⟩
def s0 : CollSeg := ⟨31, 255, 0, 0, 0, 0, 0, 0, false, 0, 0, 0, 0, [], []⟩
def sX : CollSeg := ⟨32, 255, 0, 0, 0, 0, 0, 0, false, 0, 0, 0, 0, [], []⟩
def n0 : Neighbour := ⟨4095, 63, 15, 0⟩
def nX : Neighbour := ⟨4095, 64, 15, 0⟩

theorem test_operand_types_refuse :
    ([Requester.host 2 0, .host 0 32, .core 128].all (fun r => !r.wf)
      && [Issue.mk 128 8, ⟨0, 0⟩].all (fun i => !i.wf)
      && [QueueId.mk 32 0 0, ⟨0, 256, 0⟩, ⟨0, 0, 16⟩].all (fun q => !q.wf)
      && !(Src.reg 32).wf && !lX.wf && [Row.mk lX .fp32 .none l0 0, rX].all (fun r => !r.wf)
      && [Port.mailbox 64, .net (2 ^ 32) [], .i3c (List.replicate 4097 0)].all (fun p => !p.wf)
      && [{ b0 with srcNode := 4096 }, { b0 with dstNode := 4096 }, { b0 with tenant := 32 }, { b0 with ctx := 256 }, { b0 with seq := 2 ^ 32 }].all
          (fun b => !b.wf)
      && [{ c0 with node := 4096 }, { c0 with tenant := 32 }, { c0 with ctx := 256 }].all (fun c => !c.wf)
      && [{ s0 with tenant := 32 }, { s0 with ctx := 256 }].all (fun s => !s.wf)
      && [{ n0 with node := 4096 }, { n0 with port := 64 }, { n0 with bpos := 16 }, { n0 with serial := 2 ^ 32 }].all (fun n => !n.wf)) = true := by
  decide +kernel

theorem test_ill_formed_1 : ([
    .scalarOp iX .add 0 (.imm 0) (.imm 0), .scalarOp i0 .add 32 (.imm 0) (.imm 0), .scalarOp i0 .add 0 (.reg 32) (.imm 0),
    .scalarOp i0 .add 0 (.imm 0) (.reg 32), .branch iX .always (.imm 0) (.imm 0) 0, .branch i0 .always (.reg 32) (.imm 0) 0,
    .branch i0 .always (.imm 0) (.reg 32) 0, .loop iX 0 0, .loop i0 32 0, .endloop iX, .call iX 0, .ret iX, .drain iX 0, .drainComplete 128,
    .end_ iX, .matmul iX 0, .matmulComplete 128, .vectorElementwise iX .add r0 r0 r0 r0 0, .vectorElementwise i0 .add rX r0 r0 r0 0,
    .vectorElementwise i0 .add r0 rX r0 r0 0, .vectorElementwise i0 .add r0 r0 rX r0 0, .vectorElementwise i0 .add r0 r0 r0 rX 0,
    .vectorConvert iX r0 r0 0, .vectorConvert i0 rX r0 0, .vectorConvert i0 r0 rX 0, .vectorReduce iX .sum r0 r0 0,
    .vectorReduce i0 .sum rX r0 0, .vectorReduce i0 .sum r0 rX 0, .topk iX l0 false 0 0 0 0 l0 l0, .topk i0 lX false 0 0 0 0 l0 l0,
    .topk i0 l0 false 0 0 0 0 lX l0, .topk i0 l0 false 0 0 0 0 l0 lX, .compensatedSplit iX l0 l0 l0 0, .compensatedSplit i0 lX l0 l0 0,
    .compensatedSplit i0 l0 lX l0 0, .compensatedSplit i0 l0 l0 lX 0, .compensatedCombine iX l0 l0 l0 0, .compensatedCombine i0 lX l0 l0 0,
    .compensatedCombine i0 l0 lX l0 0, .compensatedCombine i0 l0 l0 lX 0, .gather iX l0 l0 l0 0 0, .gather i0 lX l0 l0 0 0,
    .gather i0 l0 lX l0 0 0, .gather i0 l0 l0 lX 0 0, .scatter iX l0 l0 l0 0 0, .scatter i0 lX l0 l0 0 0, .scatter i0 l0 lX l0 0 0,
    .scatter i0 l0 l0 lX 0 0, .globalLoad iX l0 0 l0, .globalLoad i0 lX 0 l0, .globalLoad i0 l0 0 lX, .globalLoadReturn 128 0,
    .coherentPointLoad iX l0 0 l0, .coherentPointLoad i0 lX 0 l0, .coherentPointLoad i0 l0 0 lX, .globalStore iX l0 0 l0,
    .globalStore i0 lX 0 l0, .globalStore i0 l0 0 lX, .storeReachesHome 128 0, .signalledStore iX 0 0 l0 0 0, .signalledStore i0 0 0 lX 0 0,
    .attentionPass iX 0, .exp iX 0 0 false 0, .rsqrt iX 0 0 false 0, .recip iX 0 0 false 0, .copySubmit iX 0 0, .dmaSliceTimeout 16 0 0,
    .dmaSliceTimeout 0 4 0, .copyDescriptorComplete 16 0, .copyDescriptorComplete 0 129, .hsignal iX 0 (.imm 0), .hsignal i0 0 (.reg 32),
    .hwait iX 0 (.imm 0), .hwait i0 0 (.reg 32), .hwaitSatisfied 128] : List Instr).all (fun i => !i.wf) = true := by decide +kernel

theorem test_ill_formed_2 : ([
    .hitchTimeout 128, .hpoll iX 0 0, .hpoll i0 0 32, .hreset iX 0 (.imm 0), .hreset i0 0 (.reg 32), .acquire iX, .release iX, .fence iX,
    .orderHoldEnd 128, .coreSeqStop (.core 128) 0, .coreSeqStop .firmware 128, .coreArrClr (.core 128) 0, .coreArrClr .firmware 128,
    .lcInvalidate (.core 128) 0, .lcInvalidate .firmware 16, .lcCounterClr (.core 128) 0, .lcCounterClr .firmware 16, .attClr (.core 128) 0,
    .attClr .firmware 128, .drvClr (.core 128) 0 0, .drvClr .firmware 16 0, .drvClr .firmware 0 8, .grmClr (.core 128) 0,
    .grmClr .firmware 32, .sadClr (.core 128), .registerWrite (.core 128) 0 false 0, .doorbellSqTail (.core 128) q0 0,
    .doorbellSqTail .firmware qX 0, .doorbellCqHead (.core 128) q0 0, .doorbellCqHead .firmware qX 0, .sysAdminEnable (.core 128) 0 0,
    .packetFetch qX, .pacedAdmission qX, .agingPromotion qX, .pacedLeadStart qX, .pulledUpResume 128, .pacedOverrunStop qX, .nop qX,
    .tenantCreate qX, .tenantDestroy qX, .tenantKeyLoad qX, .rangeSet qX, .rangeClear qX, .mailboxAssign qX, .contextCreate qX,
    .contextDestroy qX, .contextReset qX, .queueCreate qX, .queueDestroy qX, .resourceAssign qX, .resourceRelease qX, .programLoad qX,
    .programUnload qX, .taskRun qX, .hitchSignal qX, .copy qX 0, .copy q0 16, .saddleLoad qX, .saddleUpdate qX, .saddleUnload qX,
    .groomUpdate qX, .collective qX, .teardownDrainEnd 32 0, .teardownDrainEnd 0 256, .teardownDrainTimeout 32 0,
    .teardownDrainTimeout 0 256, .purgeEnd 32 0, .purgeEnd 0 256, .deferredPerform qX, .pagingSegmentComplete 16, .patrolScrub 48,
    .ddrChannelFailure 16, .cmpRingTail (.core 128) 0 0 0, .cmpRingTail .firmware 16 0 0, .cmpRingTail .firmware 0 32 0] : List Instr).all (fun i => !i.wf) = true := by decide +kernel

theorem test_ill_formed_3 : ([
    .lossyEncode 16 0, .lossyEncode 0 32, .lossyDecode 16 0, .lossyDecode 0 32, .losslessEncode 16 0, .losslessEncode 0 32,
    .losslessDecode 16 0, .losslessDecode 0 32, .codecJobEnd 16 0, .codecJobEnd 0 32, .drvRingTail (.core 128) 0 0 0,
    .drvRingTail .firmware 16 0 0, .drvRingTail .firmware 0 8 0, .exchangeDispatch 16 0, .exchangeDispatch 0 8, .exchangeCombine 16 0,
    .exchangeCombine 0 8, .claimArrival 16 c0, .claimArrival 0 cX, .grantArrival 16 0 0 .granted 0 0 0, .grantArrival 0 8 0 .granted 0 0 0,
    .segmentCloseArrival 16 0 0, .claimArmTimeout 16 0, .claimResend 16 0 0, .claimResend 0 8 0, .dispatchJobEnd 16 0, .dispatchJobEnd 0 8,
    .grmRingTail (.core 128) 0 0 0, .grmRingTail .firmware 32 0 0, .grmRingTail .firmware 0 4 0, .momentumSgd 32 0, .momentumSgd 0 4,
    .adamw 32 0, .adamw 0 4, .signMomentum 32 0, .signMomentum 0 4, .factoredSecondMoment 32 0, .factoredSecondMoment 0 4,
    .generalRecurrence 32 0, .generalRecurrence 0 4, .sparseRowUpdate 32 0, .sparseRowUpdate 0 4, .groomDescriptorEnd 32 0,
    .groomDescriptorEnd 0 4, .pacerQuery (.core 128) 0 0, .pacerQuery .firmware 256 0, .pacerCommit (.core 128) 0,
    .pacerCommit .firmware 256, .allReduce 16, .reduceScatter 16, .allGather 16, .allToAll 16, .collectiveSegment 16 0 0 0 s0,
    .collectiveSegment 0 4096 0 0 s0, .collectiveSegment 0 0 0 0 sX, .collectiveAbort 16 0 0 0, .collectiveAbort 0 32 0 0,
    .collectiveAbort 0 0 256 0, .collectiveTimeout qX, .collectiveEnd qX, .fabricWrite 48 b0, .fabricWrite 0 bX, .signalledWrite 48 b0,
    .signalledWrite 0 bX, .fabricSignal 48 b0, .fabricSignal 0 bX, .readRequest 48 b0 0, .readRequest 0 bX 0, .readData 48 b0,
    .readData 0 bX, .acknowledgement 48 0 0 0, .acknowledgement 0 0 4096 0, .negativeAcknowledgement 48 0 0 false 0 0,
    .negativeAcknowledgement 0 0 4096 false 0 0, .purge 48 b0] : List Instr).all (fun i => !i.wf) = true := by decide +kernel

theorem test_ill_formed_4 : ([
    .purge 0 bX, .burstResendTimeout 0 4096 0, .laneFailing 48 ⟨0, .lock⟩, .spareLaneTrained 48, .fabPortRetrain (.core 128) 0,
    .fabPortRetrain .firmware 48, .fabPortTrained 48 n0 0, .fabPortTrained 0 nX 0, .ackNbr (.core 128) 0, .ackNbr .firmware 48,
    .fabPortDisable (.core 128) 0 false, .fabPortDisable .firmware 48 false, .nodeAssign (.core 128) 0, .nodeAssign .firmware 4096,
    .routingEntryWrite (.core 128) 0 0, .routingEntryWrite .firmware 4096 0, .nodeLost 4096, .recoveringReceived 4096, .rejoinReceived 4096,
    .peerHoldExpiry 4096, .chotusPortTraining 2 0 0, .hostRequest 2 0 0 .cacheShared, .snoopResponse 2 0 none, .snoopTimeout 2,
    .chotusLaneFail 2 0, .chotusPortRetrain (.core 128) 0, .chotusPortRetrain .firmware 2, .chotusPortDisable (.core 128) 0 false,
    .chotusPortDisable .firmware 2 false, .heartbeatWrite (.core 128) 0, .heartbeatWrite .firmware 2, .hostLost 2, .hostHoldExpiry 2,
    .mailboxGo (.core 128) 0, .mailboxGo .firmware 64, .identify (.mailbox 64), .healthSummary (.mailbox 64),
    .healthFaultRecords (.mailbox 64), .telemetry (.mailbox 64), .fwStageBegin (.mailbox 64), .fwStageData (.mailbox 64),
    .fwStageEnd (.mailbox 64), .fwStageAbort (.mailbox 64), .fwActivateNow (.mailbox 64), .fwActivateAtReset (.mailbox 64),
    .fwStatus (.mailbox 64), .attestGenerate (.mailbox 64), .attestRead (.mailbox 64), .attestReadChain (.mailbox 64),
    .resetModuleWarm (.mailbox 64), .resetModuleCold (.mailbox 64), .hangRead (.mailbox 64), .logRead (.mailbox 64), .entdaa 128,
    .i3cEventClear 65536, .rstCmdWarm (.core 128) 0, .rstCmdCold (.core 128) 0, .rstCmdTile (.core 128) 0 0, .rstCmdTile .firmware 16 0,
    .rstCmdCore (.core 128) 0 0, .rstCmdCore .firmware 128 0, .rstCmdEngine (.core 128) 0 0, .rstCmdFabricPort (.core 128) 0 0,
    .rstCmdFabricPort .firmware 48 0, .tilePllIdleStop 16, .controlCoreWatchdog 8, .standbyRequest (.core 128), .tileEmergencyTemp 16 0,
    .thermalTrip 16 0, .coreRemount 128 0, .coreIdleRemount 128, .secExtend (.core 128) 0, .svnCommit (.core 128) 0, .mgmtKeySet (.core 128),
    .mgmtKeyClear (.core 128)] : List Instr).all (fun i => !i.wf) = true := by decide +kernel

theorem test_ill_formed_5 : ([
    .frameReplay ⟨48, false, [], 0⟩, .linkLevelReplay 2 0, .attestSigned (.mailbox 64), .rangeZeroFillEnd qX] : List Instr).all (fun i => !i.wf) = true := by decide +kernel

theorem test_well_formed_1 : ([
    .scalarOp i0 .add 0 (.imm 0) (.imm 0), .branch i0 .always (.imm 0) (.imm 0) 0, .loop i0 0 0, .endloop i0, .call i0 0, .ret i0,
    .drain i0 0, .drainComplete 0, .end_ i0, .matmul i0 0, .matmulComplete 0, .vectorElementwise i0 .add r0 r0 r0 r0 0,
    .vectorConvert i0 r0 r0 0, .vectorReduce i0 .sum r0 r0 0, .topk i0 l0 false 0 0 0 0 l0 l0, .compensatedSplit i0 l0 l0 l0 0,
    .compensatedCombine i0 l0 l0 l0 0, .gather i0 l0 l0 l0 0 0, .scatter i0 l0 l0 l0 0 0, .globalLoad i0 l0 0 l0, .globalLoadReturn 0 0,
    .coherentPointLoad i0 l0 0 l0, .globalStore i0 l0 0 l0, .storeReachesHome 0 0, .signalledStore i0 0 0 l0 0 0, .attentionPass i0 0,
    .exp i0 0 0 false 0, .rsqrt i0 0 0 false 0, .recip i0 0 0 false 0, .copySubmit i0 0 0, .dmaSliceTimeout 0 0 0,
    .copyDescriptorComplete 0 0, .hsignal i0 0 (.imm 0), .hwait i0 0 (.imm 0), .hwaitSatisfied 0, .hitchTimeout 0, .hpoll i0 0 0,
    .hreset i0 0 (.imm 0), .acquire i0, .release i0, .fence i0, .orderHoldEnd 0, .coreSeqStop .firmware 0, .coreArrClr .firmware 0,
    .lcInvalidate .firmware 0, .lcCounterClr .firmware 0, .attClr .firmware 0, .drvClr .firmware 0 0, .grmClr .firmware 0, .sadClr .firmware,
    .registerWrite .firmware 0 false 0, .doorbellSqTail .firmware q0 0, .doorbellCqHead .firmware q0 0, .sysAdminEnable .firmware 0 0,
    .packetFetch q0, .pacedAdmission q0, .agingPromotion q0, .pacedLeadStart q0, .pulledUpResume 0, .pacedOverrunStop q0, .nop q0,
    .tenantCreate q0, .tenantDestroy q0, .tenantKeyLoad q0, .rangeSet q0, .rangeClear q0, .mailboxAssign q0, .contextCreate q0,
    .contextDestroy q0, .contextReset q0, .queueCreate q0, .queueDestroy q0, .resourceAssign q0, .resourceRelease q0, .programLoad q0,
    .programUnload q0, .taskRun q0, .hitchSignal q0, .copy q0 0, .saddleLoad q0, .saddleUpdate q0, .saddleUnload q0, .groomUpdate q0,
    .collective q0, .teardownDrainEnd 0 0, .teardownDrainTimeout 0 0, .purgeEnd 0 0, .deferredPerform q0, .pagingSegmentComplete 0,
    .patrolScrub 0, .ddrChannelFailure 0, .cmpRingTail .firmware 0 0 0, .lossyEncode 0 0, .lossyDecode 0 0, .losslessEncode 0 0,
    .losslessDecode 0 0, .codecJobEnd 0 0, .drvRingTail .firmware 0 0 0, .exchangeDispatch 0 0, .exchangeCombine 0 0, .claimArrival 0 c0,
    .grantArrival 0 0 0 .granted 0 0 0, .segmentCloseArrival 0 0 0, .claimArmTimeout 0 0, .claimResend 0 0 0, .dispatchJobEnd 0 0,
    .grmRingTail .firmware 0 0 0, .momentumSgd 0 0, .adamw 0 0, .signMomentum 0 0] : List Instr).all Instr.wf = true := by decide +kernel

theorem test_well_formed_2 : ([
    .factoredSecondMoment 0 0, .generalRecurrence 0 0, .sparseRowUpdate 0 0, .groomDescriptorEnd 0 0, .pacerQuery .firmware 0 0,
    .pacerCommit .firmware 0, .allReduce 0, .reduceScatter 0, .allGather 0, .allToAll 0, .collectiveSegment 0 0 0 0 s0,
    .collectiveAbort 0 0 0 0, .collectiveTimeout q0, .collectiveEnd q0, .fabricWrite 0 b0, .signalledWrite 0 b0, .fabricSignal 0 b0,
    .readRequest 0 b0 0, .readData 0 b0, .acknowledgement 0 0 0 0, .negativeAcknowledgement 0 0 0 false 0 0, .purge 0 b0,
    .burstResendTimeout 0 0 0, .laneFailing 0 ⟨0, .symbols 9⟩, .spareLaneTrained 0, .fabPortRetrain .firmware 0, .fabPortTrained 0 n0 0,
    .ackNbr .firmware 0, .fabPortDisable .firmware 0 false, .nodeAssign .firmware 0, .routingEntryWrite .firmware 0 0, .nodeLost 0,
    .recoveringReceived 0, .rejoinReceived 0, .peerHoldExpiry 0, .chotusPortTraining 0 0 0, .hostRequest 0 0 0 .cacheShared,
    .snoopResponse 0 0 none, .snoopTimeout 0, .chotusLaneFail 0 0, .chotusPortRetrain .firmware 0, .chotusPortDisable .firmware 0 false,
    .heartbeatWrite .firmware 0, .hostLost 0, .hostHoldExpiry 0, .mailboxGo .firmware 0, .identify (.mailbox 0), .healthSummary (.mailbox 0),
    .healthFaultRecords (.mailbox 0), .telemetry (.mailbox 0), .fwStageBegin (.mailbox 0), .fwStageData (.mailbox 0),
    .fwStageEnd (.mailbox 0), .fwStageAbort (.mailbox 0), .fwActivateNow (.mailbox 0), .fwActivateAtReset (.mailbox 0),
    .fwStatus (.mailbox 0), .attestGenerate (.mailbox 0), .attestRead (.mailbox 0), .attestReadChain (.mailbox 0),
    .resetModuleWarm (.mailbox 0), .resetModuleCold (.mailbox 0), .hangRead (.mailbox 0), .logRead (.mailbox 0), .entdaa 0, .i3cEventClear 0,
    .rstCmdWarm .firmware 0, .rstCmdCold .firmware 0, .rstCmdTile .firmware 0 0, .rstCmdCore .firmware 0 0, .rstCmdEngine .firmware 0 0,
    .rstCmdFabricPort .firmware 0 0, .tilePllIdleStop 0, .controlCoreWatchdog 0, .standbyRequest .firmware, .tileEmergencyTemp 0 0,
    .thermalTrip 0 0, .coreRemount 0 0, .coreIdleRemount 0, .secExtend .firmware 0, .svnCommit .firmware 0, .mgmtKeySet .firmware,
    .mgmtKeyClear .firmware, .frameReplay ⟨0, false, [3], 1⟩, .linkLevelReplay 0 0, .attestSigned (.mailbox 0), .rangeZeroFillEnd q0] : List Instr).all Instr.wf = true := by decide +kernel


/- Results worked out by hand: Tables 2.1 to 2.3 and R35, R36 for the formats; the digest of the empty message is that of the SHA-3 standard. -/

/-- 1 + 2^-8 lies halfway between two BF16 numbers: the even code (R35). -/
theorem test_bf16_tie : (Fmt.bf16.convert (.fin false 257 (-8))).1 = 0x3F80 := by decide +kernel

/-- 1 + 3 × 2^-8 rounds to the even code above. -/
theorem test_bf16_tie_up : (Fmt.bf16.convert (.fin false 259 (-8))).1 = 0x3F82 := by decide +kernel

/-- E4M3 holds 448 at most, and 1,000 saturates (R36). -/
theorem test_e4m3_saturates : Fmt.e4m3.convert (.fin true 1000 0) = (0xFE, { saturated := true }) := by decide +kernel

/-- 5 lies halfway between the E2M1 codes 6 (4) and 7 (6). -/
theorem test_e2m1_tie : (Fmt.e2m1.convert (.fin false 5 0)).1 = 6 := by decide +kernel

/-- The smallest FP32 denormal halved rounds to zero, one and a half of it to two of it. -/
theorem test_fp32_denormals :
    (Fmt.fp32.convert (.fin false 1 (-150))).1 = 0 ∧ (Fmt.fp32.convert (.fin false 3 (-150))).1 = 2 := by decide +kernel

/-- exp(0) = 1; 1/√4 = 0.5; 1/8. -/
theorem test_special_functions :
    f32Exp (.fin false 0 0) = 0x3F800000 ∧ f32Rsqrt (.fin false 4 0) = 0x3F000000 ∧ f32Recip (.fin false 8 0) = 0x3E000000 := by decide +kernel

/-- A granule of stack 3: o[12:7] = 45, q = 3022 and p = 45 XOR 14 = 35 (R158, Table 7.2). -/
theorem test_hbm_place : hbmPlace (3 * 2 ^ 36 + 3022 * 2 ^ 13 + 45 * 2 ^ 7 + 5) =
    { stack := 3, channel := 17, pseudo := 1, bankGroup := 1, bank := 2, stackId := 3, row := 5, granule := 6 } := by decide +kernel

/-- Three used channels of 16 KiB on two DIMMs: block 7 is the third block of channel 4, in the upper half (R170). -/
theorem test_tier_place : tierPlace [1, 4, 6] 2 0x4000 (7 * 0x1000 + 100) = { channel := 4, offset := 0x2064, dimm := 1, subchannel := 1 } := by decide +kernel

/-- The generator of 16 check symbols with the roots α^0 to α^15 (R160): the polynomial that the published tables of this field and these
roots give. -/
theorem test_rs_generator : rsGenerator = [1, 59, 13, 104, 189, 68, 209, 30, 8, 163, 65, 41, 229, 98, 50, 36, 59] := by decide +kernel

/-- A message with its check symbols is zero at every root (R160). -/
theorem test_rs_roots : ((List.range 16).all fun i =>
    ([7, 0, 200, 31] ++ rsChecks [7, 0, 200, 31]).foldl (fun v s => gfMul v (iter gfTimesX i 1) ^^^ s) 0 == 0) = true := by decide +kernel

/-- The first bytes of SHA3-512 of no bytes. -/
theorem test_sha3_empty : (sha3 []).take 4 = [0xA6, 0x9F, 0x73, 0xCC] := by decide +kernel

/-- a1 + a2 with a carry out wraps, a write of a destination that is also a source. -/
theorem test_add_wraps :
    (match exec (.scalarOp i0 .add 1 (.reg 1) (.imm 3)) (st { run0 with cores := [(0, { codeSize := 0x1000, sregs := 0 :: 0xFFFFFFFFFFFFFFFE :: List.replicate 30 0 })] }) with
      | .next t => t.m.sreg 0 1
      | _ => 0) = 1 := by decide +kernel

/-- Changes the state of core 0. -/
def onCore (m : Block) (f : CoreState → CoreState) : Block := m.modCore 0 f

/-- `k` nested loops and calls on core 0, each with `left` runs left. -/
def nest (k left : Nat) : Block :=
  onCore run0 fun c => { c with loops := List.replicate k ⟨8, left⟩, calls := List.replicate k 16, sregs := c.sregs.set 1 3 }

/- Witnesses: cores, hitches, order -/

theorem witness_ScalarAndBranch : run0.canIssue i0 = true ∧ condHolds .eq ((fetched run0).src 0 (.reg 1)) ((fetched run0).src 0 (.imm 0)) = true ∧
    condHolds .ne ((fetched run0).src 0 (.reg 1)) ((fetched run0).src 0 (.imm 0)) = false := by decide

theorem witness_LoopsAndCalls :
    (∀ k ∈ [0, 1, 7, 8, 15, 16], ∀ left ∈ [0, 1, 2], (nest k left).canIssue i0 = true ∧ ((fetched (nest k left)).core 0).loops.length = k ∧
      ((fetched (nest k left)).core 0).calls.length = k) ∧
    ((fetched (nest 7 1)).sreg 0 0).toNat % 2 ^ 32 = 0 ∧ 0 < ((fetched (nest 7 1)).sreg 0 1).toNat % 2 ^ 32 ∧
    ((fetched (nest 1 2)).core 0).loops = [⟨8, 2⟩] ∧ ((fetched (nest 1 1)).core 0).loops = [⟨8, 1⟩] ∧ ((fetched (nest 0 0)).core 0).loops = [] ∧
    ((fetched (nest 1 1)).core 0).calls = [16] ∧ ((fetched (nest 0 0)).core 0).calls = [] := by decide

/-- Core 0 has a load under way and drains group 0. -/
def loading : Block :=
  onCore run0 fun c => { c with loads := [⟨none, 0, 128, ⟨.vector, 0⟩, 1, 0, false, none, true, false⟩], task := some ⟨1, 1, 0⟩ }

/-- Core 0 in sequencer state `st`. -/
def inState (m : Block) (x : Nat) : Block := m.setCoreSt 0 x

/-- Cores 0 and 1 run the task of one queue; core 1 stands in `x` with cause 1 when it has stopped. -/
def pair (x : Nat) : Block :=
  { loading with
    regs := (Reg.coreSeqStatus 1, if x = 4 then 0x100000400000000 else 0x100000000) :: loading.regs
    cores := loading.cores ++ [(1, { task := some ⟨1, 1, 0⟩ })] }

theorem witness_DrainAndEnd :
    run0.canIssue i0 = true ∧ ((fetched run0).advance i0).drained 0 31 = true ∧ loading.canIssue i0 = true ∧ ((fetched loading).advance i0).drained 0 31 = false ∧
    (31 : Nat) < 32 ∧ (32 : Nat) ≤ 32 ∧
    (inState run0 3).coreSt 0 = 3 ∧ (inState run0 3).drained 0 ((inState run0 3).core 0).drainMask = true ∧
    ((fetched run0).core 0).task = none ∧ ((fetched loading).core 0).task = some ⟨1, 1, 0⟩ ∧ (fetched run0).coreSt 0 = 1 ∧
    (pair 4).canIssue i0 = true ∧ (let stopped := ((fetched (pair 4)).advance i0).stopCore 0 1
      (stopped.cores.all fun e => e.2.saved.all fun x => x.task != some ⟨1, 1, 0⟩) = true ∧ stopped.taskCores ⟨1, 1, 0⟩ = [0, 1] ∧
        stopped.coreSt 0 = 4 ∧ stopped.coreSt 1 = 4) ∧
    (pair 1).canIssue i0 = true ∧ (((fetched (pair 1)).advance i0).stopCore 0 1).coreSt 1 ≠ 4 ∧ 1 ∈ (((fetched (pair 1)).advance i0).stopCore 0 1).taskCores ⟨1, 1, 0⟩ := by
  decide

/-- The hitch of core 0's context at address `hitch0` holds 5; core 0 waits on it for a count of 5 or 6. -/
def hitch0 : Nat := poolBase

/-- Hitch memory holds 5 in its first counter. -/
def counted (poisonous : Bool) : Block :=
  { run0 with mem := [(poolBase, 5)], tags := [poolBase / 128], poison := if poisonous then [poolBase / 128] else [] }

/-- Core 0 waits in STATE 2 for counter 0. -/
def waiting (met : Bool) (time : Nat) : Block :=
  let m := inState (onCore (counted false) fun c => { c with hold := .hwait, waitAddr := hitch0, waitStart := 10, met := met }) 2
  { m with time := time, regs := (Reg.coreHitchTarget 0, 6) :: (Reg.coreHitchTmo 0, 100) :: m.regs }

theorem witness_HitchBankRules :
    (let e := (waiting false 20).correct hitch0 8
     (waiting false 20).hostCopies (hitch0 / 128) = [] ∧ e.poison.contains (hitch0 / 128) = false ∧ e.mem.wf ∧ hitch0 % 8 = 0 ∧ e.staleAt (hitch0 / 128) = none ∧
       (e.core 0).hold = .hwait ∧ (e.core 0).waitAddr = hitch0 ∧ (e.reg (Reg.coreHitchTarget 0)).toNat ≤ 6 % 2 ^ 64 ∧
       (e.core 0).met = false ∧ 5 % 2 ^ 64 < (e.reg (Reg.coreHitchTarget 0)).toNat) ∧
    (let e := (waiting false 109).correct hitch0 8
     e.time < (e.core 0).waitStart + e.fld (Reg.coreHitchTmo 0) 39 0) ∧
    (counted true).hostCopies (hitch0 / 128) = [] ∧ ((counted true).correct hitch0 8).poison.contains (hitch0 / 128) = true := by decide

/-- A product stands in the array's queue. -/
def storingHitch : Block := onCore (counted false) fun c => { c with matQ := [⟨[], true, true, [], 0⟩] }

theorem witness_HitchInstructions :
    (let m := (fetched (counted false)).advance i0
     (counted false).canIssue i0 = true ∧ m.coreHitch 0 0 = some hitch0 ∧ m.storesOpen 0 = false ∧ (m.correct hitch0 8).poisoned hitch0 8 = false ∧
       m.coreHitch 0 99 = none) ∧
    (let m := (fetched (storingHitch)).advance i0
     storingHitch.canIssue i0 = true ∧ m.coreHitch 0 0 = some hitch0 ∧ m.storesOpen 0 = true) ∧
    (let m := (fetched (counted true)).advance i0
     (counted true).canIssue i0 = true ∧ m.coreHitch 0 0 = some hitch0 ∧ (m.correct hitch0 8).poisoned hitch0 8 = true ∧ m.storesOpen 0 = false) := by decide

theorem witness_HitchWaits :
    (let m := (fetched (counted false)).advance i0
     let e := m.correct hitch0 8
     (counted false).canIssue i0 = true ∧ m.coreHitch 0 0 = some hitch0 ∧ e.poisoned hitch0 8 = false ∧
       ((fetched (counted false)).src 0 (.imm 5)).toNat ≤ e.hitchVal hitch0 ∧ e.hitchVal hitch0 < ((fetched (counted false)).src 0 (.imm 6)).toNat) ∧
    ((waiting true 20).core 0).hold = .hwait ∧ ((waiting true 20).core 0).met = true ∧
    ((waiting false 110).core 0).hold = .hwait ∧ ((waiting false 110).core 0).met = false ∧
    ((waiting false 110).core 0).waitStart + (waiting false 110).fld (Reg.coreHitchTmo 0) 39 0 ≤ (waiting false 110).time ∧
    ((waiting false 110).core 0).task = none ∧
    ((onCore (waiting false 110) fun c => { c with task := some ⟨1, 1, 0⟩ }).core 0).task = some ⟨1, 1, 0⟩ ∧
    (onCore (waiting false 110) fun c => { c with task := some ⟨1, 1, 0⟩ }).peerHeld ⟨1, 1, 0⟩ = false := by decide

theorem witness_OrderInstructions :
    run0.canIssue i0 = true ∧ (∀ h ∈ [Hold.acquire, .release, .fence], (onCore run0 fun c => { c with hold := h }).orderMet 0 h = true ∧
      ((onCore run0 fun c => { c with hold := h }).core 0).hold = h) ∧
    (let m := onCore run0 fun c => { c with hold := .acquire, ordStamp := 3 }
     m.orderMet 0 (m.core 0).hold = true ∧ (Line.mk none 1 1 [] 2 false).stamp < (m.core 0).ordStamp ∧ (m.tile 0).floor ≤ 3) := by decide

theorem witness_IssueHeldOrStopped :
    issueOf (.endloop i0) = some i0 ∧ (∀ d, Instr.endloop i0 = .attentionPass i0 d → run0.passing 0 = false) ∧
    issueOf (.attentionPass i0 0) = some i0 ∧ run0.passing 0 = false ∧
    (∀ x ∈ [0, 2, 3, 4, 5], (inState run0 x).issuing 0 = false) ∧ (onCore run0 fun c => { c with hold := .fence }).issuing 0 = false ∧
    run0.issuing 0 = true ∧ (run0.core 0).vecQ = [] ∧ (run0.core 0).sfuQ = [] ∧ (run0.core 0).matQ.length < 5 ∧ (run0.core 0).copyQ.length < 8 ∧
    ((onCore run0 fun c => { c with codeSize := 0 }).core 0).codeSize ≤ (onCore run0 fun c => { c with codeSize := 0 }).pc 0 ∧
    run0.pc 0 < (run0.core 0).codeSize ∧ (onCore run0 fun c => { c with codeOff := 0xFFFC }).cmAddr? 0 0xFFFC 8 = none ∧
    run0.cmAddr? 0 0 8 = some (coreWindow 0) ∧
    (let m : Block := { run0 with poison := [coreWindow 0 / 128] }
     m.issuing 0 = true ∧ (m.correct (coreWindow 0) 8).poisoned (coreWindow 0) 8 = true) := by
  refine ⟨by decide, ?_, by decide⟩
  intro d h; cases h


/- Witnesses: units, memory, formats -/

/-- A memory that holds words from an address on. -/
def holding (a : Nat) (ws : List Word) : Memory := Memory.writeN [] a (wordBytes ws)

/-- Row operands in the vector buffer. -/
def row0 (f : Fmt) (s : Scheme) : Row := ⟨⟨.vector, 0⟩, f, s, ⟨.vector, 0x1000⟩, 0x3F800000⟩

theorem witness_VectorRows :
    (run0.fetchVec i0).isSome = true ∧ ([row0 .fp32 .none, row0 .bf16 .none].all fun r => Row.plain r) = true ∧
    (let m := taken run0
     (((m.senseRow 0 (row0 .bf16 .none) 2).senseRow 0 (row0 .fp32 .none) 2).readRow 0 (row0 .bf16 .none) 2).isOk = true ∧
       ((m.senseRow 0 (row0 .bf16 .none) 2).canWrite 0 ⟨.vector, 0⟩ 8).isOk = true ∧
       Row.malformed (row0 .int4 .microscaling) = true ∧ Row.malformed (row0 .fp32 .none) = false ∧
       ([row0 .int8 .microscaling, row0 .int4 .fineBlock, row0 .e2m1 .fineBlock, row0 .e4m3 .microscaling].all fun r => !Row.malformed r && !Row.tooWide r) = true ∧
       ((m.senseRow 0 (row0 .e2m1 .microscaling) 2).readRow 0 (row0 .e2m1 .microscaling) 2).isOk = true ∧
       ((m.senseRow 0 (row0 .e2m1 .microscaling) 2).writeRow 0 (row0 .e4m3 .fineBlock) [.fin false 1 0, .zero]).isOk = true ∧
       ((m.senseRow 0 (row0 .bf16 .none) 2).writeRow 0 (row0 .fp32 .none) [reduceVals .sum .fp32 [.fin false 1 0]]).isOk = true ∧
       (m.mergeRow 0 2 (row0 .fp32 .none) (row0 .fp32 .none) 1).isOk = true ∧
       ((m.sense 0 ⟨.vector, 0⟩ 8).readF32 0 ⟨.vector, 0⟩ 2).isOk = true ∧ ((m.sense 0 ⟨.vector, 0⟩ 8).canWrite 0 ⟨.vector, 0⟩ 4).isOk = true) ∧
    (∀ dim, RedOp.sum ≠ .merge dim) := by
  refine ⟨by decide +kernel, by decide +kernel, by decide +kernel, ?_⟩
  intro dim h; cases h

theorem witness_SpecialFunctions : (run0.fetchSfu i0).isSome = true ∧
    ((((run0.fetchSfu i0).getD run0).readLoc 0 ⟨.vector, 0⟩ (elemBytes 32 2))).isOk = true ∧
    ((((run0.fetchSfu i0).getD run0).readLoc 0 ⟨.vector, 0⟩ (elemBytes 16 2))).isOk = true := by decide +kernel

/-- The ranges of TOPK: experts 1 and 4096, K 1 and 16 lie inside, 0, 4097 and 17 outside. -/
def topkIn (experts k : Nat) : Bool := decide (1 ≤ experts ∧ experts ≤ 4096 ∧ 1 ≤ k ∧ k ≤ 16 ∧ k ≤ experts)

theorem witness_TopkGatherScatter : (run0.fetchVec i0).isSome = true ∧ topkIn 1 1 = true ∧ topkIn 4096 16 = true ∧ topkIn 0 0 = false ∧
    topkIn 4097 16 = false ∧ topkIn 4096 17 = false ∧ topkIn 2 3 = false ∧ 4096 * 4 ≤ 16384 ∧ 16384 % 128 = 0 ∧
    (((taken run0).sense 0 ⟨.vector, 0⟩ 12).readIdx 0 ⟨.vector, 0⟩ 3).isOk = true := by decide +kernel

/-- The vector queue, or the special-function queue, of core 0 holds `k` instructions. -/
def unitsHold (v k : Nat) : Block :=
  onCore run0 fun c => if v = 0 then { c with vecQ := List.replicate k (0, .endloop i0) } else { c with sfuQ := List.replicate k (.endloop i0) }

theorem witness_UnitQueues :
    (∀ k ∈ [1, 15], ((unitsHold 0 k).fetch i0).isSome = true ∧ ((unitsHold 0 k).core 0).vecQ.length = k ∧
      ((unitsHold 1 k).fetch i0).isSome = true ∧ ((unitsHold 1 k).core 0).sfuQ.length = k) ∧
    16 ≤ ((unitsHold 0 16).core 0).vecQ.length ∧ 16 ≤ ((unitsHold 1 16).core 0).sfuQ.length ∧
    (run0.core 0).vecQ = [] ∧ (run0.core 0).sfuQ = [] ∧ (run0.core 0).signals = [] := by decide

theorem witness_TopkRanking : (2 : Nat) ≤ ([Val.fin false 1 0, .nan, .zero] : List Val).length ∧
    topkRank 2 ([Val.fin false 1 0, .nan, .zero] : List Val).zipIdx = [0, 2] ∧ Val.zero.isNan = false ∧ (Val.fin true 1 0).isNan = false ∧
    (0xFFFF : Nat) < 2 ^ 16 ∧ (Fmt.bf16.decode 0xFF80).isNan = false := by decide +kernel

/-- An EXP of one element that leaves its core running. -/
def expRun : Block := expEffect i0 0 0 false 1 run0

theorem run0_window (x : Nat) (h1 : run0.windowAt 0 ≤ x) (h2 : x < run0.windowAt 0 + run0.windowSize 0) :
    run0.region x = .core 0 (x % 0x800000) := by
  have ha : run0.windowAt 0 = 0x200100000000 := by decide
  have hs : run0.windowSize 0 = 0x10000 := by decide
  have hk : run0.stackCount = 32 := by decide
  have ht : run0.tileCount = 16 := by decide
  have hc : run0.coreCount = 128 := by decide
  have hd : run0.fld Reg.ddrTierStatus 31 0 = 0 := by decide
  rw [ha] at h1 h2
  rw [hs] at h2
  have e : x / 0x800000 % 0x200 = 0 := by omega
  unfold Block.region
  rw [hk, ht, hc, hd, e]
  have n1 : ¬ x < 0x1000000000 * 32 := by omega
  have n2 : ¬ (0x100000000000 ≤ x ∧ x < 0x100000000000 + 2 ^ 30 * 0 ∧ run0.tuning = true) := by omega
  have n3 : ¬ (poolBase ≤ x ∧ x < poolBase + 0x10000000 * 16) := by simp only [poolBase]; omega
  have n4 : coreWindow 0 ≤ x ∧ x < coreWindow 128 := by simp only [coreWindow]; omega
  rw [if_neg n1, if_neg n2, if_neg n3, if_pos n4]

theorem witness_VectorWorkStaysInside : vectorIssue (.exp i0 0 0 false 1) = some i0 ∧ i0.core < 128 ∧
    exec (.exp i0 0 0 false 1) (st run0) = .next (st expRun.settle) ∧ expRun.settle.coreSt 0 = 1 ∧
    (run0.core 0).vecQ = [] ∧ (run0.core 0).sfuQ = [] ∧ (run0.core 0).signals = [] ∧
    (∀ x, run0.windowAt 0 ≤ x → x < run0.windowAt 0 + run0.windowSize 0 → ∃ o, run0.region x = .core 0 o) := by
  exact ⟨rfl, by decide, rfl, by decide +kernel, by decide, by decide, by decide, fun x h1 h2 => ⟨_, run0_window x h1 h2⟩⟩

/-- Stack 0 has failed. -/
def broken : Block := { run0 with flt := { failedStacks := [0] } }

theorem witness_GranulesAndWrites : run0.mem.wf ∧ broken.stackFailed 0 = true ∧ run0.stackFailed 0 = false ∧ run0.stackFailed 5 = false ∧
    0 % 128 + (List.replicate 128 (1 : Byte)).length ≤ 128 ∧ 5 % 128 + ([1, 2] : List Byte).length ≤ 128 ∧
    (0 : Nat) % 128 = 0 ∧ (List.replicate 128 (1 : Byte)).length = 128 ∧ (∀ b ∈ ([] : List Bool), b = true) ∧
    (let m : Block := { run0 with poison := [0] }
     (5 / 128) ∈ (m.correct 0 128).poison ∧ m.stackFailed 5 = false) ∧
    (5 / 128) ∉ (run0.correct 0 128).poison ∧ ([true, false] : List Bool).length = ([1, 2] : List Byte).length ∧
    (run0.applyGranule 5 [1, 2] [true, false] false).mem.read 5 = 1 ∧ (run0.applyGranule 5 [1, 2] [true, false] false).mem.read 6 = 0 := by
  decide +kernel

/-- Tenant 1 may read and write the first 2 MiB of HBM and of the pool; routing entry 5 holds a path. -/
def ranged : Block :=
  { run0 with
    regs := (Reg.fabRoute 5, 0x10) :: run0.regs
    cmd := { ranges := [⟨1, 0, 0, 0x200000, 0, true, true, false⟩, ⟨1, 1, poolBase, 0x200000, 0, true, true, false⟩] } }

/-- Global address of a local address of this module. -/
def here (a : Nat) : Nat := 0xFFF * 2 ^ 48 + a

/-- Core 0 has one load outstanding that a line of its tile serves (`line`), or that goes to its home. -/
def asked8 (line : Bool) : Load := ⟨none, 0x80, 8, ⟨.vector, 0⟩, 2, 1, line, none, true, false⟩
def fetching (line : Bool) : Block :=
  let m := onCore ranged fun c => { c with loads := [asked8 line] }
  m.modTile 0 fun t => { t with lines := [⟨none, 1, 1, List.replicate 128 7, 1, false⟩] }

theorem witness_Loads :
    (ranged.fetchVec i0).isSome = true ∧
    (let m := taken ranged
     (m.core 0).loadCount < 64 ∧ (m.canWrite 0 ⟨.vector, 0⟩ 300).isOk = true ∧ m.target 0 ⟨.glob, here 0x80⟩ 300 false = .ok (.here 0x80) ∧
       m.target 0 ⟨.glob, 5 * 2 ^ 48 + 0x80⟩ 300 false = .ok (.away 5 0x80)) ∧
    (let m := onCore ranged fun c => { c with loads := (List.range 64).map fun k => { asked8 false with stamp := k } }
     (m.fetchVec i0).isSome = true ∧ 64 ≤ ((taken m).core 0).loadCount) ∧
    (let m := fetching true
     (m.core 0).loads[0]? = some (asked8 true) ∧
       m.lineFor 0 none 1 (m.coreTenant 0) 1 = some ⟨none, 1, 1, List.replicate 128 7, 1, false⟩ ∧
       (((m.addFld (Reg.tileLcHits 0) 63 0 1).modCore 0 fun c => { c with loads := removeAt c.loads 0 }).canWrite 0 ⟨.vector, 0⟩ 8).isOk = true) ∧
    (∀ keep ∈ [true, false], let x : Load := { asked8 false with keep := keep }
      let m := onCore ranged fun c => { c with loads := [x] }
      (m.core 0).loads[0]? = some x ∧ x.addr < regBase ∧ (m.core 0).readWaits x = false ∧ m.heldExclusive 128 128 = false ∧
        (m.correct 128 128).poisoned 128 128 = false ∧ (m.canWrite 0 ⟨.vector, 0⟩ 8).isOk = true) ∧
    (onCore ranged fun c => { c with loads := [asked8 true] }).lineFor 0 none 1 1 1 = none := by decide +kernel

/-- Core 0 has one store outstanding, local or to node 5. -/
def storing (remote : Option (Nat × Nat)) : Block := onCore ranged fun c => { c with stores := [⟨0x80, [1, 2], 1, remote, false⟩] }

/-- Core 0 runs a task of tenant 0, which reaches registers. -/
def registering : Block := { ranged with regs := (Reg.coreTaskId 0, 0x8000000000000001) :: ranged.regs }

theorem witness_Stores :
    (ranged.fetchVec i0).isSome = true ∧
    (let f := taken ranged
     let m := f.sense 0 ⟨.vector, 0⟩ 2
     f.storeRoom 0 ⟨.glob, here 0x80⟩ 2 = true ∧ (m.readLoc 0 ⟨.vector, 0⟩ 2).isOk = true ∧ m.target 0 ⟨.glob, here 0x80⟩ 2 true = .ok (.here 0x80) ∧
       m.tagged 0x80 2 = false ∧ f.storeRoom 0 ⟨.glob, 5 * 2 ^ 48⟩ 2 = true ∧ m.target 0 ⟨.glob, 5 * 2 ^ 48⟩ 2 true = .ok (.away 5 0) ∧
       f.remoteNode (5 * 2 ^ 48) = some 5 ∧ f.remoteNode (here 0x80) = none ∧ f.coreHitch 0 9 = none ∧ f.coreHitch 0 3 ≠ none ∧
       f.storeRoom 0 ⟨.glob, here (regBase + 0x1300000)⟩ 8 = true) ∧
    (let m := (taken registering).sense 0 ⟨.vector, 0⟩ 8
     (registering.fetchVec i0).isSome = true ∧ m.target 0 ⟨.glob, here (regBase + Reg.tileLcCtl 0)⟩ 8 true = .ok (.reg (Reg.tileLcCtl 0))) ∧
    (let m := (taken { ranged with tags := [1] }).sense 0 ⟨.vector, 0⟩ 2
     (({ ranged with tags := [1] } : Block).fetchVec i0).isSome = true ∧ m.tagged 0x80 2 = true ∧ m.target 0 ⟨.glob, here 0x80⟩ 2 true = .ok (.here 0x80)) ∧
    ((storing none).core 0).stores[0]? = some ⟨0x80, [1, 2], 1, none, false⟩ ∧
    (((storing none).core 0).stores.take 0).any ((storing none).storeBehind ⟨0x80, [1, 2], 1, none, false⟩) = false ∧
    (storing none).hostCopies 1 = [] ∧ (storing none).region 0x80 = .hbm ∧ (storing none).region poolBase = .pool ∧
    ((storing (some (5, 0))).core 0).stores[0]? = some ⟨0x80, [1, 2], 1, some (5, 0), false⟩ ∧
    (((storing (some (5, 0))).txPair 0 5).unacked.any fun u => u.burst.seq == 0) = false := by decide +kernel

/-- Channel 0 of tile 0 belongs to the context of core 0 and holds `l`. -/
def copying (l : List CopyJob) : Block :=
  { ranged with
    regs := (Reg.tileDmaOwner 0 0, 0x8000000000000101) :: (Reg.tileDmaStatus 0 0, if l = [] then 0 else 0x1000000100000000) :: ranged.regs
    chans := if l = [] then [] else [(0, l)] }

/-- A descriptor whose granules have all moved. -/
def moved : CopyJob := ⟨[], 0, true, 0, none⟩

/-- A COPY that tile 0's command channel performs. -/
def copyCmd : Cmd := { q := ⟨1, 1, 0⟩, packet := [0, 0, 0, 0, 0, 0, 0, 0], sqHead := 0, admitted := 0, started := true }

/-- The command channel of tile 0 serves it. -/
def commanded : Block := { ranged.modTile 0 (fun x => { x with cmdChan := some ⟨1, 1, 0⟩, cmdDone := 10000000000 }) with cmd := { cmds := [copyCmd] } }

/-- A descriptor of one granule, its source and destination in this module. -/
def unmoved : CopyJob := ⟨[0x0000010000100000, 0, BitVec.ofNat 64 (here 0x1000), BitVec.ofNat 64 (here 0x2000), 0, 0, 0, 0], 0, true, 0, none⟩

/-- Every granule of a channel's one descriptor has moved, and its engine's slice has ended. -/
def waitingEnd : Block :=
  (copying [{ unmoved with done := 1 }]).modTile 0 fun x => { x with engines := [some 0, none, none, none], sliceDone := [32, 0, 0, 0] }

theorem witness_CopyChannels :
    (copying []).canIssue i0 = true ∧ ((copying []).core 0).copyQ.length < 8 ∧ ((fetched run0).advance i0).fld (Reg.tileDmaOwner 0 0) 63 63 ≠ 1 ∧
    run0.canIssue i0 = true ∧ (run0.core 0).copyQ.length < 8 ∧ (127 : Nat) ≤ 127 ∧ ¬ (128 : Nat) ≤ 127 ∧
    (let m := (fetched (copying [])).advance i0
     let o := Reg.tileDmaOwner 0 0
     m.fld o 63 63 = 1 ∧ m.fld o 12 8 = m.coreTenant 0 ∧ m.fld o 7 0 = m.coreCtx 0 ∧ ((m.sense 0 ⟨.core, 0x40⟩ 64).readLoc 0 ⟨.core, 0x40⟩ 64).isOk = true) ∧
    ((ranged.modTile 0 fun x => { x with engines := [some 3, none, none, none] }).tile 0).engines[0]? = some (some 3) ∧
    (ranged.tile 0).engines[1]? = some none ∧
    (let m := (copying [moved]).assignEngines 0
     m.chan 0 0 = [moved] ∧ m.chanSt 0 0 = 1 ∧ moved.total ≤ moved.done ∧ m.allAcked (m.chanMover 0 0 moved).code = true ∧
       m.placed (m.chanMover 0 0 moved) moved.dst moved.total = true) ∧
    (let m := (copying [moved]).assignEngines 0
     let m2 := match m.copyEngineOf 0 0 with
       | some e => m.sliceWork 0 e 0 (((m.chan 0 0).head?).elim 0 fun j => j.total - j.done)
       | none => m
     (m2.chan 0 0).length < (m.chan 0 0).length) ∧
    (let m := (copying []).assignEngines 0
     m.copyEngineOf 0 0 = none ∧ (m.chan 0 0).length ≤ (m.chan 0 0).length ∧ m.endHead 0 0 = none) ∧
    (let m := (copying [unmoved]).assignEngines 0
     m.chan 0 0 = [unmoved] ∧ unmoved.total = 1 ∧ ¬ unmoved.total ≤ unmoved.done) ∧
    (let m := waitingEnd.assignEngines 0
     m.copyEngineOf 0 0 = none ∧ (m.endHead 0 0).isSome = true) ∧
    (let m0 := commanded.assignEngines 0
     let m := match m0.copyEngineOf 0 128 with
       | some e => m0.sliceWork 0 e 128 (((m0.tile 0).cmdChan.bind m0.running).elim 0 fun c => c.copyTotal - (m0.tile 0).cmdDone)
       | none => m0
     (m.tile 0).cmdChan = some copyCmd.q ∧ m.running copyCmd.q = some copyCmd ∧ copyCmd.copyTotal ≤ (m.tile 0).cmdDone ∧
       m.allAcked (Master.code (.cmdChan 0)) = true ∧ m.placed (cmdMover 0 copyCmd.q) (fun d => ⟨0, (copyCmd.p 1).toNat + 128 * d⟩) copyCmd.copyTotal = true) := by
  decide +kernel

/-- Core 0 moves for its own task. -/
def mover : Mover := ⟨0x800, 1, 0, 1, 1, some 0⟩

theorem witness_GranuleMoves :
    (let e := ranged.correct 0x80 128
     ranged.putRoom mover ⟨0, here 0⟩ = true ∧ ranged.spot mover ⟨0, here 0x80⟩ false = .here 0x80 ∧ ranged.heldExclusive 0x80 128 = false ∧
       e.spot mover ⟨0, here 0⟩ true = .here 0 ∧ e.tagged 0 128 = false) ∧
    ranged.spot mover ⟨0, here 0⟩ true = .here 0 ∧
    ranged.spot mover ⟨0, here 0x200000⟩ false = .bad 2 ∧ ranged.spot mover ⟨0, here 0x200000⟩ true = .bad 2 ∧
    ranged.putRoom mover ⟨0, here 0x200000⟩ = true := by decide +kernel

/-- A descriptor stands at the start of core 0's window. -/
def described (ws : List Word) : Block := { ranged with mem := holding (coreWindow 0) ws }

/-- A BF16 product of one stationary element and no streamed row. -/
def smallGemm : List Word := [0x0011000000000000, 0x0000001000000001, 0, 0x0000008000000000, 0, 0, 0, 0, 0, 0, 0, 0, 0, 0, 0, 0]

/-- A product in the array with one output byte at an address of the task. -/
def inArray (a : Nat) : MatOp := ⟨[], true, true, [⟨⟨.core, a⟩, [1]⟩], 4⟩

/-- A grouped product whose table lies outside the window. -/
def outside : MatOp := ⟨[0x3000000000000000, 0, 0, 0, 0, 0, 0, 0, 0, 0x0001000000010000, 0, 0, 0, 0, 0, 0], true, false, [], 0⟩

theorem witness_MatrixInstructions :
    (let m := ((fetched (described smallGemm)).advance i0).sense 0 ⟨.core, 0⟩ 128
     (described smallGemm).canIssue i0 = true ∧ ((described smallGemm).core 0).matQ.length < 5 ∧ (m.readLoc 0 ⟨.core, 0⟩ 128).isOk = true ∧
       leWords 16 (m.readMem (coreWindow 0) 128) = smallGemm) ∧
    (gemmOf smallGemm).ok = true ∧ field (wordAt smallGemm 0) 63 60 = 0 ∧
    groupedOk (0x3000000000000000 :: List.replicate 15 0) = true ∧ groupedOk (0x3000000000000001 :: List.replicate 15 0) = false ∧
    field 0x3000000000000000 63 60 = 3 ∧ 4 < field 0x5000000000000000 63 60 ∧ (gemmOf (List.replicate 16 0)).ok = false ∧
    (let op : MatOp := ⟨smallGemm, true, false, [], 0⟩
     let m := onCore ranged fun c => { c with matQ := [op] }
     (m.core 0).matQ = [op] ∧ (arrayRun 0 op m).run.trap = none ∧ (arrayRun 0 op m).bad = false ∧ (arrayRun 0 { op with aligned := false } m).run.trap = none ∧
       (arrayRun 0 { op with aligned := false } m).bad = true ∧ (arrayRun 0 outside m).run.trap.isSome = true) ∧
    (let m := onCore ranged fun c => { c with matQ := [inArray 0] }
     (m.core 0).matQ = [inArray 0] ∧ (inArray 0).started = true ∧
       (Block.putOuts 0 ((inArray 0).outs.map fun o => (o, ({} : Events))) ⟨m.popMat 0, {}, none⟩).trap = none ∧ (m.canWrite 0 ⟨.core, 0⟩ 1).isOk = true) ∧
    (let m := onCore ranged fun c => { c with matQ := [inArray 0x10000] }
     (Block.putOuts 0 ((inArray 0x10000).outs.map fun o => (o, ({} : Events))) ⟨m.popMat 0, {}, none⟩).trap.isSome = true ∧
       (m.canWrite 0 ⟨.core, 0x10000⟩ 1).isOk = false) := by decide +kernel

theorem witness_ColumnSumRoundsOnce :
    (Val.nan).isNan = true ∧ (((Val.sum []).add (F32.val 0x7FC00000)).isNan = true) ∧
    (∀ x ∈ ([(.fin false 3 0, {})] : List (Val × Events)) ++ ([(.fin true 1 1, {})] : List (Val × Events)), x.1.isFin = true) ∧ (F32.val 0x3F800000).isFin = true ∧
    (F32.val (columnSum [(.fin false 3 0, {})] [(.fin true 1 1, {})] 0x3F800000).1).isFin = true := by decide +kernel

/-- An attention descriptor for one group of INT8 pages and `n` sequences, whose table follows it. -/
def attWords (n : Word) : List Word :=
  [0x0800010001000000, n, BitVec.ofNat 64 (here (coreWindow 0 + 128)), 0, 0, 0, 0, 0x0000008000000080, 0, 0, 0, 0, 0, 0, 0, 0]

/-- It, with a table entry of no query whose page table has `ptes` entries. -/
def attended (n ptes : Word) : Block := described (attWords n ++ ([0, ptes <<< 44, 0, 0] : List Word))

/-- How its pass ends: refused or not, or malformed. -/
def attEnds (n ptes : Word) : Option (Option Bool) :=
  let m := ((fetched (attended n ptes)).advance i0).sense 0 ⟨.core, 0⟩ 128
  let r : AttRun := { w := leWords 16 (m.readMem (coreWindow 0) 128) }
  let m0 := m.modCore 0 fun c => { c with att := some r }
  match ((attTurn (m0.who 0) r).run m0).1 with
  | .ok .malformed => some none
  | .ok (.done b) => some (some b)
  | _ => none

/-- A Carousel pass of two modules in round `round` at stage `stage`. -/
def carRun (round stage : Nat) : AttRun :=
  { w := attWords 1 |>.set 9 1, car := [0x0050050200200000, 0, 0, 0, 0, 0, 0, 0], seq := List.replicate 32 0, round := round, stage := stage }

/-- How a step of it ends: a wait, a next step, the end. -/
def carEnds (round stage : Nat) : Nat :=
  let m0 := run0.modCore 0 fun c => { c with att := some (carRun round stage) }
  match ((attTurn (m0.who 0) (carRun round stage)).run m0).1 with
  | .ok (.waitFor _ _ _) => 1
  | .ok (.next _) => 2
  | .ok (.done _) => 3
  | _ => 0

theorem witness_AttentionPassRuns :
    (let m := ((fetched (attended 1 1)).advance i0).sense 0 ⟨.core, 0⟩ 128
     (attended 1 1).canIssue i0 = true ∧ ((attended 1 1).core 0).vecQ = [] ∧ ((attended 1 1).core 0).sfuQ = [] ∧ ((attended 1 1).core 0).att = none ∧
       (m.readLoc 0 ⟨.core, 0⟩ 128).isOk = true) ∧
    (AttD.bad ⟨attWords 1⟩) = false ∧ (AttD.bad ⟨List.replicate 16 0⟩) = true ∧ (AttD.seqs ⟨attWords 0⟩) = 0 ∧ (AttD.bad ⟨attWords 0⟩) = false ∧
    (AttD.seqs ⟨attWords 1⟩) ≠ 0 ∧ attEnds 1 1 = some (some false) ∧ attEnds 1 0 = some none ∧
    carEnds 1 0 = 1 ∧ carEnds 1 4 = 2 ∧ carEnds 2 0 = 3 ∧
    ((onCore run0 fun c => { c with att := some { w := [] } }).core 0).att = some { w := [] } ∧
    (onCore run0 fun c => { c with att := some { w := [] } }).passing 0 = true ∧
    (inState (onCore run0 fun c => { c with att := some { w := [] } }) 2).passing 0 = false := by decide +kernel

/-- E2M1 as a floating-point format: 1.5 × 2^1 = 3 and 7 beyond the largest value 6. -/
def e2m1F : FloatFmt := ⟨4, 1, 0, 7, none, none⟩

theorem witness_NearestIsNearest : Fmt.e2m1.float = some e2m1F ∧ 0 < 1 ∧ e2m1F.nearest 3 1 0 ≤ e2m1F.maxCode ∧
    e2m1F.nearest 5 2 0 ≤ e2m1F.maxCode ∧ (4 : Nat) ≤ e2m1F.maxCode ∧ e2m1F.nearest 5 2 0 = 4 := by decide +kernel

theorem witness_ConversionsAtTheEdges : 0x7F < 2 ^ Fmt.width .int8 ∧ (Fmt.int8.decode 0x7F).isNan = false ∧ (0x7F : Nat) ≠ 0x80 ∧
    (7 : Nat) ≠ 8 ∧ 0x7F80 < 2 ^ Fmt.width .bf16 ∧ (Fmt.bf16.decode 0x7F80).isNan = false ∧
    Fmt.e2m1.float = some e2m1F ∧ e2m1F.maxCode < e2m1F.nearest 8 1 0 ∧
    (∃ f, Fmt.fp16.float = some f ∧ f.maxCode < f.nearest 1 1 16) ∧ (0 : Nat) < 2 ∧
    (Fmt.int8.intMax : ℚ) + 1 / 2 ≤ ((255 : Nat) : ℚ) / (2 : Nat) * 2 ^ (0 : Int) ∧ Fmt.int8.convertQ true 255 2 0 = (0x81, { saturated := true }) := by
  refine ⟨by decide, by decide, by decide, by decide, by decide, by decide, by decide, by decide +kernel, ⟨_, rfl, by decide +kernel⟩, by decide,
    by norm_num [Fmt.intMax], by decide +kernel⟩

theorem witness_PackThenUnpack : 0 < 6 ∧ (∀ c ∈ [0, 63, 5], c < 2 ^ 6) ∧ unpack 6 3 (pack 6 [0, 63, 5]) = [0, 63, 5] := by decide +kernel


/- Witnesses: registers, queues, dispatch, pace -/

/-- Host port 0 is up. -/
def hostUp0 (m : Block) : Block := { m with regs := (Reg.choPortStatus 0, 0x2000000000000000) :: m.regs }

theorem witness_RegisterWrites :
    (63 : Nat) < 64 ∧ up.region (regBase + 0x900000) = .reg 0x900000 ∧ (0x900000 / 0x100000) ∈ [9, 10, 11, 20] ∧ (regAt 0x900000).isSome = true ∧
    up.region (regBase + 0x1400000) = .reg 0x1400000 ∧ (0x1400000 / 0x100000) ∈ [9, 10, 11, 20] ∧ (regAt 0x1400000).isSome = true ∧
    up.absent 0x900000 = false ∧ up.absent 0x1400000 = false ∧ 0x1400000 % 8 = 0 ∧ windowMapped 9 = true ∧ windowMapped 20 = true ∧
    (1 : Nat) ≠ 0 ∧ (hostUp0 up).choSt 0 = 2 ∧ ({ hostUp0 up with cmd := { tenants := [⟨1, false, true⟩] } } : Block).tagOk 0 1 = true ∧
    ({ hostUp0 up with cmd := { tenants := [⟨1, false, true⟩] } } : Block).choSt 0 = 2 ∧
    up.region (regBase + 0x900004) = .reg 0x900004 ∧ regAccessOk 0x900004 8 = false ∧ regAccessOk 0x1F00000 4 = false := by decide +kernel

theorem witness_ClearsAndStops : (127 : Nat) < run0.coreCount ∧ 15 < run0.tileCount ∧ run0.tuning = true ∧ 31 < run0.stackCount ∧
    (7 : Nat) < 8 ∧ (∀ x ∈ [1, 2, 3], (inState run0 x).coreSt 0 = x ∧ ((inState run0 x).core 0).task = none ∧ (inState loading x).coreSt 0 = x ∧
      ((inState loading x).core 0).task = some ⟨1, 1, 0⟩) := by decide +kernel

/-- A queue of tenant 1, context 1: rings of 16 entries, of a class. -/
def queue1 (cls : Nat) : Queue := { id := ⟨1, 1, 0⟩, sqBase := hostBase, cqBase := hostBase + 0x10000, log2Sq := 4, log2Cq := 4, cls := cls, irqEn := true }

/-- Tenant 1, its context 1, and one queue; the host behind port 0 is up. -/
def queued (x : Queue) : Block :=
  hostUp0 { ranged with cmd := { ranged.cmd with queues := [x], tenants := [⟨1, false, true⟩], contexts := [{ tenant := 1, ctx := 1 }] } }

theorem witness_Doorbells :
    (queued (queue1 2)).choSt 0 = 2 ∧ (queued (queue1 2)).tagOk 0 1 = true ∧ (queued (queue1 2)).queue? ⟨1, 1, 0⟩ = some (queue1 2) ∧
    15 < 2 ^ (queue1 2).log2Sq ∧ ((queue1 2).sqTail + 16 - (queue1 2).sqHead) % 16 + (15 + 16 - (queue1 2).sqTail) % 16 < 16 ∧
    ¬ 16 < 2 ^ (queue1 2).log2Sq ∧ (queue1 2).cls ≠ 0 ∧ (queue1 0).cls = 0 ∧ (queued (queue1 0)).queue? ⟨1, 1, 0⟩ = some (queue1 0) ∧
    (queued (queue1 0)).askWake.serving = true ∧ (queued (queue1 0)).askWake.ctxOpen 1 1 = true ∧ (queue1 0).destroyBy = none ∧
    (queue1 0).lossTail = none ∧ ({ queued (queue1 0) with fw := {} } : Block).askWake.serving = false ∧
    ({ queued (queue1 0) with fw := {} } : Block).queue? ⟨1, 1, 0⟩ = some (queue1 0) ∧
    3 < 2 ^ ({ queue1 2 with cqTail := 3 } : Queue).log2Cq ∧
    (3 + 16 - 0) % 16 ≤ (({ queue1 2 with cqTail := 3 } : Queue).cqTail + 16 - 0) % 16 ∧ (3 + 16 - 0) % 16 < (4 + 16 - 0) % 16 ∧
    2 ^ (queue1 2).log2Cq ≤ 16 ∧ (queued { queue1 2 with cqTail := 3 }).queue? ⟨1, 1, 0⟩ = some { queue1 2 with cqTail := 3 } := by decide +kernel

/-- CMD_SYS_SQ and CMD_SYS_CQ name rings in host memory. -/
def ringed (cfg : Word) : Block :=
  { hostUp0 up with regs := (Reg.cmdSysSq, BitVec.ofNat 64 hostBase) :: (Reg.cmdSysCq, BitVec.ofNat 64 (2 * hostBase - 4096)) :: (Reg.cmdSysCfg, cfg) :: (hostUp0 up).regs }

theorem witness_SystemAdminQueue :
    (ringed 0).fld Reg.cmdSysCfg 63 63 = 0 ∧ (ringed 0).fw.fwUp = true ∧ (4 : Nat) ≤ 4 ∧ (4 : Nat) ≤ 7 ∧ (7 : Nat) ≤ 12 ∧
    (ringed 0).queue? ⟨0, 0, 0⟩ = none ∧
    (∀ r ∈ [(Reg.cmdSysSq, 64 * 2 ^ 4), (Reg.cmdSysCq, 32 * 2 ^ 7)], ((ringed 0).reg r.1).toNat % 4096 = 0 ∧ hostBase ≤ localPart ((ringed 0).reg r.1).toNat ∧
      localPart ((ringed 0).reg r.1).toNat + r.2 ≤ 2 * hostBase) ∧
    (ringed 0x8000000000000044).choSt 0 = 2 ∧ (ringed 0x8000000000000044).fld Reg.cmdSysCfg 63 63 = 1 := by decide +kernel

/-- One packet waits in the ring. -/
def posted (cls : Nat) : Queue := { queue1 cls with sqTail := 1 }

/-- A packet with an opcode and a DEADLINE. -/
def packet (op deadline : Word) : Packet := [op <<< 48, deadline, 0, 0, 0, 0, 0, 0]

/-- A command of the queue, as admission sees it. -/
def cmdOf (p : Packet) : Cmd := { q := ⟨1, 1, 0⟩, packet := p, sqHead := 1, admitted := 0 }

/-- A TASK_RUN packet: DEADLINE, saddle table of `count` entries for one row, KV list of `kvn` entries in a payload at an address. -/
def taskPk (deadline : Word) (table count kvn addr : Nat) : Packet :=
  [0x102 <<< 48, deadline, BitVec.ofNat 64 addr, if addr = 0 then 0 else BitVec.ofNat 64 (512 + 32 * kvn), 0, BitVec.ofNat 64 table,
   BitVec.ofNat 64 (count * 2 ^ 48 + (if count = 0 then 0 else 2 ^ 24)), BitVec.ofNat 64 (kvn * 2 ^ 48)]

theorem witness_PacketFetch :
    (∀ k ∈ [0, 2], (queued (posted k)).queue? ⟨1, 1, 0⟩ = some (posted k)) ∧ (queued (posted 2)).serving = true ∧ (queued (posted 2)).ctxOpen 1 1 = true ∧
    (posted 2).destroyBy = none ∧ (posted 2).fetchable = true ∧ (posted 0).fetchable = true ∧ (posted 2).sqHead ≠ (posted 2).sqTail ∧ (posted 2).id = ⟨1, 1, 0⟩ ∧
    (posted 0).cls = 0 ∧ (posted 2).cls ≠ 0 ∧ (∀ c ∈ (queued (posted 2)).cmd.cmds, c.q ≠ ⟨1, 1, 0⟩) ∧ (posted 2).held = [] ∧
    (queued (posted 2)).booked < bookRoom ∧ (∀ p ∈ [packet 0 0, taskPk 0 0 0 0 0], (queued (posted 2)).fetchStatus (cmdOf p) false = none) ∧
    (queued (posted 2)).fetchStatus (cmdOf (packet 0x7777 0)) false = some 2 ∧ (queued (posted 2)).fetchStatus (cmdOf (packet 0x10 0)) false = some 2 ∧
    (queued (posted 2)).fetchStatus (cmdOf (packet 0x12 0)) false = some 3 ∧
    ((queued (posted 2)).sightTable (cmdOf (packet 0 0))).saddleNeeds (cmdOf (packet 0 0)) = .ok ([], []) ∧
    ((queued (posted 2)).sightTable (cmdOf (taskPk 0 (here 0x3000) 1 0 0))).saddleNeeds (cmdOf (taskPk 0 (here 0x3000) 1 0 0)) = .error 4 ∧
    (queued (posted 2)).fetchStatus (cmdOf (taskPk 0 (here 0x3000) 1 0 0)) false = none := by decide +kernel

/-- The host mapping is fixed: one host. -/
def mapped (x : Queue) : Block := { queued x with regs := (Reg.choMode, 0x4000000000000000) :: (queued x).regs }

theorem witness_CompletionRecords :
    (queued (queue1 2)).queue? ⟨1, 1, 0⟩ = some (queue1 2) ∧ (queue1 2).cqTail < 2 ^ (queue1 2).log2Cq ∧ (queued (queue1 2)).hostHeld 1 = false ∧
    (queue1 2).held = [] ∧ (mapped (queue1 2)).slotWaits (queue1 2) = false ∧ (mapped (queue1 2)).hostHeld 1 = false ∧ (mapped (queue1 2)).queue? ⟨1, 1, 0⟩ = some (queue1 2) ∧
    (queued { queue1 2 with cqTail := 15 }).slotWaits { queue1 2 with cqTail := 15 } = true ∧ ((15 + 1) % 2 ^ 4 = 0) ∧
    (mapped { queue1 2 with cqTail := 15, cqHead := 3 }).slotWaits { queue1 2 with cqTail := 15, cqHead := 3 } = false ∧
    ({ queue1 2 with held := [⟨[], false, none⟩] } : Queue).held ≠ [] ∧ (queued { queue1 2 with cqTail := 15 }).hostHeld 1 = false ∧
    ((queued (queue1 2)).modChotus 0 fun c => { c with lossTick := some 5 }).hostHeld 1 = true ∧
    ({ queued (queue1 2) with cho := { (queued (queue1 2)).cho with directory := [⟨(queue1 2).slot / 128, 0, false⟩] } } : Block).hostCopies ((queue1 2).slot / 128) ≠ [] ∧
    (0x11 : Nat) < 2 ^ 16 ∧ (31 : Nat) < 32 ∧ (255 : Nat) < 256 ∧ (15 : Nat) < 16 ∧ (0 : Nat) ≠ 0x11 ∧ (0 : Nat) ≠ 0x12 := by decide +kernel

/-- A PACED queue with a packet that waits for admission. -/
def waitingFor (p : Packet) : Queue := { queue1 0 with waiting := [(0, 1, p)] }

theorem witness_PacedAdmission :
    (∀ p ∈ [packet 0 0, packet 0 0xFFFFFFFFFFFF, packet 0 1, packet 0x101 5, packet 0x7777 0],
      (queued (waitingFor p)).nextPaced = some (waitingFor p, (0, 1, p)) ∧ (queued (waitingFor p)).serving = true ∧ (waitingFor p).id = ⟨1, 1, 0⟩) ∧
    (queued (queue1 0)).fetchStatus (cmdOf (packet 0x7777 0)) true = some 2 ∧
    (∀ p ∈ [packet 0 0, packet 0 0xFFFFFFFFFFFF, packet 0 1, packet 0x101 5], (queued (queue1 0)).fetchStatus (cmdOf p) true = none) ∧
    (opcodeRow 0).map (fun r => r.2.1) = some true ∧ (opcodeRow 0x101).map (fun r => r.2.1) = some false ∧ (opcodeRow 0x102).map (fun r => r.2.1) = some true ∧
    isAdmin ⟨1, 1, 0⟩ = false ∧ isAdmin ⟨1, 0, 0⟩ = true ∧ (cmdOf (taskPk 5 0 0 0 0)).opcode ≠ 0 ∧
    (cmdOf (packet 0 0)).deadline = 0 ∧ (cmdOf (packet 0 1)).deadline ≠ 0 ∧
    ({ queued (queue1 0) with pwr := { (queued (queue1 0)).pwr with emergOpen := true } } : Block).pwr.emergOpen = true ∧
    (queued (queue1 0)).pwr.emergOpen = false ∧ (queued (queue1 0)).booked < bookRoom := by decide +kernel

/-- A stud book of `l` commands. -/
def bookOf (l : List Cmd) : Block := { up with cmd := { cmds := l } }

theorem booked_ge (l : List Cmd) : l.length ≤ (bookOf l).booked := Nat.le_add_right _ _

theorem witness_PacedAdmission_full : bookRoom ≤ (bookOf (List.replicate bookRoom (cmdOf []))).booked :=
  le_trans (le_of_eq (List.length_replicate ..).symm) (booked_ge _)

/-- Admission's view of a PACED packet over a module with `slots` saddle slots and a reserve of so many MiB, whose tenant has one PAGED saddle,
named by the table at 0x3000: how the table and the list bind, whether the slots suffice, whether the reserve does, and whether the bound
meets the DEADLINE. -/
def admits (slots reserve : Nat) (p : Packet) : Nat × Nat × Bool × Bool × Bool :=
  let m0 := queued (queue1 0)
  let m : Block :=
    { m0 with
      regs := (Reg.sadCfg, BitVec.ofNat 64 (slots * 2 ^ 32)) :: (Reg.ddrPageReserve, BitVec.ofNat 64 reserve) :: m0.regs
      mem := holding 0x3000 [0x0000000700000000, 0x0001000000000000, 0, 0]
      page := { saddles := [{ uid := 0, tenant := 1, handle := 7, version := 1, bytes := 384, addr := 0, slot := none, state := .paged, tierOff := some 0, tierCurrent := true, lastRun := 0 }] } }
  let c := cmdOf p
  let m1 := (m.sightTable c).sightPayload c
  let payload := if c.opcode = 0x102 then m1.readPayload c else []
  match m1.saddleNeeds c with
  | .error st => (st, 0, false, false, false)
  | .ok b => match m1.kvNeeds c payload with
    | .error st => (0, st, false, false, false)
    | .ok kv =>
      let m2 := m1.sightKv c payload kv
      let c1 := { c with binds := b.1, rows := b.2, kv := kv, payload := payload, bound := true }
      let paged := (m2.boundSaddles c1).filter fun z => z.state == .paged
      let spilled := m2.pagedBytes c1 + m2.kvBytes kv
      let t := m2.paceBound c1 (if 0 < spilled then m2.pageTime m2.pageAhead spilled else 0)
      (0, 0, decide (paged.length ≤ m2.slotsFree c1), decide (m2.pageAhead + spilled ≤ m2.reserve), decide (m.time + t.1 ≤ c.deadline))

theorem witness_PacedAdmission_bound :
    [admits 1 1 (taskPk 5 (here 0x4000) 1 0 0), admits 1 1 (taskPk 5 0 0 1 (here 0x1000)), admits 0 1 (taskPk 5 (here 0x3000) 1 0 0),
     admits 1 0 (taskPk 5 (here 0x3000) 1 0 0), admits 1 1 (taskPk 5 (here 0x3000) 1 0 0), admits 1 1 (packet 0 0xFFFFFFFFFFFF), admits 1 1 (packet 0 1)] =
    [(4, 0, false, false, false), (0, 4, false, false, false), (0, 0, false, true, false),
     (0, 0, true, false, false), (0, 0, true, true, false), (0, 0, true, true, true), (0, 0, true, true, false)] := by decide +kernel

/-- A queue of a class that is ready since `since`, and its fetched command. -/
def readied (cls since time : Nat) : Block :=
  let m := queued { queue1 cls with ready := some since, starve := 1000 }
  { m with time := time, cmd := { m.cmd with cmds := [cmdOf (packet 0 0)] } }

theorem witness_QueueChoice :
    (∀ z ∈ (queued (waitingFor (packet 0 0))).cmd.queues, z.id.tenant < 32 ∧ z.id.ctx < 256 ∧ z.id.queue < 16) ∧
    (queued (waitingFor (packet 0 0))).nextPaced.isSome = true ∧
    (∃ q ∈ (readied 2 0 0).cmd.queues, q.asClass = 2 ∧ (readied 2 0 0).canDispatch q = true) := by decide +kernel

/-- An accepted PACED command whose lead tick is `lead`. -/
def pacedCmd (lead : Nat) (started : Bool) : Cmd := { cmdOf (packet 0 9000) with started := started, pace := some ⟨100, 10, 1, some lead, false, false⟩ }

/-- The block with it, at a tick. -/
def paced (lead time : Nat) (started : Bool) : Block :=
  let m := queued (queue1 0)
  { m with time := time, cmd := { m.cmd with cmds := [pacedCmd lead started] } }

theorem witness_DispatchOrder :
    (paced 50 50 false).fwRuns = true ∧ (paced 50 50 false).cmd.cmds.find? (paced 50 50 false).leadDue = some (pacedCmd 50 false) ∧
    (∀ k ∈ [1, 2, 3], (readied k 0 0).serving = true ∧ (readied k 0 0).cmd.cmds.find? (readied k 0 0).leadDue = none ∧
      (((readied k 0 0).cmd.queues.foldl (fun m q => m.promote q) (readied k 0 0).loadHeld).nextOfClass k).isSome = true ∧
      ∀ j ∈ [1, 2, 3], j ≠ k → (((readied k 0 0).cmd.queues.foldl (fun m q => m.promote q) (readied k 0 0).loadHeld).nextOfClass j) = none) ∧
    (queued (queue1 2)).serving = true ∧ (queued (queue1 2)).cmd.cmds.find? (queued (queue1 2)).leadDue = none ∧
    (∀ j ∈ [1, 2, 3], (((queued (queue1 2)).cmd.queues.foldl (fun m q => m.promote q) (queued (queue1 2)).loadHeld).nextOfClass j) = none) ∧
    (queued { queue1 3 with ready := some 5, starve := 10 }).queue? ⟨1, 1, 0⟩ = some { queue1 3 with ready := some 5, starve := 10 } ∧
    (queue1 3).promoted = false ∧
    (5 : Nat) + 10 ≤ ({ queued { queue1 3 with ready := some 5, starve := 10 } with time := 15 } : Block).time ∧
    ((paced 50 50 false).cmd.cmds.find? fun c => c.q == ⟨1, 1, 0⟩ && c.pace.isSome && !c.started) = some (pacedCmd 50 false) ∧
    (paced 50 50 false).leadDue (pacedCmd 50 false) = true := by decide +kernel

theorem witness_PaceEvents :
    ((run0.pullUp 0).core 0).saved.isSome = true ∧ (run0.pullUp 0).serving = true ∧ ((run0.pullUp 0).core 0).task = none ∧
    (run0.pullUp 0).pacedNeeds 0 = false ∧
    (let m := paced 50 100000 true
     m.running ⟨1, 1, 0⟩ = some (pacedCmd 50 true) ∧ 50 + m.fld Reg.paceAdm 31 0 + 10 ≤ m.time + 1 ∧ m.pwr.emergOpen = false ∧ m.pwr.recovery = none) ∧
    ({ up with regs := [(Reg.paceSuspEnd, 7)] } : Block).fld Reg.paceStatus 63 63 = 0 ∧
    ({ up with regs := [(Reg.paceSuspEnd, 7)] } : Block).reg Reg.paceSuspEnd ≠ 0 := by decide +kernel

theorem witness_PullUpThenResume :
    (run0.regs.map (·.1)).Nodup ∧ (run0.core 0).saved = none ∧ ((run0.pullUp 0).core 0).saved.isSome = true := by decide +kernel

theorem witness_TaskStart : (127 : Nat) < 128 ∧ (31 : Nat) < 32 ∧ (255 : Nat) < 256 ∧ (1536 : Nat) < 2048 ∧ (65535 : Nat) < 65536 ∧
    (65536 : Nat) ≤ 65536 ∧ (1024 : Nat) ≤ 1024 ∧ (2 : Nat) ^ 48 - 8 < 2 ^ 48 := by decide


/- Witnesses: commands, paging, codecs -/

/-- A running command with an opcode, parameters and a payload. -/
def cmd1 (q : QueueId) (op : Nat) (p : List Nat) (addr bytes : Nat) : Cmd :=
  { q := q, packet := [op * 2 ^ 48, 0, addr, bytes].map (BitVec.ofNat 64) ++ p.map (BitVec.ofNat 64), sqHead := 1, admitted := 0, started := true }

/-- The system admin queue and tenant 1's admin queue and work queue. -/
def sysQ : QueueId := ⟨0, 0, 0⟩
def admQ : QueueId := ⟨1, 0, 0⟩
def workQ : QueueId := ⟨1, 1, 0⟩

/-- The block with one running command. -/
def doing (m : Block) (c : Cmd) : Block := { m with cmd := { m.cmd with cmds := [c] } }

/-- Tenant 1 with its context and work queue. -/
def base1 : Block := queued (queue1 2)

/-- A 1,656-byte key payload for a tenant and a KEM_ID, in HBM. -/
def keyed (head id : Word) : Block := { base1 with mem := holding 0x1000 [head, id] }

/-- TENANT_KEY_LOAD of it. -/
def keyCmd (bytes : Nat) : Cmd := cmd1 sysQ 0x12 [0, 0, 0, 0] 0x1000 bytes

/-- A region that waits for its scrub. -/
def scrubbing (s : Scrub) (m : Block) : Block := { m with cmd := { m.cmd with scrubs := [s] } }

/-- What the checks of TENANT_KEY_LOAD see of a payload. -/
def keyView (m : Block) : Nat × Nat × Nat × Nat :=
  let p := m.readPayload (keyCmd 1656)
  (leAt p 0 1, leAt p 1 1, leAt p 2 6, leAt p 8 8)

theorem witness_TenantCommands :
    (doing base1 (cmd1 workQ 0 [0, 0, 0, 0] 0 0)).runs workQ 0 (cmd1 workQ 0 [0, 0, 0, 0] 0 0) = true ∧
    (∀ t ∈ [1, 2], (doing base1 (cmd1 sysQ 0x10 [0, 0, 0, t] 0 0)).runsFreely sysQ 0x10 (cmd1 sysQ 0x10 [0, 0, 0, t] 0 0) = true ∧
      (doing base1 (cmd1 sysQ 0x11 [0, 0, 0, t] 0 0)).runs sysQ 0x11 (cmd1 sysQ 0x11 [0, 0, 0, t] 0 0) = true) ∧
    base1.tenantExists 1 = true ∧ base1.tenantExists 2 = false ∧ (base1.cmd.contexts.filter (·.exists_)).length < 4096 ∧
    (base1.cmd.tenants.any fun x => x.id == 1 && x.dying) = false ∧
    (doing (keyed 0x0101 0) (keyCmd 1656)).runs sysQ 0x12 (keyCmd 1656) = true ∧ (keyCmd 128).payloadBytes ≠ 1656 ∧
    (doing (keyed 0x0101 0) (keyCmd 128)).runs sysQ 0x12 (keyCmd 128) = true ∧ (keyCmd 1656).payloadBytes = 1656 ∧
    keyView (keyed 0x0201 0) = (1, 2, 0, 0) ∧ keyView (keyed 0x0101 5) = (1, 1, 0, 5) ∧ (5 : Word) ≠ (keyed 0x0101 5).reg Reg.secKemId ∧
    keyView (keyed 0x0101 0) = (1, 1, 0, 0) ∧ (0 : Word) = (keyed 0x0101 0).reg Reg.secKemId ∧ (keyed 0x0101 0).tenantExists 1 = true ∧
    (∀ r ∈ ({ keyed 0x0101 0 with cmd := { (keyed 0x0101 0).cmd with ranges := [] } } : Block).cmd.ranges, r.tenant ≠ 1) ∧
    (keyed 0x0101 0).blocked (keyCmd 1656) = false ∧ (keyCmd 1656).q = sysQ := by decide +kernel

/-- RANGE_SET for tenant 1 of a range index at a place. -/
def rangeCmd (base idx : Nat) : Cmd := cmd1 sysQ 0x13 [base, 0x200000, 3, idx * 256 + 1] 0 0

theorem witness_TenantCommands_ranges :
    (∀ c ∈ [rangeCmd 0x400000 5, rangeCmd 0x2F0000000000 5], (doing base1 c).runsFreely sysQ 0x13 c = true ∧ (doing base1 c).tenantExists c.rangeTenant = true) ∧
    base1.rangePlace 0x2F0000000000 0x200000 = false ∧ base1.rangePlace 0x400000 0x200000 = true ∧ base1.keyValid 1 = false ∧
    ({ base1 with sec := { keys := [(1, [])] } } : Block).keyValid 1 = true ∧ base1.hasRetired 0x400000 0x200000 = false ∧
    firmwareArea 0x400000 0x200000 = false ∧
    (∀ r ∈ base1.cmd.ranges, ¬ (r.tenant = (rangeCmd 0x400000 5).rangeTenant ∧ r.idx = (rangeCmd 0x400000 5).rangeIndex) ∧
      (r.tenant ≠ (rangeCmd 0x400000 5).rangeTenant → overlaps 0x400000 0x200000 r.base r.size = false)) ∧
    (doing base1 { rangeCmd 0x400000 5 with wait := .zeroFill }).running sysQ = some { rangeCmd 0x400000 5 with wait := .zeroFill } ∧
    (rangeCmd 0x400000 5).opcode = 0x13 ∧ base1.region 0x400000 ≠ .host ∧ base1.copiesIn 0x400000 0x200000 = [] ∧ base1.region hostBase = .host ∧
    ({ base1 with cho := { base1.cho with directory := [⟨0x400000 / 128, 0, true⟩] } } : Block).copiesIn 0x400000 0x200000 ≠ [] ∧
    (doing base1 (cmd1 sysQ 0x14 [0, 0, 0, 1] 0 0)).runs sysQ 0x14 (cmd1 sysQ 0x14 [0, 0, 0, 1] 0 0) = true ∧
    (base1.cmd.ranges.any fun r => r.tenant == 1 && r.idx == 0) = true ∧ (base1.cmd.ranges.any fun r => r.tenant == 1 && r.idx == 9) = false ∧
    (doing base1 (cmd1 sysQ 0x15 [0x13F, 0, 0, 0] 0 0)).runs sysQ 0x15 (cmd1 sysQ 0x15 [0x13F, 0, 0, 0] 0 0) = true ∧
    (doing base1 (cmd1 sysQ 0x15 [0x23F, 0, 0, 0] 0 0)).runs sysQ 0x15 (cmd1 sysQ 0x15 [0x23F, 0, 0, 0] 0 0) = true := by decide +kernel

/-- A command that waits for an earlier shutdown. -/
def held (op p0 p3 : Nat) : Cmd := { cmd1 sysQ op [p0, 0x200000, 3, p3] 0 0 with wait := .shutdown }

/-- A RESOURCE_ASSIGN runs while the RESOURCE_RELEASE of the same channel, on another queue, waits for it to drain. -/
def releasing : Block :=
  { base1 with cmd := { base1.cmd with cmds := [cmd1 admQ 0x25 [0, 1, 0, 0] 0 0, { cmd1 workQ 0x26 [0, 1, 0, 0] 0 0 with wait := .unit }] } }

theorem witness_TenantCommands_deferred :
    (scrubbing ⟨1, none, some 5, 0x400000, 0x200000⟩ (doing base1 (rangeCmd 0x400000 5))).blocked (rangeCmd 0x400000 5) = true ∧
    (scrubbing ⟨1, none, some 5, 0x400000, 0x200000⟩ (doing base1 (rangeCmd 0x400000 5))).runs sysQ 0x13 (rangeCmd 0x400000 5) = true ∧
    ({ base1 with cmd := { base1.cmd with tenants := [⟨2, true, true⟩] } } : Block).blocked (cmd1 sysQ 0x10 [0, 0, 0, 2] 0 0) = true ∧
    (scrubbing ⟨1, some 3, none, 0, 0⟩ base1).blocked (cmd1 admQ 0x20 [3, 0, 0, 0] 0 0) = true ∧
    (releasing.running admQ).isSome = true ∧ (let c := cmd1 admQ 0x25 [0, 1, 0, 0] 0 0
      releasing.runs admQ 0x25 c = true ∧ releasing.blocked c = true ∧ c.opcode = 0x25) ∧
    (∀ op ∈ [0x10, 0x12, 0x13, 0x20, 0x25], (doing base1 (held op 0x400000 1)).running sysQ = some (held op 0x400000 1) ∧
      (held op 0x400000 1).wait = .shutdown ∧ (doing base1 (held op 0x400000 1)).blocked (held op 0x400000 1) = false ∧ (held op 0x400000 1).opcode = op) ∧
    (scrubbing ⟨1, none, some 5, 0x400000, 0x200000⟩ base1).cmd.scrubs[0]? = some ⟨1, none, some 5, 0x400000, 0x200000⟩ ∧
    base1.copiesIn 0x400000 0x200000 = [] := by decide +kernel

/-- A teardown of context (1, 1). -/
def tearing (purging : Bool) (out : Bool) : Block :=
  { base1 with
    time := 2500010
    cmd := { base1.cmd with contexts := [{ tenant := 1, ctx := 1, tear := some ⟨none, false, 0, 10, purging, 0⟩ }] }
    fab := { reads := if out then [⟨0, 0, 1, 1, 5, 0, 128, none, none, false⟩] else [] } }

theorem witness_ContextCommands :
    (∀ c ∈ [cmd1 admQ 0x20 [1, 0, 0, 0] 0 0, cmd1 admQ 0x20 [2, 0, 0, 0] 0 0], (doing base1 c).runsFreely admQ 0x20 c = true ∧ c.q = admQ ∧
      field (c.p 2) 32 16 = 0 ∧ field (c.p 3) 22 12 = 0) ∧
    (base1.context? 1 1).isSome = true ∧ base1.context? 1 2 = none ∧ (base1.cmd.contexts.filter (·.exists_)).length < 4096 ∧ base1.copiesIn poolBase 0 = [] ∧
    (∀ op ∈ [0x21, 0x22], ∀ x ∈ [1, 2], (doing base1 (cmd1 admQ op [x, 0, 0, 0] 0 0)).runs admQ op (cmd1 admQ op [x, 0, 0, 0] 0 0) = true) ∧
    ((base1.context? 1 1).bind fun x => x.tear) = none ∧
    ((tearing false false).context? 1 1).isSome = true ∧ (tearing false false).outstanding 1 1 = 0 ∧ (tearing false true).outstanding 1 1 ≠ 0 ∧
    (tearing false false).copiesIn poolBase 0 = [] ∧ ((tearing true true).context? 1 1).any (fun x => x.tear.any fun d => d.purging) = true ∧
    10 + 2500000 ≤ (tearing false true).time := by decide +kernel

/-- QUEUE_CREATE of a queue of tenant 1 with rings in its first range. -/
def queueCmd (ctx queue starve : Nat) : Cmd :=
  cmd1 admQ 0x23 [here 0x10000, here 0x20000, 0x0448000000000000 + ctx * 2 ^ 40 + queue * 2 ^ 36, starve] 0 0

/-- RESOURCE_ASSIGN or RELEASE of channel 0 of tile 0. -/
def resourceCmd (op ctx : Nat) : Cmd := cmd1 admQ op [0, ctx, 0, 0] 0 0

theorem witness_ContextCommands_queues :
    (∀ c ∈ [queueCmd 2 1 0, queueCmd 1 0 0, queueCmd 1 1 30000, queueCmd 1 1 0], (doing base1 c).runs admQ 0x23 c = true) ∧
    base1.context? 1 2 = none ∧ (base1.context? 1 1).isSome = true ∧ base1.remoteNode (here 0x10000) = none ∧ localPart (here 0x20000) = 0x20000 ∧ here 0x20000 < 2 ^ 60 ∧ base1.rangeOk 1 0x10000 1024 false false = true ∧
    base1.rangeOk 1 0x20000 512 true false = true ∧
    base1.rangeOk 1 0x10000 1024 true false = true ∧ base1.rangeOk 1 0x20000 512 false false = true ∧ base1.rangeOk 1 0x400000 1024 false false = false ∧ (base1.queue? ⟨1, 1, 0⟩).isSome = true ∧ base1.queue? ⟨1, 1, 1⟩ = none ∧
    field ((queueCmd 1 1 0).p 2) 51 50 = 2 ∧ field ((queueCmd 1 1 30000).p 3) 39 0 ≠ 0 ∧
    (doing base1 (cmd1 admQ 0x24 [1, 0, 0, 0] 0 0)).runs admQ 0x24 (cmd1 admQ 0x24 [1, 0, 0, 0] 0 0) = true ∧
    base1.queue? workQ = some (queue1 2) ∧ isAdmin workQ = false ∧ base1.running workQ = none ∧ (∀ y ∈ base1.cmd.cmds, y.q ≠ workQ) ∧
    ((doing base1 (cmd1 workQ 0 [] 0 0)).running workQ).isSome = true ∧
    (doing base1 (resourceCmd 0x25 1)).runsFreely admQ 0x25 (resourceCmd 0x25 1) = true ∧ (doing base1 (resourceCmd 0x25 2)).runsFreely admQ 0x25 (resourceCmd 0x25 2) = true ∧ (doing base1 (resourceCmd 0x26 1)).runs admQ 0x26 (resourceCmd 0x26 1) = true ∧
    base1.fld (resourceOwner 0 0 0) 63 63 = 0 ∧ (copying []).fld (resourceOwner 0 0 0) 63 63 = 1 ∧ base1.ownedBy (resourceOwner 0 0 0) 1 1 = false ∧
    (copying []).ownedBy (resourceOwner 0 0 0) 1 1 = true ∧ (copying []).resourceIdle 0 0 0 = true ∧ (copying [moved]).resourceIdle 0 0 0 = false := by
  decide +kernel

/-- A PROGRAM_LOAD payload (Tables 4.4, 4.5, 12.6): slot 0 on core 1, one CODE section of 8 bytes of zeros; the image's CRC-32C was
worked out outside the model. -/
def loaded (crc : Word) : Block :=
  { base1 with
    cmd := { base1.cmd with contexts := [{ tenant := 1, ctx := 1, cmSize := 2, hitches := 4 }] }
    mem := holding 0x1000 [1] ++ holding 0x1280 [0x14C445242, 0x1000100101A0C, crc <<< 32, 0, 0x1000, 0, 0x80, 0xA8] ++ holding 0x1300 [0x70001, 0xA0, 8, 0] }

/-- The PROGRAM_LOAD. -/
def loadCmd : Cmd := cmd1 workQ 0x100 [0, 0x280, 0, 0] 0x1000 0x328

/-- Whether its image is rejected. -/
def rejected (crc : Word) : Option Bool :=
  ((loaded crc).context? 1 1).map fun x => (loaded crc).imageBad x (loadReq loadCmd ((loaded crc).readPayload loadCmd))

/-- The same image with UNITS = 1. -/
def unitLoad : Block := { loaded 0 with mem := (loaded 0).mem.writeN 0x128B [1] }

set_option maxRecDepth 100000 in
theorem witness_WorkCommands_program : (doing (loaded 0) loadCmd).runs workQ 0x100 loadCmd = true ∧ (loaded 0).tuning = true ∧
    ((loaded 0).context? workQ.tenant workQ.ctx).isSome = true ∧
    rejected 0x10F1CF64 = some false ∧ rejected 0 = some true ∧ (loaded 0).storeBytes + 8 ≤ 2 ^ 32 ∧
    (loaded 0).cmd.programs.length < 64 ∧ 64 ≤ (List.replicate 64 (0 : Nat)).length ∧
    (let m : Block := { unitLoad with fuse := { variant := .sbm3216s } }
     let h := headerOf (loadReq loadCmd (m.readPayload loadCmd)).image
     h.magic = 0x4C445242 ∧ h.major = 1 ∧ h.family = 0x1A0C ∧ 0 < h.units % 4 ∧ m.tuning = false) := by decide +kernel

/-- A program of context (1, 1) on core 3, handle 1. -/
def prog1 : Program := ⟨1, 1, 1, [3], [], 0, 0, 128, 0x1000, [], [], none⟩

/-- The block with it; core 3 is free, or runs a task. -/
def programmed (busy : Bool) : Block :=
  { base1 with
    cmd := { base1.cmd with programs := [prog1], contexts := [{ tenant := 1, ctx := 1, cmSize := 2, hitches := 4 }] }
    cores := if busy then [(3, { task := some ⟨1, 1, 9⟩ })] else [] }

/-- TASK_RUN of a program handle, its saddles and pages bound. -/
def taskCmd (handle : Nat) : Cmd := { cmd1 workQ 0x102 [handle * 2 ^ 32, 0, 0, 0] 0 0 with bound := true }

theorem witness_WorkCommands :
    (∀ h ∈ [1, 9], (doing (programmed false) (cmd1 workQ 0x101 [h, 0, 0, 0] 0 0)).runs workQ 0x101 (cmd1 workQ 0x101 [h, 0, 0, 0] 0 0) = true) ∧
    ((programmed false).cmd.programs.any fun x => x.tenant == 1 && x.ctx == 1 && x.handle == 1 && x.gone.isNone) = true ∧
    ((programmed false).cmd.programs.any fun x => x.tenant == 1 && x.ctx == 1 && x.handle == 9 && x.gone.isNone) = false ∧
    (doing (programmed false) (cmd1 workQ 0x103 [3, 1, 0, 0] 0 0)).runs workQ 0x103 (cmd1 workQ 0x103 [3, 1, 0, 0] 0 0) = true ∧
    (programmed false).hitchAddr 1 1 3 = some (poolBase + 24) ∧ (programmed false).hitchAddr 1 1 4 = none ∧
    (∀ b ∈ [true, false], (doing (programmed b) (taskCmd 1)).runs workQ 0x102 (taskCmd 1) = true ∧ (programmed b).programOf (taskCmd 1) = some prog1 ∧
      ((programmed b).context? 1 1).isSome = true ∧ prog1.slots.all (programmed b).coreUsable = true) ∧
    (taskCmd 1).bound = true ∧ (taskCmd 1).kv = [] ∧ (taskCmd 1).p 1 = 0 ∧ (∀ z ∈ (programmed false).boundSaddles (taskCmd 1), z.state = .resident) ∧
    (let c : Cmd := { cmd1 workQ 0x102 [2 ^ 32, here 0x3000, 2 ^ 48 + 2 ^ 24, 0] 0 0 with bound := true }
     let filled (m : Block) : Block := (m.modCmd workQ fun _ => c).fillTable c (c.p 1).toNat 1
     (doing (programmed false) c).runs workQ 0x102 c = true ∧ c.p 1 ≠ 0 ∧ (programmed false).programOf c = some prog1 ∧ (doing (programmed false) c).slotsOpen c prog1 = true ∧
       (filled (doing (programmed false) c)).writeWaits 0x3000 32 = false ∧
       (filled { doing (programmed false) c with cho := { base1.cho with snoops := [⟨0x3000 / 128, 0, 0, some { addr := 0x3000, bytes := [1], mask := [], bad := false }⟩] } }).writeWaits 0x3000 32 = true) ∧
    (doing (programmed false) (taskCmd 1)).slotsOpen (taskCmd 1) prog1 = true ∧ (doing (programmed true) (taskCmd 1)).slotsOpen (taskCmd 1) prog1 = false ∧
    (doing (programmed false) (taskCmd 9)).runs workQ 0x102 (taskCmd 9) = true ∧ (programmed false).programOf (taskCmd 9) = none ∧
    (doing base1 (cmd1 workQ 0x104 [0, 0, 0, 0] 0 0)).runs workQ 0x104 (cmd1 workQ 0x104 [0, 0, 0, 0] 0 0) = true ∧ 15 < base1.tileCount ∧
    base1.tileCount ≤ 16 ∧ (base1.tile 15).cmdChan = none := by decide +kernel

/-- A saddle image of 384 bytes (Table 10.1): handle 7, rank 4, one layer of one projection 1 × 1 in BF16. -/
def saddled (l : List Saddle) : Block :=
  { base1 with
    regs := (Reg.sadCfg, 0x0000000400010001) :: base1.regs
    mem := holding 0x1000 [0x0000000700000004, 0x1110010000000001, 0x180, 0, 0x0000000100000001]
    page := { saddles := l } }

/-- A saddle of tenant 1. -/
def saddle1 (x : SaddleState) : Saddle := { uid := 0, tenant := 1, handle := 7, version := 1, bytes := 384, addr := 0, slot := none, state := x, tierOff := none, tierCurrent := false, lastRun := 0 }

/-- A saddle command with its image. -/
def sadCmd (op handle bytes : Nat) : Cmd := cmd1 workQ op [handle, 0, 0, 0] 0x1000 bytes

theorem witness_WorkCommands_saddles :
    (∀ n ∈ ([384, 256] : List Nat), (doing (saddled []) (sadCmd 0x110 0 n)).runs workQ 0x110 (sadCmd 0x110 0 n) = true) ∧
    (sadHeaderOf ((saddled []).readPayload (sadCmd 0x110 0 384))).sound 384 = true ∧
    (sadHeaderOf ((saddled []).readPayload (sadCmd 0x110 0 256))).sound 256 = false ∧
    (sadHeaderOf ((saddled []).readPayload (sadCmd 0x110 0 384))).handle = 7 ∧
    (saddled []).saddle? 1 7 = none ∧ (saddled [saddle1 .resident]).saddle? 1 7 = some (saddle1 .resident) ∧
    ((saddled []).keepImage 1 7 1 (((saddled []).readPayload (sadCmd 0x110 0 384)).take 384)).isSome = true ∧
    (∀ h ∈ ([7, 8] : List Nat), (doing (saddled [saddle1 .resident]) (sadCmd 0x111 h 384)).runs workQ 0x111 (sadCmd 0x111 h 384) = true) ∧
    (saddled [saddle1 .lost]).saddle? 1 7 = some (saddle1 .lost) ∧ (saddled [saddle1 .resident]).saddle? 1 8 = none ∧
    ((saddled [saddle1 .resident]).keepImage 1 7 2 (((saddled []).readPayload (sadCmd 0x110 0 384)).take 384)).isSome = true ∧
    ((saddled [{ saddle1 .resident with handle := 8 }]).saddle? 1 8).map (·.handle) = some 8 ∧
    (doing (saddled [saddle1 .resident]) (sadCmd 0x112 7 0)).runs workQ 0x112 (sadCmd 0x112 7 0) = true ∧
    (saddled [saddle1 .resident]).pinned (saddle1 .resident) = false ∧
    (doing (saddled [saddle1 .resident]) { sadCmd 0x102 0 0 with binds := [(7, 0)] }).pinned (saddle1 .resident) = true := by decide +kernel

/-- Object 3 of tenant 2, 192 KiB. -/
def paged3 (resident : Bool) : PageObj := ⟨3, .other 2, 2, 0x800000, 0, 0x30000, resident⟩

/-- The tier works over channel 0, whose engine has `e`; object 3 of tenant 2 of 192 KiB has a request. -/
def paged (e : Tbl (Nat × Bool × Nat)) (urgent background : List PageReq) (resident : Bool) : Block :=
  { base1 with
    regs := (Reg.ddrTierStatus, 0x8000000100000001) :: (Reg.ddrStatus 0, 0x2000000000000000) :: base1.regs
    page := { objs := [paged3 resident], engines := e, urgent := urgent, background := background } }

/-- The one saddle that may leave its slot, and the block that holds it as object 3. -/
def slotted : Saddle := { uid := 0, tenant := 1, handle := 7, version := 1, bytes := 384, addr := 0x800000, slot := some 0, state := .resident, tierOff := some 0, tierCurrent := true, lastRun := 0 }
def slotted3 (old : Bool) : Block :=
  { base1 with
    regs := (Reg.ddrTierStatus, 0x8000000100000001) :: base1.regs
    page := { objs := [⟨3, .saddle 1 7 0, 1, 0x800000, 0, 384, true⟩]
              saddles := slotted :: (if old then [{ slotted with uid := 1, handle := 8, lastRun := 0 }, { slotted with uid := 2, handle := 9 }] else []) } }

theorem witness_PagingRows :
    (let m := paged [] [] [] false
     (m.page.engines.find? fun x => x.1 == 0) = none ∧ m.fld Reg.ddrTierStatus 63 63 ≠ 0 ∧ m.channels.contains 0 = true ∧
       m.openReq 0 m.page.urgent = none ∧ m.openReq 0 m.page.background = none ∧ m.channels.contains 9 = false ∧ (m.page.engines.find? fun x => x.1 == 9) = none) ∧
    (let r : PageReq := ⟨3, true, [(0, 1)], 0⟩
     let m := paged [] [r] [] false
     m.openReq 0 m.page.urgent = some r ∧ m.channels.contains 0 = true) ∧
    (let r : PageReq := ⟨3, false, [], 0⟩
     let m := paged [] [] [r] true
     m.openReq 0 m.page.urgent = none ∧ m.openReq 0 m.page.background = some r) ∧
    (let r : PageReq := ⟨3, true, [(0, 1)], 0⟩
     let m := paged [(0, 3, true, 1)] [r] [] false
     (m.page.engines.find? fun x => x.1 == 0) = some (0, 3, true, 1) ∧ m.obj? 3 = some (paged3 false) ∧ (m.page.urgent.find? fun r => r.obj == 3) = some r ∧
       ((m.segBlocks (paged3 false) 0 1).filter fun b => m.heldExclusive (blockSource (paged3 false) true b) (blockBytesOf (paged3 false) b)) = [] ∧ r.pageIn ≠ false) ∧
    (let r : PageReq := ⟨3, false, [(0, 2)], 0⟩
     let m := paged [(0, 3, false, 2)] [] [r] true
     (m.page.engines.find? fun x => x.1 == 0) = some (0, 3, false, 2) ∧ m.obj? 3 = some (paged3 true) ∧ (m.page.background.find? fun r => r.obj == 3) = some r ∧
       ((m.segBlocks (paged3 true) 0 2).filter fun b => m.heldExclusive (blockSource (paged3 true) false b) (blockBytesOf (paged3 true) b)) = [] ∧
       m.reqDone (paged3 true) { r with done := Tbl.put r.done 0 (2 + 1) } = true ∧
       (let h : Block := { m with cho := { m.cho with directory := [⟨0x820000 / 128, 0, true⟩] } }
        ((h.segBlocks (paged3 true) 0 2).filter fun b => h.heldExclusive (blockSource (paged3 true) false b) (blockBytesOf (paged3 true) b)) ≠ [])) ∧
    ([2, 3].all fun n => (let r : PageReq := ⟨3, true, [(0, n)], 0⟩
      let m := paged [] [r] [] false
      (m.page.urgent.find? fun r => r.obj == 3) == some r && m.reqDone (paged3 false) r == decide (3 ≤ n))) = true := by decide +kernel

theorem witness_PagingRows_objects :
    (let m := paged [] [] [] true
     m.obj? 3 = some (paged3 true) ∧ (paged3 true).kind = .other 2 ∧ m.objPinned (paged3 true) = false ∧ (paged3 true).resident = true ∧ m.queued 3 = false) ∧
    (doing (paged [] [] [] true) (cmd1 ⟨2, 1, 0⟩ 0 [] 0 0)).objPinned (paged3 true) = true ∧ base1.fld Reg.ddrTierStatus 63 63 = 0 ∧
    (let m := slotted3 false
     m.fld Reg.ddrTierStatus 63 63 ≠ 0 ∧ (m.obj? 3).any (fun o => o.kind == .saddle 1 7 0 && !m.objPinned o) = true ∧ m.saddleAt? 1 7 0 = some slotted ∧
       m.evictable = some slotted) ∧
    (let m := { slotted3 true with page := { (slotted3 true).page with saddles := { slotted with lastRun := 9 } :: (slotted3 true).page.saddles.drop 1 } }
     m.saddleAt? 1 7 0 = some { slotted with lastRun := 9 } ∧ m.evictable ≠ some { slotted with lastRun := 9 }) ∧
    31 < base1.stackCount ∧ base1.flt.failedStacks.contains 31 = false ∧ (paged [] [] [] false).fld (Reg.ddrStatus 0) 63 60 = 2 ∧
    (paged [] [] [] false).fwRuns = true := by decide +kernel

/-- Compression ring 0 of die 0: owned by context (1, 1), 16 entries, one entry whose first word is `w0`; a job on it or not. -/
def coded (w0 : Word) (jobs : Tbl CodecJob) : Block :=
  { base1 with
    regs := (Reg.cmpRingOwner 0 0, 0x8000000000000101) :: (Reg.cmpRingBase 0 0, 0x400000000) :: (Reg.cmpRingTail 0 0, 1) :: base1.regs
    mem := holding poolBase [w0], eng := { codecs := jobs } }

/-- The context that owns it. -/
def ctx11 : Context := { tenant := 1, ctx := 1 }

/-- Whether the entry is malformed, and how a job of no element ends. -/
def coding (w0 : Word) : Nat × Bool × Bool × Bool :=
  let m := (coded w0 []).entryTaken 2 0 64 ctx11
  let j : CJob := ⟨(coded w0 []).entryWords 2 0 64 ctx11⟩
  let r := runCodec m (ringMover 2 0 ctx11) j
  (j.op, m.cjobBad j, r.dead, r.needs.isEmpty)

/-- A lossy encode of one block from an address: whether it asks for data, or was curbed. -/
def encoding (src : Nat) : Bool × Bool × Bool :=
  let w : List Word := [0x0000010000000000, BitVec.ofNat 64 src, BitVec.ofNat 64 (here 0x10000), BitVec.ofNat 64 (here 0x20000), 1, 0, 0, 0]
  let m0 : Block := { coded 0 [] with mem := holding poolBase w }
  let m := m0.entryTaken 2 0 64 ctx11
  let r := runCodec m (ringMover 2 0 ctx11) ⟨w⟩
  (m0.entryWords 2 0 64 ctx11 == w && m0.entryReady 2 0 64 ctx11 && !m.cjobBad ⟨w⟩, !r.needs.isEmpty, r.dead)

theorem witness_RingsAndCodecs_waits : encoding (5 * 2 ^ 48) = (true, true, false) ∧ encoding (here 0x300000) = (true, false, true) := by decide +kernel

theorem witness_RingsAndCodecs :
    (15 < (coded 0 []).ringSize 2 0 ∧ ¬ 16 < (coded 0 []).ringSize 2 0) ∧ (coded 0 []).tailOf 2 0 = 1 ∧ (coded 0 []).headOf 2 0 = 0 ∧
    ((1 + 16 - 0) % 16 + (15 + 16 - 1) % 16 < 16) ∧ ¬ ((1 + 16 - 0) % 16 + (0 + 16 - 1) % 16 < 16) ∧ base1.ringSize 3 0 = 1 ∧
    (coded 0 []).ownsAsCore (.core 9) (ringOwner 2 0) = false ∧ ((1 + 16 - 1) % 16 = 0) ∧ base1.serves 2 0 1 1 = none ∧
    (∀ w ∈ [0x0000010000000000, 0x1000010000000000, 0x2000010000000000, 0x3000010000000000, 0, 0x4000000000000000],
      (coded (BitVec.ofNat 64 w) []).entryReady 2 0 64 ctx11 = true) ∧ (∀ e ∈ (coded 0 []).eng.codecs, e.1 ≠ 0) ∧
    coding 0x0000010000000000 = (0, false, false, true) ∧ coding 0x1000010000000000 = (1, false, false, true) ∧
    coding 0x2000010000000000 = (2, false, false, true) ∧ coding 0x3000010000000000 = (3, false, false, true) ∧
    (coding 0).2.1 = true ∧ (coding 0x4000000000000000).1 = 4 ∧ (coding 0x4000000000000000).2.1 = true ∧
    (∀ b ∈ [true, false], ((coded 0 [(0, ⟨1, 0, 0, 1, b⟩)]).eng.codecs.find? fun e => e.1 == 0) = some (0, ⟨1, 0, 0, 1, b⟩)) ∧
    (coded 0 []).ringOf 2 0 = some ctx11 ∧ (coded 0 []).ringSt 2 0 < 2 ∧ (coded 0 []).allAcked (Master.code (.codec 0)) = true ∧
    (coded 0 []).outputsWait ⟨leWords 8 ((coded 0 []).readMem ((coded 0 []).entryAddr 2 0 ctx11 64 ((coded 0 []).headOf 2 0)) 64)⟩ = false := by decide +kernel


/- Witnesses: Drover, Groom, Pacer, collectives -/

/-- Context (1, 1) with a pool window of 2 MiB and 4 hitches. -/
def ctxP : Context := { tenant := 1, ctx := 1, poolSize := 32, hitches := 4 }

/-- Ring 0 of a unit, owned by it, 16 entries, one entry `ws` at the window's start; `extra` stands elsewhere in memory. -/
def ringHolds (mtype : Nat) (ws : List Word) (extra : Memory) (m : Block) : Block :=
  { m with
    regs := (ringOwner mtype 0, 0x8000000000000101) :: (ringBase mtype 0, 0x400000000) :: (ringTail mtype 0, 1) :: m.regs
    mem := extra ++ holding poolBase ws, cmd := { m.cmd with contexts := [ctxP] } }

/-- What a read gives: its bytes when it is made and carries no poison. -/
def bytesOf : Got → Option (Block × List Byte)
  | .data m bs false => some (m, bs)
  | _ => none

/-- A dispatch descriptor: one expert, K 1, one peer, EXCH 5, rows of 128 bytes, no token, its map at 0x80000; `op` and `hosted` vary. -/
def xwords (op hosted : Nat) : List Word :=
  if op = 0 then [0x0080000000000000, 0x0001000100050000, 0, 0, 0x00800000, BitVec.ofNat 64 (here 0x80000)]
  else [0x1000000000000000, BitVec.ofNat 64 (0x50000 + hosted), 0, 0, 0x00800000, 0, 0, 0, 0, BitVec.ofNat 64 (here 0x90000)]

/-- The block with it: the map names a queue at 0x100000, as the hosted list does. -/
def droving (op hosted : Nat) : Block :=
  ringHolds 3 (xwords op hosted) (holding 0x80000 [BitVec.ofNat 64 (here 0x100000)] ++ holding 0x90000 [BitVec.ofNat 64 (here 0x100000)]) base1

/-- The lists of its job, read and checked: the expert map and the hosted entries. -/
def listsOf (op hosted : Nat) : Option (Block × List Nat × List HostEnt) := do
  let m := droving op hosted
  let d : XD := ⟨m.entryWords 3 0 128 ctxP⟩
  let v := ringMover 3 0 ctxP
  let (m1, hs) ← bytesOf ((m.entryTaken 3 0 128 ctxP).engRead v (d.addr 9) (32 * d.hosted))
  let (m2, ms) ← bytesOf (m1.engRead v (d.addr 5) (8 * d.experts))
  let (m3, _) ← bytesOf (m2.engRead v (d.addr 2) (32 * d.tokens))
  if d.reserved || d.misaligned || d.outOfRange ctxP || d.op != op then none
  else some (m3, (List.range d.experts).map fun e => leAt ms (8 * e) 8, hostEnts d.hosted hs)

/-- A job on ring 0 of tile 0 whose one segment is in `phase`. -/
def jobbed (phase : Nat) (nacked : Bool) (hosted : List Nat) (time : Nat) : Block :=
  { droving 0 0 with
    time := time
    eng := { xjobs := [(0, { words := xwords 0 0, exch := 5, segs := [{ expert := 0, qaddr := 0x100000, choices := [], phase := phase, sent := 1000, nacked := nacked }], hosted := hosted })] } }

theorem witness_DroverRows_origin :
    (droving 0 0).entryReady 3 0 128 ctxP = true ∧ (∀ e ∈ (droving 0 0).eng.xjobs, e.1 ≠ 0) ∧
    (listsOf 0 0).any (fun l => l.2.1 == [here 0x100000] && l.2.2.isEmpty && l.2.1.all (fun q => !l.1.mapBad q)) = true ∧
    (droving 0 0).headerReads (ringMover 3 0 ctxP) [] = ([], none) ∧ ((droving 0 0).armHosted 0 ⟨xwords 0 0⟩ ctxP (ringMover 3 0 ctxP) []).2.1 = [] ∧
    routeChoices ⟨xwords 0 0⟩ [] = [] ∧
    (∀ p ∈ [0, 1, 2, 3], ((jobbed p true [] 7000).eng.xjobs.find? fun e => e.1 == 0).isSome = true ∧ (jobbed p true [] 7000).ringOf 3 0 = some ctxP ∧
      (jobbed p true [] 7000).ringSt 3 0 < 2) ∧
    1000 + 5000 ≤ (jobbed 0 true [] 6000).time ∧ (jobbed 0 true [] 5999).time < 1000 + 5000 ∧
    (jobbed 0 true [] 6000).time < 0 + (jobbed 0 true [] 6000).fld (Reg.drvCfg 0) 39 0 ∧
    ((jobbed 2 false [] 7000).payQueues.eng.xjobs.find? fun e => e.1 == 0).isSome = true ∧ (jobbed 2 false [] 7000).payQueues.ringOf 3 0 = some ctxP ∧
    (jobbed 2 false [] 7000).payQueues.ringSt 3 0 < 2 ∧ (jobbed 2 false [] 7000).payQueues.allAcked (ringMover 3 0 ctxP).code = true ∧
    ((jobbed 2 false [] 7000).payQueues.engWrite (ringMover 3 0 ctxP) 0 [] false).2 = true := by decide +kernel

/-- A queue armed at 0x100000 for EXCH 5. -/
def armed1 (complete : Bool) : Armed :=
  { qaddr := 0x100000, exch := 5, peers := 1, tenant := 1, ctx := 1, ring := 0, gentry := 0, outAddr := 0, outPitch := 0, capacity := 4, rowBytes := 128, header := [], complete := complete }

/-- The block that hosts it, ready for a combine that names it. -/
def arming (complete : Bool) (m : Block) : Block := { m with eng := { m.eng with armed := [(0, [armed1 complete])] } }

theorem witness_DroverRows_combine :
    (arming true (droving 1 1)).entryReady 3 0 128 ctxP = true ∧ (∀ e ∈ (droving 1 1).eng.xjobs, e.1 ≠ 0) ∧
    (listsOf 1 1).any (fun l => l.2.1.isEmpty && l.2.2 == [⟨here 0x100000, 0, 0, 0, 0⟩] && l.2.2.all fun y => y.rsv == 0 && !y.misaligned 1) = true ∧
    (arming true (droving 1 1)).onModule (here 0x100000, 128) = true ∧ localPart (here 0x100000) = 0x100000 ∧
    (arming true (droving 1 1)).armedAt 0x100000 = some (armed1 true) ∧ (armed1 true).exch = (XD.exch ⟨xwords 1 1⟩) ∧ (armed1 true).fill = 0 ∧
    (droving 1 1).armedAt 0x100000 = none := by decide +kernel

/-- What a combine finds of its one hosted queue: the reason of its checks, whether its hitch is owed, whether its rows move. The queue is
armed complete, incomplete or not at all; `node` names it by another node. -/
def combined (armed : Option Bool) (owed node : Bool) : Option (Nat × Bool × Bool) := do
  let m0 := ringHolds 3 (xwords 1 1) (holding 0x80000 [BitVec.ofNat 64 (here 0x100000)] ++
    holding 0x90000 [BitVec.ofNat 64 (if node then 5 * 2 ^ 48 + 0x100000 else here 0x100000)]) base1
  let m1 : Block := match armed with
    | some b => { m0 with eng := { m0.eng with armed := [(0, [{ armed1 b with owed := owed }])] } }
    | none => m0
  let p := m1
  let d : XD := ⟨p.entryWords 3 0 128 ctxP⟩
  let v := ringMover 3 0 ctxP
  let (m2, hs) ← bytesOf ((p.entryTaken 3 0 128 ctxP).engRead v (d.addr 9) (32 * d.hosted))
  let (m3, _) ← bytesOf (m2.engRead v (d.addr 5) (8 * d.experts))
  let work := (hostEnts d.hosted hs).map fun e => (e, if m3.onModule (e.qaddr, 128) then
    (m3.armedAt (localPart e.qaddr)).filter fun a => a.complete && a.exch == d.exch && a.tenant == 1 else none)
  let jobs := work.filterMap fun ea => ea.2.map fun a => (ea.1, a)
  let r := jobs.foldl (fun (r : Block × Bool) ea => if r.2 then r.1.combineRows 0 ctxP d ea.1 ea.2 else r) (m3, true)
  if p.entryReady 3 0 128 ctxP && d.op == 1 && !d.reserved && !d.misaligned && !d.outOfRange ctxP then
    some (m3.combineReason work, jobs.any fun ea => ea.2.owed, r.2)
  else none

theorem witness_DroverRows_reasons :
    [combined (some true) false false, combined (some true) true false, combined (some false) false false, combined none false false,
     combined (some true) false true] =
    [some (0, false, true), some (0, true, true), some (8, false, true), some (8, false, true), some (6, false, true)] ∧
    (armed1 true).owed = false ∧ ({ words := [], exch := 5, segs := [], reason := 3 } : XJob).reason ≠ 0 ∧
    ({ words := [], exch := 5, segs := [], timedOut := true } : XJob).timedOut = true := by decide +kernel

/-- A claim at that queue. -/
def claim1 (exch : Nat) : Claim := ⟨0x100000, 7, 1, 1, exch, 128, 0, 0, 3⟩

/-- The block with `k` claims held at tile 0. -/
def holdingClaims (k : Nat) (time : Nat) : Block := { base1 with time := time, eng := { heldClaims := [(0, List.replicate k ⟨claim1 5, 10⟩)] } }

theorem witness_DroverRows_host :
    (arming false base1).armedAt (localPart (claim1 5).qaddr) = some (armed1 false) ∧ (armed1 false).exch = (claim1 5).exch ∧ (armed1 false).complete = false ∧
    (armed1 false).fill ≤ (armed1 false).capacity ∧ (claim1 5).rowBytes = (armed1 false).rowBytes ∧ (claim1 5).tenant = (armed1 false).tenant ∧
    ({ claim1 5 with rowBytes := 256 } : Claim).rowBytes ≠ (armed1 false).rowBytes ∧ (armed1 false).exch ≠ (claim1 6).exch ∧
    (arming true base1).armedAt 0x100000 = some (armed1 true) ∧ (Tbl.getD [] (holdingClaims 1023 0).eng.heldClaims 0).length < 1024 ∧
    1024 ≤ (Tbl.getD [] (holdingClaims 1024 0).eng.heldClaims 0).length ∧ base1.armedAt (localPart 0x100000) = none ∧
    (armed1 false).segments + 1 = (armed1 false).peers ∧ ({ armed1 false with peers := 2 } : Armed).segments + 1 ≠ ({ armed1 false with peers := 2 } : Armed).peers ∧
    (Tbl.getD [] (holdingClaims 1 0).eng.heldClaims 0)[0]? = some ⟨claim1 5, 10⟩ ∧
    (holdingClaims 1 0).time < 10 + (holdingClaims 1 0).fld (Reg.drvCfg 0) 39 0 ∧
    10 + (holdingClaims 1 99999999999).fld (Reg.drvCfg 0) 39 0 ≤ (holdingClaims 1 99999999999).time ∧ (claim1 5).node ≠ base1.ownNode := by decide +kernel

/-- A Groom descriptor of four FP32 parameters in stack 0; the parameter block stands in the pool window. -/
def groomWords (w0 rowsCols n : Word) (s0 s1 aux counts : Nat) : List Word :=
  [w0, 0x0000000100000000, rowsCols, n] ++
    ([here 0x10000, here 0x20000, s0, s1, 0, 0, 0, aux, counts, here 0x50000, 0, here (poolBase + 0x800)].map (BitVec.ofNat 64))

/-- The six rows' descriptors: momentum SGD, AdamW, sign momentum, factored second moment, general recurrence, sparse update. -/
def groomCases : List (Nat × List Word) :=
  [(0, groomWords 0x000003C000000000 0 4 (here 0x30000) 0 0 0), (1, groomWords 0x100003C000000000 0 4 (here 0x30000) (here 0x40000) 0 0),
   (2, groomWords 0x200003C000000000 0 4 (here 0x30000) 0 0 0), (3, groomWords 0x300003C000000000 0x0000000200000002 4 (here 0x30000) (here 0x40000) 0 0),
   (4, groomWords 0x400003C000000000 0 4 0 0 (here (poolBase + 0x1000)) 0), (5, groomWords 0x080003C000000000 0x0000000100000002 4 (here 0x30000) 0 (here 0x60000) (here 0x70000))]

/-- Which row runs it. -/
def groomRow (k : Nat) (d : GD) : Bool := if k = 5 then d.sparse else plainRow k d

/-- The block with a descriptor; parameters 6 and 7 are 1.0, the first index is 0. -/
def grooming (ws : List Word) : Block := ringHolds 4 ws [] { base1 with mem := [] }

/-- It, with the parameter block. -/
def groomed (ws : List Word) : Block := { grooming ws with mem := holding poolBase ws ++ holding (poolBase + 0x830) [0x3F800000, 0x3F800000] }

/-- Whether every condition of a descriptor that runs holds. -/
def groomOk (k : Nat) (ws : List Word) : Bool :=
  let m := (groomed ws).entryTaken 4 0 128 ctxP
  let d : GD := ⟨(groomed ws).entryWords 4 0 128 ctxP⟩
  let v := ringMover 4 0 ctxP
  match bytesOf (m.engRead v (ownGlobal (localPart (d.addr 15))) 128) with
  | none => false
  | some (m2, pb) =>
    let q : Prm := ⟨(List.range 10).map fun i => BitVec.ofNat 32 (leAt pb (8 * i) 4)⟩
    match bytesOf (m2.engRead v (ownGlobal (localPart (d.addr 11))) (if d.sparse then 4 * d.rows else 0)) with
    | none => false
    | some (m3, il) =>
      match bytesOf (m3.engRead v (ownGlobal (localPart (d.addr 11))) (if d.rule = 4 then 256 else 0)) with
      | none => false
      | some (m4, pg) =>
        let rows := (List.range d.rows).map fun i => leAt il (4 * i) 4
        (groomed ws).entryReady 4 0 128 ctxP && groomRow k d && !d.reserved && !d.outOfRange && m.inPoolWindow ctxP (d.addr 15) 128 &&
          (d.rule != 4 || m.inPoolWindow ctxP (d.addr 11) 256) && ((List.range 10).all fun i => leAt pb (8 * i + 4) 4 == 0) &&
          ((List.range 6).all fun i => leAt pb (80 + 8 * i) 8 == 0) && (d.rule != 3 || (Val.zero.lt (q.at 6).val && Val.zero.lt (q.at 7).val)) &&
          ((d.regions q).all fun e => m2.inStack 0 e) && !regionsMeet (d.regions q) &&
          (d.rule != 4 || (m4.genrecMask.testBit 0 && !progBad (leWords 32 pg))) && (!d.sparse || rows == [0]) && !d.paced

theorem witness_GroomRows : (groomCases.map fun kw => groomOk kw.1 kw.2) = [true, true, true, true, true, true] ∧
    (∀ e ∈ (groomed []).eng.grooms, e.1 ≠ 0) ∧ groomRow 1 ⟨groomWords 0x000003C000000000 0 4 0 0 0 0⟩ = false ∧
    (groomed []).inPoolWindow ctxP 0 128 = false := by decide +kernel

/-- The codes of a momentum descriptor's failed checks, its parameter block being read. -/
def groomCodes (ws : List Word) : Option (List Nat) := do
  let m := (groomed ws).entryTaken 4 0 128 ctxP
  let d : GD := ⟨(groomed ws).entryWords 4 0 128 ctxP⟩
  let (m2, pb) ← bytesOf (m.engRead (ringMover 4 0 ctxP) (ownGlobal (localPart (d.addr 15))) 128)
  let q : Prm := ⟨(List.range 10).map fun i => BitVec.ofNat 32 (leAt pb (8 * i) 4)⟩
  if (groomed ws).entryReady 4 0 128 ctxP && plainRow 0 d && m.inPoolWindow ctxP (d.addr 15) 128 then
    some ((if d.reserved then [1] else []) ++ (if d.outOfRange then [3] else []) ++
      (if (d.regions q).all (m2.inStack 0) then [] else [2]) ++ (if regionsMeet (d.regions q) then [3] else []))
  else none

/-- Good words with a reserved bit, with S0 in another stack, with S0 over the parameters; and with the parameters outside the pool window. -/
def groomBad (k : Nat) : List Word :=
  let ws := groomWords 0x000003C000000000 0 4 (if k = 2 then here 0x1000030000 else if k = 3 then here 0x10000 else here 0x30000) 0 0 0
  if k = 1 then ws.set 0 0x000003C000000800 else if k = 4 then ws.set 15 0 else ws

theorem witness_GroomRows_refused :
    [groomCodes (groomBad 0), groomCodes (groomBad 2), groomCodes (groomBad 3)] = [some [], some [2], some [3]] ∧
    (GD.reserved ⟨groomBad 1⟩) = true ∧ plainRow 0 ⟨groomBad 4⟩ = true ∧ (groomed (groomBad 4)).entryReady 4 0 128 ctxP = true ∧
    ((groomed (groomBad 4)).entryTaken 4 0 128 ctxP).inPoolWindow ctxP (GD.addr ⟨groomBad 4⟩ 15) 128 = false := by decide +kernel

/-- Ring 0's descriptor has been applied. -/
def grommed : Block := { groomed (groomWords 0x000003C000000000 0 4 (here 0x30000) 0 0 0) with eng := { grooms := [(0, ⟨1, 0, 2⟩)] } }

/-- Whether its end writes the header. -/
def headerWritten : Bool :=
  let d : GD := ⟨leWords 16 (grommed.readMem (grommed.entryAddr 4 0 ctxP 128 0) 128)⟩
  let v := ringMover 4 0 ctxP
  match ((do let hd ← grmHeader v d; putHeader v d hd) : AttM Unit).run grommed with
  | (.ok _, _) => true
  | _ => false

/-- GROOM_UPDATE for unit 0 of one descriptor at a place. -/
def groomCmd (a : Nat) : Cmd := cmd1 workQ 0x120 [a, 1, 0, 0] 0 0

theorem witness_GroomRows_end :
    (grommed.eng.grooms.find? fun e => e.1 == 0) = some (0, ⟨1, 0, 2⟩) ∧ grommed.ringOf 4 0 = some ctxP ∧ grommed.ringSt 4 0 < 2 ∧
    grommed.cho.snoops = [] ∧ headerWritten = true ∧ grommed.eng.groomLists = [] ∧
    (doing base1 (groomCmd (here 0x1000))).runs workQ 0x120 (groomCmd (here 0x1000)) = true ∧
    (∀ k < 4, base1.ownedBy (Reg.grmRingOwner 0 k) 1 1 = false) ∧ (doing grommed (groomCmd (here 0x1000))).ownedBy (Reg.grmRingOwner 0 0) 1 1 = true ∧
    grommed.check 1 1 (here 0x1000) 128 false = none ∧ grommed.remoteNode (here 0x1000) = none ∧ grommed.check 1 1 (here 0x800000) 128 false ≠ none := by
  decide +kernel

/-- Linear warm-up over 10 steps from 0, linear decay over 100 to 0.5; GAMMA 1. -/
def entry1 : PEntry := ⟨0x502000000000000A, 0x0000006400000000, 0x000000003F000000, 0x3F800000⟩

theorem witness_PacerRows : up.tuning = true ∧ (255 : Nat) < 256 ∧ (2 : Nat) ^ 32 - 1 < 2 ^ 32 ∧ entry1.sound = true ∧
    (PEntry.sound ⟨0, 0, 0, 0⟩) = false ∧ fixOf entry1.s0 ≤ fixOne ∧ fixOf entry1.f ≤ fixOne ∧ entry1.warm = 1 ∧ 0 < entry1.w ∧ entry1.decay = 2 ∧
    entry1.restart = false ∧ (PEntry.decay ⟨10, 0, 0, 0⟩) = 0 ∧ entry1.exact 10 = fixOne ∧ entry1.exact 11 = fixOne := by decide +kernel

/-- A collective's descriptor (Table 14.8) with `n` members on engine 0; `bad` sets a reserved bit. -/
def collWords (op n : Nat) (bad : Bool) : List Word :=
  [op * 2 ^ 60 + (if op = 3 then 2 ^ 53 else 0), 9 * 2 ^ 32 + n * 2 ^ 20, if op = 3 then 0 else n, here 0x2000, here 0x3000, here 0x4000,
   if op = 3 then here 0x5000 else 0, if op = 3 then here 0x6000 else 0, 0, if bad then 1 else 0].map (BitVec.ofNat 64)

/-- The block with it at 0x1000. -/
def collected (op n : Nat) (bad : Bool) : Block := { base1 with mem := holding 0x1000 (collWords op n bad) }

/-- The COLLECTIVE that names it. -/
def collCmd (a : Nat) : Cmd := cmd1 workQ 0x130 [a, 0, 0, 0] 0 0

/-- Its record. -/
def coll1 (op n : Nat) (bad : Bool) : Coll := { die := 0, q := workQ, words := collWords op n bad, addr := here 0x1000, members := [0, 0], start := 0 }

/-- A block with a record. -/
def withColl (c : Coll) : Block := { base1 with mem := holding 0x1000 c.words, eng := { colls := [c] } }

theorem witness_CollectiveRows :
    (∀ a ∈ [here 0x1000, 5 * 2 ^ 48], (doing base1 (collCmd a)).runs workQ 0x130 (collCmd a) = true) ∧ base1.remoteNode (5 * 2 ^ 48) = some 5 ∧
    base1.remoteNode (here 0x1000) = none ∧ base1.check 1 1 (here 0x1000) 128 false = none ∧ base1.check 1 1 (here 0x1000) 128 true = none ∧
    base1.poisoned 0x1000 128 = false ∧ base1.heldExclusive 0x1000 128 = false ∧ (coll1 0 1 false).n < 2 ∧ 2 ≤ (coll1 0 2 false).n ∧
    (∀ bad ∈ [true, false], leWords 16 (((collected 0 2 bad).correct 0x1000 128).readMem 0x1000 128) = collWords 0 2 bad ++ List.replicate 6 0) ∧
    base1.collExtent (coll1 0 2 false) (here 0x4000) 4 false = true ∧ (∀ op ∈ [0, 1, 2, 3], (collected op 2 false).collRefusal (coll1 op 2 false) = 0) ∧
    (collected 0 2 true).collRefusal (coll1 0 2 true) ≠ 0 ∧
    (∀ op ∈ [0, 1, 2, 3], ((withColl (coll1 op 2 false)).eng.colls.find? fun k => k.die == 0 && k.op == op && !k.started && k.reason == 0) = some (coll1 op 2 false) ∧
      (bytesOf ((((withColl (coll1 op 2 false)).collSources (coll1 op 2 false)).filter fun e => e.2 != 0).foldl
        (fun (g : Got) e => g.join fun m => m.engRead (coll1 op 2 false).mover e.1 e.2) (.data (withColl (coll1 op 2 false)) [] false))).isSome = true) ∧
    base1.eng.colls = [] := by decide +kernel

/-- A segment for it. -/
def seg1 : CollSeg := ⟨1, 1, 9, 0, 0, 0, 2, 2, false, 0, 1, 0, 0, [], []⟩

/-- How the reads of a collective's source end: bad, waiting, or done. -/
def sourceRead (src : Word) : Nat :=
  let c := { coll1 0 2 false with words := (collWords 0 2 false).set 3 src }
  match (((withColl c).collSources c).filter fun e => e.2 != 0).foldl
      (fun (g : Got) e => g.join fun m => m.engRead c.mover e.1 e.2) (.data (withColl c) [] false) with
  | .bad .. => 1
  | .need _ => 2
  | .data .. => 3

/-- A collective whose chunks are done. -/
def doneColl : Coll := { coll1 0 2 false with started := true, have_ := [0, 1] }

theorem witness_CollectiveRows_ends :
    sourceRead (BitVec.ofNat 64 (here 0x300000)) = 1 ∧ sourceRead (BitVec.ofNat 64 (here 0x2000)) = 3 ∧
    ({ base1 with cho := { base1.cho with directory := [⟨0x1000 / 128, 0, true⟩] } } : Block).heldExclusive 0x1000 128 = true ∧
    (({ base1 with poison := [0x1000 / 128] } : Block).correct 0x1000 128).poisoned 0x1000 128 = true ∧
    doneColl.done = true ∧ (∀ e ∈ (withColl doneColl).collOutputs doneColl, (withColl doneColl).writeWaits (localPart e.1) e.2 = false) ∧
    (withColl doneColl).hostCopies ((localPart doneColl.addr + 64) / 128) = [] ∧
    ({ withColl doneColl with cho := { base1.cho with directory := [⟨(localPart doneColl.addr + 64) / 128, 0, false⟩] } } : Block).hostCopies
      ((localPart doneColl.addr + 64) / 128) ≠ [] ∧ (2 : Nat) ∉ [0, 4, 6, 7] := by decide +kernel

theorem witness_CollectiveRows_segments :
    (15 : Nat) < base1.tileCount ∧ base1.pwr.pstate ≠ 2 ∧ base1.revoked 1 1 = false ∧
    ({ base1 with cmd := { base1.cmd with contexts := [{ tenant := 1, ctx := 1, revoked := true }] } } : Block).revoked 1 1 = true ∧
    (withColl { coll1 0 2 false with started := true }).coll? 0 1 1 9 = some { coll1 0 2 false with started := true } ∧ base1.coll? 0 1 1 9 = none ∧
    (base1.eng.collHeld.filter fun e => e.1 == 0).length < 1024 ∧
    1024 ≤ (({ base1 with eng := { collHeld := List.replicate 1024 (0, seg1) } } : Block).eng.collHeld.filter fun e => e.1 == 0).length ∧
    (coll1 0 2 false).reason = 0 ∧ (∀ r ∈ [4, 7], ({ coll1 0 2 false with reason := r } : Coll).reason = r) ∧
    ((withColl (coll1 0 2 false)).eng.colls.find? fun c => c.q == workQ) = some (coll1 0 2 false) ∧ (withColl (coll1 0 2 false)).peerHeld workQ = false ∧
    0 + ({ withColl (coll1 0 2 false) with time := 99999999999 } : Block).fld Reg.fabCollTmo 39 0 ≤ 99999999999 ∧
    (withColl (coll1 0 2 false)).time < 0 + (withColl (coll1 0 2 false)).fld Reg.fabCollTmo 39 0 ∧
    ({ coll1 0 2 false with started := true, have_ := [0, 1] } : Coll).done = true ∧ (coll1 0 2 false).done = false ∧
    (withColl (coll1 0 2 false)).cho.snoops = [] ∧ (withColl (coll1 0 2 false)).eng.collOut = [] ∧ (coll1 0 2 false).die < base1.tileCount := by decide +kernel


/- Witnesses: fabric, Chotus, management ports -/

/-- This module is node 9 and port 0 stands in `st`; time `time`. -/
def fab1 (x time : Nat) : Block :=
  { base1 with time := time, regs := (Reg.fabNode, 0x8000000000000009) :: (Reg.fabPortStatus 0, BitVec.ofNat 64 (x * 2 ^ 60)) :: base1.regs }

/-- A burst from node 5 to node `dst`: SEQ `seq`, address `a`, `n` bytes. -/
def burst1 (dst seq a n : Nat) : Burst :=
  { kind := 0, srcNode := 5, dstNode := dst, tenant := 1, ctx := 1, master := 3, seq := seq, tag := 4, addr := a, data := List.replicate n 1, mask := [], poison := false
    hitch := 2, inc := 1 }

/-- Tenant 1's first range takes fabric arrivals; its context has 4 hitches, and is revoked or not. -/
def taking (revoked : Bool) : Block :=
  { fab1 2 0 with cmd := { base1.cmd with
      ranges := [⟨1, 0, 0, 0x200000, 0, true, true, true⟩], contexts := [{ tenant := 1, ctx := 1, hitches := 4, revoked := revoked }] } }

/-- A remote read of tag 4 to node 5. -/
def read1 : RemoteRead := { tag := 4, master := 3, tenant := 1, ctx := 1, node := 5, addr := 0, bytes := 128, port := some 0 }

/-- A write burst's header, field by field (Table 14.7). -/
theorem test_burst_header : Burst.header (burst1 9 7 0x80 2) 1 = [BitVec.ofNat 64 (5 * 2 ^ 48 + 9 * 2 ^ 36 + 2 ^ 31 + 2 ^ 23 + 3 * 2 ^ 11), BitVec.ofNat 64 (7 * 2 ^ 32 + 4), 0x80, 0] := by
  decide +kernel

theorem witness_FabricTransactions :
    (fab1 1 0).portUsable 0 = false ∧ (taking false).portUsable 0 = true ∧ (taking false).pwr.pstate ≠ 2 ∧ (taking false).forUs (burst1 8 0 0 2) = false ∧
    (taking false).forUs (burst1 9 0 0 2) = true ∧ ((taking false).rxPair 3 5).expect = 0 ∧ 2 ^ 31 ≤ (2 ^ 31 + 2 ^ 32 - 0) % 2 ^ 32 ∧
    (2 ^ 31 - 1 + 2 ^ 32 - 0) % 2 ^ 32 < 2 ^ 31 ∧ ((taking false).rxPair 3 5).early = [] ∧
    ((taking false).setRxPair { (taking false).rxPair 3 5 with early := [(0, burst1 9 0 0 2)] }).burstHeld (burst1 9 0 0 2) = [] ∧
    ((taking false).rxPair 3 5).master = 3 ∧ ((taking false).rxPair 3 5).node = 5 ∧ (taking true).revoked 1 1 = true ∧ (taking false).revoked 1 1 = false ∧
    (taking false).arrivalCheck 1 1 0x200000 2 true = some 2 ∧ (taking false).arrivalCheck 1 1 0 2 true = none ∧
    (taking false).hitchAddr 1 1 2 = some (poolBase + 16) ∧
    (∀ b ∈ [true, false], (({ taking b with fab := { reads := [read1] } } : Block).fab.reads.find? fun r => r.tag == 4 && r.node == 5 && r.data.isNone) = some read1) ∧
    (({ taking false with fab := { reads := [read1] } } : Block).fab.reads.find? fun r => r.tag == 4 && r.master == 3 && r.node == 5 && r.data.isNone) = some read1 := by
  decide +kernel

/-- The block holds an early burst of SEQ 1 and a burst to address 0x1000 finds a host copy of it. -/
def early1 : Block :=
  let m := (taking false).setRxPair { (taking false).rxPair 3 5 with early := [(0, burst1 9 1 0x1000 2)] }
  { m with cho := { m.cho with directory := [⟨0x1000 / 128, 0, false⟩] } }

theorem witness_FabricTransactions_order :
    (∃ e ∈ (early1.rxPair 3 5).early, e.2.seq = 1) ∧ (∀ e ∈ (early1.rxPair 3 5).early, e.2.seq ≠ 2) ∧ ((2 : Nat) + 2 ^ 32 - (early1.rxPair 3 5).expect) % 2 ^ 32 < 2 ^ 31 ∧
    0 < ((2 : Nat) + 2 ^ 32 - (early1.rxPair 3 5).expect) % 2 ^ 32 ∧ (2 : Nat) ≠ ((taking false).rxPair 3 5).expect ∧
    (taking false).storeUsed (0 / 4) + burstBytes (burst1 9 2 0 2) ≤ 0x800000 ∧
    (taking false).hitchAddr 1 1 4 = none ∧
    (let m := { early1 with fab := (taking false).fab }
     (m.setRxPair { m.rxPair 3 5 with early := (m.rxPair 3 5).early ++ [(0, burst1 9 0 0x1000 2)] }).burstHeld (burst1 9 0 0x1000 2) ≠ []) ∧
    ({ taking false with pwr := { (taking false).pwr with pstate := 2 } } : Block).pwr.pstate = 2 ∧
    (taking false).peerReg (burst1 9 0 regBase 0) = none ∧ (taking false).peerReg { burst1 9 0 (regBase + 8) 0 with master := fwMaster } = some 8 ∧
    (taking false).arrivalCheck 1 1 0 128 false = none ∧ (taking false).heldExclusive 0 128 = false ∧
    ((taking false).fport 0).replays + 1 < 3 ∧
    3 ≤ (({ taking false with fab := { fabPorts := [(0, { replays := 2 })] } } : Block).fport 0).replays + 1 := by decide +kernel

/-- What a burst takes in the reorder store. -/
theorem burst1_bytes (n : Nat) : burstBytes (burst1 9 2 0 n) = 32 + n := by simp [burstBytes, burst1]

/-- A long enough burst finds no room in it. -/
theorem witness_FabricTransactions_full : ∃ n, 0x800000 < (taking false).storeUsed (0 / 4) + burstBytes (burst1 9 2 0 n) :=
  ⟨0x800000, by rw [burst1_bytes]; omega⟩

/-- A burst to node 5 that is not acknowledged. -/
def unacked : TxBurst := ⟨burst1 5 0 0 2, some 0, 10, true⟩

/-- The block that keeps it. -/
def keeping (time : Nat) : Block := { fab1 2 time with fab := { tx := [⟨3, 5, 1, [unacked]⟩] } }

theorem witness_FabricTransactions_source :
    (keeping 5010).portUsable 0 = true ∧ (((keeping 5010).txPair 3 5).unacked.find? fun u => u.burst.seq == 0) = some unacked ∧ (4 : Nat) ≠ 0 ∧
    ((fab1 2 0).txPair 3 5).unacked = [] ∧ (fab1 2 0).eng.collOut = [] ∧ ((keeping 5010).txPair 3 5).unacked = [unacked] ∧ unacked.port ≠ none ∧
    unacked.sentAt + 5000 ≤ (keeping 5010).time ∧ ((keeping 5010).route 5 unacked).2.eng.collOut = [] ∧
    (fab1 2 0).portSt 0 = 2 ∧ (fab1 3 0).portSt 0 = 3 ∧ base1.choSt 0 = 2 ∧ (7 : Nat) < 8 := by decide +kernel

/-- A neighbour. -/
def nbr1 : Neighbour := ⟨5, 2, 1, 77⟩

/-- Port 0 in a state with what its training knows. -/
def ported (x : Nat) (p : FabPort) : Block := { fab1 x 0 with fab := { fabPorts := [(0, p)] } }

theorem witness_FabricPortsAndNodes_ports :
    (ported 2 {}).portSt 0 = 2 ∧ ((ported 2 {}).goodLanes 0).contains 9 = true ∧ ((ported 2 {}).goodLanes 0).contains 10 = false ∧
    ((ported 3 { training := some 8 }).fport 0).training = some 8 ∧ (ported 3 { training := some 8 }).portSt 0 = 3 ∧ 47 < (fab1 2 0).portCount ∧
    (fab1 2 0).fld Reg.fabLaneSer 31 0 < 0x10001 ∧ 0x10000 ≤ (fab1 2 0).fld Reg.fabLaneSer 31 0 ∧ (fab1 2 0).inFrames 0 = true ∧ (fab1 4 0).inFrames 0 = false ∧
    (fab1 4 0).portSt 0 ≠ 5 ∧ (fab1 2 0).portSt 0 ≠ 5 ∧ (ported 1 {}).portSt 0 = 1 ∧ ((ported 1 { acked := some nbr1 }).fport 0).acked = some nbr1 ∧
    ((ported 1 {}).fport 0).acked ≠ some nbr1 ∧ (fab1 5 0).portSt 0 = 5 ∧ (0xFFE : Nat) < 0xFFF ∧ base1.fld Reg.fabNode 63 63 = 0 ∧
    (fab1 2 0).fld Reg.fabNode 63 63 = 1 ∧ (∀ i < 4, base1.pathBad 0x0011 i = false) ∧ (∃ i < 4, base1.pathBad 0x0310 i = true) ∧
    ({ base1 with fuse := { variant := .sbm2412 } } : Block).connectorPorts 9 = [] ∧ ((List.range 12).all fun c => (base1.connectorPorts c).length == 4) = true := by
  decide +kernel

/-- Node 5 is unreachable since tick 10. -/
def cutOff (time : Nat) : Block := { fab1 1 time with regs := (Reg.fabUnreach, 1000) :: (fab1 1 time).regs, fab := { unreach := [(5, 10)] } }

/-- Node 5 recovers since tick 10; a command of the work queue waits for it or not. -/
def peering (time : Nat) (cmds : List Cmd) : Block := { fab1 2 time with fab := { recovering := [(5, 10)] }, cmd := { base1.cmd with cmds := cmds } }

/-- A command that a peer holds. -/
def heldCmd (started : Bool) : Cmd := { cmd1 workQ 0x130 [here 0x1000, 0, 0, 0] 0 0 with started := started, peers := [(5, 10)] }

theorem witness_FabricPortsAndNodes_nodes :
    ((cutOff 1009).fab.unreach.find? fun x => x.1 == 5) = some (5, 10) ∧ (cutOff 1009).nodeUsable 5 = false ∧
    (cutOff 1009).time < 10 + (cutOff 1009).fld Reg.fabUnreach 39 0 ∧ 10 + (cutOff 1010).fld Reg.fabUnreach 39 0 ≤ (cutOff 1010).time ∧
    (∀ p ∈ (cutOff 1010).fab.tx, p.node ≠ 5) ∧ (cutOff 1010).fab.reads = [] ∧ (cutOff 1010).eng.collOut = [] ∧
    (∀ e ∈ base1.fab.recovering, e.1 ≠ 5) ∧ ((peering 20 []).fab.recovering.find? fun x => x.1 == 5) = some (5, 10) ∧
    (peering 20 []).time < 10 + (peering 20 []).fld Reg.fabCollTmo 39 0 ∧ 10 + (peering 99999999999 []).fld Reg.fabCollTmo 39 0 ≤ (peering 99999999999 []).time ∧
    ((peering 20 [heldCmd false]).cmd.cmds.filter fun c => c.peers.any fun p => p.1 == 5) = [heldCmd false] ∧ (heldCmd false).started = false ∧
    ((peering 20 [heldCmd true]).cmd.cmds.filter fun c => c.peers.any fun p => p.1 == 5) = [heldCmd true] ∧ (heldCmd true).started = true ∧
    ((peering 20 []).cmd.cmds.filter fun c => c.peers.any fun p => p.1 == 5) = [] := by decide +kernel

/-- Chotus ports 0 and 1 in states with host IDs, and the mode. -/
def hosts (st0 id0 st1 id1 mode : Nat) : Block :=
  { base1 with
    regs := (Reg.choPortStatus 0, BitVec.ofNat 64 (st0 * 2 ^ 60 + id0)) :: (Reg.choPortStatus 1, BitVec.ofNat 64 (st1 * 2 ^ 60 + id1)) ::
      (Reg.choMode, BitVec.ofNat 64 (mode * 2 ^ 62)) :: ranged.regs }

theorem witness_ChotusRows :
    (hosts 1 0 0 0 0).choSt 0 = 1 ∧ chotusWidth 0x7777 = 0 ∧ chotusWidth 0xFFFF ≠ 0 ∧ ({ hosts 1 0 0 0 3 with cho := { modeIds := [7, 8] } } : Block).joins 0 9 = false ∧
    ({ hosts 1 0 0 0 3 with cho := { modeIds := [7, 8] } } : Block).joins 0 7 = true ∧ (hosts 1 0 0 0 0).joins 0 9 = true ∧
    ((hosts 1 0 0 0 0).chotus 0).lossTick.isSome = false ∧ (hosts 1 0 0 0 0).cho.modeOpen = false ∧
    ({ hosts 1 0 0 0 0 with cho := { chotus := [(0, { everUp := true, lossTick := some 10 })] } } : Block).joins 0 9 = true ∧
    (({ hosts 1 0 0 0 0 with cho := { chotus := [(0, { everUp := true, lossTick := some 10 })] } } : Block).chotus 0).lossTick.isSome = true ∧
    (hosts 2 0 0 0 0).fld Reg.choMode 63 62 = 0 ∧ (hosts 2 0 0 0 0).cho.modeTick ≤ (hosts 2 0 0 0 0).time ∧ (hosts 2 0 0 0 0).pwr.rst = none ∧
    (hosts 2 0 0 0 0).pwr.powered = true ∧ (hosts 2 0 0 0 0).choSt 0 = 2 ∧ (hosts 2 0 0 0 0).choSt 1 ≠ 2 ∧ (hosts 0 0 2 5 0).choSt 0 ≠ 2 ∧ (hosts 0 0 2 5 0).choSt 1 = 2 ∧
    (hosts 2 5 2 5 0).fld (Reg.choPortStatus 0) 31 0 = (hosts 2 5 2 5 0).fld (Reg.choPortStatus 1) 31 0 ∧
    (hosts 2 5 2 6 0).fld (Reg.choPortStatus 0) 31 0 ≠ (hosts 2 5 2 6 0).fld (Reg.choPortStatus 1) 31 0 ∧ (hosts 0 0 0 0 0).choSt 1 ≠ 2 ∧
    (hosts 3 0 0 0 0).choSt 0 = 3 ∧ (hosts 2 0 0 0 0).tagOk 0 1 = true ∧ (hosts 2 0 0 0 0).tagOk 0 3 = false ∧
    base1.hostCheck 1 0x300000 8 false = false ∧ base1.hostCheck 1 0 8 false = true ∧ base1.otherCopies 0 0 8 false = [] := by decide +kernel

/-- A snoop at port 0, and a lost host. -/
def snooping (time : Nat) : Block := { hosts 2 0 0 0 1 with time := time, cho := { snoops := [⟨1, 0, 10, none⟩], chotus := [(0, { everUp := true })] } }

/-- Port 0's host is lost since tick 10. -/
def lost (time : Nat) : Block := { hosts 3 0 0 0 1 with time := time, cho := { chotus := [(0, { everUp := true, lossTick := some 10 })] } }

theorem witness_ChotusRows_hosts :
    (∃ x ∈ (snooping 0).cho.snoops, x.gran = 128 / 128 ∧ x.port = 0) ∧ (∀ x ∈ (snooping 0).cho.snoops, x.gran ≠ 0 / 128 ∨ x.port ≠ 0) ∧
    (∀ x ∈ (snooping 25009).cho.snoops, x.port ≠ 0 ∨ (snooping 25009).time < x.since + 25000) ∧
    (∃ x ∈ (snooping 25010).cho.snoops, x.port = 0 ∧ x.since + 25000 ≤ (snooping 25010).time) ∧ (snooping 0).fld (Reg.choPortCtl 0) 0 0 = 0 ∧
    ((snooping 0).chotus 0).barred = false ∧ ({ snooping 0 with regs := (Reg.choPortCtl 0, 1) :: (snooping 0).regs } : Block).fld (Reg.choPortCtl 0) 0 0 = 1 ∧
    (hosts 2 0 0 0 1).tagOk 0 1 = true ∧ (hosts 2 0 0 0 1).fld Reg.choMode 63 62 ≠ 2 ∧ ((hosts 2 0 0 0 1).chotus 0).lossTick = none ∧
    ((lost 20).chotus 0).lossTick = some 10 ∧ (lost 20).choSt 0 = 3 ∧ (lost 20).tagOk 0 1 = true ∧ (lost 20).time < 10 + (lost 20).fld Reg.choHold 39 0 ∧
    (snooping 0).time < ((snooping 0).reg (Reg.choHbLast 0)).toNat + (snooping 0).fld Reg.choHbTmo 39 0 ∧ ((snooping 0).chotus 0).everUp = true ∧
    ((snooping 0).chotus 0).noFurther = false ∧ (snooping 0).fwRuns = true ∧ (snooping 0).choSt 0 = 2 ∧
    ((snooping 99999999999).reg (Reg.choHbLast 0)).toNat + (snooping 99999999999).fld Reg.choHbTmo 39 0 ≤ (snooping 99999999999).time ∧
    10 + (lost 99999999999).fld Reg.choHold 39 0 ≤ (lost 99999999999).time ∧ (lost 0).fld Reg.choMode 63 62 ≠ 2 ∧
    (let inHost (m : Block) : Bool := decide (hostBase ≤ localPart (m.reg Reg.cmdSysSq).toNat) && m.hostPortOf (localPart (m.reg Reg.cmdSysSq).toNat) == 0
     inHost (lost 0) = false ∧ inHost { lost 0 with regs := (Reg.cmdSysSq, BitVec.ofNat 64 hostBase) :: (lost 0).regs } = true) := by decide +kernel

/-- Mailbox 3 is open to tenant 1; a request is in progress or not. -/
def mailed (busy : List Nat) : Block := { base1 with regs := (Reg.cmdMbCtl 3, 0x8100000000000000) :: base1.regs, cho := { mbBusy := busy } }

theorem witness_MailboxAndI3C : (mailed []).choSt 0 = 2 ∧ (mailed []).tagOk 0 1 = true ∧ (mailed []).mailboxOpen (.host 0 1) 3 = true ∧
    (mailed [3]).cho.mbBusy.contains 3 = true ∧ (mailed []).cho.mbBusy.contains 3 = false ∧ (mailed []).i3cRuns = true ∧ (mailed []).cho.i3cDyn = none ∧
    (127 : Nat) < 128 ∧ (5 : Byte).toNat.testBit 0 = true ∧ (4 : Byte).toNat.testBit 0 = false ∧ State.reset.m.i3cRuns = false ∧
    (List.replicate 4080 (0 : Byte)).length ≤ 4080 ∧ (mailed [3]).mbuf.wf ∧ (63 : Nat) < 64 := by decide +kernel

/-- A management message (Table 12.12) with an opcode and a body, as I3C carries it. -/
def message (op : Nat) (body : List Byte) : List Byte := leBytes 2 3 ++ leBytes 2 op ++ leBytes 2 body.length ++ leBytes 2 1 ++ List.replicate 8 0 ++ body

/-- A port that a message has reached: mailbox 0 of tenant `t` holds its first bytes. -/
def asked (t op : Nat) (body : List Byte) (m : Block) : Block :=
  { m with
    regs := (Reg.cmdMbCtl 0, BitVec.ofNat 64 (2 ^ 63 + t * 2 ^ 56)) :: m.regs
    mbuf := Memory.writeN [] 0 ((message op body).set 8 (BitVec.ofNat 8 t)), cho := { m.cho with mbBusy := [0] } }

/-- The block at a mailbox request, checked, when it passes. -/
def heardBody (t op : Nat) (body : List Byte) (m : Block) : Option (Block × List Byte) := ((asked t op body m).heard (.mailbox 0) op).map fun x => (x.1, x.2.body)

/-- Module up with a fault record of tenant 1, a hang record and a log record. -/
def recorded : Block :=
  { base1 with
    flt := { faults := [⟨1, 0, 1, 0, 0, 1, 1, 0, 0, 0, 8, 0, 0, 0⟩], hangs := [⟨4, 1, 0, 0, 0, []⟩] }, fw := { base1.fw with log := [⟨1, 2, 0, 0, 0, []⟩] } }

theorem witness_ManagementRows :
    (heardBody 0 1 [] recorded).any (fun x => restZero x.2 0) = true ∧ (heardBody 0 1 [1] recorded).any (fun x => !restZero x.2 0) = true ∧
    (heardBody 1 2 [0] recorded).any (fun x => leAt x.2 0 1 == 0 && restZero x.2 0) = true ∧
    (heardBody 1 2 [1, 0, 0, 0, 0, 63, 0, 1] recorded).any (fun x => leAt x.2 0 1 == 1 && leAt x.2 5 2 == 63 && leAt x.2 7 1 == x.1.portTenant (.mailbox 0) && restZero x.2 8) = true ∧
    (heardBody 1 2 [1, 0, 0, 0, 0, 1, 0, 2] recorded).any (fun x => x.1.portTenant (.mailbox 0) == 1 && leAt x.2 7 1 != 1) = true ∧
    (heardBody 0 3 [] recorded).any (fun x => restZero x.2 0) = true ∧ (heardBody 0 0x12 [] recorded).any (fun x => restZero x.2 0) = true ∧
    (∀ w ∈ ([0, 1, 2] : List Nat), (heardBody 0 0x20 (BitVec.ofNat 8 w :: List.replicate 47 0) recorded).any (fun x => attestBodyOk x.2 && leAt x.2 0 1 == w) = true) ∧
    (recorded.cho.reports.find? fun e => e.1 == 0) = none ∧
    (({ recorded with cho := { reports := [(0, [1])] } } : Block).cho.reports.find? fun e => e.1 == portKey (.mailbox 0)) = some (0, [1]) ∧
    (∀ w ∈ ([0, 1] : List Nat), (heardBody 0 0x30 ([BitVec.ofNat 8 w, 0, 0, 0] ++ leBytes 4 0x4D545352) recorded).any (fun x =>
      x.2.length == 8 && leAt x.2 0 1 == w && leAt x.2 1 3 == 0 && leAt x.2 4 4 == 0x4D545352 && x.1.tripAllows (w == 1) 3) = true) ∧
    ({ recorded with pwr := { recorded.pwr with trip := true } } : Block).tripAllows false 5 = false ∧ recorded.cho.resetPend = [] ∧
    (9 : Nat) < 10 ∧ (heardBody 0 0x40 [3, 0, 0, 0, 0, 0, 0, 0] recorded).any (fun x => restZero x.2 8 && leAt x.2 0 4 == 3) = true ∧
    (recorded.flt.hangs.find? fun h => decide (3 ≤ h.seq)).any (fun h => decide (0 < h.bytes.length)) = true ∧ (recorded.flt.hangs.find? fun h => decide (5 ≤ h.seq)) = none ∧
    (heardBody 0 0x50 [0, 0, 0, 0, 63, 0] recorded).any (fun x => leAt x.2 4 2 == 63 && restZero x.2 6) = true := by decide +kernel

/-- The boot ROM waits for an image over the network. -/
def netWait : Block := { up with fw := { recoveryWait := true } }

/-- A report is being signed for mailbox 0. -/
def signing : Block := { recorded with cho := { reportPend := [(⟨.mailbox 0, 3, 0x20, 1, []⟩, [1])] } }

theorem witness_ManagementRows_pending : netWait.romTakes (.net 0 []) ≠ none ∧ netWait.fw.staging = none ∧
    (signing.cho.reportPend.find? fun e => portKey e.1.port == portKey (.mailbox 0)) = some (⟨.mailbox 0, 3, 0x20, 1, []⟩, [1]) ∧
    ({ recorded with time := 10, cho := { resetPend := [(false, 10, 3)] } } : Block).cho.resetPend = (false, 10, 3) :: [] ∧
    (10 : Nat) ≤ ({ recorded with time := 10, cho := { resetPend := [(false, 10, 3)] } } : Block).time := by decide +kernel


/- Witnesses: firmware update, reset, power, faults, security -/

/-- A staging request with an opcode byte, an offset or size, and data. -/
def stageBody (op size : Nat) (data : List Byte) : List Byte := BitVec.ofNat 8 op :: List.replicate 7 0 ++ leBytes 8 size ++ data

/-- The block with staging and activation registers and a staging under way or not. -/
def staged (staged act : Nat) (x : Option Staging) : Block :=
  { base1 with
    regs := (Reg.fwStaged, BitVec.ofNat 64 (staged * 2 ^ 60 + 77)) :: (Reg.fwAct, BitVec.ofNat 64 (act * 2 ^ 60)) :: base1.regs, fw := { base1.fw with staging := x } }

/-- A staging of an image of `total` bytes to slot 0. -/
def staging1 (total : Nat) (written : List (Nat × List Byte)) : Staging := { slot := 0, total := total, written := written }

/-- Whether a staging request passes the port's checks. -/
def stageHeard (op size : Nat) (data : List Byte) (m : Block) : Bool :=
  (heardBody 0 0x10 (stageBody op size data) m).any fun x => stageBodyOk x.2 && x.1.fwAnswers && leAt x.2 0 1 == op && leAt x.2 8 8 == size

theorem witness_FirmwareUpdate_staging :
    stageHeard 0 0x2001 [] (staged 0 0 none) = true ∧ stageHeard 0 0x4000000 [] (staged 1 0 none) = true ∧ (staged 0 0 none).stagedSt = 0 ∧ (staged 1 0 none).stagedSt = 1 ∧
    (staged 0 0 none).actSt = 0 ∧ (staged 0 4 none).actSt ≠ 0 ∧ stageHeard 1 0 [1] (staged 1 0 none) = true ∧
    stageHeard 1 0 [1] (staged 1 0 (some (staging1 0x20000 []))) = true ∧
    (staging1 0x20000 []).open_ 65536 [] ⟨.mailbox 0, 3, 0x10, 1, stageBody 1 0 [1]⟩ = true ∧
    (staging1 0x20000 []).open_ 65536 [] ⟨.mailbox 0, 3, 0x10, 1, stageBody 1 0x10000 [1]⟩ = false ∧
    stageHeard 2 0 [] (staged 1 0 (some (staging1 2 []))) = true ∧ (staging1 2 []).waiting = [] ∧ (staging1 2 []).image.any Option.isNone = true ∧
    (staging1 2 [(0, [1, 2])]).image.any Option.isNone = false ∧ stageHeard 3 0 [] (staged 1 0 none) = true ∧ (staged 1 0 none).fwAnswers = true ∧
    (staging1 2 []).slot ≤ 1 := by decide +kernel

/-- Whether an activation request passes. -/
def actHeard (w csum : Nat) (m : Block) : Bool :=
  (heardBody 0 0x11 (BitVec.ofNat 8 w :: List.replicate 7 0 ++ leBytes 4 csum ++ [0, 0, 0, 0]) m).any fun x =>
    decide (16 ≤ x.2.length) && leAt x.2 0 1 == w && leAt x.2 1 7 == 0 && restZero x.2 16 && leAt x.2 8 4 == csum

/-- An activation that drains or waits. -/
def activating (x time : Nat) (cmds : List Cmd) : Block :=
  let m := staged 3 x none
  { m with time := time, regs := (Reg.fwActDrain, 1000) :: (Reg.fwActDefer, 500) :: m.regs, cmd := { m.cmd with cmds := cmds }, fw := { m.fw with act := some { request := 0, began := 10 } } }

theorem witness_FirmwareUpdate_activation :
    (∀ w ∈ ([0, 1] : List Nat), actHeard w 77 (staged 3 0 none) = true ∧ actHeard w 77 (staged 0 0 none) = true ∧ actHeard w 76 (staged 3 0 none) = true) ∧
    (staged 0 0 none).stagedSt ≠ 3 ∧ (staged 3 0 none).stagedSt = 3 ∧ 77 = (staged 3 0 none).fld Reg.fwStaged 31 0 ∧ 76 ≠ (staged 3 0 none).fld Reg.fwStaged 31 0 ∧
    ({ staged 3 0 none with pwr := { base1.pwr with emergOpen := true } } : Block).pwr.emergOpen = true ∧ (staged 3 0 none).pwr.emergOpen = false ∧
    (activating 2 1009 [cmd1 workQ 0 [] 0 0]).actSt = 2 ∧ (activating 2 1009 []).fwRuns = true ∧ (∀ c ∈ [cmd1 workQ 0 [] 0 0], c.pace = none) ∧
    (∃ c ∈ (activating 2 1009 [cmd1 workQ 0 [] 0 0]).cmd.cmds, c.started = true) ∧ (activating 2 1009 []).time < 10 + (activating 2 1009 []).fld Reg.fwActDrain 39 0 ∧
    10 + (activating 2 1010 []).fld Reg.fwActDrain 39 0 ≤ (activating 2 1010 []).time ∧ (activating 1 499 []).actSt = 1 ∧
    (activating 1 499 []).time < 0 + (activating 1 499 []).fld Reg.fwActDefer 39 0 ∧ 0 + (activating 1 500 []).fld Reg.fwActDefer 39 0 ≤ (activating 1 500 []).time ∧
    (staged 3 3 none).actSt = 3 ∧ ({ staged 3 3 none with fw := {} } : Block).fw.fwUp = false ∧ (staged 3 3 none).pwr.rst = none ∧ (staged 3 3 none).pwr.powered = true := by
  decide +kernel

/-- A module reset in progress. -/
def resetting (cold : Bool) (asserted : Option Nat) (time : Nat) : Block :=
  { base1 with time := time, pwr := { base1.pwr with rst := some { cold := cold, source := 7, request := 5, asserted := asserted } } }

theorem witness_ModuleResets :
    base1.choSt 0 = 2 ∧ (0x5A3D : Nat) ≠ 0x5A3C ∧ base1.pwr.powered = true ∧ base1.pwr.stuck = false ∧ base1.tripAllows true 4 = true ∧
    (resetting false none 0).pwr.rst = some { cold := false, source := 7, request := 5 } ∧ (resetting true none 0).pwr.rst = some { cold := true, source := 7, request := 5 } ∧
    base1.pwr.rst = none ∧ base1.optLoading = false ∧ (3 : Nat) ≤ 3 ∧ (2 : Nat) < 3 ∧ (15 : Nat) < 16 ∧
    ({ cold := true, source := 1, request := 0, restart := true } : ResetInProgress).restart = true ∧
    (resetting false (some 10) 25009).pwr.rst = some { cold := false, source := 7, request := 5, asserted := some 10 } ∧ (resetting false (some 10) 25009).time < 10 + 25000 ∧
    10 + 25000 ≤ (resetting false (some 10) 25010).time ∧ (resetting false (some 10) 25010).pwr.refclk = true ∧ (resetting false (some 10) 25010).clkMode < 2 ∧
    (resetting false (some 10) 25010).pwr.holdUntil ≤ (resetting false (some 10) 25010).time ∧ (resetting false (some 10) 25010).pwr.lowUntil ≤ (resetting false (some 10) 25010).time ∧
    ((resetting false (some 10) 25010).measureRom).pwr.stuck = false := by decide +kernel

/-- A boot in a phase of RST_STATUS. -/
def booting (phase time : Nat) : Block := { up with time := time, regs := [(Reg.rstStatus, BitVec.ofNat 64 (phase * 2 ^ 60))], fw := { bootSlot := some 0 } }

/-- A trial image runs since tick 0. -/
def trial (time : Nat) : Block := { up with time := time, regs := [(Reg.fwRun, 0x2000000000000000)] }

/-- Straps with bit 61 set, and a narrower reset of core 8 under way. -/
def strapped (r : Option ResetInProgress) : Block :=
  { up with regs := [(Reg.aonStraps, 0x2000000000000000)], pwr := { up.pwr with rst := r, narrow := [{ level := 1, idx := 8, since := 10 }] } }

theorem witness_PowerAndBoot :
    up.pwr.powered = true ∧ State.reset.m.pwr.powered = false ∧ (43999 : Nat) < 44000 ∧ (57000 : Nat) < 57001 ∧ (44000 : Nat) ≤ 44000 ∧ (booting 2 0).phase = 2 ∧
    (booting 2 0).fw.fwUp = false ∧ (booting 2 0).pwr.rst = none ∧ (booting 2 0).fw.bootSlot = some 0 ∧ (booting 3 0).phase = 3 ∧ (booting 3 0).pwr.powered = true ∧
    (booting 3 0).pwr.recovery = none ∧ (booting 3 499999999).time < (booting 3 499999999).pwr.wdogStart + 500000000 ∧
    (booting 3 500000000).pwr.wdogStart + 500000000 ≤ (booting 3 500000000).time ∧ (trial 0).fwRuns = true ∧ (trial 0).pwr.pstate = 0 ∧
    (trial 0).fld Reg.fwRun 61 61 = 1 ∧ (trial 0).fld Reg.fwRun 60 60 = 0 ∧ (trial 1499999999).time < (trial 1499999999).fw.runSince + 1500000000 ∧
    (trial 1500000000).fw.runSince + 1500000000 ≤ (trial 1500000000).time ∧ (strapped none).fld Reg.aonStraps 61 61 = 1 ∧ 304 < (strapped none).domains ∧
    (strapped (some ⟨false, 7, 0, none, false⟩)).pwr.rst ≠ none ∧ (strapped none).pwr.rst = none ∧
    ((List.range 305).any fun d => (strapped none).pwr.narrow.any fun r => (strapped none).reaches r d) = true ∧ 127 < up.coreCount ∧ 15 < up.tileCount ∧
    engineOf 0xB3F = some (.copy 15 3) ∧ engineOf 0xB40 = none ∧ up.fw.fwUp = true ∧ up.alive = true ∧ up.pwr.refclk = true ∧ (249 : Nat) < 250 := by decide +kernel

/-- An emergency with causes. -/
def emergency1 (causes : List Nat) (later : Option Nat) : Block := { up with pwr := { up.pwr with emergOpen := true, causes := causes, capLater := later } }

/-- Every PLL is off or on. -/
def plls (on : Bool) : Block := { up with tiles := (List.range 16).map fun t => (t, { pllOn := on }) }

/-- Module in M2, woken or not. -/
def asleep (wake : Bool) (ctl : Nat) : Block := { up with regs := [(Reg.pwrCtl, BitVec.ofNat 64 ctl)], pwr := { up.pwr with pstate := 2, wake := wake } }

theorem witness_PowerRows :
    up.alive = true ∧ (2 : Nat) ≤ 2 ∧ (16000 : Nat) < 16001 ∧ (500 : Nat) ≤ 500 ∧ 15 < up.tileCount ∧ up.fld Reg.pwrTherm 31 16 ≤ 0x41A ∧ 0x419 < up.fld Reg.pwrTherm 31 16 ∧
    up.pwr.causes.contains 5 = false ∧ (emergency1 [1] none).causeOver 1 25000 = true ∧ (24999 : Nat) < 25000 ∧ (emergency1 [1] none).pwr.causes ≠ [] ∧
    (emergency1 [] none).pwr.emergOpen = true ∧ (emergency1 [] none).clocksBack = true ∧ (emergency1 [] (some 7)).pwr.capLater = some 7 ∧ (emergency1 [] none).pwr.capLater = none ∧
    up.pwr.capSaved = none ∧ ({ up with pwr := { up.pwr with capSaved := some 7000 } } : Block).pwr.capSaved = some 7000 ∧
    up.flt.deadStacks.contains 15 = false ∧ ({ up with flt := { deadStacks := [15] } } : Block).flt.deadStacks.contains 15 = true ∧
    up.fw.fwUp = true ∧ 1000 * up.capNow 48000 < 7200001 ∧ 7200000 ≤ 1000 * up.capNow 48000 ∧ up.fld Reg.pwrTherm 47 32 ≤ 0x3B6 ∧ (up.tile 0).temp < up.fld Reg.pwrTherm 47 32 ∧
    100 * 6983999 < 97 * 1000 * up.capNow 48000 ∧ 97 * 1000 * up.capNow 48000 ≤ 100 * 6984000 ∧ (9 : Nat) ≤ 9 ∧ (48000 : Nat) ≤ 48000 ∧ (25000000 : Nat) ≤ 25000000 ∧
    (400 : Nat) < 401 ∧ up.fld Reg.pwrCool 63 63 = 0 ∧ up.fwRuns = true ∧ (∀ c < 8, (up.core c).task = none) ∧
    (up.tile 0).idleFrom + ({ up with time := 0x61A8 } : Block).fld Reg.tileClkIdle 31 0 ≤ 0x61A8 ∧ (pair 1).fwRuns = true ∧ ((pair 1).core (8 * 0 + 1)).task ≠ none ∧
    (∀ t < (plls false).tileCount, ((plls false).tile t).pllOn = false) ∧ ((plls true).tile 15).pllOn = true ∧ (plls false).fwRuns = true ∧ (plls false).pwr.pstate = 0 ∧
    ({ up with regs := [(Reg.pwrCtl, 2)] } : Block).fld Reg.pwrCtl 1 0 = 2 ∧ up.quiet = true ∧ (doing up (cmd1 workQ 0 [] 0 0)).quiet = false ∧ (asleep true 2).pwr.pstate = 2 ∧
    (asleep true 2).pwr.wake = true ∧ (asleep false 0).fld Reg.pwrCtl 1 0 = 0 ∧ (asleep false 2).pwr.wake = false ∧ (asleep false 2).fld Reg.pwrCtl 1 0 ≠ 0 ∧
    0x47D < up.fld Reg.pwrTherm 15 0 ∧ up.fld Reg.pwrTherm 15 0 ≤ 0x47E := by decide +kernel

/-- The telemetry of a window leaves the emergency as it is: the hypothesis on it meets both cases. -/
theorem witness_PowerRows_window : (up.telemetry 0 0 0 []).pwr.emergOpen = false ∧ ((emergency1 [1] none).telemetry 0 0 0 []).pwr.emergOpen = true := by decide +kernel

/-- A curb that firmware has to handle; its context is in teardown or not. -/
def curbed (q : Option QueueId) (tearing_ : Bool) : Block :=
  { base1 with
    flt := { curbs := [⟨2, 1, 0, 1, 1, 0, 128, none, q, 0⟩] }
    cmd := { base1.cmd with contexts := [{ tenant := 1, ctx := 1, tear := if tearing_ then some ⟨none, false, 0, 0, false, 0⟩ else none }], cmds := [cmd1 workQ 0 [] 0 0] } }

/-- Core 0's task has made no progress until `time`; a compression ring is active. -/
def stale (time : Nat) : Block :=
  { pair 1 with
    time := time, regs := (Reg.cmpRingHead 0 0, 0x1000000000000000) :: (Reg.drvRingHead 0 0, 0x1000000000000000) :: (Reg.grmRingHead 0 0, 0x1000000000000000) :: (pair 1).regs
    pwr := { up.pwr with narrow := [{ level := 1, idx := 8, since := 10 }] } }

theorem witness_FaultsAndRecovery_faults :
    (127 : Nat) < 128 ∧ (∀ x ∈ [1, 2, 3], (inState run0 x).coreSt 0 = x) ∧ (run0.core 0).task = none ∧ (loading.core 0).task = some ⟨1, 1, 0⟩ ∧
    (base1.flt.faults.filter (·.tenant == 1)).length ≤ 1024 ∧ base1.flt.curbs = [] ∧ (curbed none true).flt.curbs = [⟨2, 1, 0, 1, 1, 0, 128, none, none, 0⟩] ∧
    ((curbed none true).context? 1 1).any (fun x => x.tear.isSome) = true ∧ ((curbed none false).context? 1 1).any (fun x => x.tear.isNone) = true ∧
    (cmd1 workQ 0 [] 0 0).faultSeq = none ∧ (1 : Nat) ≠ 8 ∧ base1.hung 1 0 = false ∧ (stale 99999999999).hung 0 0 = true ∧ (∀ k ∈ [2, 3, 4], (stale 99999999999).hung k 0 = true) ∧
    base1.fwRuns = true ∧ (6 : Nat) ≤ 6 ∧ ((stale 0).pwr.narrow.find? fun r => r.level == 1 && r.idx == 8) = some { level := 1, idx := 8, since := 10 } ∧
    (stale 25009).time < 10 + (stale 25009).escLimit 1 ∧ 10 + (stale 25010).escLimit 1 ≤ (stale 25010).time := by decide +kernel

/-- Recovery has run its phases. -/
def recovering (dead : List Nat) (again : Bool) : Block :=
  { up with
    regs := [(Reg.rstStatus, 0x4000000000000000)], pwr := { up.pwr with recovery := some (0, 4), recoverAgain := again }, flt := { failedStacks := dead } }

/-- Core 0 has an uncorrectable error, hangs and 64 corrected errors or 63 in the last day; its tile has a spare. -/
def damaged (corr : Nat) : Block :=
  { up with regs := [(Reg.tileCoreState 0, 1)], cores := [(0, { cmUncorr := [0], hangs := 2, cmCorr := List.replicate corr 0 })] }

theorem witness_FaultsAndRecovery_recovery :
    up.fwRuns = true ∧ (5 : Nat) ≤ 5 ∧ (6 : Nat) < 7 ∧ (recovering [] false).pwr.recovery = some (0, 4) ∧ ({ recovering [] false with fw := {} } : Block).fw.fwUp = false ∧
    (recovering [] false).fw.fwUp = true ∧ (recovering [] false).pwr.rst = none ∧ (recovering [] false).phase = 4 ∧ (recovering [] false).pwr.healthState ≠ 2 ∧
    (recovering [1] false).flt.failedStacks.contains 1 = true ∧ (recovering [] false).flt.failedStacks.contains 1 = false ∧ 127 < up.coreCount ∧ (damaged 64).phys 0 ≠ 0xF ∧
    (damaged 64).coreDamaged 0 = true ∧ 2 ≤ ((damaged 64).core 0).hangs ∧ up.coreDamaged 0 = false ∧
    64 ≤ (((damaged 64).core 0).cmCorr.filter fun t => decide ((damaged 64).time < t + day)).length ∧ ((damaged 64).core 0).task = none ∧ ((damaged 64).core 0).saved = none ∧
    ((damaged 64).spareOf 0).isSome = true ∧ (((damaged 63).core 0).cmCorr.filter fun t => decide ((damaged 63).time < t + day)).length < 64 := by decide +kernel

/-- A trace point leaves commands and power as they are, whatever it writes (R403). -/
theorem trace_keeps (m : Block) (u c : Nat) : (m.trace u c).cmd = m.cmd ∧ (m.trace u c).pwr = m.pwr := by
  unfold Block.trace
  extract_lets
  split <;> exact ⟨rfl, rfl⟩

theorem witness_FaultsAndRecovery_served :
    ((({ curbed (some workQ) false with flt := {} } : Block).faultFor 2 1 0 1 1 0 128 0 2 0 (some workQ)).trace 7 5).running workQ = some (cmd1 workQ 0 [] 0 0) := by
  rw [Block.running, (trace_keeps _ 7 5).1]
  decide +kernel

/-- What recovery's end makes of a block, before the last trace point. -/
def afterRecovery (m : Block) : Block :=
  let m2 := { m.layMemories.sendRejoin with fab.sendRecovering := false, pwr.recovery := none, pwr.healthState := 0 }
  let m3 := (m2.setReg Reg.aonRecovEnd (BitVec.ofNat 64 m2.time)).setFld Reg.aonRecov 31 0 (min ((m2.time - 0) * 40 / 1000000) (2 ^ 32 - 1))
  (if m3.pwr.causes.contains 5 then m3.endCause 5 else m3).windowClosed.replayBook

theorem witness_FaultsAndRecovery_again :
    ((afterRecovery (recovering [] false)).trace 7 5).pwr.recoverAgain = false ∧ ((afterRecovery (recovering [] true)).trace 7 5).pwr.recoverAgain = true := by
  rw [(trace_keeps _ 7 5).2, (trace_keeps _ 7 5).2]
  decide +kernel

theorem witness_SecurityRows :
    up.sec.meas[5]? = some (List.replicate 64 0) ∧ up.sec.events.length < 32 ∧
    32 ≤ ({ up with sec := { events := List.replicate 32 ⟨0, 0, 0, []⟩ } } : Block).sec.events.length ∧ base1.choSt 0 = 2 ∧ up.sec.svnBusy = false ∧
    ({ up with regs := [(Reg.fwRun, 0x2000000000000000)] } : Block).svnRefused = true ∧ up.svnRefused = false ∧ (0x5357 : Nat) ≠ 0x5356 ∧
    ({ up with sec := { svnBusy := true } } : Block).sec.svnBusy = true ∧ up.fuse.svnFuses ≤ 64 ∧ base1.tagOk 0 1 = true ∧ (1 : Nat) ≠ 0 := by decide +kernel

/- Witnesses: steps -/

theorem witness_StepRunsFrontCommand : (st up).pending = [] ∧ (st up).m.pwr.powered = true ∧ (∀ c ∈ (doing up (cmd1 workQ 0 [] 0 0)).cmd.cmds, (doing up (cmd1 workQ 0 [] 0 0)).overrun c = false) ∧
    (∀ e ∈ (pair 1).cores, ((pair 1).core e.1).goesOn = false ∧ (((pair 1).core e.1).task ≠ none ∨ (pair 1).fld (Reg.coreTaskId e.1) 63 63 = 0)) ∧ (pair 1).cores ≠ [] ∧ State.reset.pending = [] ∧ State.reset.m.pwr.powered = false := by
  decide +kernel

theorem witness_EveryStepKeepsMemoriesCanonical : State.reset.m.Canonical ∧ (counted false).Canonical ∧ Memory.wf [(3, 1), (9, 2)] := by decide +kernel

end Sys2Proof.Tests
end

/-! SUPPORT. Register writes: a register's value bit by bit after a write (R13), and the writes of the windows whose writes do nothing but
store (pool, HBM, DDR5, PACE_). -/
namespace Sys2Proof.Machine

/- Changes of registers alone -/

/-- One change of the listed registers after another. -/
theorem OnlyRegs.trans {rs : List Nat} {a b c : Block} (h : OnlyRegs rs a b) (h' : OnlyRegs rs b c) : OnlyRegs rs a c := by
  obtain ⟨hreg, ⟨hbyte, hpoison, htags⟩, ⟨hbufs, hmbuf⟩, hcore, hunits, hflt⟩ := h
  obtain ⟨hreg', ⟨hbyte', hpoison', htags'⟩, ⟨hbufs', hmbuf'⟩, hcore', hunits', hflt'⟩ := h'
  exact ⟨fun r hr => (hreg' r hr).trans (hreg r hr),
    ⟨fun x => (hbyte' x).trans (hbyte x), hpoison'.trans hpoison, htags'.trans htags⟩,
    ⟨fun x => (hbufs' x).trans (hbufs x), fun x => (hmbuf' x).trans (hmbuf x)⟩,
    fun k => (hcore' k).trans (hcore k), hunits'.trans hunits, hflt'.trans hflt⟩

/-- A change of a listed register. -/
theorem OnlyRegs.setReg {rs : List Nat} (m : Block) {r : Nat} (w : Word) (h : r ∈ rs) : OnlyRegs rs m (m.setReg r w) := by
  obtain ⟨hreg, hmem, hbufs, -, hunits⟩ := OnlyCore.setReg 0 rs m r w h
  exact ⟨hreg, hmem, hbufs, fun _ => rfl, hunits, rfl⟩

/-- The canonical form of the memories changes no byte and no register. -/
theorem OnlyRegs.settle (rs : List Nat) (m : Block) : OnlyRegs rs m m.settle := by
  obtain ⟨hreg, hmem, hbufs, -, hunits⟩ := OnlyCore.settle 0 rs m
  exact ⟨hreg, hmem, hbufs, fun _ => rfl, hunits, rfl⟩

/- A register's value after a write -/

/-- `bit` reads the bit of a 64-bit word. -/
theorem bit_eq_getLsbD (w : Word) (b : Nat) : bit w b = w.getLsbD b := BitVec.testBit_toNat w

/-- Bits of a register after a write of the bits that a mask covers (R13, Table 0.9). -/
theorem bit_mergeWord (row : RegRow) (old mask v : Word) {b : Nat} (hb : b < 64) :
    bit (mergeWord row old mask v) b =
      (if row.rw.testBit b && bit mask b then bit v b
       else if row.w1c.testBit b && bit mask b && bit v b then false
       else bit old b) := by
  simp only [bit_eq_getLsbD, mergeWord, BitVec.getLsbD_or, BitVec.getLsbD_and, BitVec.getLsbD_not, BitVec.getLsbD_ofNat, hb, decide_true,
    Bool.true_and]
  by_cases hrw : (row.rw.testBit b && mask.getLsbD b) = true
  · simp [hrw]
  · by_cases hclear : (row.w1c.testBit b && mask.getLsbD b && v.getLsbD b) = true
    · simp [hrw, hclear]
    · simp [hrw, hclear]

/- The windows whose writes do nothing but store -/

/-- A register of the pool, HBM, DDR5 or PACE_ window: its writes do nothing but store. -/
def OnlyStores (off : Nat) : Prop := off / 0x100000 ∈ [9, 10, 11, 20]

/-- The bits of a register that the die has: of POOL_SPARE_MAP those of its spares (Table 5.4), of the others all. -/
def Block.bitsThere (m : Block) (off : Nat) : Word := if off / 0x100000 = 9 ∧ off % 0x1000 = 0 then m.spareMask else BitVec.allOnes 64

/-- The four windows. -/
theorem OnlyStores.window {off : Nat} (h : OnlyStores off) :
    off / 0x100000 = 9 ∨ off / 0x100000 = 10 ∨ off / 0x100000 = 11 ∨ off / 0x100000 = 20 := by simpa [OnlyStores] using h

/-- The upper half of a register lies in its window. -/
theorem OnlyStores.sub_four {off : Nat} (h : OnlyStores off) (h4 : off % 8 = 4) : OnlyStores (off - 4) := by
  have hw : (off - 4) / 0x100000 = off / 0x100000 := by omega
  rwa [OnlyStores, hw]

/-- The mailboxes lie in another window. -/
theorem mailboxAt_of_onlyStores {off : Nat} (h : OnlyStores off) : mailboxAt off = none := by
  have hout : ¬ (0x1320000 ≤ off ∧ off < 0x13A0000) := by have := h.window; omega
  simp [mailboxAt, hout]

/-- The doorbells lie in another window. -/
theorem OnlyStores.not_doorbell {off : Nat} (h : OnlyStores off) : off / 0x100000 ≠ 32 := by have := h.window; omega

/-- In these windows firmware alone writes (R510). -/
theorem Block.mayWrite_of_onlyStores (m : Block) (r : Requester) {off : Nat} (h : OnlyStores off) : m.mayWrite r off = isFw r := by
  cases hr : isFw r with
  | true => simp [Block.mayWrite, hr]
  | false => rcases h.window with hw | hw | hw | hw <;> simp [Block.mayWrite, hr, hw]

/-- A write at an offset that holds no register changes nothing (R8). -/
theorem Block.writeReg_of_no_register (m : Block) (r : Requester) {off : Nat} (mask v : Word) (h : OnlyStores off) (hn : regAt off = none) :
    m.writeReg r off mask v = m := by
  simp [Block.writeReg, mailboxAt_of_onlyStores h, h.not_doorbell, hn]

/-- A write to a register of a unit that is absent changes nothing (R8). -/
theorem Block.writeReg_of_absent (m : Block) (r : Requester) {off : Nat} (mask v : Word) (h : OnlyStores off) (ha : m.absent off = true) :
    m.writeReg r off mask v = m := by
  simp only [Block.writeReg, mailboxAt_of_onlyStores h, h.not_doorbell, ha]
  cases regAt off <;> rfl

/-- A write to a register that is there stores, in the bits that the die has. -/
theorem Block.writeReg_of_onlyStores (m : Block) (r : Requester) {off k l : Nat} {row : RegRow} (mask v : Word) (h : OnlyStores off)
    (hrow : regAt off = some (row, k, l)) (ha : m.absent off = false) :
    m.writeReg r off mask v = m.plainWrite r row off (mask &&& m.bitsThere off) v := by
  by_cases hspare : off / 0x100000 = 9 ∧ off % 0x1000 = 0
  · rw [Block.bitsThere, if_pos hspare]
    simp [Block.writeReg, mailboxAt_of_onlyStores h, hrow, ha, hspare]
  · rw [Block.bitsThere, if_neg hspare, BitVec.and_allOnes]
    rcases h.window with hw | hw | hw | hw
    · have hp : off % 0x1000 ≠ 0 := fun hp => hspare ⟨hw, hp⟩
      simp [Block.writeReg, mailboxAt_of_onlyStores h, hrow, ha, hw, hp]
    all_goals simp [Block.writeReg, mailboxAt_of_onlyStores h, hrow, ha, hw]

/-- Who may not write changes nothing (R510). -/
theorem Block.writeReg_of_not_firmware (m : Block) (r : Requester) {off : Nat} (mask v : Word) (h : OnlyStores off) (hr : isFw r = false) :
    m.writeReg r off mask v = m := by
  cases hrow : regAt off with
  | none => exact m.writeReg_of_no_register r mask v h hrow
  | some x =>
    obtain ⟨row, k, l⟩ := x
    cases ha : m.absent off with
    | true => exact m.writeReg_of_absent r mask v h ha
    | false => rw [m.writeReg_of_onlyStores r mask v h hrow ha, Block.plainWrite, m.mayWrite_of_onlyStores r h, hr]; rfl

/-- The same of a write of 8 bytes or of either half. -/
theorem Block.writeRegBytes_of_not_firmware (m : Block) (r : Requester) {off : Nat} (half : Bool) (v : Word) (h : OnlyStores off)
    (hr : isFw r = false) : m.writeRegBytes r off half v = m := by
  unfold Block.writeRegBytes
  split
  · exact m.writeReg_of_not_firmware r _ v h hr
  · split
    · rename_i h4
      exact m.writeReg_of_not_firmware r _ _ (h.sub_four h4) hr
    · exact m.writeReg_of_not_firmware r _ v h hr

/-- Firmware's write stores the merged value. -/
theorem Block.writeReg_firmware (m : Block) {off k l : Nat} {row : RegRow} (mask v : Word) (h : OnlyStores off)
    (hrow : regAt off = some (row, k, l)) (ha : m.absent off = false) :
    m.writeReg .firmware off mask v = m.setReg off (mergeWord row (m.reg off) (mask &&& m.bitsThere off) v) := by
  rw [m.writeReg_of_onlyStores .firmware mask v h hrow ha]
  rfl

/- REGISTER_WRITE -/

/-- REGISTER_WRITE commits what its effect gives where the request is accepted. -/
theorem exec_registerWrite (r : Requester) (addr : Nat) (half : Bool) (v : Word) (s : State) :
    exec (.registerWrite r addr half v) s = s.commit (s.m.byHost r (registerWriteEffect r addr half v)) := rfl

/-- An aligned access of 8 or 4 bytes in a mapped window is accepted (R11, R509). -/
theorem regAccessOk_of_aligned {off : Nat} (half : Bool) (h8 : off % 8 = 0) (hm : windowMapped (off / 0x100000) = true) :
    regAccessOk off (if half then 4 else 8) = true := by
  have h4 : off % 4 = 0 := by omega
  cases half <;> simp [regAccessOk, h8, h4, hm]

/-- Firmware's accepted access writes the register's bytes. -/
theorem registerWriteEffect_firmware {m : Block} {addr off : Nat} {half : Bool} (v : Word) (hreg : m.region addr = .reg off)
    (hok : regAccessOk off (if half then 4 else 8) = true) :
    registerWriteEffect .firmware addr half v m = m.writeRegBytes .firmware off half v := by
  simp [registerWriteEffect, hreg, hok]

/-- A host's access writes the register's bytes or is refused and changes nothing. -/
theorem registerWriteEffect_host {m : Block} {addr off : Nat} (p t : Nat) (half : Bool) (v : Word) (hreg : m.region addr = .reg off) :
    registerWriteEffect (.host p t) addr half v m = m.writeRegBytes (.host p t) off half v ∨
      registerWriteEffect (.host p t) addr half v m = m := by
  cases hok : regAccessOk off (if half then 4 else 8) with
  | true => exact .inl (by simp [registerWriteEffect, hreg, hok])
  | false => exact .inr (by simp [registerWriteEffect, hreg, hok])

/-- A core's refused access curbs the core with KIND 4 (R11, R509). -/
theorem registerWriteEffect_core_refused {m : Block} {addr off : Nat} (n : Nat) {half : Bool} (v : Word) (hreg : m.region addr = .reg off)
    (hbad : regAccessOk off (if half then 4 else 8) = false) :
    registerWriteEffect (.core n) addr half v m = m.curbCore n 4 addr (if half then 4 else 8) := by
  simp [registerWriteEffect, hreg, hbad]

/-- Firmware's refused access changes nothing. -/
theorem registerWriteEffect_firmware_refused {m : Block} {addr off : Nat} {half : Bool} (v : Word) (hreg : m.region addr = .reg off)
    (hbad : regAccessOk off (if half then 4 else 8) = false) : registerWriteEffect .firmware addr half v m = m := by
  simp [registerWriteEffect, hreg, hbad]

/-- A command whose effect is a write of one register completes with that value, and nothing else changes. -/
theorem completes_of_setReg {c : Instr} {s : State} {off : Nat} {w : Word} (h : exec c s = s.commit (s.m.setReg off w)) :
    Completes c s fun m => m.reg off = w ∧ OnlyRegs [off] s.m m :=
  completes_of_commit h ⟨by simp, (OnlyRegs.setReg s.m w (List.mem_singleton_self off)).trans (OnlyRegs.settle _ _)⟩

/-- Firmware writes a register of these windows: 8 bytes the whole, 4 bytes at its offset the lower half (R11, R13). -/
theorem completes_registerWrite_firmware {s : State} {addr off k l : Nat} {row : RegRow} (half : Bool) (v : Word)
    (hreg : s.m.region addr = .reg off) (h : OnlyStores off) (hrow : regAt off = some (row, k, l)) (ha : s.m.absent off = false)
    (h8 : off % 8 = 0) (hm : windowMapped (off / 0x100000) = true) :
    Completes (.registerWrite .firmware addr half v) s fun m =>
      m.reg off = mergeWord row (s.m.reg off) ((if half then 0xFFFFFFFF else BitVec.allOnes 64) &&& s.m.bitsThere off) v ∧
        OnlyRegs [off] s.m m := by
  apply completes_of_setReg
  rw [exec_registerWrite, Block.byHost_firmware, registerWriteEffect_firmware v hreg (regAccessOk_of_aligned half h8 hm),
    ← s.m.writeReg_firmware _ v h hrow ha]
  cases half <;> simp [Block.writeRegBytes, h8]

/-- An accepted request of a host changes nothing in these windows, whichever its tenant (R510). -/
theorem gives_registerWrite_host {s : State} {addr off : Nat} (p t : Nat) (half : Bool) (v : Word) (hreg : s.m.region addr = .reg off)
    (h : OnlyStores off) (hp : s.m.choSt p = 2) (ht : s.m.tagOk p t = true) : Gives (.registerWrite (.host p t) addr half v) s s.m := by
  apply gives_of_commit (exec_registerWrite _ _ _ _ _)
  rw [Block.byHost_of_ok _ _ _ _ hp ht]
  rcases registerWriteEffect_host p t half v hreg with e | e
  · exact e.trans (s.m.writeRegBytes_of_not_firmware _ half v h rfl)
  · exact e

/-- Settles O26: a merge bit by bit, firmware's whole and half writes of the windows that only store, a host's write there, and the refused
accesses of a core and of firmware. -/
theorem registerWrites : Obligations.RegisterWrites := by
  refine ⟨fun row old mask v b hb => bit_mergeWord row old mask v hb, ?_, ?_, ?_⟩
  · intro addr off k l row v s hreg h hrow ha h8 hm
    have hwrite (half : Bool) := completes_registerWrite_firmware half v hreg h hrow ha h8 hm
    refine ⟨?_, hwrite true⟩
    have hwhole := hwrite false
    rwa [if_neg Bool.false_ne_true, BitVec.allOnes_and] at hwhole
  · intro addr off p t half v s hreg h _ hp ht
    exact gives_registerWrite_host p t half v hreg h hp ht
  · intro addr off n half v s hreg hbad
    exact ⟨gives_of_commit (exec_registerWrite _ _ _ _ _) (registerWriteEffect_core_refused n v hreg hbad),
      gives_of_commit (exec_registerWrite _ _ _ _ _) (registerWriteEffect_firmware_refused v hreg hbad)⟩

end Sys2Proof.Machine

/-! SUPPORT. Rounding to nearest, ties to even (R35): a quotient rounded to a natural number, the magnitudes of a format's finite codes, which rise
with the code and are evenly spaced within a binade, and the code that a conversion picks. -/
namespace Sys2Proof
open Machine

/- Rounding a quotient -/

/-- Half a unit at most lies between a quotient and what it rounds to, and at exactly half the even number is taken (R35). -/
theorem abs_sub_roundQuot_le (n : Nat) {d : Nat} (hd : 0 < d) :
    |(n : ℚ) / d - roundQuot n d| ≤ 1 / 2 ∧ (|(n : ℚ) / d - roundQuot n d| = 1 / 2 → roundQuot n d % 2 = 0) := by
  have hd' : (0 : ℚ) < d := by exact_mod_cast hd
  have hsplit : (n : ℚ) / d = (n / d : Nat) + ((n % d : Nat) : ℚ) / d := by
    rw [div_eq_iff hd'.ne', add_mul, div_mul_cancel₀ _ hd'.ne']
    exact_mod_cast (Nat.div_add_mod' n d).symm
  have hfrac : 0 ≤ ((n % d : Nat) : ℚ) / d ∧ ((n % d : Nat) : ℚ) / d < 1 :=
    ⟨by positivity, (div_lt_one hd').2 (by exact_mod_cast Nat.mod_lt n hd)⟩
  rw [hsplit, roundQuot]
  rcases lt_trichotomy (2 * (n % d)) d with hlow | htie | hhigh
  · have hdouble : (2 : ℚ) * (n % d : Nat) < d := by exact_mod_cast hlow
    have hhalf : ((n % d : Nat) : ℚ) / d < 1 / 2 := by rw [div_lt_iff₀ hd']; linarith
    rw [if_pos hlow, add_sub_cancel_left, abs_of_nonneg hfrac.1]
    exact ⟨hhalf.le, fun h => absurd h hhalf.ne⟩
  · have hdouble : (2 : ℚ) * (n % d : Nat) = d := by exact_mod_cast htie
    have hhalf : ((n % d : Nat) : ℚ) / d = 1 / 2 := by rw [div_eq_iff hd'.ne']; linarith
    rw [if_neg htie.not_lt, if_neg htie.not_gt, hhalf]
    refine ⟨?_, fun _ => by omega⟩
    rcases Nat.mod_two_eq_zero_or_one (n / d) with h | h <;> rw [h] <;> norm_num [abs_of_neg]
  · have hdouble : (d : ℚ) < 2 * (n % d : Nat) := by exact_mod_cast hhigh
    have hhalf : 1 / 2 < ((n % d : Nat) : ℚ) / d := by rw [lt_div_iff₀ hd']; linarith
    rw [if_neg hhigh.not_gt, if_pos hhigh, Nat.cast_add_one, add_sub_add_left_eq_sub, abs_of_neg (by linarith)]
    exact ⟨by linarith, fun h => by linarith⟩

/-- No natural number is nearer to a quotient than what it rounds to, and that is even when another is as near. -/
theorem roundQuot_nearest (n : Nat) {d : Nat} (hd : 0 < d) (z : Nat) :
    |(n : ℚ) / d - roundQuot n d| ≤ |(n : ℚ) / d - z| ∧
      (z ≠ roundQuot n d → |(n : ℚ) / d - roundQuot n d| = |(n : ℚ) / d - z| → roundQuot n d % 2 = 0) := by
  obtain ⟨hclose, htie⟩ := abs_sub_roundQuot_le n hd
  rcases eq_or_ne z (roundQuot n d) with rfl | hz
  · exact ⟨le_rfl, fun h => absurd rfl h⟩
  · have hapart : (1 : ℚ) ≤ |(z : ℚ) - roundQuot n d| := by
      have hsub : (z : ℤ) - roundQuot n d ≠ 0 := sub_ne_zero.2 (by exact_mod_cast hz)
      exact_mod_cast Int.one_le_abs hsub
    have htriangle := abs_sub_le (z : ℚ) (n / d) (roundQuot n d)
    rw [abs_sub_comm (z : ℚ) (n / d)] at htriangle
    exact ⟨by linarith, fun _ heq => htie (by linarith)⟩

/-- A natural number below a quotient is at most what it rounds to. -/
theorem le_roundQuot {n d k : Nat} (hd : 0 < d) (h : (k : ℚ) ≤ (n : ℚ) / d) : k ≤ roundQuot n d := by
  have hclose := (abs_le.1 (abs_sub_roundQuot_le n hd).1).2
  have : (k : ℚ) < (roundQuot n d + 1 : Nat) := by push_cast; linarith
  exact Nat.lt_succ_iff.1 (by exact_mod_cast this)

/-- A natural number above a quotient is at least what it rounds to. -/
theorem roundQuot_le {n d k : Nat} (hd : 0 < d) (h : (n : ℚ) / d ≤ k) : roundQuot n d ≤ k := by
  have hclose := (abs_le.1 (abs_sub_roundQuot_le n hd).1).1
  have : (roundQuot n d : ℚ) < (k + 1 : Nat) := by push_cast; linarith
  exact Nat.lt_succ_iff.1 (by exact_mod_cast this)

/-- A quotient from half above an odd number rounds beyond it: the tie goes to the even number above (R35). -/
theorem lt_roundQuot_of_odd {n d k : Nat} (hd : 0 < d) (hk : k % 2 = 1) (h : (k : ℚ) + 1 / 2 ≤ (n : ℚ) / d) : k < roundQuot n d := by
  obtain ⟨hclose, htie⟩ := abs_sub_roundQuot_le n hd
  refine lt_of_le_of_ne (le_roundQuot hd (by linarith)) fun heq => ?_
  rw [← heq] at hclose htie
  have heven := htie (le_antisymm hclose (le_trans (by linarith) (le_abs_self _)))
  omega

/-- A natural number rounds to itself. -/
@[simp] theorem roundQuot_one (n : Nat) : roundQuot n 1 = n := by simp [roundQuot, Nat.mod_one]

/- Scaling by a power of two -/

/-- The scaled denominator is positive. -/
theorem scaleQ_den_pos (n : Nat) {d : Nat} (hd : 0 < d) (s : Int) : 0 < (scaleQ n d s).2 := by
  unfold scaleQ
  split
  · exact hd
  · exact Nat.mul_pos hd (Nat.two_pow_pos _)

/-- The scaled quotient. -/
theorem scaleQ_quot (n d : Nat) (s : Int) : ((scaleQ n d s).1 : ℚ) / (scaleQ n d s).2 = (n : ℚ) / d * 2 ^ s := by
  unfold scaleQ
  split
  · rename_i hs
    obtain ⟨k, rfl⟩ := Int.eq_ofNat_of_zero_le hs
    simp [mul_div_right_comm]
  · rename_i hs
    obtain ⟨k, hk⟩ := Int.eq_ofNat_of_zero_le (show 0 ≤ -s by omega)
    obtain rfl : s = -k := by omega
    simp [← div_eq_mul_inv, div_div]

/-- Without a scale the quotient stands. -/
@[simp] theorem scaleQ_zero (n d : Nat) : scaleQ n d 0 = (n, d) := by simp [scaleQ]

/- The binade of a quotient -/

/-- Comparison with a power of two in whole numbers, as `floorLog2` makes it. -/
theorem quot_lt_two_zpow_iff (n : Nat) {d : Nat} (hd : 0 < d) (k : Int) :
    (n : ℚ) / d < 2 ^ k ↔ (if k ≥ 0 then decide (n < d * 2 ^ k.toNat) else decide (n * 2 ^ (-k).toNat < d)) = true := by
  have hd' : (0 : ℚ) < d := by exact_mod_cast hd
  rw [div_lt_iff₀ hd']
  split
  · rename_i hk
    obtain ⟨j, rfl⟩ := Int.eq_ofNat_of_zero_le hk
    simp only [decide_eq_true_eq, zpow_natCast, Int.toNat_natCast, mul_comm d]
    norm_cast
  · rename_i hk
    obtain ⟨j, hj⟩ := Int.eq_ofNat_of_zero_le (show 0 ≤ -k by omega)
    obtain rfl : k = -j := by omega
    simp only [decide_eq_true_eq, neg_neg, zpow_neg, zpow_natCast, Int.toNat_natCast, inv_mul_eq_div, lt_div_iff₀ (show (0 : ℚ) < 2 ^ j by positivity)]
    norm_cast

/-- A positive number lies in the binade of its logarithm. -/
theorem two_pow_log2_bounds {n : Nat} (hn : 0 < n) : (2 : ℚ) ^ (Nat.log2 n : Int) ≤ n ∧ (n : ℚ) < 2 ^ ((Nat.log2 n : Int) + 1) := by
  constructor
  · exact_mod_cast Nat.log2_self_le hn.ne'
  · exact_mod_cast Nat.lt_log2_self

/-- `floorLog2` is the exponent of the quotient's binade. -/
theorem floorLog2_bounds {n d : Nat} (hn : 0 < n) (hd : 0 < d) :
    (2 : ℚ) ^ floorLog2 n d ≤ (n : ℚ) / d ∧ (n : ℚ) / d < 2 ^ (floorLog2 n d + 1) := by
  have hd' : (0 : ℚ) < d := by exact_mod_cast hd
  obtain ⟨hnlow, hnhigh⟩ := two_pow_log2_bounds hn
  obtain ⟨hdlow, hdhigh⟩ := two_pow_log2_bounds hd
  have hbelow : (2 : ℚ) ^ ((Nat.log2 n : Int) - Nat.log2 d - 1) ≤ (n : ℚ) / d := by
    rw [le_div_iff₀ hd', sub_sub, zpow_sub₀ two_ne_zero, div_mul_eq_mul_div, div_le_iff₀ (by positivity)]
    exact mul_le_mul hnlow hdhigh.le hd'.le (by positivity)
  have habove : (n : ℚ) / d < 2 ^ ((Nat.log2 n : Int) - Nat.log2 d + 1) := by
    rw [div_lt_iff₀ hd', sub_add_eq_add_sub, zpow_sub₀ two_ne_zero, div_mul_eq_mul_div, lt_div_iff₀ (by positivity)]
    exact mul_lt_mul hnhigh hdlow (by positivity) (by positivity)
  have hlow := quot_lt_two_zpow_iff n hd ((Nat.log2 n : Int) - Nat.log2 d)
  unfold floorLog2
  extract_lets a b k low
  change (n : ℚ) / d < 2 ^ k ↔ low = true at hlow
  cases hval : low with
  | true => exact ⟨hbelow, by simpa using hlow.2 hval⟩
  | false => exact ⟨not_lt.1 fun h => Bool.false_ne_true (hval.symm.trans (hlow.1 h)), habove⟩

/- The magnitudes of a format's codes -/

/-- Steps from the first binade to a code's. The subnormal codes share the spacing of the first binade (R22). -/
def FloatFmt.binade (f : FloatFmt) (c : Nat) : Nat := c / 2 ^ f.q - 1

/-- A code's significand, in units of the spacing of its binade. -/
def FloatFmt.significand (f : FloatFmt) (c : Nat) : Nat := c - f.binade c * 2 ^ f.q

/-- The exponent of the spacing of binade `b`. -/
def FloatFmt.spacing (f : FloatFmt) (b : Nat) : Int := f.emin - f.q + b

/-- The magnitude of a code that is finite. -/
def FloatFmt.codeMag (f : FloatFmt) (c : Nat) : ℚ := f.significand c * 2 ^ f.spacing (f.binade c)

/-- A code between the start and the end of binade `b`, both included; the subnormal codes belong to binade 0. -/
def FloatFmt.InBinade (f : FloatFmt) (b c : Nat) : Prop := (b = 0 ∨ (b + 1) * 2 ^ f.q ≤ c) ∧ c ≤ (b + 2) * 2 ^ f.q

/-- What the finite codes of the floating-point formats have in common (Tables 2.1 and 2.3). -/
structure FloatFmt.Sound (f : FloatFmt) : Prop where
  mantissa : 0 < f.q
  largest  : f.maxCode < 2 ^ (f.width - 1)
  infinity : ∀ i, f.infCode = some i → i = f.maxCode + 1 ∧ i < 2 ^ (f.width - 1)

/-- The formats of Table 2.1 are such. -/
theorem Fmt.float_sound {t : Fmt} {f : FloatFmt} (h : t.float = some f) : f.Sound := by
  cases t with
  | int8 | int4 => cases h
  | fp32 | bf16 | fp16 | e4m3 | e5m2 | e3m2 | e2m3 | e2m1 =>
    obtain rfl := Option.some.inj h
    constructor <;> decide

/-- A code has the significand and the spacing that its exponent field and its mantissa give (R22). -/
theorem FloatFmt.significand_cases (f : FloatFmt) (c : Nat) :
    (c < 2 ^ f.q ∧ f.binade c = 0 ∧ f.significand c = c) ∨
    (2 ^ f.q ≤ c ∧ f.binade c + 1 = c / 2 ^ f.q ∧ f.significand c = 2 ^ f.q + c % 2 ^ f.q) := by
  rcases lt_or_ge c (2 ^ f.q) with h | h
  · left
    have hb : f.binade c = 0 := by simp [FloatFmt.binade, Nat.div_eq_of_lt h]
    exact ⟨h, hb, by simp [FloatFmt.significand, hb]⟩
  · right
    have hpos : 1 ≤ c / 2 ^ f.q := (Nat.one_le_div_iff (Nat.two_pow_pos _)).2 h
    have hb : f.binade c + 1 = c / 2 ^ f.q := by unfold FloatFmt.binade; omega
    refine ⟨h, hb, ?_⟩
    have hc := Nat.div_add_mod' c (2 ^ f.q)
    rw [← hb, add_one_mul] at hc
    unfold FloatFmt.significand
    omega

/-- The sign bit of a code. -/
theorem FloatFmt.testBit_signed {f : FloatFmt} (neg : Bool) {c : Nat} (hc : c < 2 ^ (f.width - 1)) :
    (f.signed neg c).testBit (f.width - 1) = neg := by
  cases neg with
  | false => simpa [FloatFmt.signed] using Nat.testBit_lt_two_pow hc
  | true => simp [FloatFmt.signed, Nat.add_comm c, Nat.testBit_two_pow_add_eq, Nat.testBit_lt_two_pow hc]

/-- A code without its sign bit. -/
theorem FloatFmt.signed_mod {f : FloatFmt} (neg : Bool) {c : Nat} (hc : c < 2 ^ (f.width - 1)) : f.signed neg c % 2 ^ (f.width - 1) = c := by
  cases neg <;> simp [FloatFmt.signed, Nat.mod_eq_of_lt hc]

/-- A code above the largest finite one is an infinity or NaN (Table 2.3). -/
theorem FloatFmt.decode_signed_beyond {f : FloatFmt} (neg : Bool) {c : Nat} (hc : c < 2 ^ (f.width - 1)) (hmax : f.maxCode < c) :
    f.decode (f.signed neg c) = if f.infCode = some c then .inf neg else .nan := by
  simp only [FloatFmt.decode, testBit_signed neg hc, signed_mod neg hc, gt_iff_lt, if_pos hmax]

/-- A finite code with its sign is its sign, its significand and its spacing. -/
theorem FloatFmt.decode_signed {f : FloatFmt} (hf : f.Sound) (neg : Bool) {c : Nat} (hc : c ≤ f.maxCode) :
    f.decode (f.signed neg c) = .fin neg (f.significand c) (f.spacing (f.binade c)) := by
  have hlt : c < 2 ^ (f.width - 1) := hc.trans_lt hf.largest
  have hinf : f.infCode ≠ some c := fun h => by have := (hf.infinity c h).1; omega
  simp only [FloatFmt.decode, testBit_signed neg hlt, signed_mod neg hlt, if_neg hinf, if_neg hc.not_gt]
  rcases f.significand_cases c with ⟨hsub, hb, hs⟩ | ⟨hnorm, hb, hs⟩
  · simp [if_pos hsub, hb, hs, FloatFmt.spacing]
  · rw [if_neg hnorm.not_gt, hs, ← hb]
    congr 1
    simp only [FloatFmt.spacing]
    push_cast
    ring

/-- The code of infinity with a sign is the infinity of that sign. -/
theorem FloatFmt.decode_signed_inf {f : FloatFmt} (hf : f.Sound) (neg : Bool) {i : Nat} (hi : f.infCode = some i) :
    f.decode (f.signed neg i) = .inf neg := by
  obtain ⟨hnext, hlt⟩ := hf.infinity i hi
  rw [decode_signed_beyond neg hlt (by omega), if_pos hi]

/-- Every code is a sign and a code without one. -/
theorem FloatFmt.exists_signed (f : FloatFmt) (hw : 0 < f.width) {code : Nat} (h : code < 2 ^ f.width) :
    ∃ neg c, code = f.signed neg c ∧ c < 2 ^ (f.width - 1) := by
  have hdouble : 2 ^ f.width = 2 ^ (f.width - 1) + 2 ^ (f.width - 1) := by rw [← Nat.two_pow_succ, Nat.sub_add_cancel hw]
  rcases lt_or_ge code (2 ^ (f.width - 1)) with hlt | hge
  · exact ⟨false, code, rfl, hlt⟩
  · exact ⟨true, code - 2 ^ (f.width - 1), (Nat.sub_add_cancel hge).symm, by omega⟩

/-- A finite code's magnitude. -/
theorem FloatFmt.magnitude_decode {f : FloatFmt} (hf : f.Sound) {c : Nat} (hc : c ≤ f.maxCode) : magnitude (f.decode c) = f.codeMag c := by
  rw [show c = f.signed false c from rfl, FloatFmt.decode_signed hf false hc]
  rfl

/-- The spacing doubles from one binade to the next. -/
theorem FloatFmt.two_zpow_spacing_succ (f : FloatFmt) (b : Nat) : (2 : ℚ) ^ f.spacing (b + 1) = 2 * 2 ^ f.spacing b := by
  rw [← zpow_one_add₀ two_ne_zero]
  congr 1
  simp only [FloatFmt.spacing]
  push_cast
  ring

/-- Within a binade the magnitudes are evenly spaced, its end included, which the next binade starts with. -/
theorem FloatFmt.codeMag_of_inBinade {f : FloatFmt} {b c : Nat} (h : f.InBinade b c) :
    f.codeMag c = (c - b * 2 ^ f.q : Nat) * 2 ^ f.spacing b := by
  obtain ⟨hlow, hhigh⟩ := h
  have hq : 0 < 2 ^ f.q := Nat.two_pow_pos _
  rcases hhigh.lt_or_eq with hlt | rfl
  · have hb : f.binade c = b := by
      have hdiv : c / 2 ^ f.q < b + 2 := (Nat.div_lt_iff_lt_mul hq).2 hlt
      have hge : b = 0 ∨ b + 1 ≤ c / 2 ^ f.q := hlow.imp_right (Nat.le_div_iff_mul_le hq).2
      unfold FloatFmt.binade
      omega
    rw [FloatFmt.codeMag, FloatFmt.significand, hb]
  · have hb : f.binade ((b + 2) * 2 ^ f.q) = b + 1 := by rw [FloatFmt.binade, Nat.mul_div_cancel _ hq]; omega
    have hs : (b + 2) * 2 ^ f.q - (b + 1) * 2 ^ f.q = 2 ^ f.q := by rw [← Nat.sub_mul]; simp
    have he : (b + 2) * 2 ^ f.q - b * 2 ^ f.q = 2 ^ f.q * 2 := by rw [← Nat.sub_mul]; simp [Nat.mul_comm]
    rw [FloatFmt.codeMag, FloatFmt.significand, hb, hs, he, f.two_zpow_spacing_succ]
    push_cast
    ring

/-- A code of a binade stands at or above its start. -/
theorem FloatFmt.InBinade.start_le {f : FloatFmt} {b c : Nat} (h : f.InBinade b c) : b * 2 ^ f.q ≤ c := by
  rcases h.1 with rfl | hlow
  · simp
  · exact (Nat.mul_le_mul_right _ (Nat.le_succ _)).trans hlow

/-- The codes of a binade by their offset from its start. -/
theorem FloatFmt.inBinade_add {f : FloatFmt} {b z : Nat} (hlow : b = 0 ∨ 2 ^ f.q ≤ z) (hhigh : z ≤ 2 * 2 ^ f.q) :
    f.InBinade b (b * 2 ^ f.q + z) :=
  ⟨hlow.imp_right fun h => by rw [add_one_mul]; omega, by rw [add_mul]; omega⟩

/-- The distance of a code of a binade from a magnitude is that of its offset, in units of the spacing. -/
theorem FloatFmt.abs_sub_codeMag {f : FloatFmt} {b z : Nat} (h : f.InBinade b (b * 2 ^ f.q + z)) (y : ℚ) :
    |y * 2 ^ f.spacing b - f.codeMag (b * 2 ^ f.q + z)| = |y - z| * 2 ^ f.spacing b := by
  rw [codeMag_of_inBinade h, Nat.add_sub_cancel_left, ← sub_mul, abs_mul, abs_of_pos (show (0 : ℚ) < 2 ^ f.spacing b by positivity)]

/-- A code and the next lie in the code's binade. -/
theorem FloatFmt.inBinade_binade (f : FloatFmt) (c : Nat) : f.InBinade (f.binade c) c ∧ f.InBinade (f.binade c) (c + 1) := by
  have hq : 0 < 2 ^ f.q := Nat.two_pow_pos _
  have hbelow : f.binade c = 0 ∨ (f.binade c + 1) * 2 ^ f.q ≤ c := by
    rcases f.significand_cases c with ⟨-, hb, -⟩ | ⟨-, hb, -⟩
    · exact .inl hb
    · exact .inr (hb ▸ Nat.div_mul_le_self c _)
  have habove : c < (f.binade c + 2) * 2 ^ f.q := (Nat.div_lt_iff_lt_mul hq).1 (by unfold FloatFmt.binade; omega)
  exact ⟨⟨hbelow, habove.le⟩, hbelow.imp_right Nat.le_succ_of_le, habove⟩

/-- A greater code has a greater magnitude. -/
theorem FloatFmt.codeMag_strictMono (f : FloatFmt) : StrictMono f.codeMag := by
  refine strictMono_nat_of_lt_succ fun c => ?_
  obtain ⟨hc, hnext⟩ := f.inBinade_binade c
  rw [codeMag_of_inBinade hc, codeMag_of_inBinade hnext]
  have hstart := hc.start_le
  have hlt : c - f.binade c * 2 ^ f.q < c + 1 - f.binade c * 2 ^ f.q := by omega
  exact mul_lt_mul_of_pos_right (by exact_mod_cast hlt) (by positivity)

/- The nearest code -/

/-- A code outside the binade of a magnitude is farther from it than a code of that binade: a code above is farther than the binade's end, a code
below farther than its start. -/
theorem FloatFmt.exists_nearer_inBinade (f : FloatFmt) {b : Nat} {x : ℚ} (hlow : b = 0 ∨ f.codeMag ((b + 1) * 2 ^ f.q) ≤ x)
    (hhigh : x ≤ f.codeMag ((b + 2) * 2 ^ f.q)) (c : Nat) :
    f.InBinade b c ∨ ∃ c', f.InBinade b c' ∧ |x - f.codeMag c'| < |x - f.codeMag c| := by
  have hends : (b + 1) * 2 ^ f.q ≤ (b + 2) * 2 ^ f.q := Nat.mul_le_mul_right _ (by omega)
  rcases lt_or_ge ((b + 2) * 2 ^ f.q) c with habove | hle
  · have hmono := f.codeMag_strictMono habove
    refine .inr ⟨_, ⟨.inr hends, le_rfl⟩, ?_⟩
    rw [abs_of_nonpos (by linarith), abs_of_nonpos (by linarith)]
    linarith
  · rcases hlow with rfl | hlow
    · exact .inl ⟨.inl rfl, hle⟩
    · rcases lt_or_ge c ((b + 1) * 2 ^ f.q) with hbelow | hge
      · have hmono := f.codeMag_strictMono hbelow
        refine .inr ⟨_, ⟨.inr le_rfl, hends⟩, ?_⟩
        rw [abs_of_nonneg (by linarith), abs_of_nonneg (by linarith)]
        linarith
      · exact .inl ⟨.inr hge, hle⟩

/-- Where a conversion looks for the code: in one binade, at the magnitude's quotient by the binade's spacing. -/
theorem FloatFmt.position_inBinade (f : FloatFmt) {n d : Nat} (e : Int) (hn : 0 < n) (hd : 0 < d) :
    ∃ b a c : Nat, f.position n d e = (a, c, b * 2 ^ f.q) ∧ 0 < c ∧ (n : ℚ) / d * 2 ^ e = (a : ℚ) / c * 2 ^ f.spacing b ∧
      (b = 0 ∨ ((2 ^ f.q : Nat) : ℚ) ≤ (a : ℚ) / c) ∧ (a : ℚ) / c ≤ (2 * 2 ^ f.q : Nat) := by
  obtain ⟨hlow, hhigh⟩ := floorLog2_bounds hn hd
  obtain ⟨b, hb⟩ := Int.eq_ofNat_of_zero_le (show 0 ≤ max (floorLog2 n d + e) f.emin - f.emin by omega)
  have hk : max (floorLog2 n d + e) f.emin - f.q = f.spacing b := by rw [FloatFmt.spacing]; omega
  have hquot := scaleQ_quot n d (e - f.spacing b)
  refine ⟨b, _, _, by rw [FloatFmt.position, hk, hb]; rfl, scaleQ_den_pos n hd (e - f.spacing b), ?_, ?_, ?_⟩
  · rw [hquot, mul_assoc, ← zpow_add₀ two_ne_zero, sub_add_cancel]
  · rcases Nat.eq_zero_or_pos b with h0 | hpos
    · exact .inl h0
    · right
      have hexp : (f.q : Int) = floorLog2 n d + (e - f.spacing b) := by rw [← hk]; omega
      rw [hquot, Nat.cast_pow, Nat.cast_two, ← zpow_natCast, hexp, zpow_add₀ two_ne_zero]
      exact mul_le_mul_of_nonneg_right hlow (by positivity)
  · have hexp : floorLog2 n d + 1 + (e - f.spacing b) ≤ f.q + 1 := by rw [← hk]; omega
    calc _ = (n : ℚ) / d * 2 ^ (e - f.spacing b) := hquot
      _ ≤ 2 ^ (floorLog2 n d + 1) * 2 ^ (e - f.spacing b) := mul_le_mul_of_nonneg_right hhigh.le (by positivity)
      _ ≤ 2 ^ ((f.q : Int) + 1) := by rw [← zpow_add₀ two_ne_zero]; exact zpow_le_zpow_right₀ one_le_two hexp
      _ = (2 * 2 ^ f.q : Nat) := by rw [zpow_add_one₀ two_ne_zero, zpow_natCast]; push_cast; ring

/-- The magnitude lies in the binade where a conversion looks for its code. -/
theorem FloatFmt.codeMag_ends_enclose {f : FloatFmt} {b : Nat} {y : ℚ} (hlow : b = 0 ∨ ((2 ^ f.q : Nat) : ℚ) ≤ y) (hhigh : y ≤ (2 * 2 ^ f.q : Nat)) :
    (b = 0 ∨ f.codeMag ((b + 1) * 2 ^ f.q) ≤ y * 2 ^ f.spacing b) ∧ y * 2 ^ f.spacing b ≤ f.codeMag ((b + 2) * 2 ^ f.q) := by
  have hulp : (0 : ℚ) ≤ 2 ^ f.spacing b := by positivity
  rw [add_one_mul, add_mul, codeMag_of_inBinade (inBinade_add (.inr (by omega)) (by omega)),
    codeMag_of_inBinade (inBinade_add (.inr (by omega)) le_rfl), Nat.add_sub_cancel_left, Nat.add_sub_cancel_left]
  exact ⟨hlow.imp_right (mul_le_mul_of_nonneg_right · hulp), mul_le_mul_of_nonneg_right hhigh hulp⟩

/-- No code has a magnitude nearer to the exact one than the code picked, which is even where another is as near (R35). The format's largest code
plays no part before the check for overflow. -/
theorem FloatFmt.codeMag_nearest_le {f : FloatFmt} (hf : f.Sound) (n : Nat) {d : Nat} (e : Int) (hd : 0 < d) (c : Nat) :
    |(n : ℚ) / d * 2 ^ e - f.codeMag (f.nearest n d e)| ≤ |(n : ℚ) / d * 2 ^ e - f.codeMag c| ∧
      (c ≠ f.nearest n d e → |(n : ℚ) / d * 2 ^ e - f.codeMag (f.nearest n d e)| = |(n : ℚ) / d * 2 ^ e - f.codeMag c| →
        f.nearest n d e % 2 = 0) := by
  rcases Nat.eq_zero_or_pos n with rfl | hn
  · have hzero : f.codeMag 0 = 0 := by simp [FloatFmt.codeMag, FloatFmt.significand]
    simp [FloatFmt.nearest, hzero]
  · obtain ⟨b, num, den, hpos, hden, hx, hlow, hhigh⟩ := f.position_inBinade e hn hd
    have hnear : f.nearest n d e = b * 2 ^ f.q + roundQuot num den := by simp [FloatFmt.nearest, hn.ne', hpos]
    have hround : f.InBinade b (b * 2 ^ f.q + roundQuot num den) :=
      inBinade_add (hlow.imp_right (le_roundQuot hden)) (roundQuot_le hden hhigh)
    have hulp : (0 : ℚ) < 2 ^ f.spacing b := by positivity
    obtain ⟨hstart, hend⟩ := codeMag_ends_enclose hlow hhigh
    rw [hnear, hx]
    rcases f.exists_nearer_inBinade hstart hend c with hc | ⟨c', hc', hlt⟩
    · obtain ⟨z, rfl⟩ := Nat.exists_eq_add_of_le hc.start_le
      obtain ⟨hle, htie⟩ := roundQuot_nearest num hden z
      rw [abs_sub_codeMag hround, abs_sub_codeMag hc, mul_le_mul_iff_left₀ hulp, mul_left_inj' hulp.ne']
      refine ⟨hle, fun hne heq => ?_⟩
      have hbase : 2 ∣ b * 2 ^ f.q := Dvd.dvd.mul_left (dvd_pow_self 2 hf.mantissa.ne') b
      have heven := htie (fun h => hne (by rw [h])) heq
      omega
    · obtain ⟨z, rfl⟩ := Nat.exists_eq_add_of_le hc'.start_le
      have hle := mul_le_mul_of_nonneg_right (roundQuot_nearest num hden z).1 hulp.le
      rw [← abs_sub_codeMag hround, ← abs_sub_codeMag hc'] at hle
      exact ⟨hle.trans hlt.le, fun _ heq => absurd heq (hle.trans_lt hlt).ne⟩

/-- Settles O23: the codes' magnitudes are evenly spaced within the exact value's binade, where the code is a quotient rounded to nearest, and a code
outside it is farther than an end of it. -/
theorem nearestIsNearest : Obligations.NearestIsNearest := by
  intro t f n d e ht hd hnear x c hc
  have hf := Fmt.float_sound ht
  rw [FloatFmt.magnitude_decode hf hnear, FloatFmt.magnitude_decode hf hc]
  exact FloatFmt.codeMag_nearest_le hf n e hd c

end Sys2Proof

/-! SUPPORT. Conversions (R26, R35, R36): an element's value converts back to its code; what an overflow and an infinity become in each format; the
symmetric range of the integer formats. -/
namespace Sys2Proof
open Machine

/- Conversion of what a code stands for -/

/-- A significand and the spacing of its code convert to that code: no other has its magnitude. -/
theorem FloatFmt.nearest_significand {f : FloatFmt} (hf : f.Sound) (c : Nat) :
    f.nearest (f.significand c) 1 (f.spacing (f.binade c)) = c := by
  have hexact : ((f.significand c : Nat) : ℚ) / (1 : Nat) * 2 ^ f.spacing (f.binade c) = f.codeMag c := by simp [FloatFmt.codeMag]
  have hle := (codeMag_nearest_le hf (f.significand c) (f.spacing (f.binade c)) one_pos c).1
  rw [hexact, sub_self, abs_zero, abs_nonpos_iff, sub_eq_zero] at hle
  exact f.codeMag_strictMono.injective hle.symm

/-- A floating-point element's value is that of its format. -/
theorem Fmt.decode_of_float {t : Fmt} {f : FloatFmt} (h : t.float = some f) (code : Nat) : t.decode code = f.decode code := by
  simp only [Fmt.decode, h]

/-- A floating-point format's layout fills its element. -/
theorem Fmt.float_width {t : Fmt} {f : FloatFmt} (h : t.float = some f) : f.width = t.width ∧ 0 < f.width := by
  cases t with
  | int8 | int4 => cases h
  | fp32 | bf16 | fp16 | e4m3 | e5m2 | e3m2 | e2m3 | e2m1 =>
    obtain rfl := Option.some.inj h
    decide

/-- The formats that are not floating-point. -/
theorem Fmt.integer_of_float_none {t : Fmt} (h : t.float = none) : t = .int8 ∨ t = .int4 := by
  cases t with
  | int8 => exact .inl rfl
  | int4 => exact .inr rfl
  | fp32 | bf16 | fp16 | e4m3 | e5m2 | e3m2 | e2m3 | e2m1 => cases h

/-- A conversion whose code is finite gives that code and its sign. -/
theorem Fmt.convertQ_float {t : Fmt} {f : FloatFmt} (ht : t.float = some f) (neg : Bool) {n d : Nat} {e : Int} (h : f.nearest n d e ≤ f.maxCode) :
    t.convertQ neg n d e = (f.signed neg (f.nearest n d e), { underflow := decide (n ≠ 0 ∧ f.nearest n d e = 0) }) := by
  simp only [Fmt.convertQ, ht, gt_iff_lt, if_neg h.not_gt]

/-- A conversion whose code would be beyond the largest finite one overflows (R36). -/
theorem Fmt.convertQ_float_overflow {t : Fmt} {f : FloatFmt} (ht : t.float = some f) (neg : Bool) {n d : Nat} {e : Int} (h : f.maxCode < f.nearest n d e) :
    t.convertQ neg n d e = (f.signed neg (t.overflow f).1, (t.overflow f).2) := by
  simp only [Fmt.convertQ, ht, gt_iff_lt, if_pos h]

/-- Conversion of an infinity into a format that has one. -/
theorem Fmt.convertInf_of_infCode {t : Fmt} {f : FloatFmt} {i : Nat} (ht : t.float = some f) (hi : f.infCode = some i) (neg : Bool) :
    t.convertInf neg = (f.signed neg i, {}) := by
  simp only [Fmt.convertInf, ht, hi]

/-- Every floating-point code but NaN comes back from its value. -/
theorem Fmt.convert_decode_float {t : Fmt} {f : FloatFmt} (ht : t.float = some f) {code : Nat} (h : code < 2 ^ t.width)
    (hnan : (t.decode code).isNan = false) : t.convert (t.decode code) = (code, {}) := by
  have hf := Fmt.float_sound ht
  obtain ⟨hwidth, hpos⟩ := Fmt.float_width ht
  obtain ⟨neg, c, rfl, hc⟩ := f.exists_signed hpos (hwidth ▸ h)
  rw [Fmt.decode_of_float ht] at hnan ⊢
  rcases le_or_gt c f.maxCode with hfin | hmax
  · have hnear := FloatFmt.nearest_significand hf c
    rw [FloatFmt.decode_signed hf neg hfin, Fmt.convert, Fmt.convertQ_float ht neg (hnear.symm ▸ hfin), hnear]
    have hflag : ¬ (f.significand c ≠ 0 ∧ c = 0) := by rintro ⟨hs, rfl⟩; simp [FloatFmt.significand] at hs
    rw [decide_eq_false hflag]
  · rw [FloatFmt.decode_signed_beyond neg hc hmax] at hnan ⊢
    split at hnan
    · rename_i hinf
      rw [if_pos hinf, Fmt.convert, Fmt.convertInf_of_infCode ht hinf]
    · simp [Val.isNan] at hnan

/-- An integer format's codes are twice as many as its largest integer's successor, which is the most negative integer's code (R26). -/
theorem Fmt.int_range {t : Fmt} (ht : t.float = none) : 2 ^ t.width = 2 * (t.intMax + 1) ∧ 2 ^ (t.width - 1) = t.intMax + 1 := by
  rcases Fmt.integer_of_float_none ht with rfl | rfl <;> decide

/-- A magnitude in an integer format's symmetric range converts to itself. -/
theorem Fmt.convertQ_int {t : Fmt} (ht : t.float = none) (neg : Bool) {c : Nat} (hc : c ≤ t.intMax) : t.convertQ neg c 1 0 = (t.intCode neg c, {}) := by
  have hflag : ¬ (c ≠ 0 ∧ c = 0) := fun h => h.1 h.2
  simp only [Fmt.convertQ, ht, scaleQ_zero, roundQuot_one, gt_iff_lt, if_neg hc.not_gt, decide_eq_false hflag]

/-- Every integer code but the most negative comes back from its value. -/
theorem Fmt.convert_decode_int {t : Fmt} (ht : t.float = none) {code : Nat} (h : code < 2 ^ t.width) (hmost : code ≠ 2 ^ (t.width - 1)) :
    t.convert (t.decode code) = (code, {}) := by
  obtain ⟨hcodes, hhalf⟩ := Fmt.int_range ht
  simp only [Fmt.decode, ht, Nat.mod_eq_of_lt h]
  split
  · rw [Fmt.convert, Fmt.convertQ_int ht false (by omega)]
    rfl
  · rw [Fmt.convert, Fmt.convertQ_int ht true (by omega), Fmt.intCode, if_pos rfl, Nat.sub_sub_self h.le, Nat.mod_eq_of_lt h]

/-- Every code of a number but an integer format's most negative comes back from its value, without an event (R22, R25, R35). -/
theorem Fmt.convert_decode (t : Fmt) {code : Nat} (h : code < 2 ^ t.width) (hnan : (t.decode code).isNan = false)
    (h8 : t = .int8 → code ≠ 0x80) (h4 : t = .int4 → code ≠ 8) : t.convert (t.decode code) = (code, {}) := by
  cases ht : t.float with
  | some f => exact Fmt.convert_decode_float ht h hnan
  | none =>
    refine Fmt.convert_decode_int ht h ?_
    rcases Fmt.integer_of_float_none ht with rfl | rfl
    · exact h8 rfl
    · exact h4 rfl

/- Overflow, infinities and the integers' ends -/

/-- The formats in which a magnitude beyond the largest becomes an infinity (R36). -/
theorem Fmt.overflow_infinite {t : Fmt} {f : FloatFmt} (ht : t.float = some f) (h : t = .fp32 ∨ t = .bf16 ∨ t = .fp16) :
    ∃ i, f.infCode = some i ∧ t.overflow f = (i, { infMade := true }) := by
  rcases h with rfl | rfl | rfl <;> obtain rfl := Option.some.inj ht <;> exact ⟨_, rfl, rfl⟩

/-- The formats in which it becomes the largest finite value (R36). -/
theorem Fmt.overflow_saturates {t : Fmt} (f : FloatFmt) (h32 : t ≠ .fp32) (hb16 : t ≠ .bf16) (h16 : t ≠ .fp16) :
    t.overflow f = (f.maxCode, { saturated := true }) := by
  unfold Fmt.overflow
  split
  · exact absurd rfl h32
  · exact absurd rfl hb16
  · exact absurd rfl h16
  · rfl

/-- The formats that have an infinity (Table 2.3). -/
theorem Fmt.infCode_of_infinite {t : Fmt} (h : t = .fp32 ∨ t = .bf16 ∨ t = .fp16 ∨ t = .e5m2) : ∃ f i, t.float = some f ∧ f.infCode = some i := by
  rcases h with rfl | rfl | rfl | rfl <;> exact ⟨_, _, rfl, rfl⟩

/-- The others are floating-point formats without one, or integers. -/
theorem Fmt.infCode_of_not_infinite {t : Fmt} (h32 : t ≠ .fp32) (hb16 : t ≠ .bf16) (h16 : t ≠ .fp16) (h5 : t ≠ .e5m2) {f : FloatFmt}
    (ht : t.float = some f) : f.infCode = none := by
  cases t with
  | fp32 => exact absurd rfl h32
  | bf16 => exact absurd rfl hb16
  | fp16 => exact absurd rfl h16
  | e5m2 => exact absurd rfl h5
  | int8 | int4 => cases ht
  | e4m3 | e3m2 | e2m3 | e2m1 =>
    obtain rfl := Option.some.inj ht
    rfl

/-- The largest finite code with a sign is the largest value with that sign. -/
theorem Fmt.decode_signed_maxCode {t : Fmt} {f : FloatFmt} (ht : t.float = some f) (neg : Bool) :
    t.decode (f.signed neg f.maxCode) = if neg then t.largest.negate else t.largest := by
  have hf := Fmt.float_sound ht
  have hlargest : t.largest = .fin false (f.significand f.maxCode) (f.spacing (f.binade f.maxCode)) := by
    simp only [Fmt.largest, ht]
    exact FloatFmt.decode_signed hf false le_rfl
  rw [Fmt.decode_of_float ht, FloatFmt.decode_signed hf neg le_rfl, hlargest]
  cases neg <;> rfl

/-- The same of the integers, whose range is symmetric (R26). -/
theorem Fmt.decode_intCode_intMax {t : Fmt} (ht : t.float = none) (neg : Bool) :
    t.decode (t.intCode neg t.intMax) = if neg then t.largest.negate else t.largest := by
  rcases Fmt.integer_of_float_none ht with rfl | rfl <;> cases neg <;> rfl

/-- A conversion into an integer format gives a code of its symmetric range (R26). -/
theorem Fmt.convert_int {t : Fmt} (ht : t.float = none) (v : Val) : ∃ neg, ∃ c ≤ t.intMax, (t.convert v).1 = t.intCode neg c := by
  cases v with
  | nan => exact ⟨false, 0, Nat.zero_le _, by simp [Fmt.convert, Fmt.convertNan, ht, Fmt.intCode]⟩
  | inf neg => exact ⟨neg, t.intMax, le_rfl, by simp only [Fmt.convert, Fmt.convertInf, ht]⟩
  | fin neg m e =>
    simp only [Fmt.convert, Fmt.convertQ, ht]
    split
    · exact ⟨neg, t.intMax, le_rfl, rfl⟩
    · rename_i hle
      exact ⟨neg, _, not_lt.1 hle, rfl⟩

/-- No code of the symmetric range is the most negative integer's. -/
theorem Fmt.intCode_ne_most_negative {t : Fmt} (ht : t.float = none) (neg : Bool) {c : Nat} (hc : c ≤ t.intMax) :
    t.intCode neg c < 2 ^ t.width ∧ t.intCode neg c ≠ 2 ^ (t.width - 1) := by
  obtain ⟨hcodes, hhalf⟩ := Fmt.int_range ht
  cases neg with
  | false => rw [Fmt.intCode, if_neg Bool.false_ne_true]; omega
  | true =>
    rcases Nat.eq_zero_or_pos c with rfl | hpos
    · simp [Fmt.intCode, hhalf]
    · rw [Fmt.intCode, if_pos rfl, Nat.mod_eq_of_lt (by omega)]; omega

/-- A magnitude that rounds beyond an integer format's largest saturates (R36); half a unit above it is a tie that goes to the even number beyond. -/
theorem Fmt.convertQ_int_saturates {t : Fmt} (ht : t.float = none) (neg : Bool) {n d : Nat} {e : Int} (hd : 0 < d)
    (h : (t.intMax : ℚ) + 1 / 2 ≤ (n : ℚ) / d * 2 ^ e) : t.convertQ neg n d e = (t.intCode neg t.intMax, { saturated := true }) := by
  have hodd : t.intMax % 2 = 1 := by rcases Fmt.integer_of_float_none ht with rfl | rfl <;> rfl
  have hbeyond := lt_roundQuot_of_odd (scaleQ_den_pos n hd e) hodd (h.trans_eq (scaleQ_quot n d e).symm)
  simp only [Fmt.convertQ, ht, gt_iff_lt, if_pos hbeyond]

/-- A format without infinity takes an infinite input as its largest value (R36). -/
theorem Fmt.convertInf_saturates {t : Fmt} (h : ∀ f, t.float = some f → f.infCode = none) (neg : Bool) :
    t.decode (t.convertInf neg).1 = (if neg then t.largest.negate else t.largest) ∧ (t.convertInf neg).2 = { saturated := true } := by
  cases ht : t.float with
  | none =>
    have hconv : t.convertInf neg = (t.intCode neg t.intMax, { saturated := true }) := by simp only [Fmt.convertInf, ht]
    rw [hconv]
    exact ⟨Fmt.decode_intCode_intMax ht neg, rfl⟩
  | some f =>
    have hconv : t.convertInf neg = (f.signed neg f.maxCode, { saturated := true }) := by simp only [Fmt.convertInf, ht, h f ht]
    rw [hconv]
    exact ⟨Fmt.decode_signed_maxCode ht neg, rfl⟩

/-- Settles O24: a value's code is the one that has its magnitude; beyond the largest code, and for an infinity, each format's own rule. -/
theorem conversionsAtTheEdges : Obligations.ConversionsAtTheEdges := by
  refine ⟨fun t _ h hnan h8 h4 => t.convert_decode h hnan h8 h4, fun t f neg n d e ht h => ⟨fun hinf => ?_, fun h32 hb16 h16 => ?_⟩,
    fun v => ?_, ⟨rfl, rfl⟩, fun t neg n d e ht hd h => ?_, fun t neg => ⟨fun hinf => ?_, fun h32 hb16 h16 h5 => ?_⟩⟩
  · obtain ⟨i, hi, hover⟩ := Fmt.overflow_infinite ht hinf
    rw [Fmt.convertQ_float_overflow ht neg h, hover, Fmt.decode_of_float ht]
    exact ⟨FloatFmt.decode_signed_inf (Fmt.float_sound ht) neg hi, rfl⟩
  · rw [Fmt.convertQ_float_overflow ht neg h, Fmt.overflow_saturates f h32 hb16 h16]
    cases neg <;> exact ⟨rfl, rfl⟩
  · obtain ⟨neg8, c8, hc8, h8⟩ := Fmt.convert_int (t := .int8) rfl v
    obtain ⟨neg4, c4, hc4, h4⟩ := Fmt.convert_int (t := .int4) rfl v
    obtain ⟨hlt8, hne8⟩ := Fmt.intCode_ne_most_negative (t := .int8) rfl neg8 hc8
    obtain ⟨hlt4, hne4⟩ := Fmt.intCode_ne_most_negative (t := .int4) rfl neg4 hc4
    rw [h8, h4]
    exact ⟨hlt8, hne8, hlt4, hne4⟩
  · have hint : t.float = none := by rcases ht with rfl | rfl <;> rfl
    rw [Fmt.convertQ_int_saturates hint neg hd h]
    exact ⟨Fmt.decode_intCode_intMax hint neg, rfl⟩
  · obtain ⟨f, i, ht, hi⟩ := Fmt.infCode_of_infinite hinf
    rw [Fmt.convert, Fmt.convertInf_of_infCode ht hi, Fmt.decode_of_float ht]
    exact ⟨FloatFmt.decode_signed_inf (Fmt.float_sound ht) neg hi, rfl⟩
  · exact Fmt.convertInf_saturates (fun f ht => Fmt.infCode_of_not_infinite h32 hb16 h16 h5 ht) neg

end Sys2Proof

/-! SUPPORT. Accumulator columns (R42, R43): how NaN passes through exact sums and products, and a column's value and events. -/
namespace Sys2Proof
open Machine

/- NaN in exact sums and products -/

/-- NaN alone is NaN. -/
theorem Val.isNan_iff {v : Val} : v.isNan = true ↔ v = .nan := by cases v <;> simp [Val.isNan]

/-- A product with NaN is NaN. -/
@[simp] theorem Val.nan_mul (a : Val) : Val.nan.mul a = .nan := rfl

/-- The same on the other side. -/
@[simp] theorem Val.mul_nan (a : Val) : a.mul .nan = .nan := by cases a <;> rfl

/-- A sum with NaN is NaN. -/
@[simp] theorem Val.nan_add (a : Val) : Val.nan.add a = .nan := rfl

/-- The same on the other side. -/
@[simp] theorem Val.add_nan (a : Val) : a.add .nan = .nan := by cases a <;> rfl

/-- A running sum that is NaN, or meets NaN, ends as NaN. -/
theorem Val.foldl_add_nan (l : List Val) (a : Val) (h : a = .nan ∨ Val.nan ∈ l) : l.foldl Val.add a = .nan := by
  induction l generalizing a with
  | nil => simpa using h
  | cons b l ih =>
    refine ih _ ?_
    rcases h with rfl | hmem
    · exact .inl (Val.nan_add b)
    · rcases List.mem_cons.1 hmem with rfl | hmem
      · exact .inl (Val.add_nan a)
      · exact .inr hmem

/-- A sum of a list with NaN in it is NaN. -/
theorem Val.sum_nan {l : List Val} (h : Val.nan ∈ l) : Val.sum l = .nan := by
  cases l with
  | nil => cases h
  | cons a l => exact Val.foldl_add_nan l a ((List.mem_cons.1 h).imp_left Eq.symm)

/-- NaN rounds to FP32's canonical NaN (R25). -/
@[simp] theorem Val.toF32_nan : Val.nan.toF32 = f32Nan := rfl

/-- A finite value is neither NaN nor an infinity. -/
theorem Val.isNan_isInf_of_isFin {v : Val} (h : v.isFin = true) : v.isNan = false ∧ v.isInf = false := by
  cases v with
  | fin _ _ _ => exact ⟨rfl, rfl⟩
  | nan | inf _ => cases h

/- A column -/

/-- A column's value is one rounding of the exact sum (R42). -/
theorem columnSum_value (stat strm : List (Val × Events)) (acc : F32) :
    (columnSum stat strm acc).1 = ((Val.sum ((stat.zip strm).map fun p => p.1.1.mul p.2.1)).add acc.val).toF32 := rfl

/-- A NaN among the operands makes the column's exact sum NaN. -/
theorem columnSum_exact_nan {stat strm : List (Val × Events)} {x : (Val × Events) × (Val × Events)} (hx : x ∈ stat.zip strm)
    (h : x.1.1.isNan = true ∨ x.2.1.isNan = true) : Val.sum ((stat.zip strm).map fun p => p.1.1.mul p.2.1) = .nan := by
  have hprod : x.1.1.mul x.2.1 = .nan := by
    rcases h with h | h <;> rw [Val.isNan_iff.1 h]
    · exact Val.nan_mul _
    · exact Val.mul_nan _
  exact Val.sum_nan (hprod ▸ List.mem_map_of_mem (f := fun p : (Val × Events) × (Val × Events) => p.1.1.mul p.2.1) hx)

/-- Finite operands and a finite result raise no event. -/
theorem columnSum_events_of_fin {stat strm : List (Val × Events)} {acc : F32} (hops : ∀ x ∈ stat ++ strm, x.1.isFin = true)
    (hres : (F32.val (columnSum stat strm acc).1).isFin = true) : (columnSum stat strm acc).2 = {} := by
  have hnan : (stat.map (·.1) ++ strm.map (·.1)).any Val.isNan = false := by
    rw [← List.map_append, List.any_eq_false]
    intro v hv
    obtain ⟨x, hx, rfl⟩ := List.mem_map.1 hv
    exact Bool.eq_false_iff.1 (Val.isNan_isInf_of_isFin (hops x hx)).1
  obtain ⟨hresNan, hresInf⟩ := Val.isNan_isInf_of_isFin hres
  rw [columnSum_value] at hresNan hresInf
  simp [columnSum, hnan, hresNan, hresInf]

/-- Settles O21: a NaN passes through each product and each sum, and is rounded to the canonical one. -/
theorem columnSumRoundsOnce : Obligations.ColumnSumRoundsOnce := by
  intro stat strm acc sum
  refine ⟨columnSum_value stat strm acc, fun h => ?_, fun x hx hnan => ?_, fun hops _ hres => columnSum_events_of_fin hops hres⟩
  · exact congrArg Val.toF32 (Val.isNan_iff.1 h)
  · rw [columnSum_value, columnSum_exact_nan hx hnan, Val.nan_add, Val.toF32_nan]

end Sys2Proof

/-! SUPPORT. Packed elements (R27): the number that a packed row spells, its length, and the code at each place of it. -/
namespace Sys2Proof.Machine

/-- The elements' bits in order as one number, whose digits to base 2^w are the codes. -/
theorem pack_eq_ofDigits {w : Nat} {codes : List Nat} (h : ∀ c ∈ codes, c < 2 ^ w) :
    pack w codes = leBytes (elemBytes w codes.length) (Nat.ofDigits (2 ^ w) codes) := by
  have hfold : codes.foldr (fun c acc => c % 2 ^ w + acc * 2 ^ w) 0 = Nat.ofDigits (2 ^ w) codes := by
    induction codes with
    | nil => rfl
    | cons c cs ih =>
      rw [List.foldr_cons, ih fun x hx => h x (List.mem_cons_of_mem _ hx), Nat.mod_eq_of_lt (h c List.mem_cons_self), Nat.ofDigits_cons, Nat.mul_comm]
  rw [← hfold]
  rfl

/-- The bits of the elements fit in the bytes that they take. -/
theorem le_elemBytes (w n : Nat) : w * n ≤ 8 * elemBytes w n := by unfold elemBytes; omega

/-- The bytes of packed elements, read as one little-endian number. -/
theorem leNat_pack {w : Nat} {codes : List Nat} (hw : 0 < w) (h : ∀ c ∈ codes, c < 2 ^ w) :
    leNat (pack w codes) = Nat.ofDigits (2 ^ w) codes := by
  have hlt : Nat.ofDigits (2 ^ w) codes < 2 ^ (8 * elemBytes w codes.length) :=
    calc _ < (2 ^ w) ^ codes.length := Nat.ofDigits_lt_base_pow_length (Nat.one_lt_two_pow hw.ne') h
      _ = 2 ^ (w * codes.length) := (pow_mul ..).symm
      _ ≤ _ := Nat.pow_le_pow_right two_pos (le_elemBytes w codes.length)
  rw [pack_eq_ofDigits h, leNat_leBytes, Nat.mod_eq_of_lt hlt]

/-- Element i stands at bits [w × (i + 1) - 1 : w × i]. -/
theorem leNat_pack_digit {w : Nat} {codes : List Nat} (hw : 0 < w) (h : ∀ c ∈ codes, c < 2 ^ w) (i : Nat) (hi : i < codes.length) :
    leNat (pack w codes) / 2 ^ (w * i) % 2 ^ w = codes[i] := by
  rw [leNat_pack hw h, pow_mul, Nat.ofDigits_div_pow_eq_ofDigits_drop i (Nat.two_pow_pos w) codes h, List.drop_eq_getElem_cons hi, Nat.ofDigits_cons,
    Nat.add_mul_mod_self_left, Nat.mod_eq_of_lt (h _ (List.getElem_mem hi))]

/-- Packed elements unpack to their codes. -/
theorem unpack_pack {w : Nat} {codes : List Nat} (hw : 0 < w) (h : ∀ c ∈ codes, c < 2 ^ w) : unpack w codes.length (pack w codes) = codes := by
  refine List.ext_getElem (by simp [unpack]) fun i hi hi' => ?_
  simp only [unpack, List.getElem_map, List.getElem_range, Nat.shiftRight_eq_div_pow, leNat_pack_digit hw h i hi']

/-- Settles O25: the codes are the digits to base 2^w of the number that the bytes spell. -/
theorem packThenUnpack : Obligations.PackThenUnpack := by
  intro w codes hw h
  refine ⟨unpack_pack hw h, by rw [pack_eq_ofDigits h, length_leBytes]; rfl, fun i hi => ?_⟩
  rw [leNat_pack_digit hw h i hi, List.getD_eq_getElem _ _ hi]

end Sys2Proof.Machine

/-! SUPPORT. The matrix array (R56 to R74): what it makes of a descriptor, how it takes the instruction at the front of its queue, and how output
writes are made one by one. -/
namespace Sys2Proof.Machine

/- The descriptor -/

/-- A descriptor's SHAPE field (Table 3.6); 3 is GROUPED. -/
def MatOp.shape (op : MatOp) : Nat := field (wordAt op.words 0) 63 60

/-- A descriptor is sound when its address is aligned (log entry 101), its shape exists, and the fields of that shape pass their checks (R73). -/
theorem descriptorOk_iff (op : MatOp) :
    descriptorOk op = true ↔
      op.aligned = true ∧ op.shape ≤ 4 ∧ (if op.shape = 3 then groupedOk op.words else (gemmOf op.words).ok) = true := by
  simp only [descriptorOk, Bool.and_eq_true, decide_eq_true_eq, and_assoc]
  exact Iff.rfl

/-- Any one failed check makes it malformed. -/
theorem descriptorOk_eq_false {op : MatOp} (h : op.aligned = false ∨ 4 < op.shape ∨ (op.shape = 3 ∧ groupedOk op.words = false) ∨
    (op.shape ≠ 3 ∧ (gemmOf op.words).ok = false)) : descriptorOk op = false := by
  rw [← Bool.not_eq_true, descriptorOk_iff]
  rintro ⟨haligned, hshape, hfields⟩
  rcases h with h | h | ⟨h3, h⟩ | ⟨h3, h⟩
  · exact Bool.false_ne_true (h.symm.trans haligned)
  · exact h.not_ge hshape
  · rw [if_pos h3, h] at hfields
    exact Bool.false_ne_true hfields
  · rw [if_neg h3, h] at hfields
    exact Bool.false_ne_true hfields

/-- An aligned GROUPED descriptor that passes its checks is sound. -/
theorem descriptorOk_of_grouped {op : MatOp} (ha : op.aligned = true) (h3 : op.shape = 3) (hg : groupedOk op.words = true) :
    descriptorOk op = true :=
  (descriptorOk_iff op).mpr ⟨ha, by omega, by rwa [if_pos h3]⟩

/-- So is an aligned descriptor of one product. -/
theorem descriptorOk_of_product {op : MatOp} (ha : op.aligned = true) (h4 : op.shape ≤ 4) (h3 : op.shape ≠ 3)
    (hg : (gemmOf op.words).ok = true) : descriptorOk op = true :=
  (descriptorOk_iff op).mpr ⟨ha, h4, by rwa [if_neg h3]⟩

/- What the array makes of it -/

/-- A malformed descriptor runs nothing (R73). -/
theorem arrayRun_of_malformed {op : MatOp} (n : Nat) (m : Block) (h : descriptorOk op = false) :
    arrayRun n op m = ⟨⟨m, {}, none⟩, [], true⟩ := by
  simp [arrayRun, h]

/-- A GROUPED descriptor's table is walked from its first entry (R65). -/
theorem arrayRun_of_grouped {op : MatOp} (n : Nat) (m : Block) (h : descriptorOk op = true) (h3 : op.shape = 3) :
    arrayRun n op m =
      walkGroup n (field (wordAt op.words 0) 59 56) (field (wordAt op.words 9) 47 0) (field (wordAt op.words 9) 63 48) 0 ⟨m, {}, none⟩ [] := by
  rw [MatOp.shape] at h3
  simp [arrayRun, h, h3]

/-- A descriptor of another shape is one product, which a trap leaves without outputs (R56, R61). -/
theorem arrayRun_of_product {op : MatOp} (n : Nat) (m : Block) (h : descriptorOk op = true) (h3 : op.shape ≠ 3) :
    arrayRun n op m =
      let o := Block.runGemm n (gemmOf op.words) ⟨m, {}, none⟩
      ⟨o.1, if o.1.trap.isSome then [] else o.2, false⟩ := by
  rw [MatOp.shape] at h3
  simp [arrayRun, h, h3]

/- The array takes an instruction -/

section
variable {n : Nat} {op : MatOp} {rest : List MatOp} {m : Block} (hq : (m.core n).matQ = op :: rest)
include hq

/-- An array that runs an instruction takes no other. -/
theorem Block.matStart_of_started (k : Nat) (hs : op.started = true) : Block.matStart n (k + 1) m = m := by
  simp [Block.matStart, hq, hs]

/-- What the array meets as it reads its operands curbs the core (R447). -/
theorem Block.matStart_of_trap (k : Nat) {t : Trap} (hs : op.started = false) (ht : (arrayRun n op m).run.trap = some t) :
    Block.matStart n (k + 1) m = ((arrayRun n op m).run.m.noteEvents n (arrayRun n op m).run.ev).trap n t := by
  simp [Block.matStart, hq, hs, ht]

/-- A malformed descriptor or entry ends the instruction, and the array goes on with the next (R73). -/
theorem Block.matStart_of_bad (k : Nat) (hs : op.started = false) (ht : (arrayRun n op m).run.trap = none)
    (hb : (arrayRun n op m).bad = true) :
    Block.matStart n (k + 1) m = Block.matStart n k
      (((((arrayRun n op m).run.m.noteEvents n (arrayRun n op m).run.ev).popMat n).badDescriptor n).flushSignals n) := by
  simp [Block.matStart, hq, hs, ht, hb]

/-- Otherwise the outputs and their events stand with the instruction until it completes (R61). -/
theorem Block.matStart_of_run (k : Nat) (hs : op.started = false) (ht : (arrayRun n op m).run.trap = none)
    (hb : (arrayRun n op m).bad = false) :
    Block.matStart n (k + 1) m = ((arrayRun n op m).run.m.noteEvents n (arrayRun n op m).run.ev).modCore n fun c =>
      { c with matQ := { op with started := true, outs := (arrayRun n op m).outs.map (·.1),
                                 events := Events.bits (joinEvents ((arrayRun n op m).outs.map (·.2))) } :: rest } := by
  simp [Block.matStart, hq, hs, ht, hb]

end

/- Output writes -/

section
variable {α : Type} {f : Block → α → Except Trap (Block × Events)} {a : α} {m : Block} (l : List α) (ev : Events)

/-- A step that succeeds hands its block and its events on. -/
theorem foldRun_cons_of_ok {m' : Block} {e : Events} (h : f m a = .ok (m', e)) :
    foldRun (a :: l) f ⟨m, ev, none⟩ = foldRun l f ⟨m', ev.join e, none⟩ := by
  simp only [foldRun, List.foldl_cons, h]

/-- A run that has trapped goes no further. -/
theorem foldRun_of_trap (t : Trap) : foldRun l f ⟨m, ev, some t⟩ = ⟨m, ev, some t⟩ := by
  induction l with
  | nil => rfl
  | cons a l ih => exact ih

/-- A step that traps ends the run. -/
theorem foldRun_cons_of_error {t : Trap} (h : f m a = .error t) : foldRun (a :: l) f ⟨m, ev, none⟩ = ⟨m, ev, some t⟩ := by
  rw [← foldRun_of_trap (f := f) l ev t]
  simp only [foldRun, List.foldl_cons, h]

end

/-- A write inside the window is made, and the next follows. -/
theorem Block.putOuts_cons_of_ok {n : Nat} {o : Write} {m : Block} (e ev : Events) (os : List (Write × Events))
    (h : m.canWrite n o.loc o.bytes.length = .ok ()) :
    Block.putOuts n ((o, e) :: os) ⟨m, ev, none⟩ = Block.putOuts n os ⟨m.writeLoc n o.loc o.bytes, ev.join e, none⟩ :=
  foldRun_cons_of_ok os ev (by rw [h]; rfl)

/-- A write outside the window traps, and no later one is made (R74). -/
theorem Block.putOuts_cons_of_error {n : Nat} {o : Write} {m : Block} {t : Trap} (e ev : Events) (os : List (Write × Events))
    (h : m.canWrite n o.loc o.bytes.length = .error t) : Block.putOuts n ((o, e) :: os) ⟨m, ev, none⟩ = ⟨m, ev, some t⟩ :=
  foldRun_cons_of_error os ev (by rw [h]; rfl)

/- MATMUL and MATMUL_COMPLETE -/

/-- MATMUL commits its effect. -/
theorem exec_matmul (i : Issue) (desc : Nat) (s : State) : exec (.matmul i desc) s = s.commit (matmulEffect i desc s.m) := rfl

/-- MATMUL_COMPLETE commits its effect. -/
theorem exec_matmulComplete (n : Nat) (s : State) : exec (.matmulComplete n) s = s.commit (matmulCompleteEffect n s.m) := rfl

/-- A descriptor that is read enters the array's queue, when that has room (R72, R82). -/
theorem matmulEffect_of_read {m f : Block} {i : Issue} {desc : Nat} {bs : List Byte} (hf : m.fetch i = some f)
    (hroom : (m.core i.core).matQ.length < 5)
    (hread : ((f.advance i).sense i.core ⟨.core, desc⟩ 128).readLoc i.core ⟨.core, desc⟩ 128 = .ok bs) :
    matmulEffect i desc m = Block.matStart i.core 5 (((f.advance i).sense i.core ⟨.core, desc⟩ 128).modCore i.core fun c =>
      { c with matQ := c.matQ ++ [{ words := leWords 16 bs, aligned := desc % 128 == 0 }] }) := by
  simp only [matmulEffect, if_neg hroom.not_ge, Block.issue_of_fetch hf, hread]

/-- The output writes of an instruction that completes, which is out of the queue by then (R61). -/
def MatOp.writeOuts (op : MatOp) (n : Nat) (m : Block) : Run := Block.putOuts n (op.outs.map fun o => (o, ({} : Events))) ⟨m.popMat n, {}, none⟩

/-- The block after them, with the instruction's events in CORE_NUMSTAT. -/
def MatOp.noteOuts (op : MatOp) (n : Nat) (m : Block) : Block :=
  (op.writeOuts n m).m.setReg (Reg.coreNumstat n) ((op.writeOuts n m).m.reg (Reg.coreNumstat n) ||| BitVec.ofNat 64 op.events)

section
variable {n : Nat} {op : MatOp} {rest : List MatOp} {m : Block} (hq : (m.core n).matQ = op :: rest) (hs : op.started = true)
include hq hs

/-- With all outputs written, the signals that waited go, and the array takes the next instruction (R57, R93). -/
theorem matmulCompleteEffect_of_written (ht : (op.writeOuts n m).trap = none) :
    matmulCompleteEffect n m = (Block.matStart n 5 ((op.noteOuts n m).flushSignals n)).restCore n := by
  rw [MatOp.writeOuts] at ht
  simp [matmulCompleteEffect, hq, hs, ht, MatOp.noteOuts, MatOp.writeOuts]

/-- An output outside the window curbs the core (R74). -/
theorem matmulCompleteEffect_of_trap {t : Trap} (ht : (op.writeOuts n m).trap = some t) :
    matmulCompleteEffect n m = (op.noteOuts n m).trap n t := by
  rw [MatOp.writeOuts] at ht
  simp [matmulCompleteEffect, hq, hs, ht, MatOp.noteOuts, MatOp.writeOuts]

end

/-- Settles O20: an issue whose descriptor is read, the four ways in which the array takes an instruction, the three kinds of descriptor, the two
ends of a completion, and the output writes one by one. -/
theorem matrixInstructions : Obligations.MatrixInstructions := by
  refine ⟨?_, ?_, ?_, ?_, ?_⟩
  · intro i desc bs s f hf hroom m hread
    exact gives_of_commit (exec_matmul i desc s) (matmulEffect_of_read hf hroom hread)
  · intro n k op rest m hq
    exact ⟨Block.matStart_of_started hq k, Block.matStart_of_run hq k, Block.matStart_of_bad hq k, fun t => Block.matStart_of_trap hq k⟩
  · intro n op m
    exact ⟨fun h => arrayRun_of_malformed n m (descriptorOk_eq_false h),
      fun ha h3 hg => arrayRun_of_grouped n m (descriptorOk_of_grouped ha h3 hg) h3,
      fun ha h4 h3 hg => arrayRun_of_product n m (descriptorOk_of_product ha h4 h3 hg) h3⟩
  · intro n op rest s hq hs
    exact ⟨fun ht => gives_of_commit (exec_matmulComplete n s) (matmulCompleteEffect_of_written hq hs ht),
      fun t ht => gives_of_commit (exec_matmulComplete n s) (matmulCompleteEffect_of_trap hq hs ht)⟩
  · intro n o e ev os m
    exact ⟨Block.putOuts_cons_of_ok e ev os, fun t => Block.putOuts_cons_of_error e ev os⟩

end Sys2Proof.Machine

/-! SUPPORT. Firmware's clears and stops (R75, R97, R98, R144, R155): counters set to zero, a core stopped, and a tile's line cache emptied. -/
namespace Sys2Proof.Machine

/- Counters set to zero -/

/-- Registers set to zero one after another. -/
def Block.zeroRegs (m : Block) (rs : List Nat) : Block := rs.foldl (fun m r => m.setReg r 0) m

/-- A register set to zero once stays zero. -/
theorem Block.reg_zeroRegs_of_zero {r : Nat} (rs : List Nat) {m : Block} (h : m.reg r = 0) : (m.zeroRegs rs).reg r = 0 := by
  induction rs generalizing m with
  | nil => exact h
  | cons x rs ih =>
    apply ih
    rcases eq_or_ne r x with rfl | hne
    · exact m.reg_setReg_self r 0
    · rw [m.reg_setReg_ne x r 0 hne, h]

/-- The listed registers read zero. -/
theorem Block.reg_zeroRegs {r : Nat} {rs : List Nat} (m : Block) (h : r ∈ rs) : (m.zeroRegs rs).reg r = 0 := by
  induction h generalizing m with
  | head rs => exact Block.reg_zeroRegs_of_zero rs (m.reg_setReg_self r 0)
  | tail x _ ih => exact ih (m.setReg x 0)

/-- Nothing changes. -/
theorem OnlyRegs.refl (rs : List Nat) (m : Block) : OnlyRegs rs m m :=
  ⟨fun _ _ => rfl, ⟨fun _ => rfl, rfl, rfl⟩, ⟨fun _ => rfl, fun _ => rfl⟩, fun _ => rfl, rfl, rfl⟩

/-- And nothing else changes. -/
theorem OnlyRegs.zeroRegs {rs xs : List Nat} (m : Block) (h : xs ⊆ rs) : OnlyRegs rs m (m.zeroRegs xs) := by
  induction xs generalizing m with
  | nil => exact OnlyRegs.refl rs m
  | cons x xs ih =>
    obtain ⟨hx, hxs⟩ := List.cons_subset.mp h
    exact (OnlyRegs.setReg m 0 hx).trans (ih (m.setReg x 0) hxs)

/-- A command whose effect is such a clear. -/
theorem completes_of_zeroRegs {c : Instr} {s : State} {rs : List Nat} (h : exec c s = s.commit (s.m.zeroRegs rs)) :
    Completes c s fun m => (∀ r ∈ rs, m.reg r = 0) ∧ OnlyRegs rs s.m m :=
  completes_of_commit h ⟨fun _ hr => s.m.reg_zeroRegs hr, (OnlyRegs.zeroRegs s.m (List.Subset.refl rs)).trans (OnlyRegs.settle _ _)⟩

/-- CORE_ARR_CLR by firmware (R75). -/
theorem exec_coreArrClr_firmware {n : Nat} {s : State} (h : n < s.m.coreCount) : exec (.coreArrClr .firmware n) s =
    s.commit (s.m.zeroRegs [Reg.coreArrLoadcyc n, Reg.coreArrStrmcyc n, Reg.coreArrStallcyc n, Reg.coreCmStallcyc n]) :=
  congrArg s.commit (if_pos ⟨h, rfl⟩)

/-- LC_COUNTER_CLR by firmware (R155). -/
theorem exec_lcCounterClr_firmware {n : Nat} {s : State} (h : n < s.m.tileCount) : exec (.lcCounterClr .firmware n) s =
    s.commit (s.m.zeroRegs [Reg.tileLcHits n, Reg.tileLcMisses n, Reg.tileLcAcq n]) :=
  congrArg s.commit (if_pos ⟨h, rfl⟩)

/-- ATT_CLR by firmware (R220). -/
theorem exec_attClr_firmware {n : Nat} {s : State} (h : n < s.m.coreCount) : exec (.attClr .firmware n) s =
    s.commit (s.m.zeroRegs [Reg.attSeqDone (n / 8) (n % 8), Reg.attTokens (n / 8) (n % 8), Reg.attEmpty (n / 8) (n % 8),
      Reg.attRefused (n / 8) (n % 8), Reg.attKvw (n / 8) (n % 8), Reg.attCar (n / 8) (n % 8)]) :=
  congrArg s.commit (if_pos ⟨h, rfl⟩)

/-- SAD_CLR by firmware (R259). -/
theorem exec_sadClr_firmware (s : State) : exec (.sadClr .firmware) s =
    s.commit (s.m.zeroRegs [Reg.sadPagein, Reg.sadEvict, Reg.sadHoldMax]) := rfl

/-- DRV_CLR by firmware (R240). -/
theorem exec_drvClr_firmware {n k : Nat} {s : State} (h : n < s.m.tileCount) (hk : k < 8) : exec (.drvClr .firmware n k) s =
    s.commit (s.m.zeroRegs [Reg.drvRowsSent n k, Reg.drvRowsSkip n k, Reg.drvTmo n k]) :=
  congrArg s.commit (if_pos ⟨h, hk, rfl⟩)

/-- GRM_CLR by firmware (R283). -/
theorem exec_grmClr_firmware {n : Nat} {s : State} (ht : s.m.tuning = true) (h : n < s.m.stackCount) : exec (.grmClr .firmware n) s =
    s.commit (s.m.zeroRegs [Reg.grmElems n, Reg.grmNonfinite n, Reg.grmSkew n]) :=
  congrArg s.commit (if_pos ⟨ht, h, rfl⟩)

/- A core stopped -/

/-- A core's status and its hitch wait are different registers. -/
theorem Reg.coreSeqStatus_ne_hitchWait (n : Nat) : Reg.coreSeqStatus n ≠ Reg.coreHitchWait n := by
  simp [Reg.coreSeqStatus, Reg.coreHitchWait]

section
variable {m : Block} {n : Nat} (h : m.coreSt n = 1 ∨ m.coreSt n = 2 ∨ m.coreSt n = 3) (cause : Nat)
include h

/-- A stopped core's status holds STOPPED and the cause (R98). -/
theorem Block.status_stopCore :
    (m.stopCore n cause).reg (Reg.coreSeqStatus n) = putField (putField (m.reg (Reg.coreSeqStatus n)) 35 32 4) 63 56 cause := by
  rw [Block.stopCore_of_running m n cause h, Block.reg_modCore, Block.reg_setFld_ne _ _ _ _ _ _ (Reg.coreSeqStatus_ne_hitchWait n),
    Block.reg_setFld_self, Block.setCoreSt, Block.reg_setFld_self]

/-- Its state is STOPPED, whichever of the running states it was in. -/
theorem Block.coreSt_stopCore : (m.stopCore n cause).coreSt n = 4 := by
  rw [Block.coreSt, Block.fld_eq, Block.status_stopCore h cause, field_putField_apart _ _ _ _ _ _ (by omega) (by omega),
    field_putField_self _ _ _ _ (by omega)]
  rfl

/-- Its cause is the one given. -/
theorem Block.cause_stopCore (hc : cause < 256) : (m.stopCore n cause).fld (Reg.coreSeqStatus n) 63 56 = cause := by
  rw [Block.fld_eq, Block.status_stopCore h cause, field_putField_self _ _ _ _ (by omega)]
  exact Nat.mod_eq_of_lt hc

/-- It waits on no hitch. -/
theorem Block.hitchWait_stopCore : (m.stopCore n cause).fld (Reg.coreHitchWait n) 63 63 = 0 := by
  rw [Block.stopCore_of_running m n cause h]
  exact Block.fld_setFld_self _ _ 63 63 0 (by omega)

/-- Nothing holds it any more. -/
theorem Block.core_stopCore : (m.stopCore n cause).core n = { m.core n with hold := .none } := by
  rw [Block.stopCore_of_running m n cause h, Block.core_modCore_self]
  rfl

/-- The stop changes nothing else. -/
theorem OnlyCore.stopCore : OnlyCore n [Reg.coreSeqStatus n, Reg.coreHitchWait n] m (m.stopCore n cause) := by
  rw [Block.stopCore_of_running m n cause h]
  exact (((OnlyCore.setFld n _ m _ 35 32 4 (by simp)).trans (OnlyCore.setFld n _ _ _ 63 56 cause (by simp))).trans
    (OnlyCore.setFld n _ _ _ 63 63 0 (by simp))).trans (OnlyCore.modCore n _ _ _)

end

/-- CORE_SEQ_STOP commits its effect where the request is accepted. -/
theorem exec_coreSeqStop (r : Requester) (n : Nat) (s : State) :
    exec (.coreSeqStop r n) s = s.commit (s.m.byHost r (coreSeqStopEffect r n)) := rfl

section
variable {m : Block} {n : Nat} (hn : n < m.coreCount) (h : m.coreSt n = 1 ∨ m.coreSt n = 2 ∨ m.coreSt n = 3)
include hn h

/-- Firmware stops a running core with cause FW_STOP; where no task is on it, its windows come to rest (R97, R98). -/
theorem coreSeqStopEffect_of_no_task (ht : (m.core n).task = none) : coreSeqStopEffect .firmware n m = (m.stopCore n 8).restCore n := by
  simp [coreSeqStopEffect, isFw, hn, h, ht]

/-- A task on it ends when this was its last slot to stop (R85); that it then completes whatever the cause is log entry 100's choice. -/
theorem coreSeqStopEffect_of_task {q : QueueId} (ht : (m.core n).task = some q) :
    coreSeqStopEffect .firmware n m = (m.stopCore n 8).endIfAll q := by
  simp [coreSeqStopEffect, isFw, hn, h, ht]

end

/- A line cache emptied -/

/-- LC_INVALIDATE by firmware (R155). -/
theorem exec_lcInvalidate_firmware {t : Nat} {s : State} (h : t < s.m.tileCount) :
    exec (.lcInvalidate .firmware t) s = s.commit (s.m.invalidateTile t) :=
  congrArg s.commit (if_pos ⟨rfl, h⟩)

/-- An emptied line cache holds no line, and the oldest fill that serves a later load lies after every one before it (R144). -/
theorem Block.tile_invalidateTile (m : Block) (t : Nat) :
    ((m.invalidateTile t).tile t).lines = [] ∧ (m.tile t).stamp < ((m.invalidateTile t).tile t).floor := by
  simp only [Block.invalidateTile, Block.tile_modTile_self, true_and]
  exact (Nat.lt_succ_self _).trans_le (Nat.le_max_right _ _)

/-- The other tiles keep theirs. -/
theorem Block.tile_invalidateTile_ne (m : Block) {t k : Nat} (h : k ≠ t) : (m.invalidateTile t).tile k = m.tile k := m.tile_modTile_ne t k _ h

/-- Settles O27: each clear sets its listed registers to zero, a stop writes the core's status, and a tile's invalidation touches its line cache
alone. -/
theorem clearsAndStops : Obligations.ClearsAndStops := by
  refine ⟨?_, ?_, ?_⟩
  · rintro c rs n k s (⟨rfl, hn, rfl⟩ | ⟨rfl, hn, rfl⟩ | ⟨rfl, hn, rfl⟩ | ⟨rfl, rfl⟩ | ⟨rfl, hn, hk, rfl⟩ | ⟨rfl, ht, hn, rfl⟩)
    · exact completes_of_zeroRegs (exec_coreArrClr_firmware hn)
    · exact completes_of_zeroRegs (exec_lcCounterClr_firmware hn)
    · exact completes_of_zeroRegs (exec_attClr_firmware hn)
    · exact completes_of_zeroRegs (exec_sadClr_firmware s)
    · exact completes_of_zeroRegs (exec_drvClr_firmware hn hk)
    · exact completes_of_zeroRegs (exec_grmClr_firmware ht hn)
  · intro n s hn h
    exact ⟨fun ht => gives_of_commit (exec_coreSeqStop .firmware n s) (coreSeqStopEffect_of_no_task hn h ht),
      fun q ht => gives_of_commit (exec_coreSeqStop .firmware n s) (coreSeqStopEffect_of_task hn h ht),
      Block.coreSt_stopCore h 8, Block.cause_stopCore h 8 (by omega), Block.hitchWait_stopCore h 8, Block.core_stopCore h 8,
      OnlyCore.stopCore h 8⟩
  · intro t s ht
    obtain ⟨hlines, hfloor⟩ := s.m.tile_invalidateTile t
    obtain ⟨-, hmem, hbufs, -⟩ := OnlyRegs.settle [] (s.m.invalidateTile t)
    exact completes_of_commit (exec_lcInvalidate_firmware ht)
      ⟨hlines, hfloor, fun k hk => s.m.tile_invalidateTile_ne hk, fun _ _ => rfl, hmem, hbufs, fun _ => rfl⟩

end Sys2Proof.Machine

/-! SUPPORT. What the hitch bank does with an operation (R92, R114), and what a waiting core sees of the value left. -/
namespace Sys2Proof.Machine

/-- An operation on a hitch whose granule is poisoned is discarded (R114). -/
theorem Block.hitchOp_of_poisoned (m : Block) (a : Nat) (add : Bool) (v : Nat) (h : m.hostCopies (a / 128) = [])
    (hp : (m.correct a 8).poison.contains (a / 128) = true) : m.hitchOp a add v = (m.correct a 8).countDrop a := by
  simp only [Block.hitchOp, h, Block.hitchApply, hp, if_true]

/-- No byte outside the hitch reads otherwise. -/
theorem Block.sameMemBut_hitchPut (m : Block) (a v : Nat) : SameMemBut a 8 m (m.hitchPut a v) := by
  intro x hx
  have hread := m.read_hitchPut_out a v x hx
  have hstale : (m.hitchPut a v).staleAt (x / 128) = m.staleAt (x / 128) := rfl
  simp only [Block.byteAt, hread, hstale]

/-- Nor does any register. -/
@[simp] theorem Block.reg_hitchPut (m : Block) (a v r : Nat) : (m.hitchPut a v).reg r = m.reg r := (rfl)

/-- A core has seen its target after an operation when it had before or when the value left meets it. -/
theorem Block.met_hitchPut (m : Block) (a v n : Nat) :
    ((m.hitchPut a v).core n).met = (m.waitMet n (m.core n) a (v % 2 ^ 64) || (m.core n).met) := by
  rw [Block.core_hitchPut, Block.seeHitch]
  cases m.waitMet n (m.core n) a (v % 2 ^ 64) <;> rfl

/-- A value meets a core's wait when the core waits on that hitch, the value has reached its target, and its window runs (R92, R94). -/
theorem Block.waitMet_iff (m : Block) (n : Nat) (c : CoreState) (a v : Nat) : m.waitMet n c a v = true ↔
    c.hold = .hwait ∧ c.waitAddr = a ∧ (m.reg (Reg.coreHitchTarget n)).toNat ≤ v ∧
      m.time < c.waitStart + m.fld (Reg.coreHitchTmo n) 39 0 := by
  simp [Block.waitMet, and_assoc]

/-- Settles O4: without host copies the bank discards the operation in a poisoned granule and else leaves its value, which every waiting core
sees. -/
theorem hitchBankRules : Obligations.HitchBankRules := by
  intro m a v add hc e r left
  have hr : r = m.hitchOp a add v := by cases add <;> rfl
  refine ⟨fun hp => hr.trans (m.hitchOp_of_poisoned a add v hc hp), fun hp => ?_⟩
  have hput : r = e.hitchPut a (if add then e.hitchVal a + v else v) := hr.trans (m.hitchOp_of_free a add v hc hp)
  rw [hput]
  refine ⟨fun hwf ha hs => ⟨e.hitchVal_hitchPut a _ hwf ha hs, e.wf_hitchPut a _ hwf, e.sameMemBut_hitchPut a _⟩, fun x _ => e.reg_hitchPut a _ x, ?_, ?_⟩
  · intro n hhold haddr htarget htime
    rw [Block.met_hitchPut, (e.waitMet_iff n _ a _).2 ⟨hhold, haddr, htarget, htime⟩, Bool.true_or]
  · intro n hmet hlow
    have hnot : e.waitMet n (e.core n) a left = false := by
      rw [Bool.eq_false_iff, ne_eq, Block.waitMet_iff]
      rintro ⟨-, -, htarget, -⟩
      exact htarget.not_gt hlow
    rw [Block.met_hitchPut, hmet, Bool.or_false]
    exact hnot

end Sys2Proof.Machine

/-! SUPPORT. The sequencer's own instructions (R80, R85): what each does on the block after its fetch. -/
namespace Sys2Proof.Machine

/-- What holds of an effect that is known by another name holds of the command's answer. -/
theorem completes_of_effect {c : Instr} {s : State} {m m' : Block} {post : Block → Prop} (h : exec c s = s.commit m) (e : m = m')
    (hp : post m'.settle) : Completes c s post := completes_of_commit h (e ▸ hp)

/- SCALAR_OP and BRANCH -/

/-- SCALAR_OP commits its effect. -/
theorem exec_scalarOp (i : Issue) (op : ScalarOp) (rd : Nat) (a b : Src) (s : State) :
    exec (.scalarOp i op rd a b) s = s.commit (scalarOpEffect i op rd a b s.m) := rfl

/-- BRANCH commits its effect. -/
theorem exec_branch (i : Issue) (c : Cond) (a b : Src) (target : Nat) (s : State) :
    exec (.branch i c a b target) s = s.commit (branchEffect i c a b target s.m) := rfl

section
variable {m f : Block} {i : Issue} (hf : m.fetch i = some f)
include hf

/-- SCALAR_OP sets its register (R80). -/
theorem scalarOpEffect_of_fetch (op : ScalarOp) (rd : Nat) (a b : Src) : scalarOpEffect i op rd a b m =
    (f.advance i).modCore i.core fun c => { c with sregs := c.sregs.set rd (scalarResult op (f.src i.core a) (f.src i.core b)) } := by
  rw [scalarOpEffect, Block.issue_of_fetch hf, Block.src_advance, Block.src_advance, Block.setSreg]

/-- BRANCH moves the pc where its condition holds (R85). -/
theorem branchEffect_of_fetch (c : Cond) (a b : Src) (target : Nat) : branchEffect i c a b target m =
    if condHolds c (f.src i.core a) (f.src i.core b) then (f.advance i).setPc i.core target else f.advance i := by
  rw [branchEffect, Block.issue_of_fetch hf, Block.src_advance, Block.src_advance]

end

/-- Settles O1: a scalar operation changes one scalar register beside the issue, a branch only the pc. -/
theorem scalarAndBranch : Obligations.ScalarAndBranch := by
  refine ⟨fun i op rd a b s f hf => ?_, fun i c a b target s f hf => ?_⟩
  · exact completes_of_effect (exec_scalarOp i op rd a b s) (scalarOpEffect_of_fetch hf op rd a b) (Ran.advance f i _ _ rfl)
  · apply completes_of_effect (exec_branch i c a b target s) (branchEffect_of_fetch hf c a b target)
    split
    · exact Ran.setPc f i target
    · exact Ran.plain f i

end Sys2Proof.Machine

/-! SUPPORT. Loops and calls (R85, Table 4.8): what each instruction does on the block after its fetch, in each case of the two stacks. -/
namespace Sys2Proof.Machine

/-- LOOP commits its effect. -/
theorem exec_loop (i : Issue) (count skipTo : Nat) (s : State) :
    exec (.loop i count skipTo) s = s.commit (loopEffect i count skipTo s.m) := rfl

/-- ENDLOOP commits its effect. -/
theorem exec_endloop (i : Issue) (s : State) : exec (.endloop i) s = s.commit (endloopEffect i s.m) := rfl

/-- CALL commits its effect. -/
theorem exec_call (i : Issue) (target : Nat) (s : State) : exec (.call i target) s = s.commit (callEffect i target s.m) := rfl

/-- RET commits its effect. -/
theorem exec_ret (i : Issue) (s : State) : exec (.ret i) s = s.commit (retEffect i s.m) := rfl

/-- The pc that the core holds once it has issued. -/
theorem Block.pc_advance_eq_pcAfter (m : Block) (i : Issue) : (m.advance i).pc i.core = m.pcAfter i := m.pc_advance i

section
variable {m f : Block} {i : Issue} (hf : m.fetch i = some f)
include hf

/-- A ninth level of LOOP stops the core with LIMIT. -/
theorem loopEffect_of_full (count skipTo : Nat) (h : 8 ≤ (f.core i.core).loops.length) :
    loopEffect i count skipTo m = (f.advance i).faultStop i.core 6 := by
  rw [loopEffect, Block.issue_of_fetch hf, Block.core_advance, if_pos h]

/-- A count of 0 skips the body. -/
theorem loopEffect_of_zero {count : Nat} (skipTo : Nat) (h : (f.core i.core).loops.length < 8)
    (hk : (f.sreg i.core count).toNat % 2 ^ 32 = 0) : loopEffect i count skipTo m = (f.advance i).setPc i.core skipTo := by
  rw [loopEffect, Block.issue_of_fetch hf, Block.core_advance, if_neg h.not_ge, Block.sreg_advance]
  exact if_pos hk

/-- Another count opens a level whose body starts after the instruction. -/
theorem loopEffect_of_pos {count : Nat} (skipTo : Nat) (h : (f.core i.core).loops.length < 8)
    (hk : 0 < (f.sreg i.core count).toNat % 2 ^ 32) : loopEffect i count skipTo m =
      (f.advance i).modCore i.core fun c => { c with loops := ⟨f.pcAfter i, (f.sreg i.core count).toNat % 2 ^ 32⟩ :: c.loops } := by
  rw [loopEffect, Block.issue_of_fetch hf, Block.core_advance, if_neg h.not_ge, Block.sreg_advance, Block.pc_advance_eq_pcAfter]
  exact if_neg hk.ne'

/-- ENDLOOP outside a loop stops the core with ILLEGAL (log entry 17). -/
theorem endloopEffect_of_nil (h : (f.core i.core).loops = []) : endloopEffect i m = (f.advance i).faultStop i.core 5 := by
  simp only [endloopEffect, Block.issue_of_fetch hf, Block.core_advance, h]

/-- With runs left the body runs again. -/
theorem endloopEffect_of_again {x : LoopFrame} {xs : List LoopFrame} (h : (f.core i.core).loops = x :: xs) (hx : 1 < x.left) :
    endloopEffect i m = ((f.advance i).modCore i.core fun c => { c with loops := ⟨x.body, x.left - 1⟩ :: xs }).setPc i.core x.body := by
  simp only [endloopEffect, Block.issue_of_fetch hf, Block.core_advance, h]
  exact if_pos hx

/-- The last run closes its level. -/
theorem endloopEffect_of_last {x : LoopFrame} {xs : List LoopFrame} (h : (f.core i.core).loops = x :: xs) (hx : x.left ≤ 1) :
    endloopEffect i m = (f.advance i).modCore i.core fun c => { c with loops := xs } := by
  simp only [endloopEffect, Block.issue_of_fetch hf, Block.core_advance, h]
  exact if_neg hx.not_gt

/-- A seventeenth level of CALL stops the core with LIMIT. -/
theorem callEffect_of_full (target : Nat) (h : 16 ≤ (f.core i.core).calls.length) :
    callEffect i target m = (f.advance i).faultStop i.core 6 := by
  rw [callEffect, Block.issue_of_fetch hf, Block.core_advance, if_pos h]

/-- CALL pushes the address after it. -/
theorem callEffect_of_room (target : Nat) (h : (f.core i.core).calls.length < 16) : callEffect i target m =
    ((f.advance i).modCore i.core fun c => { c with calls := f.pcAfter i :: c.calls }).setPc i.core target := by
  rw [callEffect, Block.issue_of_fetch hf, Block.core_advance, if_neg h.not_ge, Block.pc_advance_eq_pcAfter]

/-- RET without a CALL stops the core with ILLEGAL (log entry 17). -/
theorem retEffect_of_nil (h : (f.core i.core).calls = []) : retEffect i m = (f.advance i).faultStop i.core 5 := by
  simp only [retEffect, Block.issue_of_fetch hf, Block.core_advance, h]

/-- RET pops the address that it goes to. -/
theorem retEffect_of_cons {r : Nat} {rs : List Nat} (h : (f.core i.core).calls = r :: rs) :
    retEffect i m = ((f.advance i).modCore i.core fun c => { c with calls := rs }).setPc i.core r := by
  simp only [retEffect, Block.issue_of_fetch hf, Block.core_advance, h]

end

/-- Settles O2: each instruction by the cases of its stack. -/
theorem loopsAndCalls : Obligations.LoopsAndCalls := by
  refine ⟨?_, ?_, ?_, ?_⟩
  · intro i count skipTo s f hf c k
    refine ⟨fun h hk => ?_, fun h hk => ?_, fun h => ?_⟩
    · exact completes_of_effect (exec_loop i count skipTo s) (loopEffect_of_zero hf skipTo h hk) (Ran.setPc f i skipTo)
    · exact completes_of_effect (exec_loop i count skipTo s) (loopEffect_of_pos hf skipTo h hk) (Ran.advance f i _ _ rfl)
    · exact gives_of_commit (exec_loop i count skipTo s) (loopEffect_of_full hf count skipTo h)
  · intro i s f hf c
    refine ⟨fun x xs h hx => ?_, fun x xs h hx => ?_, fun h => ?_⟩
    · exact completes_of_effect (exec_endloop i s) (endloopEffect_of_again hf h hx) (Ran.jump f i _ _ _ rfl)
    · exact completes_of_effect (exec_endloop i s) (endloopEffect_of_last hf h hx) (Ran.advance f i _ _ rfl)
    · exact gives_of_commit (exec_endloop i s) (endloopEffect_of_nil hf h)
  · intro i target s f hf c
    refine ⟨fun h => ?_, fun h => ?_⟩
    · exact completes_of_effect (exec_call i target s) (callEffect_of_room hf target h) (Ran.jump f i _ _ _ rfl)
    · exact gives_of_commit (exec_call i target s) (callEffect_of_full hf target h)
  · intro i s f hf c
    refine ⟨fun r rs h => ?_, fun h => ?_⟩
    · exact completes_of_effect (exec_ret i s) (retEffect_of_cons hf h) (Ran.jump f i _ _ _ rfl)
    · exact gives_of_commit (exec_ret i s) (retEffect_of_nil hf h)

end Sys2Proof.Machine

/-! SUPPORT. DRAIN and END (R83, R85): a core held until its groups have completed, and a task that ends when all its slots have stopped. -/
namespace Sys2Proof.Machine

/- The hold of DRAIN -/

/-- A core's state is what it was set to. -/
theorem Block.coreSt_setCoreSt (m : Block) (n : Nat) {st : Nat} (h : st < 16) : (m.setCoreSt n st).coreSt n = st :=
  (m.fld_setFld_self (Reg.coreSeqStatus n) 35 32 st (by decide)).trans (Nat.mod_eq_of_lt h)

/-- A change of a core's state and of what it holds. -/
theorem OnlyCore.setCoreSt (m : Block) (n st : Nat) (g : CoreState → CoreState) :
    OnlyCore n [Reg.coreSeqStatus n] m ((m.setCoreSt n st).modCore n g).settle :=
  ((OnlyCore.setFld n _ m _ 35 32 st (List.mem_singleton_self _)).trans (OnlyCore.modCore n _ _ g)).trans (OnlyCore.settle n _ _)

/-- The status of a core is none of the registers that its issue writes. -/
theorem Reg.coreSeqStatus_notMem_issueRegs (n : Nat) : Reg.coreSeqStatus n ∉ issueRegs n := by
  simp [issueRegs, Reg.coreSeqStatus, Reg.coreSeqPc, Reg.coreSeqProgress]

/-- An instruction that leaves its core in another state, too. -/
theorem Ran.setCoreSt (m : Block) (i : Issue) (st : Nat) (c : CoreState) (g : CoreState → CoreState) (h : g (m.core i.core) = c) :
    Ran i (m.pcAfter i) c [Reg.coreSeqStatus i.core] m (((m.advance i).setCoreSt i.core st).modCore i.core g).settle := by
  have hne {r : Nat} (hr : r ∈ issueRegs i.core) : r ≠ Reg.coreSeqStatus i.core :=
    fun e => Reg.coreSeqStatus_notMem_issueRegs i.core (e ▸ hr)
  refine ⟨?_, ?_, ?_, ?_⟩
  · exact (Block.fld_setFld_ne _ _ _ _ _ _ _ _ (hne (by simp [issueRegs]))).trans (m.pc_advance i)
  · exact (Block.reg_setFld_ne _ _ _ _ _ _ (hne (by simp [issueRegs]))).trans (m.progress_advance i)
  · simp [Block.setCoreSt, h]
  · exact (OnlyCore.advance m i _).trans ((OnlyCore.setCoreSt (m.advance i) i.core st g).mono (by simp))

/-- DRAIN commits its effect. -/
theorem exec_drain (i : Issue) (mask : Nat) (s : State) : exec (.drain i mask) s = s.commit (drainEffect i mask s.m) := rfl

/-- DRAIN_COMPLETE commits its effect. -/
theorem exec_drainComplete (n : Nat) (s : State) : exec (.drainComplete n) s = s.commit (drainCompleteEffect n s.m) := rfl

section
variable {m f : Block} {i : Issue} (hf : m.fetch i = some f) {mask : Nat}
include hf

/-- A reserved bit of the mask stops the core with ILLEGAL (Table 4.11). -/
theorem drainEffect_of_reserved (h : 32 ≤ mask) : drainEffect i mask m = (f.advance i).faultStop i.core 5 := by
  rw [drainEffect, Block.issue_of_fetch hf, if_pos h]

/-- Groups that have completed hold nothing. -/
theorem drainEffect_of_drained (h : mask < 32) (hd : (f.advance i).drained i.core mask = true) : drainEffect i mask m = f.advance i := by
  rw [drainEffect, Block.issue_of_fetch hf, if_neg h.not_ge, if_pos hd]

/-- Others hold issue in STATE 3. -/
theorem drainEffect_of_open (h : mask < 32) (hd : (f.advance i).drained i.core mask = false) : drainEffect i mask m =
    ((f.advance i).setCoreSt i.core 3).modCore i.core fun c => { c with hold := .drain, drainMask := mask } := by
  rw [drainEffect, Block.issue_of_fetch hf, if_neg h.not_ge, if_neg (Bool.eq_false_iff.mp hd)]

end

/-- A drain that finds its groups completed lets the core go on. -/
theorem drainCompleteEffect_of_drained {m : Block} {n : Nat} (hst : m.coreSt n = 3) (hd : m.drained n (m.core n).drainMask = true) :
    drainCompleteEffect n m = (m.setCoreSt n 1).modCore n fun c => { c with hold := .none } := by
  rw [drainCompleteEffect, if_pos ⟨hst, hd⟩]

/- The end of a task -/

/-- END commits its effect. -/
theorem exec_end (i : Issue) (s : State) : exec (.end_ i) s = s.commit (endEffect i s.m) := rfl

section
variable {m f : Block} {i : Issue} (hf : m.fetch i = some f)
include hf

/-- END of a core without a task stops it. -/
theorem endEffect_of_no_task (h : (f.core i.core).task = none) : endEffect i m = (f.advance i).stopCore i.core 1 := by
  simp only [endEffect, Block.issue_of_fetch hf, Block.core_advance, h]

/-- END of a task's slot stops it, and the task ends with its last slot. -/
theorem endEffect_of_task {q : QueueId} (h : (f.core i.core).task = some q) :
    endEffect i m = ((f.advance i).stopCore i.core 1).endIfAll q := by
  simp only [endEffect, Block.issue_of_fetch hf, Block.core_advance, h]

end

/-- A task none of whose slots is pulled up or runs completes with OK. -/
theorem Block.endIfAll_of_stopped {m : Block} {q : QueueId} (hp : (m.cores.all fun e => e.2.saved.all fun x => x.task != some q) = true)
    (hs : ∀ k ∈ m.taskCores q, m.coreSt k = 4) : m.endIfAll q = m.complete q 0 0 := by
  have hpulled : (m.cores.any fun e => e.2.saved.any fun x => x.task == some q) = false := by
    rw [List.any_eq_false]
    intro e he
    have h := List.all_eq_true.mp hp e he
    cases hsaved : e.2.saved with
    | none => simp
    | some x => simpa [hsaved] using h
  have hall : ((m.taskCores q).all fun n => m.coreSt n == 4) = true := List.all_eq_true.mpr fun k hk => beq_iff_eq.mpr (hs k hk)
  simp only [Block.endIfAll, hpulled, hall, Bool.not_false, Bool.and_self, if_true]

/-- A task of which a slot is pulled up or has not stopped goes on. -/
theorem Block.endIfAll_of_open {m : Block} {q : QueueId}
    (h : (m.cores.any fun e => e.2.saved.any fun x => x.task == some q) = true ∨ ∃ k ∈ m.taskCores q, m.coreSt k ≠ 4) :
    m.endIfAll q = m := by
  rcases h with hp | ⟨k, hk, hst⟩
  · simp only [Block.endIfAll, hp, Bool.not_true, Bool.false_and, Bool.false_eq_true, if_false]
  · have hall : ((m.taskCores q).all fun n => m.coreSt n == 4) = false :=
      List.all_eq_false.mpr ⟨k, hk, by simpa using hst⟩
    simp only [Block.endIfAll, hall, Bool.and_false, Bool.false_eq_true, if_false]

/-- Settles O3: the three outcomes of DRAIN, the end of its hold, and END by the state of its task. -/
theorem drainAndEnd : Obligations.DrainAndEnd := by
  refine ⟨?_, ?_, ?_⟩
  · intro i mask s f hf c m
    refine ⟨fun h hd => ?_, fun h hd => ?_, fun h => ?_⟩
    · exact completes_of_effect (exec_drain i mask s) (drainEffect_of_drained hf h hd) (Ran.plain f i)
    · exact completes_of_effect (exec_drain i mask s) (drainEffect_of_open hf h hd)
        ⟨Ran.setCoreSt f i 3 _ _ rfl, Block.coreSt_setCoreSt m i.core (by decide)⟩
    · exact gives_of_commit (exec_drain i mask s) (drainEffect_of_reserved hf h)
  · intro n s hst hd
    exact completes_of_effect (exec_drainComplete n s) (drainCompleteEffect_of_drained hst hd)
      ⟨Block.coreSt_setCoreSt s.m n (by decide), by simp [Block.setCoreSt], OnlyCore.setCoreSt s.m n 1 _⟩
  · intro i s f hf stopped
    refine ⟨fun hst => ?_, fun ht => ?_, fun q ht => ⟨fun hp hs => ?_, fun hopen => ?_⟩⟩
    · exact (f.advance i).stopCore_state i.core 1 (by decide) ((f.coreSt_advance i i.core).trans hst)
    · exact gives_of_commit (exec_end i s) (endEffect_of_no_task hf ht)
    · exact gives_of_commit (exec_end i s) ((endEffect_of_task hf ht).trans (Block.endIfAll_of_stopped hp hs))
    · exact gives_of_commit (exec_end i s) ((endEffect_of_task hf ht).trans (Block.endIfAll_of_open hopen))

end Sys2Proof.Machine

/-! SUPPORT. The hitch instructions (R90 to R94): what each does on the block after its fetch, by what it finds at its hitch. -/
namespace Sys2Proof.Machine

/-- HSIGNAL commits its effect. -/
theorem exec_hsignal (i : Issue) (h : Nat) (v : Src) (s : State) : exec (.hsignal i h v) s = s.commit (hsignalEffect i h v s.m) := rfl

/-- HWAIT commits its effect. -/
theorem exec_hwait (i : Issue) (h : Nat) (v : Src) (s : State) : exec (.hwait i h v) s = s.commit (hwaitEffect i h v s.m) := rfl

/-- HPOLL commits its effect. -/
theorem exec_hpoll (i : Issue) (h rd : Nat) (s : State) : exec (.hpoll i h rd) s = s.commit (hpollEffect i h rd s.m) := rfl

/-- HRESET commits its effect. -/
theorem exec_hreset (i : Issue) (h : Nat) (v : Src) (s : State) : exec (.hreset i h v) s = s.commit (hresetEffect i h v s.m) := rfl

/-- A signal to a sound hitch adds to it (R91). -/
theorem Block.signalAt_of_sound {m : Block} {a : Nat} (n inc : Nat) (hp : (m.correct a 8).poisoned a 8 = false) :
    m.signalAt n a inc = (m.correct a 8).hitchAdd a inc := by
  rw [Block.signalAt, if_neg (Bool.eq_false_iff.mp hp)]

/-- A signal to a poisoned one curbs its core (R447). -/
theorem Block.signalAt_of_poisoned {m : Block} {a : Nat} (n inc : Nat) (hp : (m.correct a 8).poisoned a 8 = true) :
    m.signalAt n a inc = (m.correct a 8).curbCore n 8 a 8 := by
  rw [Block.signalAt, if_pos hp]

/- The registers of a wait -/

/-- A core's hitch wait and its hitch target are different registers. -/
theorem Reg.coreHitchWait_ne_target (n : Nat) : Reg.coreHitchWait n ≠ Reg.coreHitchTarget n := by
  simp [Reg.coreHitchWait, Reg.coreHitchTarget]

/-- And so are its hitch target and its status. -/
theorem Reg.coreHitchTarget_ne_status (n : Nat) : Reg.coreHitchTarget n ≠ Reg.coreSeqStatus n := by
  simp [Reg.coreHitchTarget, Reg.coreSeqStatus]

/-- The block with the hitch and the target of core `n`'s wait noted (Table 4.9). -/
def Block.noteWait (m : Block) (n h : Nat) (t : Word) : Block :=
  (m.setReg (Reg.coreHitchWait n) (BitVec.ofNat 64 h)).setReg (Reg.coreHitchTarget n) t

section
variable (m : Block) (n h : Nat) (t : Word)

/-- The hitch noted. -/
theorem Block.hitchWait_noteWait : (m.noteWait n h t).reg (Reg.coreHitchWait n) = BitVec.ofNat 64 h :=
  (Block.reg_setReg_ne _ _ _ _ (Reg.coreHitchWait_ne_target n)).trans (Block.reg_setReg_self _ _ _)

/-- The target noted. -/
theorem Block.hitchTarget_noteWait : (m.noteWait n h t).reg (Reg.coreHitchTarget n) = t := Block.reg_setReg_self _ _ _

/-- The core itself stands. -/
theorem Block.core_noteWait : (m.noteWait n h t).core n = m.core n := (rfl)

/-- Nothing else changes. -/
theorem OnlyCore.noteWait : OnlyCore n [Reg.coreHitchWait n, Reg.coreHitchTarget n] m (m.noteWait n h t) :=
  (OnlyCore.setReg n _ m _ _ (by simp)).trans (OnlyCore.setReg n _ _ _ _ (by simp))

/-- What holds once a wait has been noted. -/
theorem Block.noteWait_post : OnlyCore n [Reg.coreHitchWait n, Reg.coreHitchTarget n] m (m.noteWait n h t).settle ∧
    (m.noteWait n h t).settle.core n = m.core n ∧ (m.noteWait n h t).settle.reg (Reg.coreHitchWait n) = BitVec.ofNat 64 h ∧
      (m.noteWait n h t).settle.reg (Reg.coreHitchTarget n) = t :=
  ⟨(OnlyCore.noteWait m n h t).trans (OnlyCore.settle _ _ _), m.core_noteWait n h t, m.hitchWait_noteWait n h t, m.hitchTarget_noteWait n h t⟩

/-- The block with core `n` waiting. -/
def Block.beginWait (a start : Nat) : Block :=
  (((m.noteWait n h t).setFld (Reg.coreHitchWait n) 63 63 1).setCoreSt n 2).modCore n fun c =>
    { c with hold := .hwait, waitStart := start, waitAddr := a, met := false }

variable (a start : Nat)

/-- A waiting core is in STATE 2. -/
theorem Block.coreSt_beginWait : (m.beginWait n h t a start).coreSt n = 2 := Block.coreSt_setCoreSt _ n (by decide)

/-- Its wait is marked. -/
theorem Block.waiting_beginWait : (m.beginWait n h t a start).fld (Reg.coreHitchWait n) 63 63 = 1 :=
  (Block.fld_setFld_ne _ _ _ _ _ _ _ _ (Reg.coreSeqStatus_ne_hitchWait n).symm).trans (Block.fld_setFld_self _ _ _ _ _ (by decide))

/-- Its target stands. -/
theorem Block.hitchTarget_beginWait : (m.beginWait n h t a start).reg (Reg.coreHitchTarget n) = t :=
  (Block.reg_setFld_ne _ _ _ _ _ _ (Reg.coreHitchTarget_ne_status n)).trans
    ((Block.reg_setFld_ne _ _ _ _ _ _ (Reg.coreHitchWait_ne_target n).symm).trans (m.hitchTarget_noteWait n h t))

/-- The core notes the hitch and the start of its window. -/
theorem Block.core_beginWait : (m.beginWait n h t a start).core n =
    { m.core n with hold := .hwait, waitStart := start, waitAddr := a, met := false } := Block.core_modCore_self _ n _

/-- Nothing else changes. -/
theorem OnlyCore.beginWait :
    OnlyCore n [Reg.coreHitchWait n, Reg.coreHitchTarget n, Reg.coreSeqStatus n] m (m.beginWait n h t a start) :=
  ((((OnlyCore.noteWait m n h t).mono (by simp)).trans (OnlyCore.setFld n _ _ _ 63 63 1 (by simp))).trans
    (OnlyCore.setFld n _ _ _ 35 32 2 (by simp))).trans (OnlyCore.modCore n _ _ _)

/-- What holds once a wait has begun. -/
theorem Block.beginWait_post :
    OnlyCore n [Reg.coreHitchWait n, Reg.coreHitchTarget n, Reg.coreSeqStatus n] m (m.beginWait n h t a start).settle ∧
      (m.beginWait n h t a start).settle.core n = { m.core n with hold := .hwait, waitStart := start, waitAddr := a, met := false } ∧
      (m.beginWait n h t a start).settle.coreSt n = 2 ∧ (m.beginWait n h t a start).settle.fld (Reg.coreHitchWait n) 63 63 = 1 ∧
      (m.beginWait n h t a start).settle.reg (Reg.coreHitchTarget n) = t :=
  ⟨(OnlyCore.beginWait m n h t a start).trans (OnlyCore.settle _ _ _), m.core_beginWait n h t a start, m.coreSt_beginWait n h t a start,
    m.waiting_beginWait n h t a start, m.hitchTarget_beginWait n h t a start⟩

end

/- A hitch that the core does not have (R90) -/

section
variable {m f : Block} {i : Issue} (hf : m.fetch i = some f) {h : Nat} (hn : (f.advance i).coreHitch i.core h = none)
include hf hn

theorem hsignalEffect_of_no_hitch (v : Src) : hsignalEffect i h v m = (f.advance i).faultStop i.core 4 := by
  simp only [hsignalEffect, Block.issue_of_fetch hf, hn]

theorem hwaitEffect_of_no_hitch (v : Src) : hwaitEffect i h v m = (f.advance i).faultStop i.core 4 := by
  simp only [hwaitEffect, Block.issue_of_fetch hf, hn]

theorem hpollEffect_of_no_hitch (rd : Nat) : hpollEffect i h rd m = (f.advance i).faultStop i.core 4 := by
  simp only [hpollEffect, Block.issue_of_fetch hf, hn]

theorem hresetEffect_of_no_hitch (v : Src) : hresetEffect i h v m = (f.advance i).faultStop i.core 4 := by
  simp only [hresetEffect, Block.issue_of_fetch hf, hn]

end

/- A hitch that it has -/

section
variable {m f : Block} {i : Issue} (hf : m.fetch i = some f) {h a : Nat} (ha : (f.advance i).coreHitch i.core h = some a)
include hf ha

/-- HSIGNAL signals at once when nothing before it is under way (R93). -/
theorem hsignalEffect_of_idle (v : Src) (ho : (f.advance i).storesOpen i.core = false) :
    hsignalEffect i h v m = (f.advance i).signalAt i.core a (f.src i.core v).toNat := by
  simp only [hsignalEffect, Block.issue_of_fetch hf, ha, ho, Block.src_advance, Bool.not_false, if_true]

/-- Else its signal waits behind what is (R93). -/
theorem hsignalEffect_of_open (v : Src) (ho : (f.advance i).storesOpen i.core = true) : hsignalEffect i h v m =
    ((f.advance i).nextStamp (i.core / 8)).2.modCore i.core fun c =>
      { c with signals := c.signals ++ [⟨h, f.src i.core v, ((f.advance i).tile (i.core / 8)).stamp + 1, c.matQ.length⟩] } := by
  simp only [hsignalEffect, Block.issue_of_fetch hf, ha, ho, Block.src_advance, Bool.not_true, Bool.false_eq_true, if_false]
  rfl

/-- HRESET sets the counter (R91). -/
theorem hresetEffect_of_hitch (v : Src) : hresetEffect i h v m = (f.advance i).hitchSet a (f.src i.core v).toNat := by
  simp only [hresetEffect, Block.issue_of_fetch hf, ha, Block.src_advance]

/-- HPOLL reads a sound counter (R91). -/
theorem hpollEffect_of_sound (rd : Nat) (hp : ((f.advance i).correct a 8).poisoned a 8 = false) : hpollEffect i h rd m =
    ((f.advance i).correct a 8).setSreg i.core rd (BitVec.ofNat 64 (((f.advance i).correct a 8).hitchVal a)) := by
  simp only [hpollEffect, Block.issue_of_fetch hf, ha, hp, Bool.false_eq_true, if_false]

/-- HPOLL of a poisoned counter curbs the core (R447). -/
theorem hpollEffect_of_poisoned (rd : Nat) (hp : ((f.advance i).correct a 8).poisoned a 8 = true) :
    hpollEffect i h rd m = ((f.advance i).correct a 8).curbCore i.core 8 a 8 := by
  simp only [hpollEffect, Block.issue_of_fetch hf, ha, hp, if_true]

/-- HWAIT of a poisoned counter names the hitch and the target and curbs the core (R447). -/
theorem hwaitEffect_of_poisoned (v : Src) (hp : ((f.advance i).correct a 8).poisoned a 8 = true) : hwaitEffect i h v m =
    (((f.advance i).correct a 8).noteWait i.core h (f.src i.core v)).curbCore i.core 8 a 8 := by
  simp only [hwaitEffect, Block.issue_of_fetch hf, ha, hp, Block.src_advance, if_true, Block.noteWait]

/-- HWAIT of a counter that has reached the target goes on (R91). -/
theorem hwaitEffect_of_reached (v : Src) (hp : ((f.advance i).correct a 8).poisoned a 8 = false)
    (hv : (f.src i.core v).toNat ≤ ((f.advance i).correct a 8).hitchVal a) : hwaitEffect i h v m =
      ((f.advance i).correct a 8).noteWait i.core h (f.src i.core v) := by
  simp only [hwaitEffect, Block.issue_of_fetch hf, ha, hp, Block.src_advance, hv, Bool.false_eq_true, if_false, if_true, Block.noteWait]

/-- HWAIT of another holds the core in STATE 2, with the start of its window noted (R94). -/
theorem hwaitEffect_of_below (v : Src) (hp : ((f.advance i).correct a 8).poisoned a 8 = false)
    (hv : ((f.advance i).correct a 8).hitchVal a < (f.src i.core v).toNat) : hwaitEffect i h v m =
      ((f.advance i).correct a 8).beginWait i.core h (f.src i.core v) a (f.advance i).time := by
  simp only [hwaitEffect, Block.issue_of_fetch hf, ha, hp, Block.src_advance, hv.not_ge, Bool.false_eq_true, if_false, Block.beginWait,
    Block.noteWait]

end

/-- Settles O5: each instruction by whether the core has the hitch, whether its granule is sound, and whether stores are under way. -/
theorem hitchInstructions : Obligations.HitchInstructions := by
  refine ⟨?_, ?_, ?_, ?_, ?_⟩
  · intro i h a v s f hf ha m e
    refine ⟨fun ho hp => ?_, fun ho => ?_⟩
    · exact gives_of_commit (exec_hsignal i h v s) ((hsignalEffect_of_idle hf ha v ho).trans (Block.signalAt_of_sound _ _ hp))
    · exact gives_of_commit (exec_hsignal i h v s) (hsignalEffect_of_open hf ha v ho)
  · intro i h a v s f hf ha
    exact gives_of_commit (exec_hreset i h v s) (hresetEffect_of_hitch hf ha v)
  · intro i h a rd s f hf ha e hp
    exact gives_of_commit (exec_hpoll i h rd s) (hpollEffect_of_sound hf ha rd hp)
  · rintro i h rd v s f c hf (rfl | rfl | rfl | rfl) hn
    · exact gives_of_commit (exec_hsignal i h v s) (hsignalEffect_of_no_hitch hf hn v)
    · exact gives_of_commit (exec_hwait i h v s) (hwaitEffect_of_no_hitch hf hn v)
    · exact gives_of_commit (exec_hpoll i h rd s) (hpollEffect_of_no_hitch hf hn rd)
    · exact gives_of_commit (exec_hreset i h v s) (hresetEffect_of_no_hitch hf hn v)
  · intro i h rd a v s f hf ha e hp
    refine ⟨fun ho => ?_, ?_, ?_⟩
    · exact gives_of_commit (exec_hsignal i h v s) ((hsignalEffect_of_idle hf ha v ho).trans (Block.signalAt_of_poisoned _ _ hp))
    · exact gives_of_commit (exec_hpoll i h rd s) (hpollEffect_of_poisoned hf ha rd hp)
    · exact gives_of_commit (exec_hwait i h v s) (hwaitEffect_of_poisoned hf ha v hp)

end Sys2Proof.Machine

/-! SUPPORT. Waiting for a hitch (R91, R92, R94): what HWAIT leaves in the core's registers, and the two ends of its wait. -/
namespace Sys2Proof.Machine

/-- HWAIT_SATISFIED commits its effect. -/
theorem exec_hwaitSatisfied (n : Nat) (s : State) : exec (.hwaitSatisfied n) s = s.commit (hwaitSatisfiedEffect n s.m) := rfl

/-- HITCH_TIMEOUT commits its effect. -/
theorem exec_hitchTimeout (n : Nat) (s : State) : exec (.hitchTimeout n) s = s.commit (hitchTimeoutEffect n s.m) := rfl

/-- The block with core `n`'s wait ended. -/
def Block.endWait (m : Block) (n : Nat) : Block :=
  ((m.setFld (Reg.coreHitchWait n) 63 63 0).setCoreSt n 1).modCore n fun c => { c with hold := .none, met := false }

/-- The wait's mark is gone. -/
theorem Block.waiting_endWait (m : Block) (n : Nat) : (m.endWait n).fld (Reg.coreHitchWait n) 63 63 = 0 :=
  (Block.fld_setFld_ne _ _ _ _ _ _ _ _ (Reg.coreSeqStatus_ne_hitchWait n).symm).trans (Block.fld_setFld_self _ _ _ _ _ (by decide))

/-- The core holds no wait any more. -/
theorem Block.core_endWait (m : Block) (n : Nat) : (m.endWait n).core n = { m.core n with hold := .none, met := false } := by
  simp [Block.endWait, Block.setCoreSt]

/-- Nothing but the core's wait and its state changes. -/
theorem OnlyCore.endWait (m : Block) (n : Nat) : OnlyCore n [Reg.coreHitchWait n, Reg.coreSeqStatus n] m (m.endWait n) :=
  ((OnlyCore.setFld n _ m _ 63 63 0 (by simp)).trans (OnlyCore.setFld n _ _ _ 35 32 1 (by simp))).trans (OnlyCore.modCore n _ _ _)

/-- A wait that was met ends (R92). -/
theorem hwaitSatisfiedEffect_of_met {m : Block} {n : Nat} (hh : (m.core n).hold = .hwait) (hm : (m.core n).met = true) :
    hwaitSatisfiedEffect n m = m.endWait n := by
  rw [hwaitSatisfiedEffect, if_pos ⟨hh, hm⟩, Block.endWait]

/-- A wait whose window has ended unmet stops its core, unless a recovering peer holds the task (R94, R464). -/
theorem hitchTimeoutEffect_of_due {m : Block} {n : Nat} (hh : (m.core n).hold = .hwait) (hm : (m.core n).met = false)
    (ht : (m.core n).waitStart + m.fld (Reg.coreHitchTmo n) 39 0 ≤ m.time) (hp : ∀ q, (m.core n).task = some q → m.peerHeld q = false) :
    hitchTimeoutEffect n m = m.faultStop n 3 := by
  have hheld : ((m.core n).task.any fun q => m.peerHeld q) = false := by
    cases htask : (m.core n).task with
    | none => rfl
    | some q => exact hp q htask
  rw [hitchTimeoutEffect, if_pos ⟨hh, by simp [hm], ht, by simp [hheld]⟩]

/-- Settles O6: HWAIT by whether its counter has reached the target, and the two ends of a wait. -/
theorem hitchWaits : Obligations.HitchWaits := by
  refine ⟨?_, ?_, ?_⟩
  · intro i h a v s f hf ha e t hp
    refine ⟨fun hv => ?_, fun hv => ?_⟩
    · exact completes_of_effect (exec_hwait i h v s) (hwaitEffect_of_reached hf ha v hp hv) (Block.noteWait_post _ _ _ _)
    · exact completes_of_effect (exec_hwait i h v s) (hwaitEffect_of_below hf ha v hp hv) (Block.beginWait_post _ _ _ _ _ _)
  · intro n s hh hm
    exact completes_of_effect (exec_hwaitSatisfied n s) (hwaitSatisfiedEffect_of_met hh hm)
      ⟨Block.coreSt_setCoreSt _ n (by decide), s.m.waiting_endWait n, s.m.core_endWait n,
        (OnlyCore.endWait s.m n).trans (OnlyCore.settle _ _ _)⟩
  · intro n s hh hm ht hp
    exact gives_of_commit (exec_hitchTimeout n s) (hitchTimeoutEffect_of_due hh hm ht hp)

end Sys2Proof.Machine

/-! SUPPORT. What every instruction shares (R81, R82): it waits for room in its unit's queue, or else is issued. -/
namespace Sys2Proof.Machine

/-- Whether the queues of core `n`'s units may hold an instruction back: a full one (R82, Table 4.2), or for an attention pass one that is not
empty. -/
def Block.queuesHold (m : Block) (n : Nat) : Prop :=
  16 ≤ (m.core n).vecQ.length ∨ 16 ≤ (m.core n).sfuQ.length ∨ 5 ≤ (m.core n).matQ.length ∨ 8 ≤ (m.core n).copyQ.length ∨
    (m.core n).vecQ ≠ [] ∨ (m.core n).sfuQ ≠ []

/-- An effect that waits where a queue holds it back and else issues its instruction. -/
def IssuesOrWaits (i : Issue) (m m' : Block) : Prop := (m.queuesHold i.core ∧ m' = m) ∨ ∃ k, m' = m.issue i k

/-- An instruction of the vector unit. -/
theorem issueVec_issuesOrWaits (i : Issue) (c : Instr) (m : Block) : IssuesOrWaits i m (issueVec i c m) := by
  rw [issueVec]
  split
  · rename_i h
    exact .inl ⟨.inl h, rfl⟩
  · exact .inr ⟨_, rfl⟩

/-- An instruction of the special-function unit. -/
theorem issueSfu_issuesOrWaits (i : Issue) (c : Instr) (m : Block) : IssuesOrWaits i m (issueSfu i c m) := by
  rw [issueSfu]
  split
  · rename_i h
    exact .inl ⟨.inr (.inl h), rfl⟩
  · exact .inr ⟨_, rfl⟩

/-- MATMUL. -/
theorem matmulEffect_issuesOrWaits (i : Issue) (desc : Nat) (m : Block) : IssuesOrWaits i m (matmulEffect i desc m) := by
  rw [matmulEffect]
  split
  · rename_i h
    exact .inl ⟨.inr (.inr (.inl h)), rfl⟩
  · exact .inr ⟨_, rfl⟩

/-- COPY_SUBMIT. -/
theorem copySubmitEffect_issuesOrWaits (i : Issue) (channel desc : Nat) (m : Block) :
    IssuesOrWaits i m (copySubmitEffect i channel desc m) := by
  rw [copySubmitEffect]
  split
  · rename_i h
    exact .inl ⟨.inr (.inr (.inr (.inl h))), rfl⟩
  · exact .inr ⟨_, rfl⟩

/-- ATTENTION_PASS while no pass is under way; it waits behind the vector instructions before it. -/
theorem attentionPassEffect_issuesOrWaits (i : Issue) (desc : Nat) (m : Block) (h : (m.core i.core).att = none) :
    IssuesOrWaits i m (attentionPassEffect i desc m) := by
  rw [attentionPassEffect, h]
  simp only [Option.isSome_none, Bool.false_eq_true, if_false]
  split
  · rename_i hq
    exact .inl ⟨.inr (.inr (.inr (.inr (by simpa [← not_and_or] using hq)))), rfl⟩
  · exact .inr ⟨_, rfl⟩

/-- ATTENTION_PASS of a core that works on no pass and does not issue changes nothing. -/
theorem attentionPassEffect_of_held {i : Issue} (desc : Nat) {m : Block} (h : m.issuing i.core = false) (hp : m.passing i.core = false) :
    attentionPassEffect i desc m = m := by
  cases ha : (m.core i.core).att with
  | some r => simp [attentionPassEffect, ha, Block.attResume, hp]
  | none =>
    rcases attentionPassEffect_issuesOrWaits i desc m ha with ⟨-, e⟩ | ⟨k, e⟩
    · exact e
    · exact e.trans (m.issue_of_not_issuing i k h)

/-- Every instruction but ATTENTION_PASS waits or is issued. -/
theorem exec_of_issueOf {c : Instr} {i : Issue} (h : issueOf c = some i) (hc : ∀ d, c ≠ .attentionPass i d) (s : State) :
    ∃ m', exec c s = s.commit m' ∧ IssuesOrWaits i s.m m' := by
  have hsome {c : Instr} {k : Block → Block} (e : exec c s = s.commit (s.m.issue i k)) :
      ∃ m', exec c s = s.commit m' ∧ IssuesOrWaits i s.m m' := ⟨_, e, .inr ⟨k, rfl⟩⟩
  cases c
  case scalarOp | branch | loop | endloop | call | ret | drain | end_ | hsignal | hwait | hpoll | hreset | acquire | release | fence =>
    cases h
    exact hsome rfl
  case matmul => cases h; exact ⟨_, rfl, matmulEffect_issuesOrWaits _ _ _⟩
  case copySubmit => cases h; exact ⟨_, rfl, copySubmitEffect_issuesOrWaits _ _ _ _⟩
  case attentionPass => cases h; exact absurd rfl (hc _)
  case globalLoad | coherentPointLoad | globalStore | signalledStore | vectorElementwise | vectorConvert | vectorReduce | topk |
      compensatedSplit | compensatedCombine | gather | scatter =>
    cases h
    exact ⟨_, rfl, issueVec_issuesOrWaits _ _ _⟩
  case exp | rsqrt | recip => cases h; exact ⟨_, rfl, issueSfu_issuesOrWaits _ _ _⟩
  all_goals cases h

/-- A core that does not issue is unchanged. -/
theorem IssuesOrWaits.eq_of_not_issuing {i : Issue} {m m' : Block} (h : IssuesOrWaits i m m') (hi : m.issuing i.core = false) : m' = m := by
  rcases h with ⟨-, e⟩ | ⟨k, e⟩
  · exact e
  · exact e.trans (m.issue_of_not_issuing i k hi)

/-- An instruction that no queue holds back is issued. -/
theorem IssuesOrWaits.issued {i : Issue} {m m' : Block} (h : IssuesOrWaits i m m') (hq : ¬ m.queuesHold i.core) : ∃ k, m' = m.issue i k :=
  h.resolve_left fun hw => hq hw.1

/-- ATTENTION_PASS commits its effect. -/
theorem exec_attentionPass (i : Issue) (desc : Nat) (s : State) :
    exec (.attentionPass i desc) s = s.commit (attentionPassEffect i desc s.m) := rfl

/-- Every instruction that its core issues and no queue holds back is an issue. -/
theorem exec_issue_of_issuing {c : Instr} {i : Issue} {s : State} (h : issueOf c = some i) (hi : s.m.issuing i.core = true)
    (hq : ¬ s.m.queuesHold i.core) : ∃ k, exec c s = s.commit (s.m.issue i k) := by
  have hatt : (s.m.core i.core).att = none := by simp_all [Block.issuing]
  have hw : ∃ m', exec c s = s.commit m' ∧ IssuesOrWaits i s.m m' := by
    by_cases hc : ∃ d, c = .attentionPass i d
    · obtain ⟨d, rfl⟩ := hc
      exact ⟨_, exec_attentionPass i d s, attentionPassEffect_issuesOrWaits i d s.m hatt⟩
    · exact exec_of_issueOf h (not_exists.mp hc) s
  obtain ⟨m', he, hm⟩ := hw
  obtain ⟨k, rfl⟩ := hm.issued hq
  exact ⟨k, he⟩

/- The three fetches that fail -/

section
variable {m : Block} {i : Issue} (hi : m.issuing i.core = true) (k : Block → Block)
include hi

/-- A fetch beyond the CODE section stops the core with ILLEGAL (R85). -/
theorem Block.issue_beyond_code (hpc : (m.core i.core).codeSize ≤ m.pc i.core) : m.issue i k = m.faultStop i.core 5 := by
  simp [Block.issue, hi, hpc]

/-- A fetch outside the task's window curbs it (R117). -/
theorem Block.issue_outside_window (hpc : m.pc i.core < (m.core i.core).codeSize)
    (ha : m.cmAddr? i.core ((m.core i.core).codeOff + m.pc i.core) i.len = none) :
    m.issue i k = m.curbWindow i.core 0 ((m.core i.core).codeOff + m.pc i.core) i.len := by
  simp [Block.issue, hi, hpc.not_ge, ha]

/-- A fetch of poisoned code curbs it (R447). -/
theorem Block.issue_of_poisoned_code {a : Nat} (hpc : m.pc i.core < (m.core i.core).codeSize)
    (ha : m.cmAddr? i.core ((m.core i.core).codeOff + m.pc i.core) i.len = some a) (hp : (m.correct a i.len).poisoned a i.len = true) :
    m.issue i k = (m.correct a i.len).curbCore i.core 8 ((m.core i.core).codeOff + m.pc i.core) i.len := by
  simp [Block.issue, hi, hpc.not_ge, ha, hp]

end

/-- Settles O8: what every instruction shares is its issue, which a held core does not begin and which ends at a failing fetch. -/
theorem issueHeldOrStopped : Obligations.IssueHeldOrStopped := by
  refine ⟨?_, ?_⟩
  · intro c i s h hi hatt
    by_cases hc : ∃ d, c = .attentionPass i d
    · obtain ⟨d, rfl⟩ := hc
      exact gives_of_commit (exec_attentionPass i d s) (attentionPassEffect_of_held d hi (hatt d rfl))
    · obtain ⟨m', he, hm⟩ := exec_of_issueOf h (not_exists.mp hc) s
      exact gives_of_commit he (hm.eq_of_not_issuing hi)
  · intro c i s h hi hvec hsfu hmat hcopy at_
    have hq : ¬ s.m.queuesHold i.core := by
      simp only [Block.queuesHold, hvec, hsfu, List.length_nil, ne_eq, not_true_eq_false, or_false]
      omega
    obtain ⟨k, he⟩ := exec_issue_of_issuing h hi hq
    exact ⟨fun hpc => gives_of_commit he (Block.issue_beyond_code hi k hpc),
      fun hpc ha => gives_of_commit he (Block.issue_outside_window hi k hpc ha),
      fun a hpc ha hp => gives_of_commit he (Block.issue_of_poisoned_code hi k hpc ha hp)⟩

end Sys2Proof.Machine

/-! SUPPORT. What the vector unit and the special-function unit make of operands that they can read (R30, R32, R45, R47, R78, R79, R214). -/
namespace Sys2Proof.Machine

/-- An instruction that the vector unit takes as it is issued does its work, and then the core's units go on. -/
theorem gives_of_vecPerform {c : Instr} {i : Issue} {s : State} {st : Nat} {f m' : Block}
    (he : exec c s = s.commit (issueVec i c s.m)) (hf : s.m.fetchVec i = some (st, f)) (hp : vecPerform i.core st c f = some m') :
    Gives c s (m'.settleCore i.core) :=
  gives_of_commit he (issueVec_of_fetchVec hf hp)

/-- The same of the special-function unit. -/
theorem gives_of_sfuPerform {c : Instr} {i : Issue} {s : State} {m m' : Block} (he : exec c s = s.commit (issueSfu i c s.m))
    (hf : s.m.fetchSfu i = some m) (hp : sfuPerform i.core c m = m') : Gives c s (m'.settleCore i.core) :=
  gives_of_commit he (hp ▸ issueSfu_of_fetchSfu hf)

/-- Without a trap the events are noted. -/
theorem Block.finish_of_ok {m : Block} {n : Nat} {r : Except Trap (Block × Events)} {w : Block × Events} (h : r = .ok w) :
    m.finish n r = w.1.noteEvents n w.2 := by
  rw [h, Block.finish]

/-- A step that succeeds hands its value on. -/
theorem ok_bind {ε α β : Type} (a : α) (f : α → Except ε β) : (Except.ok a >>= f) = f a := rfl

/- Rows. `m` is the block once the operands' errors have been found. -/

section
variable {f m : Block} {n k : Nat}

/-- Elementwise arithmetic on plain rows: every element `es` is the exact result rounded once (Table 2.5). -/
theorem Block.elementwise_of_read {op : VecOp} {dst a b c : Row} {va vb vc : List Val × Events} {es : List (Nat × Events)}
    (hm : ((f.senseRow n a k).senseRow n b k).senseRow n c k = m)
    (hes : (va.1.zip (vb.1.zip vc.1)).map (fun x => vecElem dst.fmt op x.1 x.2.1 x.2.2) = es)
    (hplain : ([dst, a, b, c].all fun r => Row.plain r) = true) (ha : m.readRow n a k = .ok va) (hb : m.readRow n b k = .ok vb)
    (hc : m.readRow n c k = .ok vc) (hw : m.canWrite n dst.loc (pack dst.fmt.width (es.map (·.1))).length = .ok ()) :
    f.elementwise n op dst a b c k = .ok (m.writeLoc n dst.loc (pack dst.fmt.width (es.map (·.1))), joinEvents (es.map (·.2))) := by
  simp only [Block.elementwise, hplain, hm, ha, hb, hc, hes, hw, ok_bind]
  rfl

/-- A conversion of a row (R30, R32). -/
theorem Block.convertRow_of_read {dst src : Row} {v : List Val × Events} {w : Block × Events} (hm : f.senseRow n src k = m)
    (hv : m.readRow n src k = .ok v) (hw : m.writeRow n dst v.1 = .ok w) :
    f.convertRow n dst src k = .ok (w.1, (v.2.join w.2).join { nanIn := v.1.any Val.isNan }) := by
  simp only [Block.convertRow, hm, hv, hw, ok_bind]
  rfl

/-- A reduction of plain rows into one element (R79). -/
theorem Block.reduceRow_of_read {op : RedOp} {dst src : Row} {v : List Val × Events} {w : Block × Events} (hm : f.senseRow n src k = m)
    (hd : Row.plain dst = true) (hs : Row.plain src = true) (hop : ∀ dim, op ≠ .merge dim) (hv : m.readRow n src k = .ok v)
    (hw : m.writeRow n dst [reduceVals op dst.fmt v.1] = .ok w) :
    f.reduceRow n op dst src k = .ok (w.1, w.2.join (arithEvents v.1 (reduceVals op dst.fmt v.1))) := by
  cases op with
  | merge dim => exact absurd rfl (hop dim)
  | _ =>
    simp only [Block.reduceRow, hd, hs, hm, hv, hw, ok_bind]
    rfl

/-- A merge of FP32 partials (R214). -/
theorem Block.reduceRow_merge (dim : Nat) {dst src : Row} (hds : dst.scheme = .none) (hss : src.scheme = .none) (hdf : dst.fmt = .fp32)
    (hsf : src.fmt = .fp32) : f.reduceRow n (.merge dim) dst src k = f.mergeRow n dim dst src k := by
  simp [Block.reduceRow, Row.plain, hds, hss, hdf, hsf]

/-- The compensated split of a row into two parts (R45). -/
theorem Block.splitRow_of_read {src hi lo : Loc} {vs : List F32} (hm : f.sense n src (4 * k) = m) (hv : m.readF32 n src k = .ok vs)
    (hh : m.canWrite n hi (2 * k) = .ok ()) (hl : m.canWrite n lo (2 * k) = .ok ()) :
    f.splitRow n src hi lo k = .ok ((m.writeLoc n hi (pack 16 ((vs.map splitPair).map (·.1)))).writeLoc n lo
      (pack 16 ((vs.map splitPair).map (·.2.1))), joinEvents ((vs.map splitPair).map (·.2.2))) := by
  simp only [Block.splitRow, hm, hv, hh, hl, ok_bind]
  rfl

/-- The compensated combination of two rows (R47). -/
theorem Block.combineRow_of_read {main comp dst : Loc} {a b : List F32} (hm : (f.sense n main (4 * k)).sense n comp (4 * k) = m)
    (ha : m.readF32 n main k = .ok a) (hb : m.readF32 n comp k = .ok b) (hd : m.canWrite n dst (4 * k) = .ok ()) :
    f.combineRow n main comp dst k = .ok (m.writeLoc n dst (f32Bytes ((a.zip b).map fun x => combinePair x.1 x.2)),
      joinEvents ((a.zip b).map fun x => arithEvents [F32.val x.1, F32.val x.2] (F32.val (combinePair x.1 x.2)))) := by
  simp only [Block.combineRow, hm, ha, hb, hd, ok_bind]
  rfl

/-- A special function of a row of the vector buffer (R78). -/
theorem Block.sfuRow_of_read {g : Val → F32} {dst src : Nat} {bf16 : Bool} {bs : List Byte} {fm : Fmt} {vs : List Val}
    (hfm : (if bf16 then Fmt.bf16 else Fmt.fp32) = fm) (hvs : (unpack fm.width k bs).map fm.decode = vs)
    (h : f.readLoc n ⟨.vector, src⟩ (elemBytes fm.width k) = .ok bs) :
    f.sfuRow n g dst src bf16 k = .ok (f.writeLoc n ⟨.vector, dst⟩ (f32Bytes (vs.map g)),
      joinEvents (vs.map fun v => arithEvents [v] (F32.val (g v)))) := by
  simp only [Block.sfuRow, hfm, h, ok_bind, hvs]
  rfl

end

/- A malformed operand -/

/-- VECTOR_CONVERT with an operand of INT4 under Microscaling stops the core with BAD_DESCRIPTOR (R28, R73). -/
theorem vectorConvertRun_of_malformed {dst src : Row} (n k : Nat) (f : Block) (h : Row.malformed dst = true ∨ Row.malformed src = true) :
    vectorConvertRun n dst src k f = f.descriptorStop n := by
  rw [vectorConvertRun, if_pos (by simpa using h)]

/-- With sound operands it converts. -/
theorem vectorConvertRun_of_sound {dst src : Row} (n k : Nat) (f : Block) (hd : Row.malformed dst = false) (hs : Row.malformed src = false)
    (hdw : Row.tooWide dst = false) (hsw : Row.tooWide src = false) :
    vectorConvertRun n dst src k f = f.finish n (f.convertRow n dst src k) := by
  simp only [vectorConvertRun, hd, hs, hdw, hsw, Bool.or_self, Bool.false_eq_true, if_false]

/-- Settles O9: each row instruction by its row's lemma. -/
theorem vectorRows : Obligations.VectorRows := by
  refine ⟨?_, ?_, ?_, ?_, ?_, ?_⟩
  · intro i op dst a b c n s st f va vb vc hf m es bytes hplain ha hb hc hw
    exact gives_of_vecPerform rfl hf (congrArg some (Block.finish_of_ok (Block.elementwise_of_read rfl rfl hplain ha hb hc hw)))
  · intro i dst src n s st f v w hf m
    refine ⟨fun h => ?_, fun hd hs hdw hsw hv hw => ?_⟩
    · exact gives_of_vecPerform rfl hf (congrArg some (vectorConvertRun_of_malformed i.core n f h))
    · exact gives_of_vecPerform rfl hf (congrArg some ((vectorConvertRun_of_sound i.core n f hd hs hdw hsw).trans
        (Block.finish_of_ok (Block.convertRow_of_read rfl hv hw))))
  · intro i op dst src n s st f v w hf m hd hs hop hv hw
    exact gives_of_vecPerform rfl hf (congrArg some (Block.finish_of_ok (Block.reduceRow_of_read rfl hd hs hop hv hw)))
  · intro i dim dst src n s st f w hf hds hss hdf hsf hw
    exact gives_of_vecPerform rfl hf (congrArg some (Block.finish_of_ok ((Block.reduceRow_merge dim hds hss hdf hsf).trans hw)))
  · intro i src hi lo n s st f vs hf m ps hv hh hl
    exact gives_of_vecPerform rfl hf (congrArg some (Block.finish_of_ok (Block.splitRow_of_read rfl hv hh hl)))
  · intro i main comp dst n s st f a b hf m ha hb hd
    exact gives_of_vecPerform rfl hf (congrArg some (Block.finish_of_ok (Block.combineRow_of_read rfl ha hb hd)))

/-- Settles O10: the three functions share their row. -/
theorem specialFunctions : Obligations.SpecialFunctions := by
  intro i dst src bf16 n s m bs hf fm vs stored h
  have hrow (g : Val → F32) := Block.finish_of_ok (m := m) (n := i.core)
    (Block.sfuRow_of_read (f := m) (n := i.core) (k := n) (g := g) (dst := dst) (src := src) (bf16 := bf16) rfl rfl h)
  exact ⟨gives_of_sfuPerform rfl hf (hrow f32Exp), gives_of_sfuPerform rfl hf (hrow f32Rsqrt), gives_of_sfuPerform rfl hf (hrow f32Recip)⟩

/- The queues -/

/-- A full vector queue stalls issue (R82). -/
theorem issueVec_of_full (c : Instr) {i : Issue} {m : Block} (h : 16 ≤ (m.core i.core).vecQ.length) : issueVec i c m = m := by
  rw [issueVec, if_pos h]

/-- And so does a full queue of the special-function unit. -/
theorem issueSfu_of_full (c : Instr) {i : Issue} {m : Block} (h : 16 ≤ (m.core i.core).sfuQ.length) : issueSfu i c m = m := by
  rw [issueSfu, if_pos h]

section
variable {m f : Block} {i : Issue} (hf : m.fetch i = some f) (c : Instr)
include hf

/-- Behind vector instructions that wait a further one enters the queue (R81). -/
theorem issueVec_of_waiting (hne : (m.core i.core).vecQ ≠ []) (hroom : (m.core i.core).vecQ.length < 16) : issueVec i c m =
    (((f.advance i).nextStamp (i.core / 8)).2.modCore i.core fun x =>
      { x with vecQ := x.vecQ ++ [(((f.advance i).nextStamp (i.core / 8)).1, c)] }).settleCore i.core := by
  have hq := congrArg CoreState.vecQ (Block.core_fetch hf i.core)
  change (f.core i.core).vecQ = (m.core i.core).vecQ at hq
  have hwait : (f.core i.core).vecQ.isEmpty = false := by simpa [hq] using hne
  simp only [issueVec, hroom.not_ge, Block.issue_of_fetch hf, Block.core_advance, hwait, Bool.false_eq_true, if_false]

/-- The same of the special-function unit. -/
theorem issueSfu_of_waiting (hne : (m.core i.core).sfuQ ≠ []) (hroom : (m.core i.core).sfuQ.length < 16) : issueSfu i c m =
    ((f.advance i).modCore i.core fun x => { x with sfuQ := x.sfuQ ++ [c] }).settleCore i.core := by
  have hq := congrArg CoreState.sfuQ (Block.core_fetch hf i.core)
  change (f.core i.core).sfuQ = (m.core i.core).sfuQ at hq
  have hwait : (f.core i.core).sfuQ.isEmpty = false := by simpa [hq] using hne
  simp only [issueSfu, hroom.not_ge, Block.issue_of_fetch hf, Block.core_advance, hwait, Bool.false_eq_true, if_false]

end

/-- Settles O12: a queue with waiting instructions, a full one, and empty ones. -/
theorem unitQueues : Obligations.UnitQueues :=
  ⟨fun c _ _ _ hf hne hroom => issueVec_of_waiting hf c hne hroom, fun c _ _ _ hf hne hroom => issueSfu_of_waiting hf c hne hroom,
    fun c _ _ => ⟨issueVec_of_full c, issueSfu_of_full c⟩, fun m n hv hs hg => m.settleCore_of_idle n hv hs hg⟩

end Sys2Proof.Machine

/-! SUPPORT. Loads of global and pool places (R135, R139, R140): what an instruction enters, and how one of its granules returns. -/
namespace Sys2Proof.Machine

/- Issue -/

/-- An instruction that the vector unit cannot take waits at the front of its queue (R81). -/
theorem issueVec_of_held {m f : Block} {i : Issue} {st : Nat} {v : Instr} (h : m.fetchVec i = some (st, f))
    (hp : vecPerform i.core st v f = none) :
    issueVec i v m = (f.modCore i.core fun c => { c with vecQ := c.vecQ ++ [(st, v)] }).settleCore i.core := by
  simp only [Block.fetchVec] at h
  split at h
  · rename_i he
    rw [List.isEmpty_iff] at he
    obtain ⟨f1, hf, hs⟩ := Option.map_eq_some_iff.mp h
    have hq := congrArg CoreState.vecQ (Block.core_fetch hf i.core)
    change (f1.core i.core).vecQ = (m.core i.core).vecQ at hq
    have hroom : ¬ 16 ≤ (m.core i.core).vecQ.length := by simp [he]
    rw [issueVec, if_neg hroom, Block.issue_of_fetch hf]
    simp only [Block.core_advance, hq, he, List.isEmpty_nil, if_true, hs, hp]
  · cases h

/-- With 64 loads outstanding a further one waits (Table 4.8). -/
theorem loadRun_of_full (coh : Bool) {n : Nat} (st : Nat) (src : Loc) (bytes : Nat) (dst : Loc) {m : Block}
    (h : 64 ≤ (m.core n).loadCount) : loadRun coh n st src bytes dst m = none := by
  rw [loadRun, if_pos h]

/-- A load whose places pass their checks enters its granules. -/
theorem loadRun_of_ok (coh : Bool) {n bytes : Nat} (st : Nat) {src dst : Loc} {m : Block} {tg : Target} (h : (m.core n).loadCount < 64)
    (hw : m.canWrite n dst bytes = .ok ()) (ht : m.target n src bytes false = .ok tg) :
    loadRun coh n st src bytes dst m = some (m.enterLoad n st tg bytes dst coh (src.space == .pool)) := by
  simp only [loadRun, h.not_ge, if_false, hw, ht]

/- Granules entered -/

/-- One granule of a load of this module's memory as it is entered: `floor` is the oldest fill that it may hit. -/
def Block.hereLoad (m : Block) (n st a floor : Nat) (dst : Loc) (coh pool : Bool) (oc : Nat × Nat) : Load :=
  { node := none, addr := a + oc.1, bytes := oc.2, dst := ⟨dst.space, dst.off + oc.1⟩, stamp := st, floor := floor
    line := !coh && !m.tagged (a + oc.1) oc.2 && !m.ownWindow n a, tag := none, pool := pool }

section
variable (n st a floor : Nat) (dst : Loc) (coh pool : Bool)

/-- It is entered as it is: it sends nothing. -/
theorem Block.addLoad_hereLoad (m : Block) (oc : Nat × Nat) : m.addLoad n (m.hereLoad n st a floor dst coh pool oc) =
    m.modCore n fun c => { c with loads := c.loads ++ [m.hereLoad n st a floor dst coh pool oc] } := rfl

/-- Granules entered one after another stand in the core in their order, and nothing else changes. -/
theorem Block.foldl_addLoad_hereLoad (l : List (Nat × Nat)) (m : Block) :
    (l.foldl (fun m oc => m.addLoad n (m.hereLoad n st a floor dst coh pool oc)) m).core n =
        { m.core n with loads := (m.core n).loads ++ l.map (m.hereLoad n st a floor dst coh pool) } ∧
      OnlyCore n [] m (l.foldl (fun m oc => m.addLoad n (m.hereLoad n st a floor dst coh pool oc)) m) := by
  induction l generalizing m with
  | nil => exact ⟨by simp, OnlyCore.refl n [] m⟩
  | cons oc l ih =>
    rw [List.foldl_cons]
    obtain ⟨hcore, honly⟩ := ih (m.addLoad n (m.hereLoad n st a floor dst coh pool oc))
    refine ⟨?_, (OnlyCore.modCore n [] m _).trans honly⟩
    have hsame : (m.addLoad n (m.hereLoad n st a floor dst coh pool oc)).hereLoad n st a floor dst coh pool =
        m.hereLoad n st a floor dst coh pool := rfl
    rw [hcore, hsame, Block.addLoad_hereLoad, Block.core_modCore_self]
    simp

end

/-- A load of this module's memory enters its granules so. -/
theorem Block.enterLoad_here (m : Block) (n st a bytes : Nat) (dst : Loc) (coh pool : Bool) :
    m.enterLoad n st (.here a) bytes dst coh pool =
      (pieces a bytes).foldl (fun r oc => r.addLoad n (r.hereLoad n st a (m.tile (n / 8)).floor dst coh pool oc)) m := rfl

/- The return of a granule -/

/-- GLOBAL_LOAD_RETURN commits its effect. -/
theorem exec_globalLoadReturn (n k : Nat) (s : State) :
    exec (.globalLoadReturn n k) s = s.commit (globalLoadReturnEffect n k s.m) := rfl

/-- Sound bytes that may be written go to the load's destination, and the load is outstanding no more. -/
theorem globalLoadReturnEffect_of_got {n k : Nat} {x : Load} {m m1 : Block} {bs : List Byte} (hx : (m.core n).loads[k]? = some x)
    (hg : m.fetchLoad n x = .got m1 bs false)
    (hw : (m1.modCore n fun c => { c with loads := removeAt c.loads k }).canWrite n x.dst bs.length = .ok ()) :
    globalLoadReturnEffect n k m =
      (((m1.modCore n fun c => { c with loads := removeAt c.loads k }).writeLoc n x.dst bs).settleCore n).restCore n := by
  simp only [globalLoadReturnEffect, loadReturn, hx, hg, Bool.false_eq_true, if_false, hw]

/-- A line without a parity error serves its load, counted as a hit (R140). -/
theorem Block.fetchLoad_of_line {m : Block} {n : Nat} {x : Load} {l : Line} (hline : x.line = true)
    (hl : m.lineFor (n / 8) x.node (x.addr / 128) (m.coreTenant n) x.floor = some l) (hbad : l.bad = false) :
    m.fetchLoad n x = .got (m.addFld (Reg.tileLcHits (n / 8)) 63 0 1) (slice l.bytes (x.addr % 128) x.bytes) false := by
  simp only [Block.fetchLoad, hline, if_true, hl, hbad, Bool.false_eq_true, if_false]

/-- A load that no line serves reads its home. -/
theorem Block.fetchLoad_of_no_line {m : Block} {n : Nat} {x : Load}
    (hl : x.line = true → m.lineFor (n / 8) x.node (x.addr / 128) (m.coreTenant n) x.floor = none) : m.fetchLoad n x = m.fetchHome n x := by
  have hnone : (if x.line then m.lineFor (n / 8) x.node (x.addr / 128) (m.coreTenant n) x.floor else none) = none := by
    split
    · exact hl ‹_›
    · rfl
  simp only [Block.fetchLoad, hnone]

/-- A home in this module's memory that nothing holds back is read whole, its errors found (R114, R146, R372). -/
theorem Block.fetchHome_of_free {m : Block} {n : Nat} {x : Load} (hn : x.node = none) (hreg : x.addr < regBase ∨ regBase + 0x10000000 ≤ x.addr)
    (hwait : (m.core n).readWaits x = false) (hexcl : m.heldExclusive (128 * (x.addr / 128)) 128 = false) :
    m.fetchHome n x = (m.correct (128 * (x.addr / 128)) 128).fill n x
      ((m.correct (128 * (x.addr / 128)) 128).readMem (128 * (x.addr / 128)) 128)
      ((m.correct (128 * (x.addr / 128)) 128).poisoned (128 * (x.addr / 128)) 128) false := by
  have hout : ¬ (regBase ≤ x.addr ∧ x.addr < regBase + 0x10000000) := by omega
  simp only [Block.fetchHome, hn, if_neg hout, hwait, hexcl, Bool.false_eq_true, if_false]

/-- Settles O16: the issue of a load, the granules that it enters, and the return of one from a line or from its home. -/
theorem loads : Obligations.Loads := by
  refine ⟨?_, ?_, ?_, ?_⟩
  · intro i src dst bytes st s m hf
    refine ⟨fun tg hroom hw ht => ⟨?_, ?_⟩, fun hfull => ?_⟩
    · exact gives_of_vecPerform rfl hf (loadRun_of_ok false st hroom hw ht)
    · exact gives_of_vecPerform rfl hf (loadRun_of_ok true st hroom hw ht)
    · exact gives_of_commit rfl (issueVec_of_held hf (loadRun_of_full false st src bytes dst hfull))
  · intro m n st a bytes dst coh pool r
    have hentered := Block.foldl_addLoad_hereLoad n st a (m.tile (n / 8)).floor dst coh pool (pieces a bytes) m
    rw [← Block.enterLoad_here] at hentered
    obtain ⟨hcore, hregs, hmem, hbufs, hcores, -⟩ := hentered
    exact ⟨hcore, hregs, hmem, hbufs, hcores⟩
  · intro n k x l s hx hline hl hbad bs m hw
    exact gives_of_commit (exec_globalLoadReturn n k s) (globalLoadReturnEffect_of_got hx (Block.fetchLoad_of_line hline hl hbad) hw)
  · intro n k x s hx hn hl hreg hwait hexcl t g e whole bs kept m hp hw
    have hfetch : s.m.fetchLoad n x = .got (kept.addFld (Reg.tileLcMisses t) 63 0 1) bs false := by
      rw [Block.fetchLoad_of_no_line (hn ▸ hl), Block.fetchHome_of_free hn hreg hwait hexcl, hp, Block.fill]
      simp only [hn, Bool.not_false, Bool.and_true]
      rfl
    exact gives_of_commit (exec_globalLoadReturn n k s) (globalLoadReturnEffect_of_got hx hfetch hw)

end Sys2Proof.Machine

/-! SUPPORT. Stores to global and pool places (R135, R141, R148, R354): what an instruction enters, and how one of its granules reaches its home. -/
namespace Sys2Proof.Machine

/- Updates that leave the stores under way as they are -/

/-- The stores that every core has under way, the memory, the buffers and the registers stand. -/
def Block.StoresStand (m m' : Block) : Prop :=
  (∀ k, (m'.core k).stores = (m.core k).stores) ∧ SameMem m m' ∧ SameRegsBut [] m m' ∧ SameBufs m m'

/-- Nothing changes. -/
theorem Block.StoresStand.refl (m : Block) : m.StoresStand m :=
  ⟨fun _ => rfl, ⟨fun _ => rfl, rfl, rfl⟩, fun _ _ => rfl, fun _ => rfl, fun _ => rfl⟩

/-- Two updates in turn. -/
theorem Block.StoresStand.trans {a b c : Block} (h : a.StoresStand b) (h' : b.StoresStand c) : a.StoresStand c := by
  obtain ⟨hs, ⟨hm, hp, ht⟩, hr, hb, hx⟩ := h
  obtain ⟨hs', ⟨hm', hp', ht'⟩, hr', hb', hx'⟩ := h'
  exact ⟨fun k => (hs' k).trans (hs k), ⟨fun x => (hm' x).trans (hm x), hp'.trans hp, ht'.trans ht⟩,
    fun r hr0 => (hr' r hr0).trans (hr r hr0), fun x => (hb' x).trans (hb x), fun x => (hx' x).trans (hx x)⟩

/-- A tile's own state bears on none of it. -/
theorem Block.StoresStand.modTile (m : Block) (t : Nat) (g : TileState → TileState) : m.StoresStand (m.modTile t g) :=
  ⟨fun _ => rfl, ⟨fun _ => rfl, rfl, rfl⟩, fun _ _ => rfl, fun _ => rfl, fun _ => rfl⟩

/-- An update of a core that keeps its stores. -/
theorem Block.StoresStand.modCore (m : Block) (n : Nat) {g : CoreState → CoreState} (hg : ∀ c, (g c).stores = c.stores) :
    m.StoresStand (m.modCore n g) := by
  refine ⟨fun k => ?_, ⟨fun _ => rfl, rfl, rfl⟩, fun _ _ => rfl, fun _ => rfl, fun _ => rfl⟩
  by_cases hk : k = n
  · subst hk
    rw [Block.core_modCore_self, hg]
  · rw [Block.core_modCore_ne _ _ _ _ hk]

/-- A fold of such updates is one. -/
theorem Block.StoresStand.foldl {α : Type} {f : Block → α → Block} (h : ∀ (m : Block) (x : α), m.StoresStand (f m x)) (l : List α) (m : Block) :
    m.StoresStand (l.foldl f m) := by
  induction l generalizing m with
  | nil => exact Block.StoresStand.refl m
  | cons x l ih => exact (h m x).trans (ih _)

/-- A store that passes loads by marks those loads only. -/
theorem Block.storesStand_passLoads (m : Block) (t tenant : Nat) (node : Option Nat) (g : Nat) : m.StoresStand (m.passLoads t tenant node g) := by
  refine Block.StoresStand.foldl (fun m k => ?_) _ m
  split
  · exact Block.StoresStand.modCore m _ fun _ => rfl
  · exact Block.StoresStand.refl m

/-- Lines of the tile take a store's bytes, and nothing else changes. -/
theorem Block.storesStand_updateLines (m : Block) (n : Nat) (x : Store) : m.StoresStand (m.updateLines n x) :=
  Block.StoresStand.modTile m (n / 8) _

/-- Errors found leave the stores of a core. -/
theorem Block.stores_sense (m : Block) (n : Nat) (l : Loc) (len k : Nat) : ((m.sense n l len).core k).stores = (m.core k).stores := by
  simp only [Block.sense]
  split
  · obtain ⟨⟨hcore, -⟩, -⟩ := m.quiet_correct ‹Nat› len
    have hs := congrArg CoreState.stores (hcore k)
    exact hs
  · rfl

/- Granules entered -/

/-- One granule of a store to this module's memory. -/
def hereStore (st a : Nat) (bs : List Byte) (pool : Bool) (oc : Nat × Nat) : Store :=
  { addr := a + oc.1, bytes := slice bs oc.1 oc.2, stamp := st, remote := none, pool := pool }

/-- The stores listed have entered core `n`, and the memory, the buffers and the registers stand. -/
def Block.StoresEntered (n : Nat) (l : List Store) (m m' : Block) : Prop :=
  (m'.core n).stores = (m.core n).stores ++ l ∧ SameMem m m' ∧ SameRegsBut [] m m' ∧ SameBufs m m'

/-- A store of this module's memory enters its core. -/
theorem Block.storesEntered_enterStore (m : Block) (n st a : Nat) (bs : List Byte) (sig : Option (Nat × Nat)) (pool : Bool) :
    Block.StoresEntered n [⟨a, bs, st, none, pool⟩] m (m.enterStore n st a none bs sig pool) := by
  obtain ⟨hs, hmem, hregs, hbufs⟩ := (m.storesStand_passLoads (n / 8) (m.coreTenant n) none (a / 128)).trans
    (Block.storesStand_updateLines _ n ⟨a, bs, st, none, pool⟩)
  refine ⟨?_, hmem, hregs, hbufs⟩
  rw [Block.enterStore, Block.core_modCore_self, ← hs n]

/-- Granules entered one after another stand behind the core's earlier stores in their order. -/
theorem Block.storesEntered_foldl (n st a : Nat) (bs : List Byte) (pool : Bool) (l : List ((Nat × Nat) × Nat)) (m : Block) :
    Block.StoresEntered n (l.map fun oci => hereStore st a bs pool oci.1) m
      (l.foldl (fun m oci => m.enterStore n st (a + oci.1.1) none (slice bs oci.1.1 oci.1.2) none pool) m) := by
  induction l generalizing m with
  | nil => exact ⟨by simp, ⟨fun _ => rfl, rfl, rfl⟩, fun _ _ => rfl, fun _ => rfl, fun _ => rfl⟩
  | cons oci l ih =>
    rw [List.foldl_cons]
    obtain ⟨hs, ⟨hm, hp, ht⟩, hr, hb, hx⟩ :=
      m.storesEntered_enterStore n st (a + oci.1.1) (slice bs oci.1.1 oci.1.2) none pool
    obtain ⟨hs', ⟨hm', hp', ht'⟩, hr', hb', hx'⟩ := ih (m.enterStore n st (a + oci.1.1) none (slice bs oci.1.1 oci.1.2) none pool)
    refine ⟨?_, ⟨fun x => (hm' x).trans (hm x), hp'.trans hp, ht'.trans ht⟩, fun r h => (hr' r h).trans (hr r h),
      fun x => (hb' x).trans (hb x), fun x => (hx' x).trans (hx x)⟩
    rw [hs', hs, List.append_assoc]
    rfl

/-- A store to this module's memory enters its granules. -/
theorem Block.storesEntered_enterStores (m : Block) (n st a : Nat) (bs : List Byte) (pool : Bool) :
    Block.StoresEntered n ((pieces a bs.length).map (hereStore st a bs pool)) m (m.enterStores n st none a bs none pool) := by
  have h := Block.storesEntered_foldl n st a bs pool (pieces a bs.length).zipIdx m
  have hl : ((pieces a bs.length).zipIdx.map fun oci => hereStore st a bs pool oci.1) = (pieces a bs.length).map (hereStore st a bs pool) :=
    (List.map_map (g := hereStore st a bs pool) (f := Prod.fst)).symm.trans (congrArg _ (List.zipIdx_map_fst 0 _))
  rw [hl] at h
  simpa only [Block.enterStores, ite_self] using h

/-- An access of some bytes touches a granule. -/
theorem pieces_length_pos (a : Nat) {k : Nat} (h : 0 < k) : 0 < (pieces a k).length := by
  simp only [pieces, h.ne', if_false, List.length_map, granules, List.length_range]
  have := Nat.div_le_div_right (c := 128) (Nat.le_add_right a (k - 1))
  omega

/- Issue -/

/-- A store that finds room is taken. -/
theorem storeRun_of_room {n bytes : Nat} {dst : Loc} {f : Block} (st : Nat) (src : Loc) (h : f.storeRoom n dst bytes = true) :
    storeRun n st dst bytes src f = some (f.storeInstr n st dst bytes src none) := by
  rw [storeRun, h, Bool.not_true, if_neg Bool.false_ne_true]

section
variable {f : Block} {n bytes : Nat} {dst src : Loc} {bs : List Byte} (st : Nat) (sig : Option (Nat × Nat))
  (hb : (f.sense n src bytes).readLoc n src bytes = .ok bs)
include hb

/-- A store to a register enters whole. -/
theorem Block.storeInstr_of_reg {off : Nat} (ht : (f.sense n src bytes).target n dst bytes true = .ok (.reg off)) :
    f.storeInstr n st dst bytes src sig = (f.sense n src bytes).modCore n fun c =>
      { c with stores := c.stores ++ [{ addr := regBase + off, bytes := bs, stamp := st, remote := none }] } := by
  simp only [Block.storeInstr, hb, ht]

/-- A store to this module's memory outside hitch memory enters its granules. -/
theorem Block.storeInstr_of_here {a : Nat} (ht : (f.sense n src bytes).target n dst bytes true = .ok (.here a))
    (hg : (f.sense n src bytes).tagged a bytes = false) :
    f.storeInstr n st dst bytes src sig = (f.sense n src bytes).enterStores n st none a bs sig (dst.space == .pool) := by
  simp only [Block.storeInstr, hb, ht, hg, Bool.false_eq_true, if_false]

/-- Hitch memory refuses stores (R95). -/
theorem Block.storeInstr_of_tagged {a : Nat} (ht : (f.sense n src bytes).target n dst bytes true = .ok (.here a))
    (hg : (f.sense n src bytes).tagged a bytes = true) :
    f.storeInstr n st dst bytes src sig = (f.sense n src bytes).curbCore n 5 dst.off bytes := by
  simp only [Block.storeInstr, hb, ht, hg, if_true]

/-- A store to another node sends its granules. -/
theorem Block.storeInstr_of_away {node a : Nat} (ht : (f.sense n src bytes).target n dst bytes true = .ok (.away node a)) :
    f.storeInstr n st dst bytes src sig = (f.sense n src bytes).enterStores n st (some node) a bs sig false := by
  simp only [Block.storeInstr, hb, ht]

end

section
variable {f : Block} {n bytes dst : Nat} (st : Nat) (src : Loc) (hitch inc : Nat) (hroom : f.storeRoom n ⟨.glob, dst⟩ bytes = true)
include hroom

/-- A signalled store to another node carries its signal along (R354). -/
theorem signalledStoreRun_of_remote {node : Nat} (hn : f.remoteNode dst = some node) :
    signalledStoreRun n st dst bytes src hitch inc f = some (f.storeInstr n st ⟨.glob, dst⟩ bytes src (some (hitch, inc))) := by
  simp only [signalledStoreRun, hroom, Bool.not_true, Bool.false_eq_true, if_false, hn]

/-- A signal to a hitch that the core does not have stops it (R90). -/
theorem signalledStoreRun_of_no_hitch (hn : f.remoteNode dst = none) (hh : f.coreHitch n hitch = none) :
    signalledStoreRun n st dst bytes src hitch inc f = some (f.faultStop n 4) := by
  simp only [signalledStoreRun, hroom, Bool.not_true, Bool.false_eq_true, if_false, hn, hh, Option.isNone_none, if_true]

/-- To this module's own memory the signal follows the stores that the instruction enters (R93). -/
theorem signalledStoreRun_of_entered {m1 : Block} {l : List Store} (hn : f.remoteNode dst = none) (hh : f.coreHitch n hitch ≠ none)
    (hm : f.storeInstr n st ⟨.glob, dst⟩ bytes src none = m1) (hs : (m1.core n).stores = (f.core n).stores ++ l) (hl : 0 < l.length) :
    signalledStoreRun n st dst bytes src hitch inc f =
      some (m1.modCore n fun c => { c with signals := c.signals ++ [⟨hitch, BitVec.ofNat 64 inc, st + 1, 0⟩] }) := by
  have hlen : (m1.core n).stores.length ≠ (f.core n).stores.length := by
    rw [hs, List.length_append]
    omega
  simp only [signalledStoreRun, hroom, Bool.not_true, Bool.false_eq_true, if_false, hn, Option.isNone_iff_eq_none, hh, hm, hlen]

end

/- The home -/

/-- STORE_REACHES_HOME commits its effect. -/
theorem exec_storeReachesHome (n k : Nat) (s : State) : exec (.storeReachesHome n k) s = s.commit (storeReachesHomeEffect n k s.m) := rfl

section
variable {n k : Nat} {x : Store} {m : Block} (hx : (m.core n).stores[k]? = some x)
include hx

/-- A local store that neither an earlier one nor a host copy keeps back is written (R148, R152). -/
theorem storeReachesHomeEffect_of_free (hr : x.remote = none) (hbehind : ((m.core n).stores.take k).any (m.storeBehind x) = false)
    (hcopies : m.hostCopies (x.addr / 128) = []) (hreg : m.region x.addr = .hbm ∨ m.region x.addr = .tier ∨ m.region x.addr = .pool) :
    storeReachesHomeEffect n k m =
      (((m.homeWrite x.addr x.bytes).modCore n fun c => { c with stores := removeAt c.stores k }).settleCore n).restCore n := by
  obtain h | h | h := hreg <;>
    simp only [storeReachesHomeEffect, hx, hr, hbehind, Bool.false_eq_true, if_false, h, hcopies, List.isEmpty_nil, if_true]

/-- A remote store is done once its burst is acknowledged (R148). -/
theorem storeReachesHomeEffect_of_acked {node seq : Nat} (hr : x.remote = some (node, seq))
    (hack : ((m.txPair n node).unacked.any fun u => u.burst.seq == seq) = false) :
    storeReachesHomeEffect n k m = ((m.modCore n fun c => { c with stores := removeAt c.stores k }).settleCore n).restCore n := by
  simp only [storeReachesHomeEffect, hx, hr, hack, Bool.false_eq_true, if_false]

end

/-- Settles O17: the issue of a store and of a signalled store, the granules entered, and a store at its home. -/
theorem stores : Obligations.Stores := by
  refine ⟨?_, ?_, ?_, ?_, ?_⟩
  · intro i dst src bytes a st bs s f hf m hroom hb
    have hgives {m' : Block} (h : f.storeInstr i.core st dst bytes src none = m') :
        Gives (.globalStore i dst bytes src) s (m'.settleCore i.core) :=
      gives_of_vecPerform rfl hf ((storeRun_of_room st src hroom).trans (congrArg some h))
    refine ⟨fun off ht => ?_, fun ht => ⟨fun hg => ?_, fun hg => ?_⟩, fun node ht => ?_⟩
    · exact hgives (Block.storeInstr_of_reg st none hb ht)
    · exact hgives (Block.storeInstr_of_here st none hb ht hg)
    · exact hgives (Block.storeInstr_of_tagged st none hb ht hg)
    · exact hgives (Block.storeInstr_of_away st none hb ht)
  · intro i dst src bytes a hitch inc st bs s f hf m hroom hb
    have hgives {m' : Block} (h : signalledStoreRun i.core st dst bytes src hitch inc f = some m') :
        Gives (.signalledStore i dst bytes src hitch inc) s (m'.settleCore i.core) :=
      gives_of_vecPerform rfl hf h
    refine ⟨fun node hn ht => ?_, fun hn hh => ?_, fun hn hh ht hg hpos => ?_⟩
    · exact hgives ((signalledStoreRun_of_remote st src hitch inc hroom hn).trans (congrArg some (Block.storeInstr_of_away st _ hb ht)))
    · exact hgives (signalledStoreRun_of_no_hitch st src hitch inc hroom hn hh)
    · obtain ⟨hs, -⟩ := m.storesEntered_enterStores i.core st a bs false
      refine hgives (signalledStoreRun_of_entered st src hitch inc hroom hn hh (Block.storeInstr_of_here st none hb ht hg)
        (hs.trans (congrArg (· ++ _) (f.stores_sense i.core src bytes i.core))) ?_)
      rw [List.length_map]
      exact pieces_length_pos a hpos
  · intro m n st a bs pool
    exact m.storesEntered_enterStores n st a bs pool
  · intro n k x s hx hr hbehind hcopies hreg
    exact gives_of_commit (exec_storeReachesHome n k s) (storeReachesHomeEffect_of_free hx hr hbehind hcopies hreg)
  · intro n k node seq x s hx hr hack
    exact gives_of_commit (exec_storeReachesHome n k s) (storeReachesHomeEffect_of_acked hx hr hack)

end Sys2Proof.Machine

/-! SUPPORT. The start of a task on a core (R85, R98, R117): the registers that it sets, and what the core then holds. -/
namespace Sys2Proof.Machine

/-- A field of a small number. -/
theorem field_ofNat {v : Nat} (hi lo : Nat) (h : v < 2 ^ 64) : field (BitVec.ofNat 64 v) hi lo = v / 2 ^ lo % 2 ^ (hi + 1 - lo) := by
  rw [field, BitVec.toNat_ofNat, Nat.mod_eq_of_lt h, Nat.shiftRight_eq_div_pow]

/-- Sets the registers listed, in turn. -/
def Block.setRegs (m : Block) (l : List (Nat × Nat)) : Block := l.foldl (fun m r => m.setReg r.1 (BitVec.ofNat 64 r.2)) m

/-- A register that is not listed keeps its value. -/
theorem Block.reg_setRegs_notMem {l : List (Nat × Nat)} {r : Nat} (m : Block) (h : r ∉ l.map Prod.fst) : (m.setRegs l).reg r = m.reg r := by
  induction l generalizing m with
  | nil => rfl
  | cons x l ih =>
    rw [List.map_cons, List.mem_cons, not_or] at h
    exact (ih (m.setReg x.1 (BitVec.ofNat 64 x.2)) h.2).trans (Block.reg_setReg_ne m _ _ _ h.1)

/-- A register that is listed once takes its value. -/
theorem Block.reg_setRegs_mem {l : List (Nat × Nat)} {r v : Nat} (m : Block) (hd : (l.map Prod.fst).Nodup) (h : (r, v) ∈ l) :
    (m.setRegs l).reg r = BitVec.ofNat 64 v := by
  induction l generalizing m with
  | nil => cases h
  | cons x l ih =>
    rw [List.map_cons, List.nodup_cons] at hd
    obtain rfl | h := List.mem_cons.mp h
    · exact (Block.reg_setRegs_notMem (m.setReg r (BitVec.ofNat 64 v)) hd.1).trans (Block.reg_setReg_self m r _)
    · exact ih (m.setReg x.1 (BitVec.ofNat 64 x.2)) hd.2 h

/-- The registers that a task's start sets on core `n` (R98, R117, R423). -/
def startRegs (time t : Nat) (p : Program) (x : Context) (n : Nat) : List (Nat × Nat) :=
  [(Reg.coreTaskId n, 2 ^ 63 + t * 256 + x.ctx), (Reg.coreCmBase n, x.cmBase * 4096), (Reg.coreCmBound n, x.cmSize * 4096),
    (Reg.corePoolBase n, x.poolBase * 65536), (Reg.corePoolBound n, x.poolSize * 65536), (Reg.coreBoundErr n, 0),
    (Reg.coreHitchCfg n, x.hitches * 2 ^ 32), (Reg.coreHitchWait n, 0), (Reg.coreSeqPc n, p.entry), (Reg.coreSeqProgress n, 0),
    (Reg.coreSeqDispatch n, time), (Reg.coreSeqStatus n, x.ctx * 2 ^ 48 + t * 2 ^ 40 + 2 ^ 32)]

/-- They are different registers. -/
theorem startRegs_nodup (time t : Nat) (p : Program) (x : Context) (n : Nat) : ((startRegs time t p x n).map Prod.fst).Nodup := by
  simp [startRegs]

/-- A tile's own state holds nothing of a core. -/
theorem Block.core_modTile (m : Block) (t n : Nat) (g : TileState → TileState) : (m.modTile t g).core n = m.core n := (rfl)

/-- The state of a core whose slot of a task has just started. -/
def CoreState.Started (k : CoreState) (q : QueueId) (p : Program) (slot : Nat) : Prop :=
  k.task = some q ∧ k.hold = .none ∧ k.loops = [] ∧ k.calls = [] ∧ k.codeOff = p.codeOff ∧ k.codeSize = p.codeSize ∧
    k.sregs = ([slot, p.slots.length, roundUp p.cmBytes 128].map (BitVec.ofNat 64)) ++ List.replicate 29 (0 : Word)

section
variable (m : Block) (c : Cmd) (p : Program) (x : Context) (args : List Byte) (slot n : Nat)

/-- After the start each of them holds its value. -/
theorem Block.reg_startCore {r v : Nat} (h : (r, v) ∈ startRegs m.time c.q.tenant p x n) :
    (m.startCore c p x args slot n).reg r = BitVec.ofNat 64 v := by
  simp only [Block.startCore, Block.reg_modTile, Block.reg_modCore]
  exact Block.reg_setRegs_mem _ (startRegs_nodup m.time c.q.tenant p x n) h

/-- After the start each of their fields holds its part of the value. -/
theorem Block.fld_startCore {r v : Nat} (hi lo : Nat) (h : (r, v) ∈ startRegs m.time c.q.tenant p x n) (hv : v < 2 ^ 64) :
    (m.startCore c p x args slot n).fld r hi lo = v / 2 ^ lo % 2 ^ (hi + 1 - lo) := by
  rw [Block.fld_eq, m.reg_startCore c p x args slot n h, field_ofNat hi lo hv]

/-- What the core itself holds after the start: the task's program and scalar registers, nothing open and nothing that holds issue. -/
theorem Block.core_startCore : ((m.startCore c p x args slot n).core n).Started c.q p slot := by
  simp only [Block.startCore, Block.core_modTile, Block.core_modCore_self]
  exact ⟨rfl, rfl, rfl, rfl, rfl, rfl, rfl⟩

end

/-- Settles O37: each field is read off the register that the start sets, the rest off the core's own state. -/
theorem taskStart : Obligations.TaskStart := by
  intro m c p x args slot n hn ht hx hcb hcs hpb hps hh he m'
  have hfld {r v : Nat} (hi lo : Nat) (h : (r, v) ∈ startRegs m.time c.q.tenant p x n) (hv : v < 2 ^ 64) :
      m'.fld r hi lo = v / 2 ^ lo % 2 ^ (hi + 1 - lo) := m.fld_startCore c p x args slot n hi lo h hv
  obtain ⟨htask, hhold, hloops, hcalls, hoff, hsize, hsregs⟩ := m.core_startCore c p x args slot n
  have hs (r : Nat) : m'.sreg n r = ([BitVec.ofNat 64 slot, BitVec.ofNat 64 p.slots.length, BitVec.ofNat 64 (roundUp p.cmBytes 128)] ++
      List.replicate 29 (0 : Word)).getD r 0 := congrArg (fun l => l.getD r 0) hsregs
  refine ⟨?_, ?_, ?_, ?_, ?_, ?_, ?_, ?_, ?_, ?_, ?_, htask, hhold, hloops, hcalls, hoff, hsize, hs 0, hs 1, hs 2, fun r hr => ?_⟩
  · exact (hfld 35 32 (v := x.ctx * 2 ^ 48 + c.q.tenant * 2 ^ 40 + 2 ^ 32) (by simp [startRegs]) (by omega)).trans (by omega)
  · exact (hfld 47 0 (v := p.entry) (by simp [startRegs]) (by omega)).trans (by omega)
  · exact (hfld 12 8 (v := 2 ^ 63 + c.q.tenant * 256 + x.ctx) (by simp [startRegs]) (by omega)).trans (by omega)
  · exact (hfld 7 0 (v := 2 ^ 63 + c.q.tenant * 256 + x.ctx) (by simp [startRegs]) (by omega)).trans (by omega)
  · exact (hfld 63 63 (v := 2 ^ 63 + c.q.tenant * 256 + x.ctx) (by simp [startRegs]) (by omega)).trans (by omega)
  · exact (hfld 22 12 (v := x.cmBase * 4096) (by simp [startRegs]) (by omega)).trans (by omega)
  · exact (hfld 22 12 (v := x.cmSize * 4096) (by simp [startRegs]) (by omega)).trans (by omega)
  · exact (hfld 31 16 (v := x.poolBase * 65536) (by simp [startRegs]) (by omega)).trans (by omega)
  · exact (hfld 32 16 (v := x.poolSize * 65536) (by simp [startRegs]) (by omega)).trans (by omega)
  · exact (hfld 42 32 (v := x.hitches * 2 ^ 32) (by simp [startRegs]) (by omega)).trans (by omega)
  · exact m.reg_startCore c p x args slot n (v := 0) (by simp [startRegs])
  · rw [hs, List.getD_append_right _ _ _ _ hr, List.getD_eq_getElem?_getD, List.getElem?_getD_replicate_default_eq]

end Sys2Proof.Machine

/-! SUPPORT. The work commands of a queue (R249 to R253, R295, R297, R298, R514): what each does once firmware runs it. -/
namespace Sys2Proof.Machine

/- Programs -/

/-- Whether an image of this family names a unit that is absent from the module (R9). -/
def Header.namesAbsentUnit (h : Header) (m : Block) : Prop :=
  h.magic = 0x4C445242 ∧ h.major = 1 ∧ h.family = 0x1A0C ∧ 0 < h.units % 4 ∧ m.tuning = false

/-- The test of PROGRAM_LOAD for it. -/
theorem Header.namesAbsentUnit_iff (h : Header) (m : Block) :
    (h.magic == 0x4C445242 && h.major == 1 && h.family == 0x1A0C && decide (h.units % 4 > 0) && !m.tuning) = true ↔ h.namesAbsentUnit m := by
  simp only [Header.namesAbsentUnit, Bool.and_eq_true, beq_iff_eq, decide_eq_true_eq, Bool.not_eq_true', gt_iff_lt, and_assoc]

/-- Whether the program store has room for a placed image of a context (R298, R456). -/
def Block.programRoom (m : Block) (q : QueueId) (placed : List (Nat × Nat × List Byte)) : Prop :=
  (m.cmd.programs.filter fun p => p.tenant == q.tenant && p.ctx == q.ctx && p.gone.isNone).length < 64 ∧
    m.storeBytes + total (placed.map fun p => p.2.2.length) ≤ 2 ^ 32

/-- The program that an accepted image becomes (R298). -/
def Block.programFrom (m : Block) (q : QueueId) (x : Context) (r : LoadReq) : Program :=
  let code := (sectionsOf r.image (headerOf r.image)).find? fun s => s.type == 1
  { handle := m.freeHandle q.tenant q.ctx, tenant := q.tenant, ctx := q.ctx, slots := r.cores, ranks := r.ranks, entry := (headerOf r.image).entry
    codeOff := (code.map (·.mem)).getD 0, codeSize := (code.map (·.size)).getD 0, cmBytes := (headerOf r.image).cm, args := r.args
    placed := placeImage x r }

section
variable {q : QueueId} {c : Cmd} {m : Block} {x : Context} {r : LoadReq}
  (hr : m.runs q 0x100 c = true) (hx : m.context? q.tenant q.ctx = some x) (hreq : loadReq c (m.readPayload c) = r)
include hr hx hreq

/-- PROGRAM_LOAD of an image that names an absent unit. -/
theorem programLoadEffect_of_absent (ha : (headerOf r.image).namesAbsentUnit m) : programLoadEffect q m = m.complete q 1 0 := by
  simp only [programLoadEffect, Block.onCommand_of_runs m q 0x100 c _ hr, hx, hreq]
  exact if_pos ((Header.namesAbsentUnit_iff _ m).mpr ha)

section
variable (ha : ¬ (headerOf r.image).namesAbsentUnit m)
include ha

/-- PROGRAM_LOAD of an image that fails a check. -/
theorem programLoadEffect_of_bad (hb : m.imageBad x r = true) : programLoadEffect q m = m.complete q 5 0 := by
  simp only [programLoadEffect, Block.onCommand_of_runs m q 0x100 c _ hr, hx, hreq]
  exact (if_neg (mt (Header.namesAbsentUnit_iff _ m).mp ha)).trans (if_pos hb)

/-- PROGRAM_LOAD without room. -/
theorem programLoadEffect_of_full (hb : m.imageBad x r = false) (hroom : ¬ m.programRoom q (placeImage x r)) :
    programLoadEffect q m = m.complete q 6 0 := by
  simp only [programLoadEffect, Block.onCommand_of_runs m q 0x100 c _ hr, hx, hreq]
  refine (if_neg (mt (Header.namesAbsentUnit_iff _ m).mp ha)).trans ((if_neg (by simp [hb])).trans (if_pos ?_))
  simp only [Block.programRoom, not_and_or, not_lt, not_le] at hroom
  exact hroom

/-- PROGRAM_LOAD of a sound image lays the program and completes with its handle. -/
theorem programLoadEffect_of_kept {p : Program} (hb : m.imageBad x r = false) (hroom : m.programRoom q (placeImage x r))
    (hp : m.programFrom q x r = p) :
    programLoadEffect q m = (({ m.layProgram x p with cmd.programs := m.cmd.programs ++ [p] }.modContext q.tenant q.ctx
      fun y => { y with cores := r.cores.foldl insertNat y.cores }).complete q 0 p.handle) := by
  simp only [programLoadEffect, Block.onCommand_of_runs m q 0x100 c _ hr, hx, hreq]
  obtain ⟨hn, hbytes⟩ := hroom
  rw [if_neg (mt (Header.namesAbsentUnit_iff _ m).mp ha), if_neg (by simp [hb]), if_neg (not_or.mpr ⟨not_le.mpr hn, not_lt.mpr hbytes⟩)]
  simp only [← hp, Block.programFrom]

end
end

/- TASK_RUN -/

/-- A fold whose every step leaves the block as it is. -/
theorem Block.foldl_of_fixed {α : Type} {f : Block → α → Block} {l : List α} {m : Block} (h : ∀ a ∈ l, f m a = m) : l.foldl f m = m := by
  induction l with
  | nil => rfl
  | cons a l ih =>
    rw [List.foldl_cons, h a List.mem_cons_self]
    exact ih fun b hb => h b (List.mem_cons_of_mem a hb)

/-- A saddle that is not PAGED starts no page-in. -/
theorem Block.loadSaddle_of_not_paged {m : Block} {z : Saddle} (h : z.state ≠ .paged) : m.loadSaddle z = m := by
  simp only [Block.loadSaddle]
  split
  · exact if_pos (Or.inl h)
  · rfl

/-- A bound version is found again by its own identity. -/
theorem Block.saddleAt?_of_bound {m : Block} {c : Cmd} {z : Saddle} (h : z ∈ m.boundSaddles c) :
    m.saddleAt? z.tenant z.handle z.uid = some z := by
  obtain ⟨b, -, hb⟩ := List.mem_filterMap.mp h
  have hz := List.find?_some hb
  simp only [Bool.and_eq_true, beq_iff_eq] at hz
  obtain ⟨⟨ht, hh⟩, hu⟩ := hz
  rw [ht, hh, hu]
  exact hb

section
variable {m : Block} {c : Cmd} (h : ∀ z ∈ m.boundSaddles c, z.state = .resident)
include h

/-- Bound saddles that are all RESIDENT need nothing. -/
theorem Block.loadBound_of_resident : m.loadBound c = m := by
  refine Block.foldl_of_fixed fun z hz => ?_
  simp only [Block.saddleAt?_of_bound hz]
  exact Block.loadSaddle_of_not_paged (by simp [h z hz])

/-- They are ready. -/
theorem Block.saddlesReady_of_resident : m.saddlesReady c = true :=
  List.all_eq_true.mpr fun z hz => beq_iff_eq.mpr (h z hz)

/-- None of them is LOST. -/
theorem Block.no_lost_of_resident : ((m.boundSaddles c).any fun z => z.state == .lost) = false :=
  List.any_eq_false.mpr fun z hz => by simp [h z hz]

end

/-- Binding a bound command without pages again changes nothing. -/
theorem Cmd.rebind {c : Cmd} (hb : c.bound = true) (hk : c.kv = []) : { c with bound := true, kv := [], payload := c.payload } = c := by
  rw [← hb, ← hk]

/-- A running TASK_RUN that waits for nothing goes on. -/
theorem taskRunEffect_of_runs {q : QueueId} {c : Cmd} {m : Block} (hr : m.runs q 0x102 c = true) : taskRunEffect q m = m.runTask c := by
  obtain ⟨hc, hop, hw⟩ := Block.running_of_runs m q 0x102 c hr
  simp only [taskRunEffect, hc, hop, hw, true_or, and_self, if_true]

/-- The run of an unknown program. -/
theorem Block.runTask_of_unknown {m : Block} {c : Cmd} (h : m.programOf c = none) : m.runTask c = m.complete c.q 7 0 := by
  simp only [Block.runTask, h]

/-- The run of a bound command that names no pages and whose saddles are all RESIDENT turns on its cores alone (R297). -/
theorem Block.runTask_of_ready {m : Block} {c : Cmd} {p : Program} {x : Context} (hp : m.programOf c = some p)
    (hx : m.context? c.q.tenant c.q.ctx = some x) (hu : p.slots.all m.coreUsable = true) (hb : c.bound = true) (hk : c.kv = [])
    (hw : c.wait = .none) (hres : ∀ z ∈ m.boundSaddles c, z.state = .resident) :
    m.runTask c = if (m.modCmd c.q fun _ => c).slotsOpen c p then (m.modCmd c.q fun _ => c).fillAndDispatch c p x
      else (m.modCmd c.q fun _ => c).setWait c.q .residency := by
  have hres' : ∀ z ∈ (m.modCmd c.q fun _ => c).boundSaddles c, z.state = .resident := hres
  have habsent (m : Block) : m.kvAbsent [] = [] := rfl
  have hnote (m : Block) : m.noteList c = m := by rw [Block.noteList, hk, List.foldl_nil]
  simp only [Block.runTask, hp, hx, hu, hb, hk, Bool.not_true, Bool.false_eq_true, if_false, if_true, Cmd.rebind hb hk, habsent, hnote,
    Block.no_lost_of_resident hres', Block.loadBound_of_resident hres', Block.saddlesReady_of_resident hres', List.filter_nil, List.isEmpty_nil,
    List.foldl_nil, Bool.and_self]
  simp only [hw, reduceCtorEq, false_or]

section
variable {m : Block} {c : Cmd} (p : Program) (x : Context)

/-- A task without a saddle table is dispatched. -/
theorem Block.fillAndDispatch_of_no_table (h : c.p 1 = 0) : m.fillAndDispatch c p x = m.dispatchTask c p x := if_pos h

/-- A table's writes that wait at their home hold the task (R148). -/
theorem Block.fillAndDispatch_of_waiting (h : c.p 1 ≠ 0) (hw : c.wait = .none)
    (hf : (m.fillTable c (c.p 1).toNat (field (c.p 2) 63 48)).writeWaits (localPart (c.p 1).toNat) (32 * field (c.p 2) 63 48) = true) :
    m.fillAndDispatch c p x = (m.fillTable c (c.p 1).toNat (field (c.p 2) 63 48)).setWait c.q .table := by
  simp only [Block.fillAndDispatch, h, hw, reduceCtorEq, if_false, hf, if_true]

/-- A task whose saddle table stands filled in at its home is dispatched (R247). -/
theorem Block.fillAndDispatch_of_filled (h : c.p 1 ≠ 0) (hw : c.wait = .none)
    (hf : (m.fillTable c (c.p 1).toNat (field (c.p 2) 63 48)).writeWaits (localPart (c.p 1).toNat) (32 * field (c.p 2) 63 48) = false) :
    m.fillAndDispatch c p x = (m.fillTable c (c.p 1).toNat (field (c.p 2) 63 48)).dispatchTask c p x := by
  simp only [Block.fillAndDispatch, h, hw, reduceCtorEq, if_false, hf, Bool.false_eq_true]

end

/- Saddles -/

section
variable {q : QueueId} {c : Cmd} {m : Block} {p : List Byte} (hr : m.runs q 0x110 c = true) (hp : m.readPayload c = p)
include hr hp

/-- SADDLE_LOAD of an unsound image. -/
theorem saddleLoadEffect_of_unsound (hs : (sadHeaderOf p).sound p.length = false) : saddleLoadEffect q m = m.complete q 5 0 := by
  simp only [saddleLoadEffect, Block.onCommand_of_runs m q 0x110 c _ hr, hp, hs, Bool.not_false, if_true]

section
variable (hs : (sadHeaderOf p).sound p.length = true)
include hs

/-- SADDLE_LOAD of a handle that is registered. -/
theorem saddleLoadEffect_of_registered {x : Saddle} (hx : m.saddle? q.tenant (sadHeaderOf p).handle = some x) (hl : x.state ≠ .lost) :
    saddleLoadEffect q m = m.complete q 8 0 := by
  simp only [saddleLoadEffect, Block.onCommand_of_runs m q 0x110 c _ hr, hp, hs, Bool.not_true, Bool.false_eq_true, if_false, hx,
    Option.any_some, bne_iff_ne, ne_eq, hl, not_false_eq_true, if_true]

variable (hl : ∀ x, m.saddle? q.tenant (sadHeaderOf p).handle = some x → x.state = .lost)
include hl

/-- SADDLE_LOAD without room. -/
theorem saddleLoadEffect_of_full (hk : m.keepImage q.tenant (sadHeaderOf p).handle 1 (p.take (sadHeaderOf p).bytes) = none) :
    saddleLoadEffect q m = m.complete q 6 0 := by
  simp only [saddleLoadEffect, Block.onCommand_of_runs m q 0x110 c _ hr, hp, hs, Bool.not_true, Bool.false_eq_true, if_false, hk]
  exact if_neg (by simpa [Option.any_eq_false] using hl)

/-- SADDLE_LOAD that is kept; a LOST version of its handle is old from now on. -/
theorem saddleLoadEffect_of_kept {m1 : Block} (hk : m.keepImage q.tenant (sadHeaderOf p).handle 1 (p.take (sadHeaderOf p).bytes) = some m1) :
    saddleLoadEffect q m = (match m.saddle? q.tenant (sadHeaderOf p).handle with
      | some x => m1.modSaddle (· == x) fun y => { y with old := true }
      | none => m1).complete q 0 1 := by
  simp only [saddleLoadEffect, Block.onCommand_of_runs m q 0x110 c _ hr, hp, hs, Bool.not_true, Bool.false_eq_true, if_false, hk]
  exact if_neg (by simpa [Option.any_eq_false] using hl)

end
end

section
variable {q : QueueId} {c : Cmd} {m : Block} (hr : m.runs q 0x111 c = true)
include hr

/-- SADDLE_UPDATE of an unknown handle. -/
theorem saddleUpdateEffect_of_unknown (hx : m.saddle? q.tenant (field (c.p 0) 31 0) = none) : saddleUpdateEffect q m = m.complete q 7 0 := by
  simp only [saddleUpdateEffect, Block.onCommand_of_runs m q 0x111 c _ hr, hx]

section
variable {x : Saddle} (hx : m.saddle? q.tenant (field (c.p 0) 31 0) = some x)
include hx

/-- SADDLE_UPDATE of a LOST saddle. -/
theorem saddleUpdateEffect_of_lost (hl : x.state = .lost) : saddleUpdateEffect q m = m.complete q 9 0 := by
  simp only [saddleUpdateEffect, Block.onCommand_of_runs m q 0x111 c _ hr, hx, hl, if_true]

variable {p : List Byte} (hl : x.state ≠ .lost) (hp : m.readPayload c = p)
include hl hp

/-- SADDLE_UPDATE with an unsound image, or one of another handle. -/
theorem saddleUpdateEffect_of_unsound (hs : (sadHeaderOf p).sound p.length = false ∨ (sadHeaderOf p).handle ≠ x.handle) :
    saddleUpdateEffect q m = m.complete q 5 0 := by
  simp only [saddleUpdateEffect, Block.onCommand_of_runs m q 0x111 c _ hr, hp, hx, hl, if_false]
  exact if_pos (by simpa using hs)

variable (hs : (sadHeaderOf p).sound p.length = true) (hh : (sadHeaderOf p).handle = x.handle)
include hs hh

/-- SADDLE_UPDATE without room. -/
theorem saddleUpdateEffect_of_full (hk : m.keepImage q.tenant x.handle ((x.version + 1) % 65536) (p.take (sadHeaderOf p).bytes) = none) :
    saddleUpdateEffect q m = m.complete q 6 0 := by
  simp only [saddleUpdateEffect, Block.onCommand_of_runs m q 0x111 c _ hr, hp, hx, hl, if_false, hs, hh, Bool.not_true, Bool.false_eq_true,
    ne_eq, not_true_eq_false, or_self, hk]

/-- SADDLE_UPDATE that is kept as the next version. -/
theorem saddleUpdateEffect_of_kept {m1 : Block}
    (hk : m.keepImage q.tenant x.handle ((x.version + 1) % 65536) (p.take (sadHeaderOf p).bytes) = some m1) :
    saddleUpdateEffect q m = (m1.modSaddle (fun y => y.uid == x.uid) fun y => { y with old := true }).complete q 0 ((x.version + 1) % 65536) := by
  simp only [saddleUpdateEffect, Block.onCommand_of_runs m q 0x111 c _ hr, hp, hx, hl, if_false, hs, hh, Bool.not_true, Bool.false_eq_true,
    ne_eq, not_true_eq_false, or_self, hk]

end
end

section
variable {q : QueueId} {c : Cmd} {m : Block} (hr : m.runs q 0x112 c = true)
include hr

/-- SADDLE_UNLOAD of an unknown handle. -/
theorem saddleUnloadEffect_of_unknown (hx : m.saddle? q.tenant (field (c.p 0) 31 0) = none) : saddleUnloadEffect q m = m.complete q 7 0 := by
  simp only [saddleUnloadEffect, Block.onCommand_of_runs m q 0x112 c _ hr, hx]

section
variable {x : Saddle} (hx : m.saddle? q.tenant (field (c.p 0) 31 0) = some x)
include hx

/-- SADDLE_UNLOAD of a LOST saddle. -/
theorem saddleUnloadEffect_of_lost (hl : x.state = .lost) : saddleUnloadEffect q m = m.complete q 9 0 := by
  simp only [saddleUnloadEffect, Block.onCommand_of_runs m q 0x112 c _ hr, hx, hl, if_true]

/-- The versions of a saddle's handle that an unload takes (R253). -/
def Saddle.unloadsWith (x y : Saddle) : Bool := y.tenant == x.tenant && y.handle == x.handle && !y.retiring

/-- The block once the versions that no command binds have gone (R253). -/
def Block.freeUnbound (m : Block) (x : Saddle) : Block :=
  ((m.page.saddles.filter x.unloadsWith).filter fun y => !m.pinned y).foldl Block.freeSaddle m

variable (hl : x.state ≠ .lost)
include hl

/-- SADDLE_UNLOAD where no command binds a version. -/
theorem saddleUnloadEffect_of_unbound (hb : (m.page.saddles.filter x.unloadsWith).filter m.pinned = []) :
    saddleUnloadEffect q m = (m.freeUnbound x).complete q 0 0 := by
  simp only [saddleUnloadEffect, Block.onCommand_of_runs m q 0x112 c _ hr, hx, hl, if_false]
  exact if_pos (List.isEmpty_iff.mpr hb)

/-- SADDLE_UNLOAD where commands bind a version waits for them. -/
theorem saddleUnloadEffect_of_bound (hb : (m.page.saddles.filter x.unloadsWith).filter m.pinned ≠ []) :
    saddleUnloadEffect q m = ((m.freeUnbound x).modSaddle x.unloadsWith fun y => { y with retiring := true, unloadBy := some q }).modCmd q
      fun k => { k with wait := .unit, deferred := true } := by
  simp only [saddleUnloadEffect, Block.onCommand_of_runs m q 0x112 c _ hr, hx, hl, if_false]
  exact if_neg (mt List.isEmpty_iff.mp hb)

end
end

/- PROGRAM_UNLOAD, HITCH_SIGNAL and COPY -/

/-- Whether a loaded program of a queue's context has the handle `h`. -/
def Program.loadedAs (q : QueueId) (h : Nat) (x : Program) : Bool := x.tenant == q.tenant && x.ctx == q.ctx && x.handle == h && x.gone.isNone

/-- The accepted runs of a handle of a queue's context. -/
def Block.runsOf (m : Block) (q : QueueId) (h : Nat) : List (QueueId × Nat) :=
  (m.cmd.cmds.filter fun k => k.opcode == 0x102 && k.q.tenant == q.tenant && k.q.ctx == q.ctx && field (k.p 0) 63 32 == h).map
    fun k => (k.q, k.sqHead)

section
variable {q : QueueId} {c : Cmd} {m : Block} (hr : m.runs q 0x101 c = true)
include hr

/-- PROGRAM_UNLOAD of an unknown handle. -/
theorem programUnloadEffect_of_unknown (h : m.cmd.programs.any (Program.loadedAs q (field (c.p 0) 31 0)) = false) :
    programUnloadEffect q m = m.complete q 7 0 := by
  rw [programUnloadEffect, Block.onCommand_of_runs m q 0x101 c _ hr]
  exact if_pos (congrArg (!·) h)

/-- PROGRAM_UNLOAD of a loaded program: the handle is unknown from now on but for the runs accepted before. -/
theorem programUnloadEffect_of_known (h : m.cmd.programs.any (Program.loadedAs q (field (c.p 0) 31 0)) = true) :
    programUnloadEffect q m = { m with
      cmd.programs := mapIf (Program.loadedAs q (field (c.p 0) 31 0))
        (fun x => { x with gone := some (m.runsOf q (field (c.p 0) 31 0)) }) m.cmd.programs }.complete q 0 0 := by
  rw [programUnloadEffect, Block.onCommand_of_runs m q 0x101 c _ hr]
  exact if_neg (Bool.eq_false_iff.mp (congrArg (!·) h))

end

section
variable {q : QueueId} {c : Cmd} {m : Block} (hr : m.runs q 0x103 c = true)
include hr

/-- HITCH_SIGNAL to a hitch that the context does not have. -/
theorem hitchSignalEffect_of_no_hitch (h : m.hitchAddr q.tenant q.ctx (field (c.p 0) 9 0) = none) :
    hitchSignalEffect q m = m.complete q 7 0 := by
  simp only [hitchSignalEffect, Block.onCommand_of_runs m q 0x103 c _ hr, h]

/-- HITCH_SIGNAL adds to a counter of its context. -/
theorem hitchSignalEffect_of_hitch {a : Nat} (h : m.hitchAddr q.tenant q.ctx (field (c.p 0) 9 0) = some a) :
    hitchSignalEffect q m = (m.hitchAdd a (c.p 1).toNat).complete q 0 0 := by
  simp only [hitchSignalEffect, Block.onCommand_of_runs m q 0x103 c _ hr, h]

end

section
variable {q : QueueId} {c : Cmd} {m : Block} {tile : Nat} (hr : m.runs q 0x104 c = true)
include hr

/-- COPY takes the free command channel of a tile (R514). -/
theorem copyEffect_of_free (ht : tile < m.tileCount) (hc : (m.tile tile).cmdChan = none) :
    copyEffect q tile m =
      ((m.modTile tile fun x => { x with cmdChan := some q, cmdDone := 0, cmdTag := none }).setWait q .unit).assignEngines tile := by
  rw [copyEffect, Block.onCommand_of_runs m q 0x104 c _ hr]
  exact if_neg (by simp [ht, hc])

/-- A tile that is not there or whose channel serves a command takes none. -/
theorem copyEffect_of_busy (h : m.tileCount ≤ tile ∨ (m.tile tile).cmdChan.isSome) : copyEffect q tile m = m := by
  rw [copyEffect, Block.onCommand_of_runs m q 0x104 c _ hr]
  exact if_pos h

end

/- The commands' rows -/

/-- PROGRAM_LOAD commits its effect. -/
theorem exec_programLoad (q : QueueId) (s : State) : exec (.programLoad q) s = s.commit (programLoadEffect q s.m) := rfl

/-- PROGRAM_UNLOAD commits its effect. -/
theorem exec_programUnload (q : QueueId) (s : State) : exec (.programUnload q) s = s.commit (programUnloadEffect q s.m) := rfl

/-- HITCH_SIGNAL commits its effect. -/
theorem exec_hitchSignal (q : QueueId) (s : State) : exec (.hitchSignal q) s = s.commit (hitchSignalEffect q s.m) := rfl

/-- TASK_RUN commits its effect. -/
theorem exec_taskRun (q : QueueId) (s : State) : exec (.taskRun q) s = s.commit (taskRunEffect q s.m) := rfl

/-- COPY commits its effect. -/
theorem exec_copy (q : QueueId) (tile : Nat) (s : State) : exec (.copy q tile) s = s.commit (copyEffect q tile s.m) := rfl

/-- SADDLE_LOAD commits its effect. -/
theorem exec_saddleLoad (q : QueueId) (s : State) : exec (.saddleLoad q) s = s.commit (saddleLoadEffect q s.m) := rfl

/-- SADDLE_UPDATE commits its effect. -/
theorem exec_saddleUpdate (q : QueueId) (s : State) : exec (.saddleUpdate q) s = s.commit (saddleUpdateEffect q s.m) := rfl

/-- SADDLE_UNLOAD commits its effect. -/
theorem exec_saddleUnload (q : QueueId) (s : State) : exec (.saddleUnload q) s = s.commit (saddleUnloadEffect q s.m) := rfl

/-- A TASK_RUN that waits for nothing answers what its run gives. -/
theorem gives_of_runTask {q : QueueId} {c : Cmd} {s : State} {m' : Block} (hr : s.m.runs q 0x102 c = true) (h : s.m.runTask c = m') :
    Gives (.taskRun q) s m' :=
  gives_of_commit (exec_taskRun q s) ((taskRunEffect_of_runs hr).trans h)

/-- Settles O40, command by command and case by case. -/
theorem workCommands : Obligations.WorkCommands := by
  refine ⟨?_, ?_, ?_, ?_, ?_, ?_, ?_, ?_, ?_⟩
  · intro q c x s hr hx r h absent placed room
    have hreq : loadReq c (s.m.readPayload c) = r := rfl
    have hgives {m' : Block} : programLoadEffect q s.m = m' → Gives (.programLoad q) s m' := gives_of_commit (exec_programLoad q s)
    refine ⟨fun ha => ?_, fun ha hb => ?_, fun ha hb hroom => ?_, fun ha hb hroom => ?_⟩
    · exact hgives (programLoadEffect_of_absent hr hx hreq ha)
    · exact hgives (programLoadEffect_of_bad hr hx hreq ha hb)
    · exact hgives (programLoadEffect_of_full hr hx hreq ha hb hroom)
    · intro code p
      exact hgives (programLoadEffect_of_kept hr hx hreq ha hb hroom (p := p) rfl)
  · intro q c s hr h p users
    have hgives {m' : Block} : programUnloadEffect q s.m = m' → Gives (.programUnload q) s m' := gives_of_commit (exec_programUnload q s)
    exact ⟨fun h => hgives (programUnloadEffect_of_unknown hr h), fun h => hgives (programUnloadEffect_of_known hr h)⟩
  · intro q c s hr
    have hgives {m' : Block} : hitchSignalEffect q s.m = m' → Gives (.hitchSignal q) s m' := gives_of_commit (exec_hitchSignal q s)
    exact ⟨fun h => hgives (hitchSignalEffect_of_no_hitch hr h), fun a h => hgives (hitchSignalEffect_of_hitch hr h)⟩
  · intro q c p x s hr hq hp hx hu hb hk hres m
    subst hq
    obtain ⟨-, -, hw⟩ := Block.running_of_runs s.m c.q 0x102 c hr
    have hrun := Block.runTask_of_ready hp hx hu hb hk hw hres
    have hgives {m' : Block} (hopen : m.slotsOpen c p = true) (h : m.fillAndDispatch c p x = m') : Gives (.taskRun c.q) s m' :=
      gives_of_runTask hr (hrun.trans ((if_pos hopen).trans h))
    refine ⟨fun hopen => ?_, fun hopen h1 => ?_, fun hopen h1 => ⟨fun hf => ?_, fun hf => ?_⟩⟩
    · exact gives_of_runTask hr (hrun.trans (if_neg (Bool.not_eq_true _ ▸ hopen)))
    · exact hgives hopen (Block.fillAndDispatch_of_no_table p x h1)
    · exact hgives hopen (Block.fillAndDispatch_of_waiting p x h1 hw hf)
    · exact hgives hopen (Block.fillAndDispatch_of_filled p x h1 hw hf)
  · intro q c s hr hq hp
    exact gives_of_runTask hr (hq ▸ Block.runTask_of_unknown hp)
  · intro q c tile s hr
    exact ⟨fun ht hc => gives_of_commit (exec_copy q tile s) (copyEffect_of_free hr ht hc),
      fun h => gives_of_commit (exec_copy q tile s) (copyEffect_of_busy hr h)⟩
  · intro q c s hr p h
    have hgives {m' : Block} : saddleLoadEffect q s.m = m' → Gives (.saddleLoad q) s m' := gives_of_commit (exec_saddleLoad q s)
    refine ⟨fun hs => ?_, fun x hs hx hl => ?_, fun hs hl => ⟨fun hk => ?_, fun m1 hk hx => ?_, fun m1 x hk hx => ?_⟩⟩
    · exact hgives (saddleLoadEffect_of_unsound hr rfl hs)
    · exact hgives (saddleLoadEffect_of_registered hr rfl hs hx hl)
    · exact hgives (saddleLoadEffect_of_full hr rfl hs hl hk)
    · exact hgives ((saddleLoadEffect_of_kept hr rfl hs hl hk).trans (by rw [hx]))
    · exact hgives ((saddleLoadEffect_of_kept hr rfl hs hl hk).trans (by rw [hx]))
  · intro q c s hr p h
    have hgives {m' : Block} : saddleUpdateEffect q s.m = m' → Gives (.saddleUpdate q) s m' := gives_of_commit (exec_saddleUpdate q s)
    refine ⟨fun hx => hgives (saddleUpdateEffect_of_unknown hr hx), fun x hx => ⟨fun hl => ?_, fun hl hs => ?_, fun hl hs hh hk => ?_,
      fun m1 hl hs hh hk => ?_⟩⟩
    · exact hgives (saddleUpdateEffect_of_lost hr hx hl)
    · exact hgives (saddleUpdateEffect_of_unsound hr hx hl rfl hs)
    · exact hgives (saddleUpdateEffect_of_full hr hx hl rfl hs hh hk)
    · exact hgives (saddleUpdateEffect_of_kept hr hx hl rfl hs hh hk)
  · intro q c s hr
    have hgives {m' : Block} : saddleUnloadEffect q s.m = m' → Gives (.saddleUnload q) s m' := gives_of_commit (exec_saddleUnload q s)
    exact ⟨fun hx => hgives (saddleUnloadEffect_of_unknown hr hx), fun x hx => ⟨fun hl => hgives (saddleUnloadEffect_of_lost hr hx hl),
      fun hl hb => hgives (saddleUnloadEffect_of_unbound hr hx hl hb), fun hl hb => hgives (saddleUnloadEffect_of_bound hr hx hl hb)⟩⟩

end Sys2Proof.Machine

/-! SUPPORT. Curbs, fault records, watchdogs, recovery and remounts (R442 to R471): what each does to the block. -/
namespace Sys2Proof.Machine

/- A curbed core (R443) -/

section
variable (m : Block) (n kind a len : Nat)

/-- What a curbed core still holds: its stores, and of its signals those that wait for them alone. -/
def CoreState.frozen (c : CoreState) : CoreState :=
  { c with matQ := [], vecQ := [], sfuQ := [], copyQ := [], loads := [], signals := c.signals.filter c.freeSignal, att := none, hold := .none }

/-- The status of a frozen core holds CURBED as its state and as its cause. -/
theorem Block.status_freeze : (m.freeze 0 n).reg (Reg.coreSeqStatus n) = putField (putField (m.reg (Reg.coreSeqStatus n)) 35 32 5) 63 56 7 := by
  rw [Block.freeze, Block.reg_modCore, Block.reg_setFld_ne _ _ _ _ _ _ (Reg.coreSeqStatus_ne_hitchWait n), Block.reg_setFld_self,
    Block.setCoreSt, Block.reg_setFld_self]

/-- A frozen core has lost what its queues held. -/
theorem Block.core_freeze : (m.freeze 0 n).core n = (m.core n).frozen := by
  rw [Block.freeze, Block.core_modCore_self]
  rfl

/-- Freezing a core changes nothing else. -/
theorem OnlyCore.freeze : OnlyCore n [Reg.coreSeqStatus n, Reg.coreHitchWait n] m (m.freeze 0 n) :=
  (((OnlyCore.setFld n _ m _ 35 32 5 (by simp)).trans (OnlyCore.setFld n _ _ _ 63 56 7 (by simp))).trans
    (OnlyCore.setFld n _ _ _ 63 63 0 (by simp))).trans (OnlyCore.modCore n _ _ _)

/-- The note that a curb leaves for firmware (R444). -/
def Block.curbNote (m : Block) (n kind a len : Nat) : Curb := ⟨kind, 0, n, m.coreTenant n, m.coreCtx n, a, len, none, (m.core n).task, 0⟩

/-- A curb freezes the core and is noted. -/
theorem Block.curbCore_eq :
    m.curbCore n kind a len = { m.freeze 0 n with flt.curbs := m.flt.curbs ++ [m.curbNote n kind a len] } := rfl

/-- A curbed core's registers, memory and state are those of the frozen core. -/
theorem Block.curbCore_facts : (∀ r, (m.curbCore n kind a len).reg r = (m.freeze 0 n).reg r) ∧
    (m.curbCore n kind a len).core n = (m.core n).frozen ∧ (m.curbCore n kind a len).flt.curbs = m.flt.curbs ++ [m.curbNote n kind a len] ∧
    SameRegsBut [Reg.coreSeqStatus n, Reg.coreHitchWait n] m (m.curbCore n kind a len) ∧ SameMem m (m.curbCore n kind a len) ∧
    SameCoresBut n m (m.curbCore n kind a len) := by
  obtain ⟨hregs, hmem, -, hcores, -⟩ := OnlyCore.freeze m n
  rw [Block.curbCore_eq]
  exact ⟨fun _ => rfl, m.core_freeze n, rfl, hregs, hmem, hcores⟩

/-- The program counter is another register than those that a curb writes. -/
theorem Reg.coreSeqPc_notMem_curbRegs : Reg.coreSeqPc n ∉ [Reg.coreSeqStatus n, Reg.coreHitchWait n] := by simp

end

/- The fault log (R446) -/

/-- Taking out an element that a filter drops does not change what the filter keeps. -/
theorem filter_erase_of_not {α : Type} [BEq α] [LawfulBEq α] {p : α → Bool} {a : α} (h : p a = false) (l : List α) :
    (l.erase a).filter p = l.filter p := by
  induction l with
  | nil => rfl
  | cons b l ih =>
    by_cases hb : b = a
    · subst hb
      rw [List.erase_cons_head, List.filter_cons_of_neg (by simp [h])]
    · rw [List.erase_cons_tail (by simpa using hb), List.filter_cons, List.filter_cons, ih]

/-- The log without the oldest record of a tenant whose 1,024 places are taken. -/
def Block.faultsKept (m : Block) (t : Nat) : List FaultRec :=
  if (m.flt.faults.filter (·.tenant == t)).length < 1024 then m.flt.faults
  else match (m.flt.faults.filter (·.tenant == t)).head? with
    | some o => m.flt.faults.erase o
    | none => m.flt.faults

section
variable (m : Block) (t : Nat) (r : FaultRec)

/-- A fault record stands at the end of the log. -/
theorem Block.faults_addFault : (m.addFault t r).flt.faults = m.faultsKept t ++ [{ r with seq := m.faultSeq t, tenant := t, time := m.time }] := rfl

/-- Another tenant's records stand. -/
theorem Block.filter_faultsKept_ne {u : Nat} (h : u ≠ t) : (m.faultsKept t).filter (·.tenant == u) = m.flt.faults.filter (·.tenant == u) := by
  rw [Block.faultsKept]
  split
  · rfl
  · split
    · next o ho =>
      have hot := (List.mem_filter.mp (List.mem_of_head? ho)).2
      rw [beq_iff_eq] at hot
      exact filter_erase_of_not (by simpa [hot] using h.symm) _
    · rfl

/-- There is room for one more of the tenant's. -/
theorem Block.length_faultsKept (h : (m.flt.faults.filter (·.tenant == t)).length ≤ 1024) :
    ((m.faultsKept t).filter (·.tenant == t)).length < 1024 := by
  rw [Block.faultsKept]
  split
  · assumption
  · split
    · next o ho =>
      obtain ⟨hmem, hot⟩ := List.mem_filter.mp (List.mem_of_head? ho)
      have hlen := List.length_pos_of_mem (List.mem_of_head? ho)
      rw [← List.countP_eq_length_filter] at hlen h ⊢
      rw [List.countP_erase, if_pos ⟨hmem, hot⟩]
      omega
    · next hnone =>
      rw [List.head?_eq_none_iff.mp hnone]
      decide

/-- The tenant's next number follows. -/
theorem Block.faultSeq_addFault : (m.addFault t r).faultSeq t = (m.faultSeq t + 1) % 2 ^ 32 := Tbl.getD_put_self _ _ _ _

/-- Another tenant's next number stands. -/
theorem Block.faultSeq_addFault_ne {u : Nat} (h : u ≠ t) : (m.addFault t r).faultSeq u = m.faultSeq u := Tbl.getD_put_ne _ _ _ _ _ h

end

/- Stops -/

/-- A fault stop of a core that runs no task is a stop. -/
theorem Block.faultStop_of_no_task {m : Block} {n : Nat} (cause : Nat) (h : (m.core n).task = none) : m.faultStop n cause = m.stopCore n cause := by
  simp only [Block.faultStop, h]

/-- A fault stop ends the core's task FAULTED with the number of its record. -/
theorem Block.faultStop_of_task {m : Block} {n : Nat} {q : QueueId} (cause : Nat) (h : (m.core n).task = some q) :
    m.faultStop n cause = ((m.stopCore n cause).faultFor 9 0 n q.tenant q.ctx 0 0 cause 0 0 (some q)).endTask q 0xB
      ((m.stopCore n cause).faultSeq q.tenant) := by
  simp only [Block.faultStop, h]

/- CURB_HANDLING (R444, R445) -/

/-- The block once firmware has written the record of the curb `k`, the others `ks` still to handle. -/
def Block.noteCurb (m : Block) (k : Curb) (ks : List Curb) (flags : Nat) : Block :=
  ({ m with flt.curbs := ks }.faultFor k.kind k.mtype k.mindex k.tenant k.ctx k.addr k.len k.cause ((if k.remote.isSome then 1 else 0) + flags)
    (k.remote.getD 0) k.q).trace 7 5

/-- Without a curb there is nothing to handle. -/
theorem curbHandlingEffect_of_nil {m : Block} (h : m.flt.curbs = []) : curbHandlingEffect m = m := by
  simp only [curbHandlingEffect, h]

section
variable {m : Block} {k : Curb} {ks : List Curb} {x : Context} (hk : m.flt.curbs = k :: ks) (hx : m.context? k.tenant k.ctx = some x)
include hk hx

/-- In a context in teardown the record alone is written. -/
theorem curbHandlingEffect_of_teardown (ht : x.tear.isSome) : curbHandlingEffect m = m.noteCurb k ks 0 := by
  simp only [curbHandlingEffect, hk, hx, Option.any_some, ht, if_true]
  split <;> rfl

section
variable (ht : x.tear = none)
include ht

/-- A curb that serves no command holds its context. -/
theorem curbHandlingEffect_of_no_command (hq : k.q = none) :
    curbHandlingEffect m = (m.noteCurb k ks 2).modContext k.tenant k.ctx fun x => { x with held := true } := by
  simp only [curbHandlingEffect, hk, hx, Option.any_some, ht, Option.isSome_none, Bool.false_eq_true, if_false, hq, Option.bind_none, Block.noteCurb]

/-- A curb's command ends FAULTED, and its context is held. -/
theorem curbHandlingEffect_of_command {q : QueueId} {c : Cmd} (hq : k.q = some q) (hr : (m.noteCurb k ks 2).running q = some c)
    (hc : c.faultSeq = none) : curbHandlingEffect m =
      ((((m.noteCurb k ks 2).stopServing q).endTask q 0xB (m.faultSeq k.tenant)).modContext k.tenant k.ctx fun x => { x with held := true }) := by
  rw [Block.noteCurb, hq] at hr
  simp only [curbHandlingEffect, hk, hx, Option.any_some, ht, Option.isSome_none, Bool.false_eq_true, if_false, hq, Option.bind_some, hr,
    Option.map_some, hc, Block.noteCurb]

end
end

/- Watchdogs and escalation (R448 to R450) -/

/-- A master that is not hung keeps its work. -/
theorem watchdogHangEffect_of_alive {cls idx : Nat} {m : Block} (hc : cls ≠ 8) (hh : m.hung cls idx = false) : watchdogHangEffect cls idx m = m := by
  simp only [watchdogHangEffect, hc, if_false, hh, Bool.not_false, if_true]

/-- A hung core is reset at core level, a hang record before it. -/
theorem watchdogHangEffect_of_core {n : Nat} {m : Block} (hh : m.hung 0 n = true) : watchdogHangEffect 0 n m =
    ((((m.capture 1 n 0 [(0, n)]).failHung 0 n (m.hungCmd 0 n)).resetCore n).replayAll
      ((((m.capture 1 n 0 [(0, n)]).failHung 0 n (m.hungCmd 0 n)).onCores [n]).filter fun c => some c.q != m.hungCmd 0 n)).noteReset 1 n none := by
  simp only [watchdogHangEffect, OfNat.zero_ne_ofNat, if_false, hh, Bool.not_true, Bool.false_eq_true, if_true, Nat.zero_mul, Nat.zero_add]

/-- A hung ring engine is reset at engine level. -/
theorem watchdogHangEffect_of_ring {cls idx : Nat} {m : Block} (hc : cls = 2 ∨ cls = 3 ∨ cls = 4) (hh : m.hung cls idx = true) :
    watchdogHangEffect cls idx m =
      ((m.failHung cls idx (m.hungCmd cls idx)).resetEngine (hungEngine cls idx)).noteReset 0 (hungEngine cls idx).index none := by
  have h0 : cls ≠ 0 := by omega
  have h1 : cls ≠ 1 := by omega
  have h8 : cls ≠ 8 := by omega
  have h567 : ¬ (cls = 5 ∨ cls = 6 ∨ cls = 7) := by omega
  simp only [watchdogHangEffect, h0, h1, h8, h567, if_false, hh, Bool.not_true, Bool.false_eq_true]

/-- A failed control core starts device recovery (R386). -/
theorem Block.failControl_of_runs {k : Nat} {m : Block} (hf : m.fwRuns = true) (hk : k ≤ 6) :
    m.failControl k = { m with fw.ctrlFailed := insertNat m.fw.ctrlFailed k }.startRecovery :=
  if_neg (by simp [hf, hk])

section
variable {level idx : Nat} {r : NarrowReset} {m : Block} (hr : (m.pwr.narrow.find? fun r => r.level == level && r.idx == idx) = some r)
include hr

/-- A reset inside its limit goes on. -/
theorem escalationTimeoutEffect_of_early (h : m.time < r.since + m.escLimit level) : escalationTimeoutEffect level idx m = m := by
  simp only [escalationTimeoutEffect, hr]
  exact if_neg (by omega)

/-- A reset that its limit finds under way escalates. -/
theorem escalationTimeoutEffect_of_due (h : r.since + m.escLimit level ≤ m.time) : escalationTimeoutEffect level idx m = m.escalate r := by
  simp only [escalationTimeoutEffect, hr]
  exact if_pos h

end

/- Device recovery (R453) -/

/-- Triggers 1 to 5 start device recovery. -/
theorem deviceRecoveryEffect_of_trigger {k : Nat} {m : Block} (hf : m.fwRuns = true) (h1 : 1 ≤ k) (h5 : k ≤ 5) :
    deviceRecoveryEffect k m = { m with pwr.recoverAgain := false }.startRecovery :=
  if_neg (by simp only [hf, Bool.not_true, Bool.false_eq_true, false_or, not_or, not_and]; omega)

/-- No other number is a trigger. -/
theorem deviceRecoveryEffect_of_no_trigger {k : Nat} (m : Block) (h : k < 1 ∨ 6 < k) : deviceRecoveryEffect k m = m :=
  if_pos (by omega)

section
variable {m : Block} {start p : Nat} (hr : m.pwr.recovery = some (start, p))
include hr

/-- Without firmware recovery does not end. -/
theorem recoveryEndEffect_of_no_firmware (hf : m.fw.fwUp = false) : recoveryEndEffect m = m := by
  simp only [recoveryEndEffect, hr, hf, Bool.not_false, true_or, if_true]

section
variable (hf : m.fw.fwUp = true) (hrst : m.pwr.rst = none) (hp : m.phase = 4) (hh : m.pwr.healthState ≠ 2)
include hf hrst hp hh

/-- Where stack 1 has failed, recovery fails. -/
theorem recoveryEndEffect_of_failed (h1 : m.flt.failedStacks.contains 1 = true) :
    recoveryEndEffect m = { m with pwr.healthState := 2 } := by
  simp only [recoveryEndEffect, hr, hf, hrst, hp, hh, h1, Bool.not_true, Bool.false_eq_true, Option.isSome_none, ne_eq, not_true_eq_false,
    or_self, if_false, if_true]

/-- The block once firmware has run the last phase of a recovery that began at `start` (R453, R460, R463). -/
def Block.endRecovery (m : Block) (start : Nat) : Block :=
  let m2 := { m.layMemories.sendRejoin with fab.sendRecovering := false, pwr.recovery := none, pwr.healthState := 0 }
  let m3 := (m2.setReg Reg.aonRecovEnd (BitVec.ofNat 64 m2.time)).setFld Reg.aonRecov 31 0 (min ((m2.time - start) * 40 / 1000000) (2 ^ 32 - 1))
  (if m3.pwr.causes.contains 5 then m3.endCause 5 else m3).windowClosed.replayBook.trace 7 5

variable (h1 : m.flt.failedStacks.contains 1 = false)
include h1

/-- Otherwise its last phase runs, and a recovery that had to wait starts. -/
theorem recoveryEndEffect_of_sound : recoveryEndEffect m =
    if (m.endRecovery start).pwr.recoverAgain then { m.endRecovery start with pwr.recoverAgain := false }.startRecovery
    else m.endRecovery start := by
  simp only [recoveryEndEffect, hr, hf, hrst, hp, hh, h1, Bool.not_true, Bool.false_eq_true, Option.isSome_none, ne_eq, not_true_eq_false,
    or_self, if_false, Block.endRecovery]

end
end

/- Remounts (R468 to R471) -/

section
variable {n : Nat} {m : Block}

/-- The block once the commands on core `n` have stopped. -/
def Block.clearCore (m : Block) (n : Nat) : Block := (m.onCores [n]).foldl (fun m c => (m.stopServing c.q).releaseCores c.q) m

section
variable (hn : n < m.coreCount) (hf : m.fwRuns = true) (hp : m.phys n ≠ 0xF)
include hn hf hp

/-- A damaged core is remounted, and its commands run again. -/
theorem coreRemountEffect_of_damaged (hd : m.coreDamaged n = true) : coreRemountEffect n 2 m =
    (m.onCores [n]).foldl (fun m c => m.replay c) ((m.clearCore n).remountCore n 2 (max 1 (m.core n).cmUncorr.length)) := by
  rw [coreRemountEffect]
  exact if_neg (by simp [hn, hf, hp, hd])

/-- A core that has hung twice is remounted, and its commands run again. -/
theorem coreRemountEffect_of_hangs (hh : 2 ≤ (m.core n).hangs) : coreRemountEffect n 3 m =
    (m.onCores [n]).foldl (fun m c => m.replay c) ((m.clearCore n).remountCore n 3 (m.core n).hangs) := by
  rw [coreRemountEffect]
  exact if_neg (by simp [hn, hf, hp, hh])

end

/-- A core that is not damaged stays. -/
theorem coreRemountEffect_of_sound (hd : m.coreDamaged n = false) : coreRemountEffect n 2 m = m :=
  if_pos (by simp [hd])

/-- The corrected errors of a core in the last day. -/
def Block.dayErrors (m : Block) (n : Nat) : Nat := ((m.core n).cmCorr.filter fun t => decide (m.time < t + day)).length

/-- An idle core with 64 of them is remounted while a spare is left. -/
theorem coreIdleRemountEffect_of_due (hn : n < m.coreCount) (hf : m.fwRuns = true) (hk : 64 ≤ m.dayErrors n) (ht : (m.core n).task = none)
    (hs : (m.core n).saved = none) (hsp : (m.spareOf (n / 8)).isSome) (hp : m.phys n ≠ 0xF) :
    coreIdleRemountEffect n m = m.remountCore n 1 (m.dayErrors n) := by
  rw [coreIdleRemountEffect]
  refine if_neg ?_
  rw [Block.dayErrors] at hk
  obtain ⟨p, hp'⟩ := Option.isSome_iff_exists.mp hsp
  simp [hn, hf, hk, ht, hs, hp', hp]

/-- A core with fewer stays. -/
theorem coreIdleRemountEffect_of_few (hk : m.dayErrors n < 64) : coreIdleRemountEffect n m = m :=
  if_pos (.inr (.inr (.inl hk)))

end

/- The commands' rows -/

/-- CURB_HANDLING commits its effect. -/
theorem exec_curbHandling (s : State) : exec .curbHandling s = s.commit (curbHandlingEffect s.m) := rfl

/-- WATCHDOG_HANG commits its effect. -/
theorem exec_watchdogHang (cls idx : Nat) (s : State) : exec (.watchdogHang cls idx) s = s.commit (watchdogHangEffect cls idx s.m) := rfl

/-- CONTROL_CORE_WATCHDOG commits the failure of its control core. -/
theorem exec_controlCoreWatchdog (k : Nat) (s : State) : exec (.controlCoreWatchdog k) s = s.commit (s.m.failControl k) := rfl

/-- ESCALATION_TIMEOUT commits its effect. -/
theorem exec_escalationTimeout (level idx : Nat) (s : State) :
    exec (.escalationTimeout level idx) s = s.commit (escalationTimeoutEffect level idx s.m) := rfl

/-- DEVICE_RECOVERY commits its effect. -/
theorem exec_deviceRecovery (k : Nat) (s : State) : exec (.deviceRecovery k) s = s.commit (deviceRecoveryEffect k s.m) := rfl

/-- RECOVERY_END commits its effect. -/
theorem exec_recoveryEnd (s : State) : exec .recoveryEnd s = s.commit (recoveryEndEffect s.m) := rfl

/-- CORE_REMOUNT commits its effect. -/
theorem exec_coreRemount (n reason : Nat) (s : State) : exec (.coreRemount n reason) s = s.commit (coreRemountEffect n reason s.m) := rfl

/-- CORE_IDLE_REMOUNT commits its effect. -/
theorem exec_coreIdleRemount (n : Nat) (s : State) : exec (.coreIdleRemount n) s = s.commit (coreIdleRemountEffect n s.m) := rfl

/-- Settles O56: curbs, the fault log and stops as facts of the block's operations, then the rows of faults, recovery and remounts. -/
theorem faultsAndRecovery : Obligations.FaultsAndRecovery := by
  refine ⟨⟨?_, ?_, ?_, ?_, ?_, ?_, ?_, ?_, ?_, ?_, ?_⟩, ?_, ?_, ?_, ?_, ?_⟩
  · intro m n kind a len hn m'
    obtain ⟨hreg, hcore, hcurbs, hregs, hmem, hcores⟩ := m.curbCore_facts n kind a len
    have hstatus := (hreg (Reg.coreSeqStatus n)).trans (m.status_freeze n)
    have hstores := congrArg CoreState.stores hcore
    have hpc : m'.reg (Reg.coreSeqPc n) = m.reg (Reg.coreSeqPc n) := hregs _ (Reg.coreSeqPc_notMem_curbRegs n)
    refine ⟨?_, ?_, congrArg (field · 47 0) hpc, congrArg CoreState.loads hcore, congrArg CoreState.matQ hcore, congrArg CoreState.copyQ hcore,
      congrArg CoreState.vecQ hcore, congrArg CoreState.sfuQ hcore, congrArg CoreState.att hcore, congrArg CoreState.hold hcore,
      hstores, ⟨m.curbNote n kind a len, hcurbs, rfl, rfl, rfl, rfl, rfl, rfl, rfl⟩, hregs, hmem, hcores⟩
    · rw [Block.coreSt, Block.fld_eq, hstatus, field_putField_apart _ _ _ _ _ _ (by omega) (by omega), field_putField_self _ _ _ _ (by omega)]
      rfl
    · rw [Block.fld_eq, hstatus, field_putField_self _ _ _ _ (by omega)]
      rfl
  · intro m n cause _ ht
    exact Block.faultStop_of_no_task cause ht
  · intro m n cause q ht
    exact Block.faultStop_of_task cause ht
  · intro m t r h m'
    refine ⟨?_, m.faultSeq_addFault t r, ?_, fun u hu => ⟨m.faultSeq_addFault_ne t r hu, ?_⟩⟩
    · have hroom := m.length_faultsKept t h
      rw [m.faults_addFault, List.filter_append, List.length_append]
      exact (Nat.add_le_add_left (List.length_filter_le _ _) _).trans hroom
    · exact ⟨_, List.mem_append_right _ (List.mem_singleton_self _), rfl, rfl, rfl, rfl⟩
    · rw [m.faults_addFault, List.filter_append, List.filter_cons_of_neg (by simpa using hu.symm), List.filter_nil, List.append_nil,
        m.filter_faultsKept_ne t hu]
  · intro s h
    exact gives_of_commit (exec_curbHandling s) (curbHandlingEffect_of_nil h)
  · intro k ks x s hk hx rest note
    exact ⟨fun ht => gives_of_commit (exec_curbHandling s) (curbHandlingEffect_of_teardown hk hx ht),
      fun ht hq => gives_of_commit (exec_curbHandling s) (curbHandlingEffect_of_no_command hk hx ht hq),
      fun q c ht hq hr hc => gives_of_commit (exec_curbHandling s) (curbHandlingEffect_of_command hk hx ht hq hr hc)⟩
  · intro cls idx s hc hh
    exact gives_of_commit (exec_watchdogHang cls idx s) (watchdogHangEffect_of_alive hc hh)
  · intro n s hh
    exact gives_of_commit (exec_watchdogHang 0 n s) (watchdogHangEffect_of_core hh)
  · intro cls idx s hc hh
    exact gives_of_commit (exec_watchdogHang cls idx s) (watchdogHangEffect_of_ring hc hh)
  · intro k s hf hk
    exact gives_of_commit (exec_controlCoreWatchdog k s) (Block.failControl_of_runs hf hk)
  · intro level idx r s hr
    exact ⟨fun h => gives_of_commit (exec_escalationTimeout level idx s) (escalationTimeoutEffect_of_early hr h),
      fun h => gives_of_commit (exec_escalationTimeout level idx s) (escalationTimeoutEffect_of_due hr h)⟩
  · intro k s hf h1 h5
    exact gives_of_commit (exec_deviceRecovery k s) (deviceRecoveryEffect_of_trigger hf h1 h5)
  · intro k s h
    exact gives_of_commit (exec_deviceRecovery k s) (deviceRecoveryEffect_of_no_trigger s.m h)
  · intro start p s hr
    refine ⟨fun hf => ?_, fun hf hrst hp hh => ⟨fun h1 => ?_, fun h1 => ?_⟩⟩
    · exact gives_of_commit (exec_recoveryEnd s) (recoveryEndEffect_of_no_firmware hr hf)
    · exact gives_of_commit (exec_recoveryEnd s) (recoveryEndEffect_of_failed hr hf hrst hp hh h1)
    · have heff := recoveryEndEffect_of_sound hr hf hrst hp hh h1
      exact ⟨fun ha => gives_of_commit (exec_recoveryEnd s) (heff.trans (if_neg (Bool.eq_false_iff.mp ha))),
        fun ha => gives_of_commit (exec_recoveryEnd s) (heff.trans (if_pos ha))⟩
  · intro n s hn hf hp cmds off
    exact ⟨fun hd => gives_of_commit (exec_coreRemount n 2 s) (coreRemountEffect_of_damaged hn hf hp hd),
      fun hh => gives_of_commit (exec_coreRemount n 3 s) (coreRemountEffect_of_hangs hn hf hp hh),
      fun hd => gives_of_commit (exec_coreRemount n 2 s) (coreRemountEffect_of_sound hd)⟩
  · intro n s hn hf k
    exact ⟨fun hk ht hs hsp hp => gives_of_commit (exec_coreIdleRemount n s) (coreIdleRemountEffect_of_due hn hf hk ht hs hsp hp),
      fun hk => gives_of_commit (exec_coreIdleRemount n s) (coreIdleRemountEffect_of_few hk)⟩

end Sys2Proof.Machine

/-! SUPPORT. Memory errors and writes inside core memory (R114, R117, R136): what a read finds there and what a write leaves there changes bytes
of the span alone, no register and none of the machine's units. -/
namespace Sys2Proof.Machine

/-- Where a local address lies depends on the variant and the tier's size alone. -/
theorem Block.region_congr {m m' : Block} (hf : m'.fuse = m.fuse) (hr : m'.reg Reg.ddrTierStatus = m.reg Reg.ddrTierStatus) (a : Nat) :
    m'.region a = m.region a := by
  have htiles : m'.tileCount = m.tileCount := by rw [Block.tileCount, Block.tileCount, hf]
  have hstacks : m'.stackCount = m.stackCount := by rw [Block.stackCount, Block.stackCount, htiles]
  have hcores : m'.coreCount = m.coreCount := by rw [Block.coreCount, Block.coreCount, htiles]
  have htuning : m'.tuning = m.tuning := by rw [Block.tuning, Block.tuning, hf]
  have htier : m'.fld Reg.ddrTierStatus 31 0 = m.fld Reg.ddrTierStatus 31 0 := by rw [Block.fld, Block.fld, hr]
  rw [Block.region, Block.region, hstacks, hcores, htiles, htuning, htier]

/-- A byte reads as before where the memory holds it as before, under the same key. -/
theorem Block.byteAt_congr {m m' : Block} {x : Nat} (hm : m'.mem.read x = m.mem.read x) (hs : m'.staleAt (x / 128) = m.staleAt (x / 128)) :
    m'.byteAt x = m.byteAt x := by
  simp only [Block.byteAt, hm, hs]

/- The keys of the other granules (R163) -/

/-- What a run of granules leaves of a span covers every granule outside the run as the span does. -/
theorem find_cutSpan {g n h : Nat} (hg : h < g ∨ g + n ≤ h) (s : Nat × Nat × Nat) :
    ((cutSpan g n s).find? fun x => decide (x.1 ≤ h) && decide (h < x.1 + x.2.1)).map (·.2.2) =
      if s.1 ≤ h ∧ h < s.1 + s.2.1 then some s.2.2 else none := by
  simp only [cutSpan, List.find?_filter, List.find?_cons, List.find?_nil]
  split
  · rename_i hfirst
    simp only [Bool.and_eq_true, bne_iff_ne, ne_eq, decide_eq_true_eq] at hfirst
    rw [if_pos (by omega)]
    rfl
  · rename_i hfirst
    split
    · rename_i hsecond
      simp only [Bool.and_eq_true, bne_iff_ne, ne_eq, decide_eq_true_eq] at hsecond
      rw [if_pos (by omega)]
      rfl
    · rename_i hsecond
      simp only [decide_eq_false_iff_not, Bool.and_eq_true, bne_iff_ne, ne_eq, decide_eq_true_eq] at hfirst hsecond
      rw [if_neg (by omega)]
      rfl

/-- Granules stored under the key they are read with leave the keys of the others. -/
theorem Block.staleAt_fresh {g n h : Nat} (hg : h < g ∨ g + n ≤ h) (m : Block) : (m.fresh g n).staleAt h = m.staleAt h := by
  simp only [Block.staleAt, Block.fresh]
  induction m.stale with
  | nil => rfl
  | cons s l ih =>
    rw [List.flatMap_cons, List.find?_append, Option.map_or, ih, find_cutSpan hg, List.find?_cons]
    by_cases hs : s.1 ≤ h ∧ h < s.1 + s.2.1
    · simp [hs]
    · have hs' : (decide (s.1 ≤ h) && decide (h < s.1 + s.2.1)) = false := by simpa using hs
      simp [hs, hs']

/- Updates of bytes -/

/-- Only bytes of [a, a + n) change, with their poison, keys, errors and notes: no other byte of local memory, no register and no unit. -/
structure Block.OnlyBytes (a n : Nat) (m m' : Block) : Prop where
  bytes : SameMemBut a n m m'
  regs : m'.regs = m.regs
  units : m.SameUnits m'

/-- Nothing changes. -/
theorem Block.OnlyBytes.refl (a n : Nat) (m : Block) : m.OnlyBytes a n m := ⟨fun _ _ => rfl, rfl, Block.SameUnits.refl m⟩

/-- Two updates in turn. -/
theorem Block.OnlyBytes.trans {a n : Nat} {x y z : Block} (h : Block.OnlyBytes a n x y) (h' : Block.OnlyBytes a n y z) : Block.OnlyBytes a n x z :=
  ⟨fun b hb => (h'.bytes b hb).trans (h.bytes b hb), h'.regs.trans h.regs, h.units.trans h'.units⟩

/-- An update that leaves bytes, keys and registers. -/
theorem Block.OnlyBytes.of_bystanders {m m' : Block} (a n : Nat) (hu : m.SameUnits m' ∧ m'.mem = m.mem) (hs : m'.stale = m.stale)
    (hr : m'.regs = m.regs) : Block.OnlyBytes a n m m' :=
  ⟨fun _ _ => Block.byteAt_congr (by rw [hu.2]) (by rw [Block.staleAt, Block.staleAt, hs]), hr, hu.1⟩

/-- The registers hold their values. -/
theorem Block.OnlyBytes.reg {a n : Nat} {m m' : Block} (h : Block.OnlyBytes a n m m') (r : Nat) : m'.reg r = m.reg r := by
  obtain ⟨-, -, -, -, -, -, -, -, -, -, -, hfuse⟩ := h.units
  exact m.reg_congr m' r h.regs hfuse

/-- Every address lies where it lay. -/
theorem Block.OnlyBytes.region {a n : Nat} {m m' : Block} (h : Block.OnlyBytes a n m m') (x : Nat) : m'.region x = m.region x := by
  obtain ⟨-, -, -, -, -, -, -, -, -, -, -, hfuse⟩ := h.units
  exact Block.region_congr hfuse (h.reg _) x

/-- Whole granules [a, a + n) of core memory. -/
structure Block.CoreSpan (m : Block) (a n : Nat) : Prop where
  start : a % 128 = 0
  size : n % 128 = 0
  inCore : ∀ x, a ≤ x → x < a + n → ∃ k o, m.region x = .core k o

/-- They stay core memory. -/
theorem Block.CoreSpan.of_onlyBytes {a n b k : Nat} {m m' : Block} (h : m.CoreSpan a n) (hb : Block.OnlyBytes b k m m') : m'.CoreSpan a n :=
  ⟨h.start, h.size, fun x h1 h2 => by rw [hb.region]; exact h.inCore x h1 h2⟩

/- Errors of core memory (R114) -/

section
variable {m : Block} {a n k o : Nat}

/-- The wear ledger holds no register. -/
@[simp] theorem Block.regs_addWear (kind reason unit from_ to_ count : Nat) : (m.addWear kind reason unit from_ to_ count).regs = m.regs := by
  unfold Block.addWear
  split <;> rfl

/-- Nor a key. -/
@[simp] theorem Block.stale_addWear (kind reason unit from_ to_ count : Nat) : (m.addWear kind reason unit from_ to_ count).stale = m.stale := by
  unfold Block.addWear
  split <;> rfl

/-- A poisoning in core memory counts in no register. -/
theorem Block.countPoison_of_core (h : m.region a = .core k o) : m.countPoison a = m := by
  rw [Block.countPoison, h]

/-- An error of core memory is noted in the wear ledger and with its core. -/
theorem Block.noteError_of_core (kind : Nat) (h : m.region a = .core k o) :
    m.noteError a kind = (m.addWear 7 kind (k / 8) k (2 ^ 64 - 1) 1).modCore k fun c =>
      if kind = 1 then { c with cmCorr := noteEvent m.time c.cmCorr } else { c with cmUncorr := noteEvent m.time c.cmUncorr } := by
  have hcount (m1 : Block) (h1 : m1.region a = m.region a) : m1.countError a kind = m1 := by rw [Block.countError, h1, h]
  have hecc : m.eccReg a = none := by rw [Block.eccReg, h]
  rw [Block.noteError, hecc, h]
  obtain ⟨-, -, -, -, -, -, -, -, -, -, -, hfuse⟩ := (m.addWear_units 7 kind (k / 8) k (2 ^ 64 - 1) 1).1
  exact hcount _ (Block.region_congr hfuse (m.reg_congr _ _ (Block.regs_addWear _ _ _ _ _ _) hfuse) a)

/-- So no byte and no register changes. -/
theorem Block.OnlyBytes.noteError (b l kind : Nat) (h : m.region a = .core k o) : Block.OnlyBytes b l m (m.noteError a kind) := by
  refine .of_bystanders b l (m.noteError_units a kind) ?_ ?_ <;> simp [Block.noteError_of_core kind h]

/-- Nor does one where a granule of core memory is poisoned. -/
theorem Block.OnlyBytes.poisonGranule {g : Nat} (b l : Nat) (h : m.region (128 * g) = .core k o) : Block.OnlyBytes b l m (m.poisonGranule g) := by
  have hcount (x : List Nat) : ({ m with poison := x } : Block).countPoison (128 * g) = { m with poison := x } := Block.countPoison_of_core h
  refine .of_bystanders b l (m.poisonGranule_units g) ?_ ?_ <;> rw [Block.poisonGranule, hcount] <;> split <;> rfl

/-- Counting a write that is dropped there is a note in the wear ledger. -/
theorem Block.OnlyBytes.countDrop (b l : Nat) (h : m.region a = .core k o) : Block.OnlyBytes b l m (m.countDrop a) := by
  refine .of_bystanders b l (m.countDrop_units a) ?_ ?_ <;> simp [Block.countDrop, h]

/-- A read that finds an error of a granule of core memory leaves the bytes outside the granule. -/
theorem Block.onlyBytes_findError {e : Nat × List Nat} (h : m.CoreSpan a n) (h1 : a ≤ 128 * e.1) (h2 : 128 * e.1 < a + n) :
    Block.OnlyBytes a n m (m.findError e) := by
  have hstart := h.start
  have hsize := h.size
  obtain ⟨k, o, hcore⟩ := h.inCore _ h1 h2
  have hnote {m1 : Block} (h1 : m1.region (128 * e.1) = m.region (128 * e.1)) (kind : Nat) :
      Block.OnlyBytes a n m1 (m1.noteError (128 * e.1) kind) := .noteError a n kind (h1.trans hcore)
  have hdetected {m1 : Block} (h1 : m1.region (128 * e.1) = m.region (128 * e.1)) :
      Block.OnlyBytes a n m1 ((m1.noteError (128 * e.1) 2).poisonGranule e.1) :=
    (hnote h1 2).trans (.poisonGranule a n (((hnote h1 2).region _).trans (h1.trans hcore)))
  have hfree (m1 : Block) (bs : List Byte) (hl : bs.length = 128) (f : Nat) :
      Block.OnlyBytes a n m1 { m1 with mem := m1.mem.writeN (128 * e.1) bs, free := f } :=
    ⟨fun x hx => Block.byteAt_congr (Memory.read_writeN_out _ _ _ _ (by omega)) rfl, rfl, Block.SameUnits.refl m1⟩
  have herase : Block.OnlyBytes a n m { m with ecc := m.ecc.erase e } := .of_bystanders a n ⟨Block.SameUnits.refl m, rfl⟩ rfl rfl
  refine herase.trans ?_
  have hplace := herase.region (128 * e.1)
  unfold Block.findError
  dsimp only
  generalize ({ m with ecc := m.ecc.erase e } : Block) = m1 at hplace
  split
  · exact hnote hplace 1
  · exact hdetected hplace
  · have hdraw : Block.OnlyBytes a n m1 m1.draw.2 := .of_bystanders a n ⟨Block.SameUnits.refl m1, rfl⟩ rfl rfl
    have hbytes := hfree m1 (((m1.draw.2.drawBytes 128).1 ++ List.replicate 128 0).take 128) (by simp) (m1.free + 1 + 1)
    split
    · exact hdraw.trans (hdetected hplace)
    · exact hbytes
    · exact hbytes.trans (hnote ((hbytes.region _).trans hplace) 1)

/-- And so does one that finds the errors of several. -/
theorem Block.onlyBytes_findErrors (l : List (Nat × List Nat)) (h : m.CoreSpan a n) (hl : ∀ e ∈ l, a ≤ 128 * e.1 ∧ 128 * e.1 < a + n) :
    Block.OnlyBytes a n m (l.foldl (fun m e => m.findError e) m) := by
  induction l generalizing m with
  | nil => exact .refl a n m
  | cons e l ih =>
    obtain ⟨h1, h2⟩ := hl e List.mem_cons_self
    have hfirst := Block.onlyBytes_findError h h1 h2
    exact hfirst.trans (ih (h.of_onlyBytes hfirst) fun x hx => hl x (List.mem_cons_of_mem e hx))

/-- A read of core memory meets no failed stack. -/
theorem Block.countReads_of_core {b l : Nat} (h : m.CoreSpan a n) (h1 : a ≤ b) (h2 : b + l ≤ a + n) : m.countReads b l = m := by
  rw [Block.countReads]
  rcases Nat.eq_zero_or_pos l with rfl | hl
  · split
    · rfl
    · exact Block.foldl_of_fixed fun s _ => if_pos (.inl rfl)
  · obtain ⟨k, o, hcore⟩ := h.inCore b h1 (by omega)
    rw [if_pos (by simp [hcore])]

/-- A read within whole granules of core memory leaves every byte outside them, and every register. -/
theorem Block.onlyBytes_correct {b l : Nat} (h : m.CoreSpan a n) (h1 : a ≤ b) (h2 : b + l ≤ a + n) : Block.OnlyBytes a n m (m.correct b l) := by
  rw [Block.correct, Block.countReads_of_core h h1 h2]
  refine Block.onlyBytes_findErrors _ h fun e he => ?_
  obtain ⟨hfirst, hlast⟩ : b / 128 ≤ e.1 ∧ 128 * e.1 < b + l := by simpa using (List.mem_filter.mp he).2
  have := h.start
  omega

/- Writes at home (R136) -/

/-- A granule that is stored under the key it is read with keeps its own bytes, and the others theirs. -/
theorem Block.onlyBytes_thaw {g : Nat} (h : m.CoreSpan a n) (h1 : a ≤ 128 * g) (h2 : 128 * g < a + n) : Block.OnlyBytes a n m (m.thaw g) := by
  have hsize := h.size
  have hstart := h.start
  have hkept (bs : List Byte) (hl : bs.length = 128) : Block.OnlyBytes a n m { m.fresh g 1 with mem := m.mem.writeN (128 * g) bs } :=
    ⟨fun x hx => Block.byteAt_congr (Memory.read_writeN_out _ _ _ _ (by omega)) (m.staleAt_fresh (g := g) (n := 1) (by omega)), rfl,
      Block.SameUnits.withMem m _ _⟩
  have hlength : ((List.range 128).map fun i => m.byteAt (128 * g + i)).length = 128 := by rw [List.length_map, List.length_range]
  unfold Block.thaw
  generalize ((List.range 128).map fun i => m.byteAt (128 * g + i)) = bs at hlength
  split
  · exact .refl a n m
  · exact hkept bs hlength

/-- A write to one granule of core memory. -/
theorem Block.onlyBytes_applyGranule {b : Nat} {bs : List Byte} (mask : List Bool) (h : m.CoreSpan a n) (h1 : a ≤ b) (h2 : b < a + n)
    (h128 : b % 128 + bs.length ≤ 128) : Block.OnlyBytes a n m (m.applyGranule b bs mask false) := by
  have hsize := h.size
  have hstart := h.start
  have hfailed : m.stackFailed b = false := by
    obtain ⟨k, o, hcore⟩ := h.inCore b h1 h2
    simp [Block.stackFailed, hcore]
  have hcount (m1 : Block) : m1.countHostPoison b false = m1 := by simp [Block.countHostPoison]
  have hwrite (m1 : Block) : Block.OnlyBytes a n m1 { m1 with mem := m1.mem.writeMasked b bs mask } :=
    ⟨fun x hx => Block.byteAt_congr (Memory.read_writeMasked_out _ _ _ _ _ (by omega)) rfl, rfl, Block.SameUnits.refl m1⟩
  have hfresh (m1 : Block) : Block.OnlyBytes a n m1 (m1.fresh (b / 128) 1) :=
    ⟨fun x hx => Block.byteAt_congr rfl (m1.staleAt_fresh (by omega)), rfl, Block.SameUnits.refl m1⟩
  have hfound : Block.OnlyBytes a n m (m.correct (128 * (b / 128)) 128) := Block.onlyBytes_correct h (by omega) (by omega)
  have hthawed := hfound.trans (Block.onlyBytes_thaw (g := b / 128) (h.of_onlyBytes hfound) (by omega) (by omega))
  unfold Block.applyGranule
  simp only [hfailed, Bool.false_eq_true, if_false, hcount]
  generalize (m.correct (128 * (b / 128)) 128).thaw (b / 128) = m1 at hthawed
  split
  · exact ((hwrite m).trans (hfresh _)).trans (.of_bystanders a n ⟨Block.SameUnits.refl _, rfl⟩ rfl rfl)
  · split
    · obtain ⟨k, o, hcore⟩ := h.inCore b h1 h2
      exact hthawed.trans (.countDrop a n ((hthawed.region b).trans hcore))
    · exact hthawed.trans (hwrite m1)

/-- A master's write to one granule of core memory, which host copies may hold back (R152). -/
theorem Block.onlyBytes_writeGranule {b : Nat} {bs : List Byte} (mask : List Bool) (h : m.CoreSpan a n) (h1 : a ≤ b) (h2 : b < a + n)
    (h128 : b % 128 + bs.length ≤ 128) : Block.OnlyBytes a n m (m.writeGranule b bs mask false) := by
  have hheld (x : Mgmt) : Block.OnlyBytes a n m { m with cho := x } := .of_bystanders a n ⟨Block.SameUnits.refl m, rfl⟩ rfl rfl
  unfold Block.writeGranule
  dsimp only
  split
  · exact hheld _
  · split
    · exact Block.onlyBytes_applyGranule mask h h1 h2 h128
    · exact hheld _

/-- A write of several granules. -/
theorem Block.onlyBytes_writeGranules (fuel : Nat) {b : Nat} {bs : List Byte} (mask : List Bool) (h : m.CoreSpan a n) (h1 : a ≤ b)
    (h2 : b + bs.length ≤ a + n) : Block.OnlyBytes a n m (m.writeGranules b bs mask false fuel) := by
  induction fuel generalizing m b bs mask with
  | zero => exact .refl a n m
  | succ fuel ih =>
    cases bs with
    | nil => exact .refl a n m
    | cons v bs =>
      rw [List.length_cons] at h2
      have hfirst := Block.onlyBytes_writeGranule (bs := (v :: bs).take (128 - b % 128)) (mask.take (128 - b % 128)) h h1 (by omega)
        (by rw [List.length_take]; omega)
      refine hfirst.trans (ih _ (h.of_onlyBytes hfirst) (by omega) ?_)
      rw [List.length_drop, List.length_cons]
      have := h.start
      have := h.size
      omega

/-- A write at home to whole granules of core memory leaves every byte outside them, and every register. -/
theorem Block.onlyBytes_homeWrite {b : Nat} {bs : List Byte} (h : m.CoreSpan a n) (h1 : a ≤ b) (h2 : b + bs.length ≤ a + n) :
    Block.OnlyBytes a n m (m.homeWrite b bs) :=
  Block.onlyBytes_writeGranules _ [] h h1 h2

end

end Sys2Proof.Machine

/-! SUPPORT. A core that stops or is curbed stays so while its task ends (R73, R98, R299 to R302, R442): completing commands, writing records and
letting go what waited sets no core going and gives its units no work. -/
namespace Sys2Proof.Machine

/- The state of a core, when other registers count -/

section
variable (m : Block) (n : Nat)

/-- A field of another register, or one that lies apart from STATE, leaves a core's state. -/
theorem Block.coreSt_setFld {r hi lo : Nat} (v : Nat) (h : Reg.coreSeqStatus n ≠ r ∨ hi < 32 ∨ 35 < lo) :
    (m.setFld r hi lo v).coreSt n = m.coreSt n := by
  by_cases hr : Reg.coreSeqStatus n = r
  · subst hr
    exact m.fld_setFld_apart _ _ _ _ _ _ (by omega) (by omega)
  · exact m.fld_setFld_ne _ _ _ _ _ _ _ hr

/-- The same of a saturating count. -/
theorem Block.coreSt_satFld {r hi lo : Nat} (k : Nat) (h : Reg.coreSeqStatus n ≠ r ∨ hi < 32 ∨ 35 < lo) :
    (m.satFld r hi lo k).coreSt n = m.coreSt n := m.coreSt_setFld n _ h

/-- Counts of the lower half of any register leave it. -/
@[simp] theorem Block.coreSt_satFld_low (r k : Nat) : (m.satFld r 31 0 k).coreSt n = m.coreSt n := m.coreSt_satFld n k (.inr (.inl (by omega)))

/-- The wear ledger leaves it. -/
@[simp] theorem Block.coreSt_addWear (kind reason unit from_ to_ count : Nat) :
    (m.addWear kind reason unit from_ to_ count).coreSt n = m.coreSt n := by
  unfold Block.addWear
  split <;> rfl

/-- A change of the core's own state leaves it. -/
@[simp] theorem Block.coreSt_modCore (k : Nat) (g : CoreState → CoreState) : (m.modCore k g).coreSt n = m.coreSt n := (rfl)

/-- Counting a poisoning leaves it. -/
@[simp] theorem Block.coreSt_countPoison (a : Nat) : (m.countPoison a).coreSt n = m.coreSt n := by
  unfold Block.countPoison
  split <;> simp

/-- Poisoning a granule leaves it. -/
@[simp] theorem Block.coreSt_poisonGranule (g : Nat) : (m.poisonGranule g).coreSt n = m.coreSt n := by
  unfold Block.poisonGranule
  split
  · rfl
  · exact Block.coreSt_countPoison { m with poison := insertNat m.poison g } n _

/-- Counting a write that is dropped leaves it. -/
@[simp] theorem Block.coreSt_countDrop (a : Nat) : (m.countDrop a).coreSt n = m.coreSt n := by
  unfold Block.countDrop
  split
  · exact m.coreSt_satFld n 1 (.inl (by simp only [Reg.coreSeqStatus, Reg.hbmPoison]; omega))
  · exact m.coreSt_satFld n 1 (.inl (by simp only [Reg.coreSeqStatus, Reg.poolPoison]; omega))
  · exact m.coreSt_satFld n 1 (.inl (by simp only [Reg.coreSeqStatus, Reg.ddrPoison]; omega))
  · exact m.coreSt_addWear n _ _ _ _ _ _
  · rfl

/-- Retiring a page leaves it. -/
@[simp] theorem Block.coreSt_retirePage (a count : Nat) : (m.retirePage a count).coreSt n = m.coreSt n := by
  unfold Block.retirePage
  split <;> simp

/-- The thresholds that an error adds to leave it. -/
@[simp] theorem Block.coreSt_countError (a kind : Nat) : (m.countError a kind).coreSt n = m.coreSt n := by
  unfold Block.countError
  split
  · split
    · simp
    · dsimp only
      split
      · exact Block.coreSt_retirePage _ n _ _
      · rfl
  · dsimp only
    split <;> rfl
  · rfl

/-- The registers that count errors are no status registers. -/
theorem Block.eccReg_ne_status {a r : Nat} (h : m.eccReg a = some r) : Reg.coreSeqStatus n ≠ r := by
  unfold Block.eccReg at h
  split at h <;> cases h <;> simp only [Reg.coreSeqStatus, Reg.hbmEcc, Reg.poolEcc, Reg.ddrEcc] <;> omega

/-- Noting an error leaves it. -/
@[simp] theorem Block.coreSt_noteError (a kind : Nat) : (m.noteError a kind).coreSt n = m.coreSt n := by
  unfold Block.noteError
  dsimp only
  rw [Block.coreSt_countError]
  split
  · rename_i r hr
    split
    · simp
    · exact m.coreSt_satFld n 1 (.inl (m.eccReg_ne_status n hr))
  · split <;> simp

/-- Finding an error leaves it. -/
@[simp] theorem Block.coreSt_findError (e : Nat × List Nat) : (m.findError e).coreSt n = m.coreSt n := by
  unfold Block.findError
  dsimp only
  split
  · exact Block.coreSt_noteError _ n _ _
  · rw [Block.coreSt_poisonGranule]
    exact Block.coreSt_noteError _ n _ _
  · split
    · rw [Block.coreSt_poisonGranule]
      exact Block.coreSt_noteError _ n _ _
    · rfl
    · exact Block.coreSt_noteError _ n _ _

/-- Updates that leave a core's state leave it in turn. -/
theorem Block.coreSt_foldl {α : Type} {f : Block → α → Block} (h : ∀ m a, (f m a).coreSt n = m.coreSt n) (l : List α) :
    (l.foldl f m).coreSt n = m.coreSt n := by
  induction l generalizing m with
  | nil => rfl
  | cons a l ih => exact (ih _).trans (h m a)

/-- A read leaves it. -/
@[simp] theorem Block.coreSt_correct (a k : Nat) : (m.correct a k).coreSt n = m.coreSt n := by
  have hreads : (m.countReads a k).coreSt n = m.coreSt n := by
    unfold Block.countReads
    split
    · rfl
    · refine m.coreSt_foldl n (fun m s => ?_) _
      dsimp only
      split <;> simp
  exact (Block.coreSt_foldl _ n (fun m e => m.coreSt_findError n e) _).trans hreads

/-- A write to one granule leaves it. -/
@[simp] theorem Block.coreSt_applyGranule (a : Nat) (bs : List Byte) (mask : List Bool) (bad : Bool) :
    (m.applyGranule a bs mask bad).coreSt n = m.coreSt n := by
  have hhost (m : Block) : (m.countHostPoison a bad).coreSt n = m.coreSt n := by
    unfold Block.countHostPoison
    split
    · exact m.coreSt_satFld n 1 (.inr (.inl (by omega)))
    · rfl
  have hthaw (m : Block) (g : Nat) : (m.thaw g).coreSt n = m.coreSt n := by
    unfold Block.thaw
    generalize ((List.range 128).map fun i => m.byteAt (128 * g + i)) = bs
    split <;> rfl
  have hfound := (hthaw (m.correct (128 * (a / 128)) 128) (a / 128)).trans (m.coreSt_correct n _ _)
  unfold Block.applyGranule
  dsimp only
  generalize (m.correct (128 * (a / 128)) 128).thaw (a / 128) = m1 at hfound
  split
  · simp
  · split
    · split
      · rw [Block.coreSt_poisonGranule]
        exact hhost m
      · exact hhost m
    · split
      · rw [Block.coreSt_countDrop, hfound]
      · split
        · rw [Block.coreSt_poisonGranule]
          exact (hhost m1).trans hfound
        · exact (hhost m1).trans hfound

/-- And so does a write at home. -/
@[simp] theorem Block.coreSt_homeWrite (a : Nat) (bs : List Byte) : (m.homeWrite a bs).coreSt n = m.coreSt n := by
  suffices h : ∀ (fuel : Nat) (m : Block) (a : Nat) (bs : List Byte) (mask : List Bool),
      (m.writeGranules a bs mask false fuel).coreSt n = m.coreSt n from h _ m a bs []
  intro fuel
  induction fuel with
  | zero => intros; rfl
  | succ fuel ih =>
    intro m a bs mask
    unfold Block.writeGranules
    split
    · rfl
    · dsimp only
      rw [ih]
      unfold Block.writeGranule
      dsimp only
      split
      · rfl
      · split
        · exact m.coreSt_applyGranule n _ _ _ _
        · rfl

end

/- Ending a task -/

/-- The units of a core hold nothing, and no signal waits. -/
def CoreState.Idle (c : CoreState) : Prop := c.vecQ = [] ∧ c.sfuQ = [] ∧ c.signals = []

/-- Notes of memory errors are no work. -/
theorem CoreState.Idle.of_work {c c' : CoreState} (h : c.Idle) (hw : c'.work = c.work) : c'.Idle := by
  obtain ⟨hv, hs, hg⟩ := h
  exact ⟨(congrArg CoreState.vecQ hw).trans hv, (congrArg CoreState.sfuQ hw).trans hs, (congrArg CoreState.signals hw).trans hg⟩

/-- Core `n` is as it was or STOPPED (R98), and units that held nothing hold nothing. -/
structure Block.StartsNothing (n : Nat) (m m' : Block) : Prop where
  state : m'.coreSt n = m.coreSt n ∨ m'.coreSt n = 4
  idle : (m.core n).Idle → (m'.core n).Idle

section
variable {n : Nat}

/-- Nothing changes. -/
theorem Block.StartsNothing.refl (m : Block) : m.StartsNothing n m := ⟨.inl rfl, id⟩

/-- Two updates in turn. -/
theorem Block.StartsNothing.trans {a b c : Block} (h : Block.StartsNothing n a b) (h' : Block.StartsNothing n b c) : Block.StartsNothing n a c :=
  ⟨h'.state.elim (fun e => h.state.imp e.trans e.trans) .inr, fun hi => h'.idle (h.idle hi)⟩

/-- A fold of such updates. -/
theorem Block.StartsNothing.foldl {α : Type} {f : Block → α → Block} (h : ∀ m a, Block.StartsNothing n m (f m a)) (l : List α) (m : Block) :
    Block.StartsNothing n m (l.foldl f m) := by
  induction l generalizing m with
  | nil => exact .refl m
  | cons a l ih => exact (h m a).trans (ih _)

/-- An update that leaves the registers' STATE and the cores. -/
theorem Block.StartsNothing.of_core {m m' : Block} (hs : m'.coreSt n = m.coreSt n) (hc : m'.core n = m.core n) : Block.StartsNothing n m m' :=
  ⟨.inl hs, fun h => hc ▸ h⟩

/-- A field of another register, or one apart from STATE. -/
theorem Block.StartsNothing.setFld (m : Block) {r hi lo : Nat} (v : Nat) (h : Reg.coreSeqStatus n ≠ r ∨ hi < 32 ∨ 35 < lo) :
    Block.StartsNothing n m (m.setFld r hi lo v) := .of_core (m.coreSt_setFld n v h) rfl

/-- A change of a tile. -/
theorem Block.StartsNothing.modTile (m : Block) (t : Nat) (g : TileState → TileState) : Block.StartsNothing n m (m.modTile t g) := .of_core rfl rfl

/-- A change of a queue. -/
theorem Block.StartsNothing.modQueue (m : Block) (q : QueueId) (g : Queue → Queue) : Block.StartsNothing n m (m.modQueue q g) := .of_core rfl rfl

/-- A command's entry retired. -/
theorem Block.StartsNothing.retire (m : Block) (c : Cmd) : Block.StartsNothing n m (m.retire c) := .of_core rfl rfl

/-- A fault record. -/
theorem Block.StartsNothing.addFault (m : Block) (t : Nat) (r : FaultRec) : Block.StartsNothing n m (m.addFault t r) := .of_core rfl rfl

/-- A change of a core that gives its units no work. -/
theorem Block.StartsNothing.modCore (m : Block) (k : Nat) {g : CoreState → CoreState} (hg : ∀ c, c.Idle → (g c).Idle) :
    Block.StartsNothing n m (m.modCore k g) := by
  refine ⟨.inl rfl, fun h => ?_⟩
  by_cases hk : n = k
  · subst hk
    rw [Block.core_modCore_self]
    exact hg _ h
  · rwa [Block.core_modCore_ne _ _ _ _ hk]

/-- A stop of any core. -/
theorem Block.StartsNothing.stopCore (m : Block) (k cause : Nat) : Block.StartsNothing n m (m.stopCore k cause) := by
  rw [Block.stopCore]
  split
  · have hstate : Block.StartsNothing n m (m.setCoreSt k 4) := by
      by_cases hk : n = k
      · subst hk
        exact ⟨.inr (m.coreSt_setCoreSt n (by omega)), id⟩
      · exact .of_core (m.fld_setFld_ne _ _ _ _ _ _ _ (by simp only [Reg.coreSeqStatus]; omega)) rfl
    have hcause := hstate.trans (.setFld _ (r := Reg.coreSeqStatus k) (hi := 63) (lo := 56) cause (.inr (.inr (by omega))))
    exact (hcause.trans (.setFld _ 0 (.inr (.inr (by omega))))).trans (.modCore _ k fun c hc => hc)
  · exact .refl m

/-- A core's windows are given up. -/
theorem Block.StartsNothing.restCore (m : Block) (k : Nat) : Block.StartsNothing n m (m.restCore k) := by
  rw [Block.restCore]
  split
  · exact .setFld m 0 (.inr (.inr (by omega)))
  · exact .refl m

/-- The cores of a task are released. -/
theorem Block.StartsNothing.releaseCores (m : Block) (q : QueueId) : Block.StartsNothing n m (m.releaseCores q) := by
  have hrest : Block.StartsNothing n m ((m.taskCores q).foldl
      (fun m k => ((m.modCore k fun c => { c with task := none }).restCore k).modTile (k / 8) fun t => { t with idleFrom := m.time }) m) :=
    .foldl (fun m k => ((Block.StartsNothing.modCore m k (g := fun c => { c with task := none }) fun c hc => hc).trans (.restCore _ k)).trans
      (.modTile _ _ _)) _ m
  unfold Block.releaseCores
  dsimp only
  generalize (m.taskCores q).foldl
      (fun m k => ((m.modCore k fun c => { c with task := none }).restCore k).modTile (k / 8) fun t => { t with idleFrom := m.time }) m = m1 at hrest
  refine hrest.trans ⟨.inl rfl, fun h => ?_⟩
  have hcore := Tbl.getD_map m1.cores {} (fun _ c => if c.saved.any (fun s => s.task == some q) then { c with saved := none } else c)
    (fun _ => rfl) n
  refine (congrArg CoreState.Idle hcore).mpr ?_
  split
  · exact h
  · exact h

/-- A write at home. -/
theorem Block.StartsNothing.homeWrite (m : Block) (a : Nat) (bs : List Byte) : Block.StartsNothing n m (m.homeWrite a bs) :=
  ⟨.inl (m.coreSt_homeWrite n a bs), fun h => h.of_work ((m.homeWrite_frame a bs).1.1.1 n)⟩

/-- An interrupt message. -/
theorem Block.StartsNothing.interrupt (m : Block) (t msg : Nat) : Block.StartsNothing n m (m.interrupt t msg) := by
  unfold Block.interrupt
  dsimp only
  split
  · exact .of_core rfl rfl
  · have hne : Reg.coreSeqStatus n ≠ Reg.choIrqPend (m.hostPort t) := by simp only [Reg.coreSeqStatus, Reg.choIrqPend]; omega
    exact .of_core (congrArg (field · 35 32) (Block.reg_setReg_ne _ _ _ _ hne)) rfl

/-- A completion record. -/
theorem Block.StartsNothing.deliver (m : Block) (q : QueueId) (rec : Completion) (irq : Bool) (entry : Option Cmd) :
    Block.StartsNothing n m (m.deliver q rec irq entry) := by
  have hpost (x : Queue) : Block.StartsNothing n m (m.postRecord x rec irq) := by
    unfold Block.postRecord
    dsimp only
    split
    · exact ((Block.StartsNothing.homeWrite m _ _).trans (.modQueue _ _ _)).trans (.interrupt _ _ _)
    · exact (Block.StartsNothing.homeWrite m _ _).trans (.modQueue _ _ _)
  unfold Block.deliver
  split
  · exact .refl m
  · split
    · exact .of_core rfl rfl
    · split
      · exact .of_core rfl rfl
      · exact hpost _

/-- The completion of one command. -/
theorem Block.StartsNothing.completeOne (m : Block) (q : QueueId) (status result : Nat) :
    Block.StartsNothing n m (m.completeOne q status result) := by
  have hlate : Reg.coreSeqStatus n ≠ Reg.paceLate := by simp only [Reg.coreSeqStatus, Reg.paceLate]; omega
  have hready (m : Block) : Block.StartsNothing n m (m.markReady q) := by
    unfold Block.markReady
    split
    · exact .modQueue m q _
    · exact .refl m
  have hrest (m : Block) (c : Cmd) (rec : Completion) (irq : Bool) :
      Block.StartsNothing n m ((((m.releaseCores q).retire c).deliver q rec irq (some c)).markReady q) :=
    (((Block.StartsNothing.releaseCores m q).trans (.retire _ c)).trans (.deliver _ _ _ _ _)).trans (hready _)
  unfold Block.completeOne
  split
  · exact .refl m
  · dsimp only
    refine Block.StartsNothing.trans ?_ (hrest _ _ _ _)
    split
    · exact .setFld m _ (.inl hlate)
    · split
      · exact .setFld m _ (.inl hlate)
      · exact .refl m

/-- What a completion lets go (R252, R253). -/
theorem Block.StartsNothing.letGo (m : Block) : Block.StartsNothing n m m.letGo := by
  have hobj (m : Block) (id : Nat) : Block.StartsNothing n m (m.dropObj id) :=
    ⟨(Block.StartsNothing.setFld _ _ (.inl (by simp only [Reg.coreSeqStatus, Reg.ddrPageUrgent]; omega))).state, fun h => h⟩
  have hpages (m : Block) (s : Saddle) : Block.StartsNothing n m (m.dropPages s) := by
    have hinv : Block.StartsNothing n m m.invalidateAll := .foldl (fun m t => .modTile m t _) _ m
    unfold Block.dropPages
    split
    · refine hinv.trans ?_
      exact .of_core rfl rfl
    · exact .refl m
  have hfree (m : Block) (s : Saddle) : Block.StartsNothing n m (m.freeSaddle s) := by
    have hm1 : Block.StartsNothing n m (match m.saddleObj s with | some o => m.dropObj o.id | none => m) := by
      split
      · exact hobj m _
      · exact .refl m
    unfold Block.freeSaddle
    dsimp only
    have hm2 := hm1.trans (hpages _ s)
    generalize Block.dropPages _ s = m2 at hm2
    split
    · refine hm2.trans ?_
      exact .of_core rfl rfl
    · refine hm2.trans ?_
      exact .of_core rfl rfl
  unfold Block.letGo
  dsimp only
  suffices hfreed : ∀ (m : Block) (s : Saddle), Block.StartsNothing n m (match s.unloadBy with
      | some q => if (m.freeSaddle s).page.saddles.any fun x => x.unloadBy == some q then m.freeSaddle s else (m.freeSaddle s).completeOne q 0 0
      | none => m.freeSaddle s) by
    refine (Block.StartsNothing.foldl hfreed (m.page.saddles.filter fun s => (s.old || s.retiring) && !m.pinned s) m).trans ?_
    exact .of_core rfl rfl
  intro m s
  split
  · split
    · exact hfree m s
    · exact (hfree m s).trans (.completeOne _ _ _ _)
  · exact hfree m s

/-- The completion of a command. -/
theorem Block.StartsNothing.complete (m : Block) (q : QueueId) (status result : Nat) : Block.StartsNothing n m (m.complete q status result) :=
  (Block.StartsNothing.completeOne m q status result).trans (.letGo _)

end

/- A core that an instruction stops -/

/-- Core `n` runs, its units hold nothing, and no signal waits. -/
def Block.RunsIdle (m : Block) (n : Nat) : Prop := m.coreSt n = 1 ∧ (m.core n).Idle

/-- Core `n` runs no more, its units hold nothing, and no signal waits. -/
def Block.DownIdle (m : Block) (n : Nat) : Prop := m.coreSt n ≠ 1 ∧ (m.core n).Idle

section
variable {m : Block} {n : Nat}

/-- A stopped core stays stopped. -/
theorem Block.DownIdle.of_startsNothing {m' : Block} (h : m.DownIdle n) (hs : m.StartsNothing n m') : m'.DownIdle n :=
  ⟨hs.state.elim (fun e => e ▸ h.1) (fun e => by omega), hs.idle h.2⟩

/-- Its units go on with nothing. -/
theorem Block.DownIdle.settleCore (h : m.DownIdle n) : (m.settleCore n).DownIdle n := by
  obtain ⟨-, hv, hs, hg⟩ := id h
  rwa [m.settleCore_of_idle n hv hs hg]

variable (h : m.RunsIdle n)
include h

/-- A write of a register other than its status leaves a core running. -/
theorem Block.RunsIdle.setReg {r : Nat} (w : Word) (hr : Reg.coreSeqStatus n ≠ r) : (m.setReg r w).RunsIdle n :=
  ⟨(congrArg (field · 35 32) (m.reg_setReg_ne r _ w hr)).trans h.1, h.2⟩

/-- A stop (R98). -/
theorem Block.RunsIdle.downIdle_stopCore (cause : Nat) : (m.stopCore n cause).DownIdle n := by
  obtain ⟨hst, hidle⟩ := h
  exact ⟨by rw [Block.coreSt_stopCore (.inl hst) cause]; omega, (Block.core_stopCore (.inl hst) cause).symm ▸ hidle⟩

/-- A curb (R443). -/
theorem Block.RunsIdle.downIdle_curbCore (kind a len : Nat) : (m.curbCore n kind a len).DownIdle n := by
  obtain ⟨hst, hv, hs, hg⟩ := h
  obtain ⟨hreg, hcore, -⟩ := m.curbCore_facts n kind a len
  refine ⟨?_, ?_⟩
  · rw [Block.coreSt, Block.fld_eq, hreg, m.status_freeze n, field_putField_apart _ _ _ _ _ _ (by omega) (by omega),
      field_putField_self _ _ _ _ (by omega)]
    omega
  · rw [hcore]
    exact ⟨rfl, rfl, by simp [CoreState.frozen, hg]⟩

/-- A stop that ends the core's task (R98). -/
theorem Block.RunsIdle.downIdle_faultStop (cause : Nat) : (m.faultStop n cause).DownIdle n := by
  have hstop := h.downIdle_stopCore cause
  rw [Block.faultStop]
  split
  · exact hstop
  · exact ((hstop.of_startsNothing (.addFault _ _ _)).of_startsNothing (.foldl (fun m k => .stopCore m k 8) _ _)).of_startsNothing
      (.complete _ _ _ _)

/-- A stop by a malformed descriptor (R28, R73). -/
theorem Block.RunsIdle.downIdle_descriptorStop : (m.descriptorStop n).DownIdle n := by
  have hstop := h.downIdle_stopCore 2
  rw [Block.descriptorStop]
  split
  · exact hstop.of_startsNothing (.complete _ _ _ _)
  · exact hstop

/-- A trap. -/
theorem Block.RunsIdle.downIdle_trap (t : Trap) : (m.trap n t).DownIdle n := by
  cases t with
  | window space off len =>
    rw [Block.trap, Block.curbWindow]
    exact (h.setReg _ (by simp only [Reg.coreSeqStatus, Reg.coreBoundErr]; omega)).downIdle_curbCore 1 off len
  | poison a len =>
    rw [Block.trap]
    exact h.downIdle_curbCore 8 a len
  | illegal =>
    rw [Block.trap]
    exact h.downIdle_faultStop 5

end

end Sys2Proof.Machine

/-! SUPPORT. The reach of the vector unit and the special-function unit (R79, R117): their operands and results lie in the task's window and in the
core's own buffers, and where an access fails the core stops or is curbed. -/
namespace Sys2Proof.Machine

/- What a unit's work may change -/

/-- Against `m`, work of core `n` that stays inside its task: no byte of memory outside the task's window changes, no operand buffer of another
core, nothing of any core but its notes of memory errors, no register but those of the issue and CORE_NUMSTAT, which loses no bit. -/
structure Block.WorksInside (n : Nat) (m m' : Block) : Prop where
  bytes : SameMemBut (m.windowAt n) (m.windowSize n) m m'
  bufs : ∀ a, a < n * 0x400000 ∨ (n + 1) * 0x400000 ≤ a → m'.bufs.read a = m.bufs.read a
  cores : ∀ k, (m'.core k).work = (m.core k).work
  regs : SameRegsBut (issueRegs n ++ [Reg.coreNumstat n]) m m'
  numstat : ∀ b, bit (m.reg (Reg.coreNumstat n)) b = true → bit (m'.reg (Reg.coreNumstat n)) b = true
  fuse : m'.fuse = m.fuse

/-- Core `n` runs with idle units, and its task's window is made of whole granules of core memory. -/
structure Block.AtWork (m : Block) (n : Nat) : Prop where
  runs : m.RunsIdle n
  window : m.CoreSpan (m.windowAt n) (m.windowSize n)

section
variable {n : Nat} {m m' : Block}

/-- Nothing changes. -/
theorem Block.WorksInside.refl (n : Nat) (m : Block) : m.WorksInside n m :=
  ⟨fun _ _ => rfl, fun _ _ => rfl, fun _ => rfl, fun _ _ => rfl, fun _ h => h, rfl⟩

/-- A register of the map that such work leaves alone. -/
theorem Block.WorksInside.reg (h : m.WorksInside n m') {r : Nat} (h1 : r ≠ Reg.coreSeqPc n) (h2 : r ≠ Reg.coreSeqProgress n)
    (h3 : r ≠ Reg.coreNumstat n) : m'.reg r = m.reg r :=
  h.regs r (by simp only [issueRegs, List.cons_append, List.nil_append, List.mem_cons, List.not_mem_nil, or_false, not_or]; exact ⟨h1, h2, h3⟩)

/-- The window stands where it stood. -/
theorem Block.WorksInside.windowAt (h : m.WorksInside n m') : m'.windowAt n = m.windowAt n := by
  rw [Block.windowAt, Block.windowAt, Block.fld, Block.fld, h.reg (by simp) (by simp) (by simp)]

/-- And is as large. -/
theorem Block.WorksInside.windowSize (h : m.WorksInside n m') : m'.windowSize n = m.windowSize n := by
  rw [Block.windowSize, Block.windowSize, Block.fld, Block.fld, h.reg (by simp) (by simp) (by simp)]

/-- Two pieces of work in turn. -/
theorem Block.WorksInside.trans {m'' : Block} (h : m.WorksInside n m') (h' : m'.WorksInside n m'') : m.WorksInside n m'' := by
  refine ⟨fun x hx => ?_, fun a ha => (h'.bufs a ha).trans (h.bufs a ha), fun k => (h'.cores k).trans (h.cores k),
    fun r hr => (h'.regs r hr).trans (h.regs r hr), fun b hb => h'.numstat b (h.numstat b hb), h'.fuse.trans h.fuse⟩
  have hb := h'.bytes x
  rw [h.windowAt, h.windowSize] at hb
  exact (hb hx).trans (h.bytes x hx)

/-- A core at work stays so. -/
theorem Block.AtWork.of_worksInside (h : m.AtWork n) (hw : m.WorksInside n m') : m'.AtWork n := by
  have hstatus : m'.coreSt n = m.coreSt n := by
    rw [Block.coreSt, Block.coreSt, Block.fld, Block.fld, hw.reg (by simp) (by simp) (by simp)]
  refine ⟨⟨hstatus.trans h.runs.1, h.runs.2.of_work (hw.cores n)⟩, ?_⟩
  rw [hw.windowAt, hw.windowSize]
  refine ⟨h.window.start, h.window.size, fun x h1 h2 => ?_⟩
  rw [Block.region_congr hw.fuse (hw.reg (by simp only [Reg.ddrTierStatus, Reg.coreSeqPc]; omega)
    (by simp only [Reg.ddrTierStatus, Reg.coreSeqProgress]; omega) (by simp only [Reg.ddrTierStatus, Reg.coreNumstat]; omega)) x]
  exact h.window.inCore x h1 h2

/-- Changes of bytes of the window. -/
theorem Block.WorksInside.of_onlyBytes (h : Block.OnlyBytes (m.windowAt n) (m.windowSize n) m m') : m.WorksInside n m' := by
  obtain ⟨hcores, -, -, -, -, -, -, -, -, -, hbufs, hfuse⟩ := h.units
  exact ⟨h.bytes, fun a _ => by rw [hbufs], hcores, fun r _ => h.reg r, fun b hb => by rw [h.reg]; exact hb, hfuse⟩

/-- An update that leaves memory, buffers, cores and registers. -/
theorem Block.WorksInside.of_bystanders (h : m.SameUnits m' ∧ m'.mem = m.mem) (hs : m'.stale = m.stale) (hr : m'.regs = m.regs) :
    m.WorksInside n m' := .of_onlyBytes (.of_bystanders _ _ h hs hr)

/-- Normalising the memories changes no byte. -/
theorem Block.WorksInside.settle (n : Nat) (m : Block) : m.WorksInside n m.settle := by
  obtain ⟨-, ⟨hbytes, -⟩, ⟨hbufs, -⟩, -, -⟩ := OnlyCore.settle n [] m
  exact ⟨fun x _ => hbytes x, fun a _ => hbufs a, fun _ => rfl, fun _ _ => rfl, fun _ h => h, rfl⟩

/-- The issue of an instruction. -/
theorem Block.WorksInside.advance (m : Block) (i : Issue) : m.WorksInside i.core (m.advance i) := by
  obtain ⟨hregs, ⟨hbytes, -⟩, ⟨hbufs, -⟩, -, -⟩ := OnlyCore.advance m i [Reg.coreNumstat i.core]
  have hnumstat : (m.advance i).reg (Reg.coreNumstat i.core) = m.reg (Reg.coreNumstat i.core) := m.reg_advance i _ (by simp [issueRegs])
  exact ⟨fun x _ => hbytes x, fun a _ => hbufs a, fun _ => rfl, hregs, fun b hb => by rw [hnumstat]; exact hb, rfl⟩

/-- The tile's place in issue order is no unit of a core. -/
theorem Block.WorksInside.nextStamp (n : Nat) (m : Block) (t : Nat) : m.WorksInside n (m.nextStamp t).2 :=
  ⟨fun _ _ => rfl, fun _ _ => rfl, fun _ => rfl, fun _ _ => rfl, fun _ h => h, rfl⟩

/-- A bit of a union of words. -/
theorem bit_or (v w : Word) (b : Nat) : bit (v ||| w) b = (bit v b || bit w b) := by
  simp only [bit, BitVec.toNat_or, Nat.testBit_or]

/-- Numerical events add bits to CORE_NUMSTAT (R13, R49). -/
theorem Block.WorksInside.noteEvents (n : Nat) (m : Block) (e : Events) : m.WorksInside n (m.noteEvents n e) := by
  refine ⟨fun _ _ => rfl, fun _ _ => rfl, fun _ => rfl, fun r hr => m.reg_setReg_ne _ r _ fun he => hr (by simp [he]), fun b hb => ?_, rfl⟩
  rw [Block.noteEvents, Block.reg_setReg_self, bit_or, hb, Bool.true_or]

end

/- Places (Table 4.1) -/

section
variable {n : Nat} {m : Block}

/-- An access that its window check lets pass lies in the window. -/
theorem Block.cmAddr_eq_some {off len a : Nat} (h : m.cmAddr? n off len = some a) :
    m.windowAt n ≤ a ∧ a + len ≤ m.windowAt n + m.windowSize n := by
  rw [Block.cmAddr?] at h
  split at h
  · cases h
    rw [Block.windowAt, Block.windowSize]
    omega
  · cases h

/-- A place that may be written lies in core memory or in a buffer. -/
theorem Block.space_of_canWrite {l : Loc} {len : Nat} {u : Unit} (h : m.canWrite n l len = .ok u) : l.space ≠ .pool ∧ l.space ≠ .glob := by
  constructor <;> intro hl <;> rw [Block.canWrite, hl] at h <;> cases h

/-- The keys of a core's buffers are its own. -/
theorem bufBase_bounds (n off : Nat) {sp : Space} (h1 : sp ≠ .pool) (h2 : sp ≠ .glob) (h3 : sp ≠ .core) :
    n * 0x400000 ≤ bufBase n sp + off % bufSize sp ∧ bufBase n sp + off % bufSize sp < (n + 1) * 0x400000 := by
  cases sp <;> simp only [ne_eq, not_true_eq_false] at h1 h2 h3 <;> simp only [bufBase, bufSize] <;> omega

/-- A write to a buffer of core `n` changes that buffer. -/
theorem Block.WorksInside.writeBuf {sp : Space} (h1 : sp ≠ .pool) (h2 : sp ≠ .glob) (h3 : sp ≠ .core) (bs : List Byte) (off : Nat) (m : Block) :
    m.WorksInside n (m.writeBuf n sp off bs) := by
  induction bs generalizing off m with
  | nil => exact .refl n m
  | cons b bs ih =>
    obtain ⟨hlow, hhigh⟩ := bufBase_bounds n off h1 h2 h3
    refine Block.WorksInside.trans ?_ (ih (off + 1) { m with bufs := m.bufs.write (bufBase n sp + off % bufSize sp) b })
    exact ⟨fun _ _ => rfl, fun a ha => Memory.read_write_ne _ _ _ _ (by omega), fun _ => rfl, fun _ _ => rfl, fun _ h => h, rfl⟩

variable (h : m.AtWork n)
include h

/-- A unit comes to read a place. -/
theorem Block.AtWork.worksInside_sense (l : Loc) (len : Nat) : m.WorksInside n (m.sense n l len) := by
  rw [Block.sense]
  split
  · rename_i a _ ha
    obtain ⟨h1, h2⟩ := Block.cmAddr_eq_some ha
    exact .of_onlyBytes (Block.onlyBytes_correct h.window h1 h2)
  · exact .refl n m

/-- The vector unit comes to read a row. -/
theorem Block.AtWork.worksInside_senseRow (r : Row) (k : Nat) : m.WorksInside n (m.senseRow n r k) := by
  have helems := h.worksInside_sense r.loc (elemBytes r.fmt.width k)
  rw [Block.senseRow]
  split
  · exact helems
  · exact helems.trans ((h.of_worksInside helems).worksInside_sense _ _)

/-- A write at a place in core memory or in a buffer. -/
theorem Block.AtWork.worksInside_writeLoc {l : Loc} (hl : l.space ≠ .pool ∧ l.space ≠ .glob) (bs : List Byte) :
    m.WorksInside n (m.writeLoc n l bs) := by
  rw [Block.writeLoc]
  split
  · split
    · exact .refl n m
    · rename_i a ha
      obtain ⟨h1, h2⟩ := Block.cmAddr_eq_some ha
      exact .of_onlyBytes (Block.onlyBytes_homeWrite h.window h1 h2)
  · rename_i sp hsp
    refine (Block.WorksInside.writeBuf hl.1 hl.2 hsp bs l.off m).trans ?_
    exact .of_bystanders ⟨Block.SameUnits.refl _, rfl⟩ rfl rfl

end

/- Steps that may trap -/

/-- What a step leaves when it does not trap stays inside the task. -/
def Block.StepsInside (n : Nat) (m : Block) (r : Except Trap (Block × Events)) : Prop := ∀ w, r = .ok w → m.WorksInside n w.1

section
variable {n : Nat} {m : Block}

/-- A trap leaves nothing. -/
theorem Block.StepsInside.error (t : Trap) : Block.StepsInside n m (.error t) := fun _ hw => nomatch hw

/-- A result. -/
theorem Block.StepsInside.ok {m' : Block} {e : Events} (h : m.WorksInside n m') : Block.StepsInside n m (.ok (m', e)) := by
  rintro w ⟨⟩
  exact h

/-- A step whose first part gives a value goes on with it. -/
theorem Block.StepsInside.bind {α : Type} {r : Except Trap α} {f : α → Except Trap (Block × Events)}
    (h : ∀ a, r = .ok a → Block.StepsInside n m (f a)) : Block.StepsInside n m (r >>= f) := by
  cases r with
  | error t => exact .error t
  | ok a => exact h a rfl

/-- A check that must hold first. -/
theorem Block.StepsInside.unless {c : Bool} {r : Except Trap (Block × Events)} (h : Block.StepsInside n m r) (t : Trap) :
    Block.StepsInside n m (if c then throw t >>= fun _ : Unit => r else r) := by
  cases c with
  | true => exact .error t
  | false => exact h

/-- A step after work that stays inside. -/
theorem Block.StepsInside.after {m' : Block} {r : Except Trap (Block × Events)} (hw : m.WorksInside n m') (h : Block.StepsInside n m' r) :
    Block.StepsInside n m r := fun w e => hw.trans (h w e)

/-- The write of a result that was checked. -/
theorem Block.AtWork.stepsInside_write (h : m.AtWork n) (l : Loc) (k : Nat) (bs : List Byte) (e : Events) :
    Block.StepsInside n m (m.canWrite n l k >>= fun _ => pure (m.writeLoc n l bs, e)) :=
  .bind fun _ hc => .ok (h.worksInside_writeLoc (Block.space_of_canWrite hc) bs)

/-- The write of two results that were both checked. -/
theorem Block.AtWork.stepsInside_write_two (h : m.AtWork n) (l l' : Loc) (k k' : Nat) (bs bs' : List Byte) (e : Events) :
    Block.StepsInside n m (m.canWrite n l k >>= fun _ => m.canWrite n l' k' >>= fun _ => pure ((m.writeLoc n l bs).writeLoc n l' bs', e)) := by
  refine .bind fun _ hc => .bind fun _ hc' => .ok ?_
  have hfirst := h.worksInside_writeLoc (Block.space_of_canWrite hc) bs
  exact hfirst.trans ((h.of_worksInside hfirst).worksInside_writeLoc (Block.space_of_canWrite hc') bs')

variable (h : m.AtWork n)
include h

/-- The write of a row. -/
theorem Block.AtWork.stepsInside_writeRow (r : Row) (vs : List Val) : Block.StepsInside n m (m.writeRow n r vs) := by
  refine .bind fun _ hc => ?_
  have helems := h.worksInside_writeLoc (Block.space_of_canWrite hc) (pack r.fmt.width (encodeRow r.fmt r.scheme r.tscale vs).1)
  dsimp only
  by_cases hs : r.scheme = .none
  · rw [if_neg (not_not.mpr hs), if_pos hs]
    exact .ok helems
  · rw [if_pos hs, if_neg hs]
    exact .bind fun _ hc' => .ok (helems.trans ((h.of_worksInside helems).worksInside_writeLoc (Block.space_of_canWrite hc') _))

/-- VECTOR_ELEMENTWISE. -/
theorem Block.AtWork.stepsInside_elementwise (op : VecOp) (dst a b c : Row) (k : Nat) : Block.StepsInside n m (m.elementwise n op dst a b c k) := by
  have h1 := h.worksInside_senseRow a k
  have h2 := h1.trans ((h.of_worksInside h1).worksInside_senseRow b k)
  have h3 := h2.trans ((h.of_worksInside h2).worksInside_senseRow c k)
  refine .unless (.after h3 ?_) _
  exact .bind fun _ _ => .bind fun _ _ => .bind fun _ _ => (h.of_worksInside h3).stepsInside_write _ _ _ _

/-- VECTOR_CONVERT. -/
theorem Block.AtWork.stepsInside_convertRow (dst src : Row) (k : Nat) : Block.StepsInside n m (m.convertRow n dst src k) := by
  have h1 := h.worksInside_senseRow src k
  refine .after h1 (.bind fun _ _ => .bind fun w hw => ?_)
  exact .ok ((h.of_worksInside h1).stepsInside_writeRow _ _ w hw)

/-- The merge of partials. -/
theorem Block.AtWork.stepsInside_mergeRow (dim : Nat) (dst src : Row) (k : Nat) : Block.StepsInside n m (m.mergeRow n dim dst src k) := by
  have h1 := h.worksInside_sense src.loc (4 * k * (dim + 2))
  exact .after h1 (.bind fun _ _ => (h.of_worksInside h1).stepsInside_write _ _ _ _)

/-- VECTOR_REDUCE. -/
theorem Block.AtWork.stepsInside_reduceRow (op : RedOp) (dst src : Row) (k : Nat) : Block.StepsInside n m (m.reduceRow n op dst src k) := by
  have h1 := h.worksInside_senseRow src k
  have hrow : Block.StepsInside n m (do
      let v ← (m.senseRow n src k).readRow n src k
      let w ← (m.senseRow n src k).writeRow n dst [reduceVals op dst.fmt v.1]
      return (w.1, w.2.join (arithEvents v.1 (reduceVals op dst.fmt v.1)))) :=
    .after h1 (.bind fun _ _ => .bind fun w hw => .ok ((h.of_worksInside h1).stepsInside_writeRow _ _ w hw))
  refine .unless ?_ _
  cases op with
  | merge dim =>
    dsimp only
    split
    · exact h.stepsInside_mergeRow dim dst src k
    · exact .error _
  | _ => exact hrow

/-- COMPENSATED_SPLIT. -/
theorem Block.AtWork.stepsInside_splitRow (src hi lo : Loc) (k : Nat) : Block.StepsInside n m (m.splitRow n src hi lo k) := by
  have h1 := h.worksInside_sense src (4 * k)
  exact .after h1 (.bind fun _ _ => (h.of_worksInside h1).stepsInside_write_two _ _ _ _ _ _ _)

/-- COMPENSATED_COMBINE. -/
theorem Block.AtWork.stepsInside_combineRow (main comp dst : Loc) (k : Nat) : Block.StepsInside n m (m.combineRow n main comp dst k) := by
  have h1 := h.worksInside_sense main (4 * k)
  have h2 := h1.trans ((h.of_worksInside h1).worksInside_sense comp (4 * k))
  exact .after h2 (.bind fun _ _ => .bind fun _ _ => (h.of_worksInside h2).stepsInside_write _ _ _ _)

/-- One row of TOPK. -/
theorem Block.AtWork.stepsInside_topkRow (scores : Loc) (bf16 : Bool) (spitch e k : Nat) (route wgt : Loc) (t : Nat) :
    Block.StepsInside n m (m.topkRow n scores bf16 spitch e k route wgt t) := by
  have h1 := h.worksInside_sense ⟨scores.space, scores.off + t * spitch⟩ (elemBytes (if bf16 then 16 else 32) e)
  exact .after h1 (.bind fun _ _ => (h.of_worksInside h1).stepsInside_write_two _ _ _ _ _ _ _)

/-- One element of GATHER. -/
theorem Block.AtWork.stepsInside_gatherElem (dst src : Loc) (esize : Nat) (ks : List Nat) (j : Nat) :
    Block.StepsInside n m (Block.gatherElem n dst src esize ks m j) := by
  have h1 := h.worksInside_sense ⟨src.space, src.off + ks.getD j 0 * esize⟩ esize
  exact .after h1 (.bind fun _ _ => (h.of_worksInside h1).stepsInside_write _ _ _ _)

/-- One element of SCATTER. -/
theorem Block.AtWork.stepsInside_scatterElem (dst src : Loc) (esize : Nat) (ks : List Nat) (j : Nat) :
    Block.StepsInside n m (Block.scatterElem n dst src esize ks m j) := by
  have h1 := h.worksInside_sense ⟨src.space, src.off + j * esize⟩ esize
  exact .after h1 (.bind fun _ _ => (h.of_worksInside h1).stepsInside_write _ _ _ _)

/-- A special function, whose operand and result lie in the vector buffer (R78). -/
theorem Block.AtWork.stepsInside_sfuRow (g : Val → F32) (dst src : Nat) (bf16 : Bool) (k : Nat) :
    Block.StepsInside n m (m.sfuRow n g dst src bf16 k) :=
  .bind fun _ _ => .ok (h.worksInside_writeLoc ⟨Space.noConfusion, Space.noConfusion⟩ _)

/-- Rows in order, up to the first that traps. -/
theorem Block.AtWork.worksInside_overRows {f : Block → Nat → Except Trap (Block × Events)}
    (hf : ∀ {m : Block}, m.AtWork n → ∀ t, Block.StepsInside n m (f m t)) (k : Nat) : m.WorksInside n (overRows k f m).1 := by
  refine List.foldlRecOn (motive := fun (r : Block × Events × Option Trap) => m.WorksInside n r.1) _ _ (.refl n m) fun r hr t _ => ?_
  split
  · exact hr
  · split
    · rename_i m' e hm
      exact hr.trans (hf (h.of_worksInside hr) t (m', e) hm)
    · exact hr

end

/- The instructions -/

/-- Work stays inside the task, or the core runs no more. -/
def Block.InsideOrDown (n : Nat) (m m' : Block) : Prop := m.WorksInside n m' ∨ m'.DownIdle n

section
variable {n : Nat} {m : Block} (h : m.AtWork n)
include h

/-- The end of an instruction that a trap undoes. -/
theorem Block.AtWork.insideOrDown_finish {r : Except Trap (Block × Events)} (hr : Block.StepsInside n m r) : m.InsideOrDown n (m.finish n r) := by
  cases r with
  | error t => exact .inr (h.runs.downIdle_trap t)
  | ok w => exact .inl ((hr w rfl).trans (.noteEvents n _ _))

/-- The end of an instruction that works row by row. -/
theorem Block.AtWork.insideOrDown_finishRows {r : Block × Events × Option Trap} (hr : m.WorksInside n r.1) :
    m.InsideOrDown n (Block.finishRows n r) := by
  have hnoted := hr.trans (.noteEvents n _ r.2.1)
  rw [Block.finishRows]
  split
  · exact .inr ((h.of_worksInside hnoted).runs.downIdle_trap _)
  · exact .inl hnoted

/-- TOPK, whose operands outside their ranges stop the core (R222). -/
theorem Block.AtWork.insideOrDown_topkRun (scores : Loc) (bf16 : Bool) (spitch rows experts k : Nat) (route wgt : Loc) :
    m.InsideOrDown n (topkRun n scores bf16 spitch rows experts k route wgt m) := by
  unfold topkRun
  extract_lets size
  split
  · exact .inr (h.runs.downIdle_faultStop 6)
  · exact h.insideOrDown_finishRows (h.worksInside_overRows (fun hm t => hm.stepsInside_topkRow _ _ _ _ _ _ _ t) rows)

/-- VECTOR_CONVERT, whose malformed operands stop the core (R28, R73). -/
theorem Block.AtWork.insideOrDown_vectorConvertRun (dst src : Row) (k : Nat) : m.InsideOrDown n (vectorConvertRun n dst src k m) := by
  rw [vectorConvertRun]
  split
  · exact .inr h.runs.downIdle_descriptorStop
  · split
    · exact .inr (h.runs.downIdle_trap _)
    · exact h.insideOrDown_finish (h.stepsInside_convertRow dst src k)

/-- An instruction that reads its indices and then works on its elements. -/
theorem Block.AtWork.insideOrDown_indexed {f : List Nat → Block → Nat → Except Trap (Block × Events)}
    (hf : ∀ ks {m : Block}, m.AtWork n → ∀ t, Block.StepsInside n m (f ks m t)) (idx : Loc) (k : Nat) :
    m.InsideOrDown n (match (m.sense n idx (4 * k)).readIdx n idx k with
      | .error t => (m.sense n idx (4 * k)).trap n t
      | .ok ks => Block.finishRows n (overRows k (f ks) (m.sense n idx (4 * k)))) := by
  have h1 := h.worksInside_sense idx (4 * k)
  have hwork := h.of_worksInside h1
  split
  · exact .inr (hwork.runs.downIdle_trap _)
  · exact h.insideOrDown_finishRows (h1.trans (hwork.worksInside_overRows (hf _) k))

/-- What the vector unit does with an instruction on the core's own places, which it never holds back. -/
theorem Block.AtWork.insideOrDown_vecPerform {c : Instr} {i : Issue} (hc : vectorIssue c = some i) (st : Nat) :
    ∃ m', vecPerform n st c m = some m' ∧ m.InsideOrDown n m' := by
  cases c
  case vectorElementwise => exact ⟨_, rfl, h.insideOrDown_finish (h.stepsInside_elementwise _ _ _ _ _ _)⟩
  case vectorConvert => exact ⟨_, rfl, h.insideOrDown_vectorConvertRun _ _ _⟩
  case vectorReduce => exact ⟨_, rfl, h.insideOrDown_finish (h.stepsInside_reduceRow _ _ _ _)⟩
  case topk => exact ⟨_, rfl, h.insideOrDown_topkRun _ _ _ _ _ _ _ _⟩
  case compensatedSplit => exact ⟨_, rfl, h.insideOrDown_finish (h.stepsInside_splitRow _ _ _ _)⟩
  case compensatedCombine => exact ⟨_, rfl, h.insideOrDown_finish (h.stepsInside_combineRow _ _ _ _)⟩
  case gather => exact ⟨_, rfl, h.insideOrDown_indexed (fun ks _ hm t => hm.stepsInside_gatherElem _ _ _ ks t) _ _⟩
  case scatter => exact ⟨_, rfl, h.insideOrDown_indexed (fun ks _ hm t => hm.stepsInside_scatterElem _ _ _ ks t) _ _⟩
  case exp | rsqrt | recip => exact ⟨_, rfl, .inl (.refl n m)⟩
  all_goals cases hc

/-- What the special-function unit does with one. -/
theorem Block.AtWork.insideOrDown_sfuPerform {c : Instr} {i : Issue} (hc : vectorIssue c = some i) : m.InsideOrDown n (sfuPerform n c m) := by
  cases c
  case exp | rsqrt | recip => exact h.insideOrDown_finish (h.stepsInside_sfuRow _ _ _ _ _)
  case vectorElementwise | vectorConvert | vectorReduce | topk | compensatedSplit | compensatedCombine | gather | scatter =>
    exact .inl (.refl n m)
  all_goals cases hc

end

/- The issue -/

/-- A core whose units have done all their work has nothing to go on with. -/
theorem Block.InsideOrDown.settleCore {n : Nat} {m m' : Block} (h : m.AtWork n) (hw : m.InsideOrDown n m') : m.InsideOrDown n (m'.settleCore n) := by
  rcases hw with hw | hd
  · obtain ⟨hv, hs, hg⟩ := (h.of_worksInside hw).runs.2
    rw [m'.settleCore_of_idle n hv hs hg]
    exact .inl hw
  · exact .inr hd.settleCore

section
variable {m : Block} {i : Issue} (h : m.AtWork i.core)
include h

/-- A fetch stays inside the task. -/
theorem Block.AtWork.worksInside_fetch {f : Block} (hf : m.fetch i = some f) : m.WorksInside i.core f := by
  simp only [Block.fetch] at hf
  split at hf
  · split at hf
    · cases hf
    · rename_i a ha
      obtain ⟨h1, h2⟩ := Block.cmAddr_eq_some ha
      split at hf
      · cases hf
      · cases hf
        exact .of_onlyBytes (Block.onlyBytes_correct h.window h1 h2)
  · cases hf

/-- The block that a core's work is measured against is reached by work that stays inside. -/
theorem Block.AtWork.worksInside_fetched : m.WorksInside i.core ((m.fetch i).getD m) := by
  cases hf : m.fetch i with
  | none => exact .refl i.core m
  | some f => exact h.worksInside_fetch hf

/-- A fetch that fails stops or curbs the core, or the core did not issue (R85, R117, R447). -/
theorem Block.AtWork.insideOrDown_of_no_fetch (hf : m.fetch i = none) (k : Block → Block) : m.InsideOrDown i.core (m.issue i k) := by
  rcases m.issue_cases i k with e | e | e | ⟨a, ha, e⟩ | ⟨f, he, -⟩
  · rw [e]
    exact .inl (.refl i.core m)
  · rw [e]
    exact .inr (h.runs.downIdle_faultStop 5)
  · rw [e]
    exact .inr (h.runs.downIdle_trap (.window 0 _ _))
  · rw [e]
    obtain ⟨h1, h2⟩ := Block.cmAddr_eq_some ha
    have hfound : m.WorksInside i.core (m.correct a i.len) := .of_onlyBytes (Block.onlyBytes_correct h.window h1 h2)
    exact .inr ((h.of_worksInside hfound).runs.downIdle_curbCore 8 _ _)
  · exact absurd (hf.symm.trans he) (by simp)

/-- An issued instruction of the vector unit, against the block after its fetch. -/
theorem Block.AtWork.insideOrDown_issueVec {c : Instr} (hc : vectorIssue c = some i) : ((m.fetch i).getD m).InsideOrDown i.core (issueVec i c m) := by
  have hv := h.runs.2.1
  cases hf : m.fetch i with
  | none =>
    rw [issueVec, if_neg (by simp [hv])]
    exact h.insideOrDown_of_no_fetch hf _
  | some f =>
    have hwork := h.of_worksInside (h.worksInside_fetch hf)
    have hissued := (Block.WorksInside.advance f i).trans (.nextStamp i.core _ (i.core / 8))
    obtain ⟨m', hp, hm'⟩ := (hwork.of_worksInside hissued).insideOrDown_vecPerform hc ((f.advance i).nextStamp (i.core / 8)).1
    have hfv : m.fetchVec i = some ((f.advance i).nextStamp (i.core / 8)) := by simp [Block.fetchVec, hv, hf]
    rw [issueVec_of_fetchVec hfv hp]
    exact Block.InsideOrDown.settleCore hwork (hm'.imp_left hissued.trans)

/-- The same of the special-function unit. -/
theorem Block.AtWork.insideOrDown_issueSfu {c : Instr} (hc : vectorIssue c = some i) : ((m.fetch i).getD m).InsideOrDown i.core (issueSfu i c m) := by
  have hs := h.runs.2.2.1
  cases hf : m.fetch i with
  | none =>
    rw [issueSfu, if_neg (by simp [hs])]
    exact h.insideOrDown_of_no_fetch hf _
  | some f =>
    have hwork := h.of_worksInside (h.worksInside_fetch hf)
    have hissued := Block.WorksInside.advance f i
    have hm' := (hwork.of_worksInside hissued).insideOrDown_sfuPerform hc
    have hfs : m.fetchSfu i = some (f.advance i) := by simp [Block.fetchSfu, hs, hf]
    rw [issueSfu_of_fetchSfu hfs]
    exact Block.InsideOrDown.settleCore hwork (hm'.imp_left hissued.trans)

end

/-- Each such instruction is issued to one of the two units. -/
theorem exec_of_vectorIssue {c : Instr} {i : Issue} (hc : vectorIssue c = some i) (s : State) :
    exec c s = s.commit (issueVec i c s.m) ∨ exec c s = s.commit (issueSfu i c s.m) := by
  cases c
  case vectorElementwise | vectorConvert | vectorReduce | topk | compensatedSplit | compensatedCombine | gather | scatter =>
    cases hc
    exact .inl rfl
  case exp | rsqrt | recip =>
    cases hc
    exact .inr rfl
  all_goals cases hc

/-- A core that does not run does not change. -/
theorem issue_of_not_running {c : Instr} {i : Issue} {m : Block} (hst : m.coreSt i.core ≠ 1) :
    m.fetch i = none ∧ issueVec i c m = m ∧ issueSfu i c m = m := by
  have hi : m.issuing i.core = false := Bool.eq_false_iff.mpr fun h => hst (Block.coreSt_of_issuing h)
  exact ⟨by simp [Block.fetch, hi], (issueVec_issuesOrWaits i c m).eq_of_not_issuing hi, (issueSfu_issuesOrWaits i c m).eq_of_not_issuing hi⟩

/-- Settles O14: the work of either unit stays inside the task, or its core runs no more. -/
theorem vectorWorkStaysInside : Obligations.VectorWorkStaysInside := by
  intro c i s t hc _ hexec hrun hv hs hg hwindow f
  suffices hinside : f.WorksInside i.core t.m ∧ f.windowAt i.core = s.m.windowAt i.core ∧ f.windowSize i.core = s.m.windowSize i.core by
    obtain ⟨⟨hbytes, hbufs, hcores, hregs, hnumstat, -⟩, hat, hsize⟩ := hinside
    exact ⟨hat ▸ hsize ▸ hbytes, hbufs, hcores, hregs, hnumstat⟩
  obtain ⟨m', hm', hcommit⟩ : ∃ m', (m' = issueVec i c s.m ∨ m' = issueSfu i c s.m) ∧ t.m = m'.settle := by
    rcases exec_of_vectorIssue hc s with e | e <;> rw [e] at hexec <;> cases hexec
    · exact ⟨_, .inl rfl, rfl⟩
    · exact ⟨_, .inr rfl, rfl⟩
  rw [hcommit] at hrun ⊢
  by_cases hst : s.m.coreSt i.core = 1
  · have hspan : s.m.CoreSpan (s.m.windowAt i.core) (s.m.windowSize i.core) :=
      ⟨by rw [Block.windowAt, coreWindow]; omega, by rw [Block.windowSize]; omega, fun x h1 h2 => ⟨i.core, hwindow x h1 h2⟩⟩
    have hwork : s.m.AtWork i.core := ⟨⟨hst, hv, hs, hg⟩, hspan⟩
    have hfetched : s.m.WorksInside i.core f := hwork.worksInside_fetched
    have hout : f.InsideOrDown i.core m' := hm'.elim (fun e => e ▸ hwork.insideOrDown_issueVec hc) fun e => e ▸ hwork.insideOrDown_issueSfu hc
    exact ⟨(hout.resolve_right fun hd => hd.1 hrun).trans (.settle i.core m'), hfetched.windowAt, hfetched.windowSize⟩
  · obtain ⟨hf, hvec, hsfu⟩ := issue_of_not_running (c := c) hst
    have hfs : f = s.m := by simp only [f, hf, Option.getD_none]
    have hsame : m' = s.m := hm'.elim (fun e => e.trans hvec) fun e => e.trans hsfu
    rw [hsame, hfs]
    exact ⟨.settle i.core s.m, rfl, rfl⟩

end Sys2Proof.Machine

/-! SUPPORT. Copies (R120 to R125, R447, R514): how one granule moves, how much an engine moves, and when a descriptor ends. -/
namespace Sys2Proof.Machine

/- One granule -/

section
variable {m : Block} {v : Mover} {p d : Place} {a b kind : Nat}

/-- With room at its destination a granule is taken from its source and put there. -/
theorem Block.moveGranule_of_room (h : m.putRoom v d = true) (src : Option Place) (tag : Option Nat) :
    m.moveGranule v src d tag = m.takeGranule v src tag fun m1 bs bad => m1.putGranule v d bs bad := by
  simp only [Block.moveGranule, h, Bool.not_true, Bool.false_eq_true, if_false]

/-- A granule of this module's memory that no host holds is read with its poison, the errors there found (R125). -/
theorem Block.takeGranule_of_here (hs : m.spot v p false = .here a) (hx : m.heldExclusive a 128 = false) (tag : Option Nat)
    (k : Block → List Byte → Bool → Moved) :
    m.takeGranule v (some p) tag k = k (m.correct a 128) ((m.correct a 128).readMem a 128) ((m.correct a 128).poisoned a 128) := by
  simp only [Block.takeGranule, hs, hx, Bool.false_eq_true, if_false]

/-- A source that fails its check curbs the mover (R447). -/
theorem Block.takeGranule_of_bad (hs : m.spot v p false = .bad kind) (tag : Option Nat) (k : Block → List Byte → Bool → Moved) :
    m.takeGranule v (some p) tag k = .curbed (m.curb v.mtype v.idx v.tenant v.ctx kind p.addr 128 (m.remoteNode p.addr)) := by
  simp only [Block.takeGranule, hs]

/-- Zeros need no source. -/
theorem Block.takeGranule_none (m : Block) (v : Mover) (tag : Option Nat) (k : Block → List Byte → Bool → Moved) :
    m.takeGranule v none tag k = k m (List.replicate 128 0) false := rfl

/-- A destination in this module is written whole, and one in hitch memory curbs the mover with KIND 5 (R95, R125). -/
theorem Block.putGranule_of_here (hd : m.spot v d true = .here b) (bs : List Byte) (bad : Bool) :
    m.putGranule v d bs bad =
      if m.tagged b 128 then .curbed (m.curb v.mtype v.idx v.tenant v.ctx 5 d.addr 128 none)
      else .moved (m.owning v.code v.tenant v.ctx fun x => x.homeWriteP b bs bad) := by
  simp only [Block.putGranule, hd]

/-- A destination that fails its check curbs the mover (R447). -/
theorem Block.putGranule_of_bad (hd : m.spot v d true = .bad kind) (bs : List Byte) (bad : Bool) :
    m.putGranule v d bs bad = .curbed (m.curb v.mtype v.idx v.tenant v.ctx kind d.addr 128 (m.remoteNode d.addr)) := by
  simp only [Block.putGranule, hd]

end

/-- Settles O19: with room at its destination a granule is taken and put, each by its own rule. -/
theorem granuleMoves : Obligations.GranuleMoves := by
  refine ⟨?_, ?_, ?_, ?_⟩
  · intro m v p d a b hroom hsrc hheld e hdst htag
    rw [Block.moveGranule_of_room hroom, Block.takeGranule_of_here hsrc hheld, Block.putGranule_of_here hdst, htag, if_neg Bool.false_ne_true]
  · intro m v p d kind hroom hsrc
    rw [Block.moveGranule_of_room hroom, Block.takeGranule_of_bad hsrc]
  · intro m v d kind hroom hdst
    rw [Block.moveGranule_of_room hroom, Block.takeGranule_none, Block.putGranule_of_bad hdst]
  · intro m v d b hroom hdst
    rw [Block.moveGranule_of_room hroom, Block.takeGranule_none, Block.putGranule_of_here hdst]

/- COPY_SUBMIT (R120, R121) -/

/-- COPY_SUBMIT commits its effect. -/
theorem exec_copySubmit (i : Issue) (k desc : Nat) (s : State) : exec (.copySubmit i k desc) s = s.commit (copySubmitEffect i k desc s.m) := rfl

/-- DMA_SLICE_TIMEOUT commits its effect. -/
theorem exec_dmaSliceTimeout (t e n : Nat) (s : State) : exec (.dmaSliceTimeout t e n) s = s.commit (dmaSliceTimeoutEffect t e n s.m) := rfl

/-- COPY_DESCRIPTOR_COMPLETE commits its effect. -/
theorem exec_copyDescriptorComplete (t k : Nat) (s : State) :
    exec (.copyDescriptorComplete t k) s = s.commit (copyDescriptorCompleteEffect t k s.m) := rfl

/-- Whether channel `k` of its tile belongs to the context of core `n` (R120). -/
def Block.ownsChannel (m : Block) (n k : Nat) : Prop :=
  k ≤ 127 ∧ m.fld (Reg.tileDmaOwner (n / 8) k) 63 63 = 1 ∧ m.fld (Reg.tileDmaOwner (n / 8) k) 12 8 = m.coreTenant n ∧
    m.fld (Reg.tileDmaOwner (n / 8) k) 7 0 = m.coreCtx n

/-- The model's test for a channel of another owner, or an index above 127. -/
theorem Block.not_ownsChannel_iff (m : Block) (n k : Nat) : ¬ m.ownsChannel n k ↔
    k > 127 ∨ (!(m.fld (Reg.tileDmaOwner (n / 8) k) 63 63 == 1 && m.fld (Reg.tileDmaOwner (n / 8) k) 12 8 == m.coreTenant n &&
      m.fld (Reg.tileDmaOwner (n / 8) k) 7 0 == m.coreCtx n)) = true := by
  rw [Bool.not_eq_true', ← Bool.not_eq_true, Bool.and_eq_true, Bool.and_eq_true, beq_iff_eq, beq_iff_eq, beq_iff_eq, Block.ownsChannel,
    gt_iff_lt, ← not_le, ← not_and_or, and_assoc]

section
variable {m f : Block} {i : Issue} {k desc : Nat} (hf : m.fetch i = some f) (hroom : (m.core i.core).copyQ.length < 8)
include hf hroom

/-- A channel of another owner, or an index above 127, curbs the core with KIND 6. -/
theorem copySubmitEffect_of_not_owner (ho : ¬ (f.advance i).ownsChannel i.core k) :
    copySubmitEffect i k desc m = (f.advance i).curbCore i.core 6 k 0 := by
  rw [copySubmitEffect, if_neg hroom.not_ge, Block.issue_of_fetch hf, if_pos ((Block.not_ownsChannel_iff _ _ _).mp ho)]

/-- A descriptor for a channel of the context enters the copy queue. -/
theorem copySubmitEffect_of_owner {bs : List Byte} (ho : (f.advance i).ownsChannel i.core k)
    (hr : ((f.advance i).sense i.core ⟨.core, desc⟩ 64).readLoc i.core ⟨.core, desc⟩ 64 = .ok bs) :
    copySubmitEffect i k desc m =
      ((((f.advance i).sense i.core ⟨.core, desc⟩ 64).modCore i.core fun c => { c with copyQ := c.copyQ ++
        [(k, { words := leWords 8 bs, core := i.core, aligned := desc % 64 == 0 })] }).pumpTile (i.core / 8)) := by
  have hown := mt (Block.not_ownsChannel_iff (f.advance i) i.core k).mpr (not_not.mpr ho)
  rw [copySubmitEffect, if_neg hroom.not_ge, Block.issue_of_fetch hf, if_neg hown]
  simp only [hr]

end

/- The engines (R122) -/

/-- An engine moves no more granules of a channel than it is given. -/
theorem Block.moveChan_le (t k fuel left : Nat) (m : Block) : (Block.moveChan t k fuel left m).2 ≤ left := by
  induction fuel generalizing left m with
  | zero => exact Nat.zero_le _
  | succ fuel ih =>
    rw [Block.moveChan]
    split
    · exact Nat.zero_le _
    · split
      · exact Nat.zero_le _
      · split
        · split
          · exact ih left _
          · exact Nat.zero_le _
        · split
          · exact Nat.zero_le _
          · rename_i hleft
            split
            · exact Nat.zero_le _
            · exact Nat.zero_le _
            · exact Nat.add_le_of_le_sub (Nat.pos_of_ne_zero hleft) (ih (left - 1) _)

/-- Nor of the command channel's COPY. -/
theorem Block.moveCmd_le (t fuel : Nat) (m : Block) : (Block.moveCmd t fuel m).2 ≤ fuel := by
  induction fuel generalizing m with
  | zero => exact Nat.zero_le _
  | succ fuel ih =>
    rw [Block.moveCmd]
    split
    · exact Nat.zero_le _
    · split
      · exact Nat.zero_le _
      · dsimp only
        split
        · exact Nat.zero_le _
        · split
          · exact Nat.zero_le _
          · exact Nat.zero_le _
          · exact Nat.succ_le_succ (ih _)

/-- A slice gives 32 granules at most. -/
theorem TileState.sliceLeft_le (x : TileState) (e : Nat) : x.sliceLeft e ≤ 32 := Nat.sub_le _ _

section
variable {m : Block} {t e : Nat}

/-- An engine works on its channel, and its slice over it takes the next. -/
theorem dmaSliceTimeoutEffect_of_channel {k : Nat} (n : Nat) (h : (m.tile t).engines[e]? = some (some k)) :
    dmaSliceTimeoutEffect t e n m = ((m.sliceWork t e k n).nextSlice t e).pumpTile t := by
  rw [dmaSliceTimeoutEffect, h]

/-- An engine without a channel is given one. -/
theorem dmaSliceTimeoutEffect_of_idle (n : Nat) (h : (m.tile t).engines[e]? = some none) : dmaSliceTimeoutEffect t e n m = m.assignEngines t := by
  rw [dmaSliceTimeoutEffect, h]

end

/- The end of a descriptor (R125) -/

/-- The first descriptor `j` of a channel has ended: every granule is written, home and acknowledged. -/
def Block.headDone (m : Block) (t k : Nat) (j : CopyJob) : Prop :=
  m.chanSt t k = 1 ∧ j.total ≤ j.done ∧ m.allAcked (m.chanMover t k j).code = true ∧ m.placed (m.chanMover t k j) j.dst j.total = true

/-- The model's test for one that has not. -/
theorem Block.not_headDone_iff (m : Block) (t k : Nat) (j : CopyJob) : ¬ m.headDone t k j ↔
    (m.chanSt t k ≠ 1 ∨ j.done < j.total ∨ (!m.allAcked (m.chanMover t k j).code) = true ∨ (!m.placed (m.chanMover t k j) j.dst j.total) = true) := by
  simp only [Block.headDone, not_and_or, not_le, Bool.not_eq_true, Bool.not_eq_true', ne_eq]

section
variable {m : Block} {t k : Nat} {j : CopyJob} {rest : List CopyJob} (h : m.chan t k = j :: rest)
include h

/-- One that has not ended stays. -/
theorem Block.endHead_of_open (hd : ¬ m.headDone t k j) : m.endHead t k = none := by
  simp only [Block.endHead, h]
  exact if_pos ((m.not_headDone_iff t k j).mp hd)

/-- One that has is counted, and its hitch signalled when it asks for that. -/
theorem Block.endHead_of_done (hd : m.headDone t k j) :
    m.endHead t k =
      let v := m.chanMover t k j
      let m1 := (m.setChan t k rest).addFld (Reg.tileDmaStatus t k) 31 0 1
      let m2 := if bit (wordAt j.words 0) 57 then m1.signal v.tenant v.ctx (field (wordAt j.words 4) 41 32) (field (wordAt j.words 4) 31 0) else m1
      some (((m2.syncChan t k).headCheck t k).restCore j.core) := by
  simp only [Block.endHead, h]
  exact if_neg (mt (m.not_headDone_iff t k j).mpr (not_not.mpr hd))

end

/-- The block once the engine that serves channel `k`, if one does, has moved up to `left` granules of it. -/
def Block.workedOn (m : Block) (t k left : Nat) : Block :=
  match m.copyEngineOf t k with
  | some e => m.sliceWork t e k left
  | none => m

/-- An engine that serves the channel works on it. -/
theorem Block.workedOn_of_engine {m : Block} {t k e : Nat} (left : Nat) (h : m.copyEngineOf t k = some e) :
    m.workedOn t k left = m.sliceWork t e k left := by
  rw [Block.workedOn, h]

/-- Without one nothing moves. -/
theorem Block.workedOn_of_no_engine {m : Block} {t k : Nat} (left : Nat) (h : m.copyEngineOf t k = none) : m.workedOn t k left = m := by
  rw [Block.workedOn, h]

/-- In either case it is the block reached. -/
theorem Block.workedOn_eq {m m' : Block} {t k left : Nat} (hn : m.copyEngineOf t k = none → m = m')
    (he : ∀ e, m.copyEngineOf t k = some e → m.sliceWork t e k left = m') : m.workedOn t k left = m' := by
  cases h : m.copyEngineOf t k with
  | none => exact (Block.workedOn_of_no_engine left h).trans (hn h)
  | some e => exact (Block.workedOn_of_engine left h).trans (he e h)

/-- COPY_DESCRIPTOR_COMPLETE of a channel: the engine's work, and the end of the first descriptor where none has ended on the way. -/
theorem copyDescriptorCompleteEffect_of_channel {m m1 m2 : Block} {t k : Nat} (hk : k ≠ 128) (h1 : m.assignEngines t = m1)
    (h2 : m1.workedOn t k (((m1.chan t k).head?).elim 0 fun j => j.total - j.done) = m2) :
    copyDescriptorCompleteEffect t k m =
      if (m2.chan t k).length < (m1.chan t k).length then m2.pumpTile t else (m2.endHead t k).elim m2 fun m3 => m3.pumpTile t := by
  subst h1
  cases he : (m.assignEngines t).copyEngineOf t k with
  | none =>
    rw [Block.workedOn_of_no_engine _ he] at h2
    subst h2
    simp only [copyDescriptorCompleteEffect, hk, if_false, he]
    cases (m.assignEngines t).endHead t k <;> simp only [Option.elim_none, Option.elim_some]
  | some e =>
    rw [Block.workedOn_of_engine _ he] at h2
    simp only [copyDescriptorCompleteEffect, hk, if_false, he, h2]
    cases m2.endHead t k <;> simp only [Option.elim_none, Option.elim_some]

/- The command channel (R514) -/

/-- A COPY whose every granule is written, home and acknowledged completes its command. -/
theorem Block.endCmd_of_done {m : Block} {t : Nat} {c : Cmd} (hc : (m.tile t).cmdChan = some c.q) (hr : m.running c.q = some c)
    (hd : c.copyTotal ≤ (m.tile t).cmdDone) (ha : m.allAcked (Master.code (.cmdChan t)) = true)
    (hp : m.placed (cmdMover t c.q) (fun d => ⟨0, (c.p 1).toNat + 128 * d⟩) c.copyTotal = true) :
    m.endCmd t = ((m.modTile t fun x => { x with cmdChan := none, cmdDone := 0 }).complete c.q 0 0).assignEngines t := by
  simp only [Block.endCmd, hc, Option.bind_some, hr]
  exact if_pos ⟨hd, ha, hp⟩

/-- COPY_DESCRIPTOR_COMPLETE of the command channel works on its COPY and ends it when it can. -/
theorem copyDescriptorCompleteEffect_of_command {m m1 m2 : Block} {t : Nat} (h1 : m.assignEngines t = m1)
    (h2 : m1.workedOn t 128 (((m1.tile t).cmdChan.bind m1.running).elim 0 fun c => c.copyTotal - (m1.tile t).cmdDone) = m2) :
    copyDescriptorCompleteEffect t 128 m = m2.endCmd t := by
  subst h1
  cases he : (m.assignEngines t).copyEngineOf t 128 with
  | none =>
    rw [Block.workedOn_of_no_engine _ he] at h2
    subst h2
    simp only [copyDescriptorCompleteEffect, if_true, he]
  | some e =>
    rw [Block.workedOn_of_engine _ he] at h2
    simp only [copyDescriptorCompleteEffect, if_true, he, h2]

/-- Settles O18: the submission, the slice, and the ends of a descriptor and of a COPY. -/
theorem copyChannels : Obligations.CopyChannels := by
  refine ⟨?_, ?_, ?_, ?_, ?_, ?_, ?_⟩
  · intro i k desc bs s f hf hroom m e o owns
    exact ⟨fun ho => gives_of_commit (exec_copySubmit i k desc s) (copySubmitEffect_of_not_owner hf hroom ho),
      fun ho hr => gives_of_commit (exec_copySubmit i k desc s) (copySubmitEffect_of_owner hf hroom ho hr)⟩
  · intro t e k n s h
    exact gives_of_commit (exec_dmaSliceTimeout t e n s) (dmaSliceTimeoutEffect_of_channel n h)
  · intro t e n s h
    exact gives_of_commit (exec_dmaSliceTimeout t e n s) (dmaSliceTimeoutEffect_of_idle n h)
  · intro t k fuel left m
    exact ⟨Block.moveChan_le t k fuel left m, Block.moveCmd_le t left m, (m.tile t).sliceLeft_le k⟩
  · intro t k s hk m m2
    have hexec := exec_copyDescriptorComplete t k s
    have hworked : m.workedOn t k (((m.chan t k).head?).elim 0 fun j => j.total - j.done) = m2 :=
      Block.workedOn_eq (fun he => by simp only [m2, he]) fun e he => by simp only [m2, he]
    have heffect := copyDescriptorCompleteEffect_of_channel hk.ne rfl hworked
    exact ⟨fun h => gives_of_commit hexec (heffect.trans (if_pos h)),
      fun m3 h he => gives_of_commit hexec (heffect.trans ((if_neg h.not_gt).trans (by rw [he, Option.elim_some]))),
      fun h he => gives_of_commit hexec (heffect.trans ((if_neg h.not_gt).trans (by rw [he, Option.elim_none])))⟩
  · intro t k j rest m h v done m1 m2
    exact ⟨fun hd => Block.endHead_of_done h hd, fun hd => Block.endHead_of_open h hd⟩
  · intro t c s m0 m hc hr hd ha hp
    have hworked : m0.workedOn t 128 (((m0.tile t).cmdChan.bind m0.running).elim 0 fun c => c.copyTotal - (m0.tile t).cmdDone) = m :=
      Block.workedOn_eq (fun he => by simp only [m, he]) fun e he => by simp only [m, he]
    exact gives_of_commit (exec_copyDescriptorComplete t 128 s)
      ((copyDescriptorCompleteEffect_of_command rfl hworked).trans (Block.endCmd_of_done hc hr hd ha hp))

end Sys2Proof.Machine

/-! SUPPORT. ACQUIRE, RELEASE and FENCE (R147, R148, Table 6.2): the hold that begins, and its end. -/
namespace Sys2Proof.Machine

/- The hold begins -/

/-- ACQUIRE commits its effect. -/
theorem exec_acquire (i : Issue) (s : State) : exec (.acquire i) s = s.commit (orderEffect .acquire i s.m) := rfl

/-- RELEASE commits its effect. -/
theorem exec_release (i : Issue) (s : State) : exec (.release i) s = s.commit (orderEffect .release i s.m) := rfl

/-- FENCE commits its effect. -/
theorem exec_fence (i : Issue) (s : State) : exec (.fence i) s = s.commit (orderEffect .fence i s.m) := rfl

/-- TILE_LC_ACQ counts an ACQUIRE or FENCE (R155). -/
def Block.countOrder (m : Block) (t : Nat) (h : Hold) : Block := if h = .release then m else m.addFld (Reg.tileLcAcq t) 63 0 1

/-- The tile takes its next place in issue order, which bears on no issue; then the instruction is counted and the hold begins. -/
theorem orderEffect_of_fetch {m f : Block} {i : Issue} (hf : m.fetch i = some f) (h : Hold) :
    orderEffect h i m = (((f.nextStamp (i.core / 8)).2.advance i).countOrder (i.core / 8) h).modCore i.core fun c =>
      { c with hold := h, ordStamp := (f.tile (i.core / 8)).stamp + 1 } := by
  rw [orderEffect, Block.issue_of_fetch hf]
  rfl

/-- The count is none of the registers that an issue writes. -/
theorem Reg.tileLcAcq_notMem_issueRegs (t n : Nat) : Reg.tileLcAcq t ∉ issueRegs n := by
  simp only [issueRegs, Reg.tileLcAcq, Reg.coreSeqPc, Reg.coreSeqProgress, List.mem_cons, List.not_mem_nil, or_false]
  omega

/-- What is added to a whole register. -/
theorem Block.reg_addFld_whole (m : Block) (r k : Nat) : (m.addFld r 63 0 k).reg r = m.reg r + BitVec.ofNat 64 k := by
  rw [Block.addFld, Block.reg_setFld_self, putField_whole, Block.fld, field_whole, BitVec.ofNat_add, BitVec.ofNat_toNat, BitVec.setWidth_eq]

section
variable (m : Block) (t : Nat) (h : Hold)

/-- Only the count changes. -/
theorem OnlyRegs.countOrder : OnlyRegs [Reg.tileLcAcq t] m (m.countOrder t h) := by
  rw [Block.countOrder]
  split
  · exact OnlyRegs.refl _ m
  · exact OnlyRegs.setReg m _ (List.mem_singleton_self _)

/-- A RELEASE is not counted, an ACQUIRE or FENCE once. -/
theorem Block.reg_countOrder :
    (m.countOrder t h).reg (Reg.tileLcAcq t) = m.reg (Reg.tileLcAcq t) + BitVec.ofNat 64 (if h = .release then 0 else 1) := by
  rw [Block.countOrder]
  split
  · exact (BitVec.add_zero _).symm
  · exact m.reg_addFld_whole _ 1

end

/-- A change of registers is a change of a core that leaves its state. -/
theorem OnlyRegs.onlyCore {rs : List Nat} {a b : Block} (h : OnlyRegs rs a b) (n : Nat) : OnlyCore n rs a b := by
  obtain ⟨hreg, hmem, hbufs, hcore, hunits, -⟩ := h
  exact ⟨hreg, hmem, hbufs, fun k _ => hcore k, hunits⟩

/-- An instruction that is counted and sets its core's own state. -/
theorem Ran.countOrder (m : Block) (i : Issue) (t : Nat) (h : Hold) (g : CoreState → CoreState) :
    Ran i (m.pcAfter i) (g (m.core i.core)) [Reg.tileLcAcq t] m (((m.advance i).countOrder t h).modCore i.core g).settle := by
  have honly := (OnlyRegs.countOrder (m.advance i) t h).onlyCore i.core
  obtain ⟨hreg, -, -, hcore, -⟩ := OnlyRegs.countOrder (m.advance i) t h
  have hissue {r : Nat} (hr : r ∈ issueRegs i.core) : ((m.advance i).countOrder t h).reg r = (m.advance i).reg r :=
    hreg r fun e => Reg.tileLcAcq_notMem_issueRegs t i.core (List.mem_singleton.mp e ▸ hr)
  refine ⟨?_, ?_, ?_, ?_⟩
  · exact (congrArg (fun w => field w 47 0) (hissue (by simp [issueRegs]))).trans (m.pc_advance i)
  · exact (hissue (by simp [issueRegs])).trans (m.progress_advance i)
  · rw [Block.core_settle, Block.core_modCore_self, hcore, Block.core_advance]
  · exact (((OnlyCore.advance m i _).trans (honly.mono (by simp))).trans (OnlyCore.modCore _ _ _ g)).trans (OnlyCore.settle _ _ _)

/-- The block after an ACQUIRE, RELEASE or FENCE that holds its core: the tile's next place in issue order is taken. -/
theorem orderEffect_post {m f : Block} {i : Issue} (hf : m.fetch i = some f) (h : Hold) :
    let t := i.core / 8
    let st := (f.tile t).stamp + 1
    let r := (orderEffect h i m).settle
    Ran i (f.pcAfter i) { f.core i.core with hold := h, ordStamp := st } [Reg.tileLcAcq t] (f.nextStamp t).2 r ∧
      r.reg (Reg.tileLcAcq t) = f.reg (Reg.tileLcAcq t) + BitVec.ofNat 64 (if h = .release then 0 else 1) ∧
      r.tile t = { f.tile t with stamp := st } := by
  intro t st r
  have hr : r = (orderEffect h i m).settle := rfl
  rw [orderEffect_of_fetch hf] at hr
  have hran := Ran.countOrder (f.nextStamp t).2 i t h fun c => { c with hold := h, ordStamp := st }
  rw [← hr] at hran
  refine ⟨hran, ?_, ?_⟩
  · rw [hr, Block.reg_settle, Block.reg_modCore, Block.reg_countOrder, Block.reg_advance _ _ _ (Reg.tileLcAcq_notMem_issueRegs _ _)]
    rfl
  · obtain ⟨-, -, -, -, -, -, -, hunits⟩ := hran
    have htile : r.units.tile t = (f.nextStamp t).2.units.tile t := by rw [hunits]
    exact htile.trans (f.tile_modTile_self t fun x => { x with stamp := x.stamp + 1 })

/- The hold ends -/

/-- ORDER_HOLD_END commits its effect. -/
theorem exec_orderHoldEnd (n : Nat) (s : State) : exec (.orderHoldEnd n) s = s.commit (orderHoldEndEffect n s.m) := rfl

/-- The end of core `n`'s hold as its tile's line cache sees it: an ACQUIRE or FENCE shuts out the lines filled before it (Table 6.2). -/
def Block.passOrder (m : Block) (n : Nat) : Block := if (m.core n).hold = .release then m else m.acquired n (m.core n).ordStamp

/-- A hold whose condition is met ends. -/
theorem orderHoldEndEffect_of_met {m : Block} {n : Nat} (h : m.orderMet n (m.core n).hold = true) :
    orderHoldEndEffect n m = (m.passOrder n).modCore n fun c => { c with hold := .none } := by
  simp only [orderHoldEndEffect, h, if_true, Block.passOrder]

section
variable (m : Block) (n : Nat)

/-- The oldest fill that serves a later load, once the hold has ended. -/
theorem Block.floor_passOrder : ((m.passOrder n).tile (n / 8)).floor =
    if (m.core n).hold = .release then (m.tile (n / 8)).floor else max (m.tile (n / 8)).floor (m.core n).ordStamp := by
  rw [Block.passOrder]
  split
  · rfl
  · rw [Block.acquired, Block.tile_modTile_self]

/-- No line goes. -/
theorem Block.lines_passOrder : ((m.passOrder n).tile (n / 8)).lines = (m.tile (n / 8)).lines := by
  rw [Block.passOrder]
  split
  · rfl
  · rw [Block.acquired, Block.tile_modTile_self]

/-- The cores stand. -/
theorem Block.core_passOrder (k : Nat) : (m.passOrder n).core k = m.core k := by
  rw [Block.passOrder]
  split <;> rfl

/-- The end of a hold leaves the memory, the buffers, the registers and the stores under way. -/
theorem Block.StoresStand.passOrder : m.StoresStand (m.passOrder n) := by
  rw [Block.passOrder]
  split
  · exact Block.StoresStand.refl m
  · exact Block.StoresStand.modTile m _ _

end

/-- The canonical form of the memories changes no byte. -/
theorem Block.StoresStand.settle (m : Block) : m.StoresStand m.settle := by
  obtain ⟨hreg, hmem, hbufs, -⟩ := OnlyRegs.settle [] m
  exact ⟨fun _ => rfl, hmem, hreg, hbufs⟩

/-- A line filled before the oldest fill that may serve a load does not serve it. -/
theorem Line.serves_of_lt {x : Line} {fl : Nat} (h : x.stamp < fl) (node : Option Nat) (g tenant : Nat) : x.serves node g tenant fl = false := by
  rw [Line.serves, decide_eq_false h.not_ge, Bool.and_false]

/-- Settles O7: the issue of the three instructions by what they share, and the end of a hold. -/
theorem orderInstructions : Obligations.OrderInstructions := by
  refine ⟨?_, ?_⟩
  · intro i s f hf t st held
    have hheld (h : Hold) : held h (if h = .release then 0 else 1) (orderEffect h i s.m).settle := by
      obtain ⟨⟨hpc, -, hcore, hregs, hmem, hbufs, hcores, -⟩, hcount, htile⟩ := orderEffect_post hf h
      exact ⟨hpc, hcore, htile, hcount, hregs, hmem, hbufs, hcores⟩
    exact ⟨completes_of_commit (exec_acquire i s) (hheld .acquire), completes_of_commit (exec_release i s) (hheld .release),
      completes_of_commit (exec_fence i s) (hheld .fence)⟩
  · intro n s hmet
    have hfloor := s.m.floor_passOrder n
    obtain ⟨-, hmem, hregs, hbufs⟩ := ((Block.StoresStand.passOrder s.m n).trans
      (Block.StoresStand.modCore (s.m.passOrder n) n (g := fun c => { c with hold := .none }) fun _ => rfl)).trans (Block.StoresStand.settle _)
    apply completes_of_effect (exec_orderHoldEnd n s) (orderHoldEndEffect_of_met hmet)
    refine ⟨?_, hfloor, s.m.lines_passOrder n, hregs, hmem, hbufs, fun k hk => ?_, fun hacq x node g tenant fl hold hfl => ?_⟩
    · rw [Block.core_settle, Block.core_modCore_self, Block.core_passOrder]
    · rw [Block.core_settle, Block.core_modCore_ne _ _ _ _ hk, Block.core_passOrder]
    · rw [if_neg hacq] at hfloor
      have hstamp : (s.m.core n).ordStamp ≤ fl := (le_max_right _ _).trans (hfloor.ge.trans hfl)
      exact Line.serves_of_lt (hold.trans_le hstamp) node g tenant

end Sys2Proof.Machine

/-! SUPPORT. Granules (R135): the pieces that an access is cut into; and what a write of one granule does at its home (R114, R136, R137, R466). -/
namespace Sys2Proof.Machine

/- The pieces of an access -/

/-- The bytes of an access that lie before its granule `j`. -/
def cutAt (a n j : Nat) : Nat := min n (128 * (a / 128 + j) - a)

/-- Granules that an access of some bytes touches. -/
def cuts (a n : Nat) : Nat := (a + (n - 1)) / 128 + 1 - a / 128

/-- Piece `j` begins where the bytes before granule `j` end, and ends where those before the next granule do. -/
theorem pieces_eq_map {n : Nat} (a : Nat) (hn : 0 < n) :
    pieces a n = (List.range (cuts a n)).map fun j => (cutAt a n j, cutAt a n (j + 1) - cutAt a n j) := by
  rw [pieces, if_neg hn.ne', granules, List.map_map]
  refine List.map_congr_left fun j hj => ?_
  have hcut : j < cuts a n := List.mem_range.mp hj
  simp only [cuts, cutAt, Function.comp_apply, Prod.mk.injEq] at hcut ⊢
  omega

/-- The sum of a list. -/
theorem total_eq_sum (l : List Nat) : total l = l.sum := List.sum_eq_foldl_nat.symm

/-- The pieces before piece `j` hold the bytes before granule `j`. -/
theorem total_take_pieces {n j : Nat} (a : Nat) (hn : 0 < n) (hj : j ≤ cuts a n) : total (((pieces a n).take j).map (·.2)) = cutAt a n j := by
  rw [pieces_eq_map a hn, ← List.map_take, List.take_range, min_eq_left hj, List.map_map, total_eq_sum]
  clear hj
  induction j with
  | zero => simp [cutAt, Nat.mul_div_le]
  | succ j ih =>
    have hle : cutAt a n j ≤ cutAt a n (j + 1) := by
      simp only [cutAt]
      omega
    rw [List.range_succ, List.map_append, List.sum_append, ih]
    simp only [List.map_cons, List.map_nil, List.sum_cons, List.sum_nil, Function.comp_apply]
    omega

/-- The pieces of an access hold its bytes. -/
theorem total_pieces (a n : Nat) : total ((pieces a n).map (·.2)) = n := by
  rcases Nat.eq_zero_or_pos n with rfl | hn
  · rfl
  · have hall := total_take_pieces a hn le_rfl
    have hlength : (pieces a n).length = cuts a n := by rw [pieces_eq_map a hn, List.length_map, List.length_range]
    rw [← hlength, List.take_length] at hall
    rw [hall, hlength, cutAt, cuts]
    omega

/-- Each piece follows the ones before it, and lies in one granule. -/
theorem piece_spec {a n j : Nat} (hj : j < (pieces a n).length) :
    let p := (pieces a n).getD j (0, 0)
    p.1 = total (((pieces a n).take j).map (·.2)) ∧ 0 < p.2 ∧ (a + p.1) / 128 = (a + p.1 + p.2 - 1) / 128 := by
  intro p
  rcases Nat.eq_zero_or_pos n with rfl | hn
  · exact absurd hj (Nat.not_lt_zero j)
  · have hcut : j < cuts a n := by simpa only [pieces_eq_map a hn, List.length_map, List.length_range] using hj
    have hp : p = (cutAt a n j, cutAt a n (j + 1) - cutAt a n j) := by simp [p, pieces_eq_map a hn, hcut]
    rw [hp, total_take_pieces a hn hcut.le]
    simp only [cuts, cutAt, true_and] at hcut ⊢
    omega

/- Bytes written under a mask -/

/-- A written byte is the data's where the mask selects it, else as it was (R136). -/
theorem Memory.read_writeMasked_in (bs : List Byte) (mask : List Bool) {m : Memory} (a : Nat) (h : m.wf) {k : Nat} (hk : k < bs.length) :
    (m.writeMasked a bs mask).read (a + k) = if mask.getD k true then bs.getD k 0 else m.read (a + k) := by
  induction bs generalizing m a mask k with
  | nil => exact absurd hk (Nat.not_lt_zero k)
  | cons v bs ih =>
    cases k with
    | zero =>
      cases mask with
      | nil =>
        rw [Memory.writeMasked, Memory.read_writeMasked_out _ _ _ _ _ (by omega)]
        exact Memory.read_write_self m a v h
      | cons b mask =>
        rw [Memory.writeMasked, Memory.read_writeMasked_out _ _ _ _ _ (by omega)]
        cases b
        · rfl
        · exact Memory.read_write_self m a v h
    | succ k =>
      have hk' : k < bs.length := Nat.lt_of_succ_lt_succ hk
      have hne : a + 1 + k ≠ a := by omega
      rw [show a + (k + 1) = a + 1 + k by omega]
      cases mask with
      | nil => simp [Memory.writeMasked, ih [] (a + 1) (Memory.wf_write m a v h) hk']
      | cons b mask =>
        cases b
        · simp [Memory.writeMasked, ih mask (a + 1) h hk']
        · simp [Memory.writeMasked, ih mask (a + 1) (Memory.wf_write m a v h) hk', Memory.read_write_ne m a (a + 1 + k) v hne]

/-- A mask that selects every byte masks nothing. -/
theorem Memory.writeMasked_of_all (bs : List Byte) {mask : List Bool} (m : Memory) (a : Nat) (h : ∀ b ∈ mask, b = true) :
    m.writeMasked a bs mask = m.writeN a bs := by
  induction bs generalizing m a mask with
  | nil => rfl
  | cons v bs ih =>
    cases mask with
    | nil => exact ih _ _ h
    | cons b mask =>
      rw [Memory.writeMasked, h b List.mem_cons_self, if_pos rfl, Memory.writeN]
      exact ih _ _ fun c hc => h c (List.mem_cons_of_mem _ hc)

/-- Reading a byte that was written. -/
theorem Memory.read_writeN_in (bs : List Byte) {m : Memory} (a : Nat) (h : m.wf) {k : Nat} (hk : k < bs.length) :
    (m.writeN a bs).read (a + k) = bs.getD k 0 := by
  rw [← Memory.writeMasked_of_all (mask := []) bs m a (by simp), Memory.read_writeMasked_in bs [] a h hk]
  rfl

/- Poison and counts -/

/-- What a rising list holds after an insertion. -/
theorem mem_insertNat {l : List Nat} {a x : Nat} : x ∈ insertNat l a ↔ x = a ∨ x ∈ l := by
  induction l with
  | nil => simp [insertNat]
  | cons k l ih =>
    rw [insertNat]
    split
    · exact List.mem_cons
    · split
      · rename_i hak
        subst hak
        simp
      · rw [List.mem_cons, ih, List.mem_cons, or_left_comm]

/-- One change of the bytes after another. -/
theorem SameMem.trans {x y z : Block} (h : SameMem x y) (h' : SameMem y z) : SameMem x z := by
  obtain ⟨hbyte, hpoison, htags⟩ := h
  obtain ⟨hbyte', hpoison', htags'⟩ := h'
  exact ⟨fun a => (hbyte' a).trans (hbyte a), hpoison'.trans hpoison, htags'.trans htags⟩

/-- An update that keeps the memory, its keys, its poison and its tags. -/
theorem SameMem.of_eq {m m' : Block} (hm : m'.mem = m.mem) (hs : m'.stale = m.stale) (hp : m'.poison = m.poison) (ht : m'.tags = m.tags) :
    SameMem m m' :=
  ⟨fun a => Block.byteAt_congr (by rw [hm]) (by rw [Block.staleAt, Block.staleAt, hs]), hp, ht⟩

/-- A dropped write is counted, and no byte changes. -/
theorem Block.sameMem_countDrop (m : Block) (a : Nat) : SameMem m (m.countDrop a) := by
  have hwear (kind reason unit from_ to_ count : Nat) : SameMem m (m.addWear kind reason unit from_ to_ count) := by
    unfold Block.addWear
    split <;> exact .of_eq rfl rfl rfl rfl
  unfold Block.countDrop
  split
  · exact .of_eq rfl rfl rfl rfl
  · exact .of_eq rfl rfl rfl rfl
  · exact .of_eq rfl rfl rfl rfl
  · exact hwear _ _ _ _ _ _
  · exact .of_eq rfl rfl rfl rfl

/-- A count of poisoned data keeps the memory, its keys, its poison and its tags. -/
theorem Block.countHostPoison_eq (m : Block) (a : Nat) (bad : Bool) : (m.countHostPoison a bad).mem = m.mem ∧
    (m.countHostPoison a bad).stale = m.stale ∧ (m.countHostPoison a bad).poison = m.poison ∧ (m.countHostPoison a bad).tags = m.tags := by
  unfold Block.countHostPoison
  split <;> exact ⟨rfl, rfl, rfl, rfl⟩

/-- Counting a poisoning keeps the keys and the poison. -/
theorem Block.countPoison_eq (m : Block) (a : Nat) : (m.countPoison a).stale = m.stale ∧ (m.countPoison a).poison = m.poison := by
  unfold Block.countPoison
  split <;> exact ⟨rfl, rfl⟩

/-- A poisoned granule is one more than before. -/
theorem Block.mem_poison_poisonGranule (m : Block) (g h : Nat) : h ∈ (m.poisonGranule g).poison ↔ h = g ∨ h ∈ m.poison := by
  rw [Block.poisonGranule]
  split
  · rename_i hg
    exact ⟨.inr, fun hh => hh.elim (fun e => e ▸ List.contains_iff_mem.mp hg) id⟩
  · rw [(Block.countPoison_eq _ _).2]
    exact mem_insertNat

/-- Poisoning keeps the keys. -/
theorem Block.stale_poisonGranule (m : Block) (g : Nat) : (m.poisonGranule g).stale = m.stale := by
  rw [Block.poisonGranule]
  split
  · rfl
  · exact (Block.countPoison_eq _ _).1

/-- Poisoned data poisons a granule; sound data leaves it as it is. -/
def Block.poisonIf (m : Block) (g : Nat) (bad : Bool) : Block := if bad then m.poisonGranule g else m

/-- Poisoned data poisons a granule; sound data clears it. -/
def Block.poisonAs (m : Block) (g : Nat) (bad : Bool) : Block :=
  if bad then m.poisonGranule g else { m with poison := m.poison.filter (· != g) }

section
variable (m : Block) (g : Nat) (bad : Bool)

/-- Poisoning changes neither bytes, keys nor tags. -/
theorem Block.poisonGranule_eq : (m.poisonGranule g).mem = m.mem ∧ (m.poisonGranule g).stale = m.stale ∧ (m.poisonGranule g).tags = m.tags := by
  obtain ⟨⟨-, -, -, -, -, -, -, -, -, htags, -, -⟩, hmem⟩ := m.poisonGranule_units g
  exact ⟨hmem, m.stale_poisonGranule g, htags⟩

/-- Nor does what the data makes of a granule written whole. -/
theorem Block.poisonAs_eq : (m.poisonAs g bad).mem = m.mem ∧ (m.poisonAs g bad).stale = m.stale ∧ (m.poisonAs g bad).tags = m.tags := by
  cases bad
  · exact ⟨rfl, rfl, rfl⟩
  · exact m.poisonGranule_eq g

/-- Nor what it makes of one written in part. -/
theorem Block.poisonIf_eq : (m.poisonIf g bad).mem = m.mem ∧ (m.poisonIf g bad).stale = m.stale ∧ (m.poisonIf g bad).tags = m.tags := by
  cases bad
  · exact ⟨rfl, rfl, rfl⟩
  · exact m.poisonGranule_eq g

/-- A granule written whole is poisoned exactly when the data was, and no other is touched. -/
theorem Block.mem_poison_poisonAs : (g ∈ (m.poisonAs g bad).poison ↔ bad = true) ∧
    ∀ h, h ≠ g → (h ∈ (m.poisonAs g bad).poison ↔ h ∈ m.poison) := by
  cases bad
  · exact ⟨by simp [Block.poisonAs], fun h hne => by simp [Block.poisonAs, hne]⟩
  · exact ⟨iff_of_true ((m.mem_poison_poisonGranule g g).mpr (.inl rfl)) rfl,
      fun h hne => (m.mem_poison_poisonGranule g h).trans (or_iff_right hne)⟩

/-- The same of a granule written in part that was not poisoned. -/
theorem Block.mem_poison_poisonIf {g : Nat} (hg : g ∉ m.poison) : (g ∈ (m.poisonIf g bad).poison ↔ bad = true) ∧
    ∀ h, h ≠ g → (h ∈ (m.poisonIf g bad).poison ↔ h ∈ m.poison) := by
  cases bad
  · exact ⟨iff_of_false hg Bool.false_ne_true, fun _ _ => Iff.rfl⟩
  · exact m.mem_poison_poisonAs g true

end

/- Keys -/

/-- Granules stored under the key they are read with are stale no more. -/
theorem Block.staleAt_fresh_self (m : Block) (g : Nat) : (m.fresh g 1).staleAt g = none := by
  have hout (s : Nat × Nat × Nat) : ∀ x ∈ cutSpan g 1 s, ¬ (x.1 ≤ g ∧ g < x.1 + x.2.1) := by
    intro x hx
    simp only [cutSpan, List.mem_filter, List.mem_cons, List.not_mem_nil, or_false] at hx
    obtain ⟨rfl | rfl, -⟩ := hx <;> dsimp only <;> omega
  rw [Block.staleAt, Option.map_eq_none_iff, List.find?_eq_none]
  intro x hx hcover
  obtain ⟨s, -, hcut⟩ := List.mem_flatMap.mp hx
  exact hout s x hcut (by simpa using hcover)

section
variable {m m' : Block} {g : Nat} (hs : m'.stale = (m.fresh g 1).stale) {x : Nat}
include hs

/-- A byte of a granule that is stored under the key it is read with is what the memory holds. -/
theorem Block.byteAt_fresh_in (hx : x / 128 = g) : m'.byteAt x = m'.mem.read x := by
  have hnone : m'.staleAt (x / 128) = none := by
    rw [hx, Block.staleAt, hs]
    exact m.staleAt_fresh_self g
  rw [Block.byteAt, hnone]

/-- A byte of another granule stands under its key. -/
theorem Block.byteAt_fresh_out (hx : x / 128 ≠ g) (hm : m'.mem.read x = m.mem.read x) : m'.byteAt x = m.byteAt x := by
  apply Block.byteAt_congr hm
  rw [Block.staleAt, hs]
  exact m.staleAt_fresh (by omega)

end

/-- A granule stored under the key it is read with needs no thaw. -/
theorem Block.thaw_of_fresh {m : Block} {g : Nat} (h : m.staleAt g = none) : m.thaw g = m := by
  simp only [Block.thaw, h]

/-- The bytes that a read gives of a granule. -/
def Block.granuleBytes (m : Block) (g : Nat) : List Byte := (List.range 128).map fun i => m.byteAt (128 * g + i)

/-- They are 128. -/
theorem Block.length_granuleBytes (m : Block) (g : Nat) : (m.granuleBytes g).length = 128 := by
  rw [Block.granuleBytes, List.length_map, List.length_range]

/-- Each of them. -/
theorem Block.getD_granuleBytes (m : Block) (g : Nat) {k : Nat} (h : k < 128) : (m.granuleBytes g).getD k 0 = m.byteAt (128 * g + k) := by
  simp [Block.granuleBytes, h]

/-- Granule `g` stored under the key it is read with. -/
def Block.restored (m : Block) (g : Nat) (x : Memory) : Block := { m.fresh g 1 with mem := x }

/-- Another granule is stored anew with the bytes that a read gives. -/
theorem Block.thaw_of_stale {m : Block} {g : Nat} (h : m.staleAt g ≠ none) :
    m.thaw g = m.restored g (m.mem.writeN (128 * g) (m.granuleBytes g)) := by
  obtain ⟨k, hk⟩ := Option.ne_none_iff_exists'.mp h
  simp only [Block.thaw, hk, Block.restored, Block.granuleBytes]

section
variable (m : Block) (g : Nat)

/-- Its bytes are what the memory holds. -/
theorem Block.staleAt_restored (x : Memory) : (m.restored g x).staleAt g = none := m.staleAt_fresh_self g

/-- The bytes that a read gives, stored anew, are read again. -/
theorem Block.sameMem_restored (h : m.mem.wf) : SameMem m (m.restored g (m.mem.writeN (128 * g) (m.granuleBytes g))) := by
  have hlength := m.length_granuleBytes g
  have hbyte {k : Nat} := m.getD_granuleBytes g (k := k)
  generalize m.granuleBytes g = bs at hlength hbyte
  have hs : (m.restored g (m.mem.writeN (128 * g) bs)).stale = (m.fresh g 1).stale := rfl
  refine ⟨fun x => ?_, rfl, rfl⟩
  by_cases hx : x / 128 = g
  · obtain ⟨k, hk, rfl⟩ : ∃ k < 128, x = 128 * g + k := ⟨x % 128, Nat.mod_lt x (by decide), by omega⟩
    exact (Block.byteAt_fresh_in hs hx).trans ((Memory.read_writeN_in bs _ h (by omega)).trans (hbyte hk))
  · exact Block.byteAt_fresh_out hs hx (Memory.read_writeN_out _ _ _ _ (by omega))

/-- A thaw leaves every byte as a read gives it. -/
theorem Block.sameMem_thaw (h : m.mem.wf) : SameMem m (m.thaw g) := by
  by_cases hs : m.staleAt g = none
  · rw [Block.thaw_of_fresh hs]
    exact .of_eq rfl rfl rfl rfl
  · rw [Block.thaw_of_stale hs]
    exact m.sameMem_restored g h

/-- After a thaw the granule is stored under the key it is read with. -/
theorem Block.staleAt_thaw : (m.thaw g).staleAt g = none := by
  by_cases hs : m.staleAt g = none
  · rwa [Block.thaw_of_fresh hs]
  · rw [Block.thaw_of_stale hs]
    exact m.staleAt_restored g _

end

/- A write at its home, case by case -/

/-- A write takes a granule whole. -/
def Whole (a : Nat) (bs : List Byte) (mask : List Bool) : Prop := a % 128 = 0 ∧ bs.length = 128 ∧ ∀ b ∈ mask, b = true

/-- A granule that takes its bytes whole: it stands under the key it is read with, its errors gone. -/
def Block.putWhole (m : Block) (a : Nat) (bs : List Byte) (mask : List Bool) (bad : Bool) : Block :=
  { (m.countHostPoison a bad).fresh (a / 128) 1 with mem := m.mem.writeMasked a bs mask, ecc := m.ecc.filter fun e => e.1 != a / 128 }

/-- A granule that merges the bytes that a mask selects. -/
def Block.putPart (m : Block) (a : Nat) (bs : List Byte) (mask : List Bool) (bad : Bool) : Block :=
  { m.countHostPoison a bad with mem := m.mem.writeMasked a bs mask }

section
variable {m : Block} {a : Nat} {bs : List Byte} {mask : List Bool} (bad : Bool)

/-- The test for a whole write. -/
theorem whole_iff : (a % 128 == 0 && bs.length == 128 && mask.all id) = true ↔ Whole a bs mask := by
  simp [Whole, and_assoc]

/-- A failed stack discards a write (R466). -/
theorem Block.applyGranule_of_failed (h : m.stackFailed a = true) : m.applyGranule a bs mask bad = m.countDrop a := by
  simp only [Block.applyGranule, h, if_true]

/-- A whole write takes its poison from the data (R114). -/
theorem Block.applyGranule_of_whole (h : m.stackFailed a = false) (hw : Whole a bs mask) :
    m.applyGranule a bs mask bad = (m.putWhole a bs mask bad).poisonAs (a / 128) bad := by
  simp only [Block.applyGranule, h, whole_iff.mpr hw, Bool.false_eq_true, if_false, if_true]
  rfl

variable (hf : m.stackFailed a = false) (hw : ¬ Whole a bs mask)
include hf hw

/-- A part is merged into the granule as a read finds it, unless it is poisoned. -/
theorem Block.applyGranule_of_part : m.applyGranule a bs mask bad =
    let e := (m.correct (128 * (a / 128)) 128).thaw (a / 128)
    if e.poison.contains (a / 128) then e.countDrop a else (e.putPart a bs mask bad).poisonIf (a / 128) bad := by
  simp only [Block.applyGranule, hf, Bool.eq_false_iff.mpr (mt whole_iff.mp hw), Bool.false_eq_true, if_false]
  rfl

end

/-- A granule taken whole stands under the key it is read with, its poison not yet settled. -/
theorem Block.putWhole_eq (m : Block) (a : Nat) (bs : List Byte) (mask : List Bool) (bad : Bool) :
    (m.putWhole a bs mask bad).mem = m.mem.writeMasked a bs mask ∧ (m.putWhole a bs mask bad).stale = (m.fresh (a / 128) 1).stale ∧
      (m.putWhole a bs mask bad).poison = m.poison ∧ (m.putWhole a bs mask bad).tags = m.tags := by
  obtain ⟨-, hstale, hpoison, htags⟩ := m.countHostPoison_eq a bad
  exact ⟨rfl, congrArg (List.flatMap (cutSpan (a / 128) 1)) hstale, hpoison, htags⟩

/-- A merge changes the bytes alone. -/
theorem Block.putPart_eq (m : Block) (a : Nat) (bs : List Byte) (mask : List Bool) (bad : Bool) :
    (m.putPart a bs mask bad).mem = m.mem.writeMasked a bs mask ∧ (m.putPart a bs mask bad).stale = m.stale ∧
      (m.putPart a bs mask bad).poison = m.poison ∧ (m.putPart a bs mask bad).tags = m.tags := by
  obtain ⟨-, hstale, hpoison, htags⟩ := m.countHostPoison_eq a bad
  exact ⟨rfl, hstale, hpoison, htags⟩

section
variable {m m' : Block} {a : Nat} {bs : List Byte}

/-- A granule written whole reads as its data, and every other byte as before. -/
theorem Block.readMem_of_whole (hs : m'.stale = (m.fresh (a / 128) 1).stale) (hm : m'.mem = m.mem.writeN a bs) (hwf : m.mem.wf)
    (ha : a % 128 = 0) (hl : bs.length = 128) : m'.readMem a 128 = bs ∧ SameMemBut a 128 m m' := by
  constructor
  · have hfresh : ∀ i < 128, m'.staleAt ((a + i) / 128) = none := fun i hi => by
      rw [show (a + i) / 128 = a / 128 by omega, Block.staleAt, hs]
      exact m.staleAt_fresh_self _
    have hread := Memory.readN_writeN bs m.mem a hwf
    rwa [← hm, hl, ← m'.readMem_of_fresh a 128 hfresh] at hread
  · intro x hx
    refine Block.byteAt_fresh_out hs (by omega) ?_
    rw [hm]
    exact Memory.read_writeN_out _ _ _ _ (by omega)

/-- A part changes the bytes that its mask selects and no other (R136). -/
theorem Block.byteAt_of_part {mask : List Bool} (hs : m'.stale = m.stale) (hm : m'.mem = m.mem.writeMasked a bs mask) (hwf : m.mem.wf)
    (hkey : m.staleAt (a / 128) = none) (hspan : a % 128 + bs.length ≤ 128) :
    (∀ k < bs.length, m'.byteAt (a + k) = if mask.getD k true then bs.getD k 0 else m.byteAt (a + k)) ∧ SameMemBut a bs.length m m' := by
  have hstale (g : Nat) : m'.staleAt g = m.staleAt g := by rw [Block.staleAt, Block.staleAt, hs]
  constructor
  · intro k hk
    have hin : m.staleAt ((a + k) / 128) = none := by rwa [show (a + k) / 128 = a / 128 by omega]
    rw [Block.byteAt, Block.byteAt, hstale, hin]
    dsimp only
    rw [hm]
    exact Memory.read_writeMasked_in bs mask a hwf hk
  · intro x hx
    apply Block.byteAt_congr _ (hstale _)
    rw [hm]
    exact Memory.read_writeMasked_out _ _ _ _ _ hx

end

/-- Settles O15: the pieces of an access, and a write at its home by what its granule is: of a failed stack, taken whole, poisoned, or merged. -/
theorem granulesAndWrites : Obligations.GranulesAndWrites := by
  refine ⟨fun a n => ⟨total_pieces a n, fun j hj => piece_spec hj⟩, ?_⟩
  intro m a bs mask bad hwf hspan _ r g whole e
  have hewf : e.mem.wf := (m.quiet_correct _ _).2 hwf
  have hthawed : SameMem e (e.thaw g) := e.sameMem_thaw g hewf
  obtain ⟨hbyte, hpoison, htags⟩ := e.sameMem_thaw g hewf
  have hgranule : (e.thaw g).poison.contains g = true ↔ g ∈ e.poison := by rw [hpoison, List.contains_iff_mem]
  refine ⟨(m.quiet_applyGranule a bs mask bad).2 hwf, fun hf => ?_, fun hf hw => ?_, fun hf hw hp => ?_, fun hf hw hp => ?_⟩
  · have hr : r = m.countDrop a := Block.applyGranule_of_failed bad hf
    rw [hr]
    exact m.sameMem_countDrop a
  · have hr : r = (m.putWhole a bs mask bad).poisonAs g bad := Block.applyGranule_of_whole bad hf hw
    obtain ⟨ha, hl, hmask⟩ := hw
    obtain ⟨hmem1, hstale1, hpoison1, htags1⟩ := m.putWhole_eq a bs mask bad
    obtain ⟨hmem2, hstale2, htags2⟩ := (m.putWhole a bs mask bad).poisonAs_eq g bad
    obtain ⟨hself, hother⟩ := (m.putWhole a bs mask bad).mem_poison_poisonAs g bad
    obtain ⟨hread, hout⟩ := Block.readMem_of_whole (hstale2.trans hstale1)
      ((hmem2.trans hmem1).trans (Memory.writeMasked_of_all bs m.mem a hmask)) hwf ha hl
    rw [hr]
    exact ⟨hread, hout, htags2.trans htags1, hself, fun h hne => hpoison1 ▸ hother h hne⟩
  · have hr : r = (e.thaw g).countDrop a := (Block.applyGranule_of_part bad hf hw).trans (if_pos (hgranule.mpr hp))
    rw [hr]
    exact hthawed.trans ((e.thaw g).sameMem_countDrop a)
  · have hr : r = ((e.thaw g).putPart a bs mask bad).poisonIf g bad :=
      (Block.applyGranule_of_part bad hf hw).trans (if_neg (mt hgranule.mp hp))
    obtain ⟨hmem1, hstale1, hpoison1, htags1⟩ := (e.thaw g).putPart_eq a bs mask bad
    obtain ⟨hmem2, hstale2, htags2⟩ := ((e.thaw g).putPart a bs mask bad).poisonIf_eq g bad
    obtain ⟨hself, hother⟩ := ((e.thaw g).putPart a bs mask bad).mem_poison_poisonIf bad (g := g) (by rwa [hpoison1, hpoison])
    obtain ⟨hin, hout⟩ := Block.byteAt_of_part (hstale2.trans hstale1) (hmem2.trans hmem1) ((e.quiet_thaw g).2 hewf) (e.staleAt_thaw g) hspan
    rw [hr]
    refine ⟨fun k hk => ?_, fun x hx => (hout x hx).trans (hbyte x), (htags2.trans htags1).trans htags, hself, fun h hne => ?_⟩
    · rw [hin k hk, hbyte]
    · rw [hother h hne, hpoison1, hpoison]

end Sys2Proof.Machine

/-! SUPPORT. Fetching a packet (R161, R292, R294, R296, R321): when a queue's next packet is fetched, and what becomes of it by the queue's class and
its checks. -/
namespace Sys2Proof.Machine

/-- Firmware may fetch from a queue: it serves, the queue's context is open, no command destroys the queue, and its host is there (R292, R378). -/
def Block.Fetches (m : Block) (q : QueueId) (x : Queue) : Prop :=
  m.queue? q = some x ∧ m.serving = true ∧ m.ctxOpen q.tenant q.ctx = true ∧ x.destroyBy = none ∧ x.fetchable = true

/-- The block once the packet at a queue's head has been read and the head has moved on (R161, R292). -/
def Block.headRead (m : Block) (x : Queue) : Block :=
  (m.correct (localPart x.sqBase + 64 * x.sqHead) 64).modQueue x.id fun y => { y with sqHead := (x.sqHead + 1) % 2 ^ x.log2Sq }

/-- The command that the packet at a queue's head makes. -/
def Block.headCmd (m : Block) (x : Queue) : Cmd :=
  { q := x.id, packet := (m.peekPacket x).1, sqHead := (m.peekPacket x).2, admitted := m.time }

section
variable {m : Block} {q : QueueId} {x : Queue} (h : m.Fetches q x)
include h

/-- A PACED queue is fetched from whatever its packets do. -/
theorem packetFetchEffect_of_paced (hc : x.cls = 0) : packetFetchEffect q m = m.fetchOne x := by
  obtain ⟨hq, hserving, hopen, hkept, hhost⟩ := h
  simp [packetFetchEffect, hq, hserving, hopen, hkept, hhost, hc]

/-- Another one once its packet has completed, its records are delivered, and the stud book has room (R292, R459). -/
theorem packetFetchEffect_of_below (hc : x.cls ≠ 0) (hdone : ∀ c ∈ m.cmd.cmds, c.q ≠ q) (hheld : x.held = []) (hroom : m.booked < bookRoom) :
    packetFetchEffect q m = m.fetchOne x := by
  obtain ⟨hq, hserving, hopen, hkept, hhost⟩ := h
  have hnone : (m.cmd.cmds.any fun c => c.q == q) = false := List.any_eq_false.mpr fun c hm => by simpa using hdone c hm
  simp [packetFetchEffect, hq, hserving, hopen, hkept, hhost, hc, hnone, hheld, Nat.not_le.mpr hroom]

end

section
variable {m : Block} {x : Queue} (h : x.sqHead ≠ x.sqTail)
include h

/-- A PACED packet waits for its admission, with the tick of its doorbell (R321). -/
theorem Block.fetchOne_of_paced (hc : x.cls = 0) : m.fetchOne x = (m.headRead x).modQueue x.id fun y =>
    { y with bells := (takeBell m.time x.bells).2
             waiting := y.waiting ++ [((takeBell m.time x.bells).1, (m.headCmd x).sqHead, (m.headCmd x).packet)] } := by
  simp only [Block.fetchOne, h, hc, if_false, if_true]
  rfl

variable (hc : x.cls ≠ 0)
include hc

/-- Any other is accepted, unless its check refuses it: then it completes at once (R294, R296). -/
theorem Block.fetchOne_of_below : m.fetchOne x = ((m.headRead x).fetchStatus (m.headCmd x) false).elim ((m.headRead x).accept (m.headCmd x))
    fun st => (m.headRead x).refusePacket (m.headCmd x) st 0 := by
  simp only [Block.fetchOne, h, hc, if_false]
  split
  · next st hs =>
    rw [show (m.headRead x).fetchStatus (m.headCmd x) false = some st from hs]
    rfl
  · next hs =>
    rw [show (m.headRead x).fetchStatus (m.headCmd x) false = none from hs]
    rfl

/-- A packet that its check refuses. -/
theorem Block.fetchOne_of_refused {st : Nat} (hs : (m.headRead x).fetchStatus (m.headCmd x) false = some st) :
    m.fetchOne x = (m.headRead x).refusePacket (m.headCmd x) st 0 := by
  rw [Block.fetchOne_of_below h hc, hs]
  rfl

/-- A packet that passes. -/
theorem Block.fetchOne_of_passed (hs : (m.headRead x).fetchStatus (m.headCmd x) false = none) :
    m.fetchOne x = (m.headRead x).accept (m.headCmd x) := by
  rw [Block.fetchOne_of_below h hc, hs]
  rfl

end

section
variable {m : Block} {c : Cmd}

/-- A command whose saddle table cannot be bound completes with the table's status (R246). -/
theorem Block.accept_of_error {st : Nat} (h : (m.sightTable c).saddleNeeds c = .error st) : m.accept c = (m.sightTable c).refusePacket c st 0 := by
  simp only [Block.accept, h]

/-- Bound, it enters the stud book, its queue is ready, and the page-ins of its saddles start (R246, R254, R255). -/
theorem Block.accept_of_ok {b : List (Nat × Nat) × List Nat} (h : (m.sightTable c).saddleNeeds c = .ok b) :
    m.accept c = (({ m.sightTable c with cmd.cmds := (m.sightTable c).cmd.cmds ++ [{ c with binds := b.1, rows := b.2 }] } : Block).markReady
      c.q).admitSaddles { c with binds := b.1, rows := b.2 } := by
  simp only [Block.accept, h]

end

/-- Settles O30: a PACED packet by the queue's doorbells; another by its check, and then by its saddle table. -/
theorem packetFetch : Obligations.PacketFetch := by
  intro q x s hq hserving hopen hkept hhost hsome hid at_ head packet m c
  subst hid
  have hf : s.m.Fetches x.id x := ⟨hq, hserving, hopen, hkept, hhost⟩
  refine ⟨fun hc => gives_of_commit rfl ?_, fun hc hdone hheld hroom => ⟨fun st hs => gives_of_commit rfl ?_,
    fun hs => ⟨fun st hn => gives_of_commit rfl ?_, fun b hn => gives_of_commit rfl ?_⟩⟩⟩
  · exact (packetFetchEffect_of_paced hf hc).trans (Block.fetchOne_of_paced hsome hc)
  all_goals refine (packetFetchEffect_of_below hf hc hdone hheld hroom).trans ?_
  · exact Block.fetchOne_of_refused hsome hc hs
  · exact (Block.fetchOne_of_passed hsome hc hs).trans (Block.accept_of_error hn)
  · exact (Block.fetchOne_of_passed hsome hc hs).trans (Block.accept_of_ok hn)

end Sys2Proof.Machine

/-! SUPPORT. Paging and the memories' events (R161, R171 to R177, R254, R255): the segment that an engine takes, the segment that it has moved, and
what each row of the paging engines and of the memories does by what it finds. -/
namespace Sys2Proof.Machine

/- The segment that an engine takes (R173, R174) -/

/-- The tier is up and uses the channel of an engine. -/
def Block.ChannelUsed (m : Block) (e : Nat) : Prop := m.fld Reg.ddrTierStatus 63 63 ≠ 0 ∧ m.channels.contains e = true

/-- An engine with a segment to move; the watchdog's window begins (R448). -/
def Block.withSegment (m : Block) (e : Nat) (x : Nat × Bool × Nat) : Block := { m with page.engines := Tbl.put m.page.engines e x }.beat 7 e

/-- An engine without one. -/
def Block.withoutSegment (m : Block) (e : Nat) : Block := { m with page.engines := Tbl.drop m.page.engines e }

section
variable {m : Block} {e : Nat}

/-- While its channel is not used an engine takes nothing. -/
theorem Block.takeSegment_of_unused (h : ¬ m.ChannelUsed e) : m.takeSegment e = m.withoutSegment e := by
  have hunused : m.fld Reg.ddrTierStatus 63 63 = 0 ∨ (!m.channels.contains e) = true := by
    simpa only [Block.ChannelUsed, not_and_or, not_not, Bool.not_eq_true, Bool.not_eq_true'] using h
  simp only [Block.takeSegment, if_pos hunused]
  rfl

variable (h : m.ChannelUsed e)
include h

/-- Else it takes the next segment, if there is one. -/
theorem Block.takeSegment_of_used : m.takeSegment e = (m.nextSegment e).elim (m.withoutSegment e) (m.withSegment e) := by
  obtain ⟨hup, hused⟩ := h
  have hnot : ¬ (m.fld Reg.ddrTierStatus 63 63 = 0 ∨ (!m.channels.contains e) = true) :=
    not_or.mpr ⟨hup, by simp only [hused, Bool.not_true, Bool.false_eq_true, not_false_eq_true]⟩
  simp only [Block.takeSegment, if_neg hnot]
  cases m.nextSegment e <;> rfl

/-- Urgent requests come first (R174). -/
theorem Block.takeSegment_of_urgent {r : PageReq} (hu : m.openReq e m.page.urgent = some r) :
    m.takeSegment e = m.withSegment e (r.obj, true, Tbl.getD 0 r.done e) := by
  rw [Block.takeSegment_of_used h, Block.nextSegment, hu]
  rfl

variable (hu : m.openReq e m.page.urgent = none)
include hu

/-- Without one, those of the background. -/
theorem Block.takeSegment_of_background {r : PageReq} (hb : m.openReq e m.page.background = some r) :
    m.takeSegment e = m.withSegment e (r.obj, false, Tbl.getD 0 r.done e) := by
  rw [Block.takeSegment_of_used h, Block.nextSegment, hu, hb]
  rfl

/-- Without either the engine rests. -/
theorem Block.takeSegment_of_none (hb : m.openReq e m.page.background = none) : m.takeSegment e = m.withoutSegment e := by
  rw [Block.takeSegment_of_used h, Block.nextSegment, hu, hb]
  rfl

end

/- The segment that an engine has moved -/

/-- The block once a segment has been moved and counted; the end of a page-out is left aside. -/
def Block.countMoved (m : Block) (o : PageObj) (r : PageReq) (urgent : Bool) (e k : Nat) : Block :=
  let m1 := m.moveSegment o r.pageIn e k
  if urgent then { m1 with page.urgent := countSegment o.id e m1.page.urgent }.setFld Reg.ddrPageUrgent 63 0
    ((m1.reg Reg.ddrPageUrgent).toNat - m.segBytes o e k)
  else { m1 with page.background := countSegment o.id e m1.page.background }

/-- The segment is the last that its page-out has to move. -/
def Block.EndsPageOut (m : Block) (o : PageObj) (r : PageReq) (e k : Nat) : Prop :=
  r.pageIn = false ∧ m.reqDone o { r with done := Tbl.put r.done e (k + 1) } = true

section
variable {m : Block} {o : PageObj} {r : PageReq} {e k : Nat} (urgent : Bool)

/-- The last segment of a page-out frees the object's place (R175, R177). -/
theorem Block.segmentMoved_of_last (h : m.EndsPageOut o r e k) : m.segmentMoved o r urgent e k = (m.countMoved o r urgent e k).pagedOut o := by
  obtain ⟨hout, hdone⟩ := h
  exact if_pos (by rw [hdone, hout]; rfl)

/-- Any other is counted alone. -/
theorem Block.segmentMoved_of_not_last (h : ¬ m.EndsPageOut o r e k) : m.segmentMoved o r urgent e k = m.countMoved o r urgent e k :=
  if_neg (by simpa [Block.EndsPageOut] using h)

end

/-- What of a segment a host holds exclusively. -/
def Block.segBusy (m : Block) (o : PageObj) (pageIn : Bool) (e k : Nat) : List Nat :=
  (m.segBlocks o e k).filter fun b => m.heldExclusive (blockSource o pageIn b) (blockBytesOf o b)

/-- An engine without a segment takes one. -/
theorem pagingSegmentCompleteEffect_of_free {m : Block} {e : Nat} (h : (m.page.engines.find? fun x => x.1 == e) = none) :
    pagingSegmentCompleteEffect e m = m.takeSegment e := by
  simp only [pagingSegmentCompleteEffect, h]

section
variable {m : Block} {e e' id k : Nat} {urgent : Bool} {o : PageObj} {r : PageReq}
  (he : (m.page.engines.find? fun x => x.1 == e) = some (e', id, urgent, k)) (ho : m.obj? id = some o)
  (hr : ((if urgent then m.page.urgent else m.page.background).find? fun r => r.obj == id) = some r)
include he ho hr

/-- A segment of which no host holds a block is moved, and the engine takes the next. -/
theorem pagingSegmentCompleteEffect_of_moved (h : m.segBusy o r.pageIn e k = []) :
    pagingSegmentCompleteEffect e m = (m.segmentMoved o r urgent e k).takeSegment e := by
  rw [Block.segBusy] at h
  simp only [pagingSegmentCompleteEffect, he, ho, hr, h, List.isEmpty_nil, if_true]

/-- What a host holds exclusively is asked back first (R372). -/
theorem pagingSegmentCompleteEffect_of_busy (h : m.segBusy o r.pageIn e k ≠ []) : pagingSegmentCompleteEffect e m =
    (m.segBusy o r.pageIn e k).foldl (fun m b => m.snoopReads (blockSource o r.pageIn b) (blockBytesOf o b)) m := by
  rw [Block.segBusy] at h ⊢
  simp only [pagingSegmentCompleteEffect, he, ho, hr, List.isEmpty_iff, h, if_false]

end

/- Page-ins and page-outs -/

section
variable {m : Block} {id : Nat} {o : PageObj} (ho : m.obj? id = some o)
include ho

/-- An object of which a segment is still to move is not resident yet. -/
theorem pageInCompleteEffect_of_open {r : PageReq} (hr : (m.page.urgent.find? fun r => r.obj == id) = some r) (h : m.reqDone o r = false) :
    pageInCompleteEffect id m = m := by
  simp only [pageInCompleteEffect, ho, hr, h, Bool.not_false, if_true]

/-- One whose every segment has been moved in is resident, and the commands it held go on (R177, R255). -/
theorem pageInCompleteEffect_of_done {r : PageReq} (hr : (m.page.urgent.find? fun r => r.obj == id) = some r) (h : m.reqDone o r = true) :
    pageInCompleteEffect id m = (((m.pagedIn o).endHolds.loadHeld).cmd.cmds.filter fun c => c.started && c.wait == .residency).foldl
      (fun m c => taskRunEffect c.q m) (m.pagedIn o).endHolds.loadHeld := by
  simp only [pageInCompleteEffect, ho, hr, h, Bool.not_true, Bool.false_eq_true, if_false]

/-- An object that a command names stays, and so does everything while the tier is down (R177). -/
theorem pageOutEffect_of_kept (h : m.objPinned o = true ∨ m.fld Reg.ddrTierStatus 63 63 = 0) : pageOutEffect id m = m := by
  rcases h with hpinned | hdown
  · simp only [pageOutEffect, ho, hpinned, if_true, ite_self]
  · simp only [pageOutEffect, hdown, if_true]

variable (hup : m.fld Reg.ddrTierStatus 63 63 ≠ 0) (hfree : m.objPinned o = false)
include hup hfree

/-- Of the saddles the one that R254 evicts first goes. -/
theorem pageOutEffect_of_saddle {t h v : Nat} {z : Saddle} (hkind : o.kind = .saddle t h v) (hz : m.saddleAt? t h v = some z) :
    pageOutEffect id m = if m.evictable = some z then m.evict z else m := by
  simp only [pageOutEffect, hup, ho, hfree, hkind, hz, Bool.false_eq_true, if_false]

/-- A tenant's object is paged out in the background (R174, R175). -/
theorem pageOutEffect_of_other {t : Nat} (hkind : o.kind = .other t) (hres : o.resident = true) (hq : m.queued id = false) :
    pageOutEffect id m = { m with page.background := m.page.background ++ [{ obj := id, pageIn := false, since := m.time }] } := by
  simp only [pageOutEffect, hup, ho, hfree, hkind, Block.pageOutLater, hres, hq, Bool.false_eq_true, Bool.not_true, or_self, if_false]

end

/- The memories' events -/

/-- The patrol of a stack that is present and has not failed corrects it and notes its end (R161). -/
theorem patrolScrubEffect_of_stack {m : Block} {k : Nat} (hk : k < 32) (hpresent : k < m.stackCount)
    (hsound : m.flt.failedStacks.contains k = false) : patrolScrubEffect k m =
      (m.correct (k * 0x1000000000) 0x1000000000).setReg (Reg.hbmScrub k) (BitVec.ofNat 64 m.time) := by
  simp only [patrolScrubEffect, ge_iff_le, Nat.not_le.mpr hk, Nat.not_le.mpr hpresent, hsound, Bool.false_eq_true, or_self, if_false]

/-- That of a channel of the tier finds the errors behind it (R171). -/
theorem patrolScrubEffect_of_channel (m : Block) (k : Nat) : patrolScrubEffect (32 + k) m =
    (m.ecc.filter fun e => m.region (128 * e.1) == .tier && m.tierChannel (128 * e.1) == k).foldl (fun m e => m.findError e) m := by
  simp only [patrolScrubEffect, ge_iff_le, Nat.le_add_right, if_true, Nat.add_sub_cancel_left]

/-- A used channel that works fails, and the module recovers; whether it comes back when it is trained again is open (R172). -/
theorem ddrChannelFailureEffect_of_used {m : Block} {k : Nat} (hk : k < 16) (hused : m.channels.contains k = true)
    (hworks : m.fld (Reg.ddrStatus k) 63 60 = 2) (hruns : m.fwRuns = true) : ddrChannelFailureEffect k m =
      ((if bit m.draw.1 0 then { m.draw.2 with flt.deadChannels := insertNat m.draw.2.flt.deadChannels k } else m.draw.2).setFld
        (Reg.ddrStatus k) 63 60 4).startRecovery := by
  simp only [ddrChannelFailureEffect, ge_iff_le, Nat.not_le.mpr hk, hused, hworks, hruns, Bool.not_true, Bool.false_eq_true, ne_eq,
    not_true_eq_false, or_self, if_false]

/-- Settles O41: the engine's segments, the ends of page-ins and page-outs, and the memories' events, row by row. -/
theorem pagingRows : Obligations.PagingRows := by
  refine ⟨fun e s hnone => ?_, fun e e' id k urgent o r s he ho hr => ?_, fun id o r s ho hr => ?_,
    fun id o t s hup ho hkind hfree hres hq => ?_, fun id o t h v z s hup ho hkind hfree hz => ?_,
    fun id o s ho hkept => gives_of_commit rfl (pageOutEffect_of_kept ho hkept),
    fun k s hk hpresent hsound => gives_of_commit rfl (patrolScrubEffect_of_stack hk hpresent hsound),
    fun k s => gives_of_commit rfl (patrolScrubEffect_of_channel s.m k),
    fun k s hk hused hworks hruns => gives_of_commit rfl (ddrChannelFailureEffect_of_used hk hused hworks hruns)⟩
  · have hfree := pagingSegmentCompleteEffect_of_free hnone
    exact ⟨fun hup => gives_of_commit rfl (hfree.trans (Block.takeSegment_of_unused hup)),
      fun hup hu hb => gives_of_commit rfl (hfree.trans (Block.takeSegment_of_none hup hu hb)),
      fun r hup hu => gives_of_commit rfl (hfree.trans (Block.takeSegment_of_urgent hup hu)),
      fun r hup hu hb => gives_of_commit rfl (hfree.trans (Block.takeSegment_of_background hup hu hb))⟩
  · refine ⟨fun hbusy hlast => gives_of_commit rfl ?_, fun hbusy hlast => gives_of_commit rfl ?_,
      fun hbusy => gives_of_commit rfl (pagingSegmentCompleteEffect_of_busy he ho hr hbusy)⟩
    · exact (pagingSegmentCompleteEffect_of_moved he ho hr hbusy).trans
        (congrArg (Block.takeSegment · e) (Block.segmentMoved_of_not_last urgent hlast))
    · exact (pagingSegmentCompleteEffect_of_moved he ho hr hbusy).trans
        (congrArg (Block.takeSegment · e) (Block.segmentMoved_of_last urgent hlast))
  · exact ⟨fun h => gives_of_commit rfl (pageInCompleteEffect_of_open ho hr h),
      fun h => gives_of_commit rfl (pageInCompleteEffect_of_done ho hr h)⟩
  · exact (gives_of_commit rfl (pageOutEffect_of_other ho hup hfree hkind hres hq)).completes ⟨rfl, OnlyRegs.settle [] _⟩
  · have hout := pageOutEffect_of_saddle ho hup hfree hkind hz
    exact ⟨fun hz => gives_of_commit rfl (hout.trans (if_pos hz)), fun hz => gives_of_commit rfl (hout.trans (if_neg hz))⟩

end Sys2Proof.Machine

/-! SUPPORT. The registers that memory errors and writes at home leave alone (R114, R161, R162, R466): they count in the registers of the pool, of HBM
and of the DDR5 channels, which lie below DDR_TIER_STATUS. -/
namespace Sys2Proof.Machine

/-- The registers past those of the pool, of HBM and of the DDR5 channels hold their values. -/
def Block.SameHighRegs (m m' : Block) : Prop := ∀ r, Reg.ddrTierStatus ≤ r → m'.reg r = m.reg r

/-- Nothing changes. -/
theorem Block.SameHighRegs.refl (m : Block) : m.SameHighRegs m := fun _ _ => rfl

/-- Two updates in turn. -/
theorem Block.SameHighRegs.trans {a b c : Block} (h : a.SameHighRegs b) (h' : b.SameHighRegs c) : a.SameHighRegs c :=
  fun r hr => (h' r hr).trans (h r hr)

/-- Updates that leave them leave them in turn. -/
theorem Block.SameHighRegs.foldl {α : Type} {f : Block → α → Block} (h : ∀ (m : Block) (x : α), m.SameHighRegs (f m x)) (l : List α)
    (m : Block) : m.SameHighRegs (l.foldl f m) := by
  induction l generalizing m with
  | nil => exact .refl m
  | cons x l ih => exact (h m x).trans (ih _)

/-- An update that leaves the registers and the variant. -/
theorem Block.SameHighRegs.of_regs {m m' : Block} (h : m'.regs = m.regs) (hv : m'.fuse = m.fuse) : m.SameHighRegs m' :=
  fun r _ => m.reg_congr m' r h hv

/-- A change of the bytes and of the keys they stand under. -/
theorem Block.SameHighRegs.withMem (m : Block) (x : Memory) (y : List (Nat × Nat × Nat)) : m.SameHighRegs { m with mem := x, stale := y } :=
  .of_regs rfl rfl

/-- A count below them. -/
theorem Block.SameHighRegs.satFld (m : Block) {r : Nat} (hi lo k : Nat) (h : r < Reg.ddrTierStatus) : m.SameHighRegs (m.satFld r hi lo k) :=
  fun x hx => m.reg_satFld_ne r x hi lo k (Nat.ne_of_gt (Nat.lt_of_lt_of_le h hx))

/- The registers that count -/

/-- There are at most 32 stacks. -/
theorem Block.stackCount_le (m : Block) : m.stackCount ≤ 32 := by
  unfold Block.stackCount Block.tileCount
  split <;> decide

/-- An address in HBM lies in one of them. -/
theorem Block.stack_lt {m : Block} {a : Nat} (h : m.region a = .hbm) : a / 0x1000000000 < 32 := by
  have hcount := m.stackCount_le
  unfold Block.region at h
  split at h
  · omega
  · split_ifs at h

/-- A granule of the tier lies in one of 16 channels. -/
theorem Block.tierChannel_lt (m : Block) (a : Nat) : m.tierChannel a < 16 := by
  unfold Block.tierChannel
  dsimp only
  split
  · decide
  · rename_i hsome
    have hlt := Nat.mod_lt (a % 0x100000000000 / 4096) (Nat.pos_of_ne_zero hsome)
    rw [List.getD_eq_getElem _ _ hlt]
    have hmem := List.getElem_mem hlt
    simp only [Block.channels, maskList, List.mem_filter, List.mem_range] at hmem
    exact hmem.1

/-- The registers that count a stack's poison lie below, with room for one stack more. -/
theorem Reg.hbmPoison_lt {k : Nat} (h : k ≤ 32) : Reg.hbmPoison k < Reg.ddrTierStatus := by
  simp only [Reg.hbmPoison, Reg.ddrTierStatus]
  omega

/-- So do those of a pool bank group. -/
theorem Reg.poolPoison_lt (a : Nat) : Reg.poolPoison (a % 0x100000000 / 0x10000000) < Reg.ddrTierStatus := by
  simp only [Reg.poolPoison, Reg.ddrTierStatus]
  omega

/-- And those of a DDR5 channel. -/
theorem Block.ddrPoison_lt (m : Block) (a : Nat) : Reg.ddrPoison (m.tierChannel a) < Reg.ddrTierStatus := by
  have hchannel := m.tierChannel_lt a
  simp only [Reg.ddrPoison, Reg.ddrTierStatus]
  omega

/-- The register that counts a memory's errors lies below. -/
theorem Block.eccReg_lt {m : Block} {a r : Nat} (h : m.eccReg a = some r) : r < Reg.ddrTierStatus := by
  unfold Block.eccReg at h
  split at h <;> cases h <;> simp only [Reg.hbmEcc, Reg.poolEcc, Reg.ddrEcc, Reg.ddrTierStatus]
  case _ hr =>
    have hstack := Block.stack_lt hr
    omega
  case _ => omega
  case _ =>
    have hchannel := m.tierChannel_lt a
    omega

/- Errors that are found -/

section
variable (m : Block)

/-- The wear ledger is no register. -/
theorem Block.sameHighRegs_addWear (kind reason unit from_ to_ count : Nat) :
    m.SameHighRegs (m.addWear kind reason unit from_ to_ count) := by
  unfold Block.addWear
  split <;> exact .refl m

/-- Counting a poisoning. -/
theorem Block.sameHighRegs_countPoison (a : Nat) : m.SameHighRegs (m.countPoison a) := by
  unfold Block.countPoison
  split
  · next hr => exact .satFld m _ _ _ (Reg.hbmPoison_lt (Block.stack_lt hr).le)
  · exact .satFld m _ _ _ (Reg.poolPoison_lt a)
  · exact .satFld m _ _ _ (m.ddrPoison_lt a)
  · exact .refl m

/-- Poisoning a granule. -/
theorem Block.sameHighRegs_poisonGranule (g : Nat) : m.SameHighRegs (m.poisonGranule g) := by
  unfold Block.poisonGranule
  split
  · exact .refl m
  · exact Block.sameHighRegs_countPoison { m with poison := insertNat m.poison g } (128 * g)

/-- Counting a write that is dropped. -/
theorem Block.sameHighRegs_countDrop (a : Nat) : m.SameHighRegs (m.countDrop a) := by
  unfold Block.countDrop
  split
  · next hr => exact .satFld m _ _ _ (Reg.hbmPoison_lt (Block.stack_lt hr).le)
  · exact .satFld m _ _ _ (Reg.poolPoison_lt a)
  · exact .satFld m _ _ _ (m.ddrPoison_lt a)
  · exact m.sameHighRegs_addWear _ _ _ _ _ _
  · exact .refl m

/-- Retiring a page of HBM. -/
theorem Block.sameHighRegs_retirePage {a : Nat} (count : Nat) (h : a / 0x1000000000 < 32) : m.SameHighRegs (m.retirePage a count) := by
  unfold Block.retirePage
  split
  · exact .refl m
  · refine (m.sameHighRegs_addWear _ _ _ _ _ _).trans (.satFld _ _ _ _ ?_)
    simp only [Reg.hbmStatus, Reg.ddrTierStatus]
    omega

/-- The thresholds that an error adds to. -/
theorem Block.sameHighRegs_countError (a kind : Nat) : m.SameHighRegs (m.countError a kind) := by
  unfold Block.countError
  split
  · next hr =>
    have hstack := Block.stack_lt hr
    split
    · exact m.sameHighRegs_retirePage 1 hstack
    · dsimp only
      split
      · exact Block.sameHighRegs_retirePage { m with flt.pageCorr := _ } _ hstack
      · exact .refl m
  · dsimp only
    split <;> exact .refl m
  · exact .refl m

/-- Noting an error. -/
theorem Block.sameHighRegs_noteError (a kind : Nat) : m.SameHighRegs (m.noteError a kind) := by
  unfold Block.noteError
  dsimp only
  refine .trans ?_ (Block.sameHighRegs_countError _ a kind)
  split
  · next hr => split <;> exact .satFld m _ _ _ (Block.eccReg_lt hr)
  · split
    · exact (m.sameHighRegs_addWear _ _ _ _ _ _).trans fun r _ => Block.reg_modCore _ _ r _
    · exact .refl m

/-- Finding an error. -/
theorem Block.sameHighRegs_findError (e : Nat × List Nat) : m.SameHighRegs (m.findError e) := by
  have hdetected (m : Block) : m.SameHighRegs ((m.noteError (128 * e.1) 2).poisonGranule e.1) :=
    (m.sameHighRegs_noteError _ _).trans (Block.sameHighRegs_poisonGranule _ _)
  refine .trans (b := { m with ecc := m.ecc.erase e }) (.of_regs rfl rfl) ?_
  unfold Block.findError
  dsimp only
  generalize ({ m with ecc := m.ecc.erase e } : Block) = m1
  split
  · exact m1.sameHighRegs_noteError _ _
  · exact hdetected m1
  · have hdraw : m1.SameHighRegs (m1.draw.2.drawBytes 128).2 := .of_regs rfl rfl
    generalize (m1.draw.2.drawBytes 128).1 ++ List.replicate 128 0 = bs
    have hwrite := hdraw.trans (.withMem _ ((m1.draw.2.drawBytes 128).2.mem.writeN (128 * e.1) (bs.take 128)) m1.stale)
    split
    · exact hdetected m1.draw.2
    · exact hwrite
    · exact hwrite.trans (Block.sameHighRegs_noteError _ _ _)

/-- Counting the reads that failed stacks answer, where the access ends in HBM or just past it. -/
theorem Block.sameHighRegs_countReads (a : Nat) {n : Nat} (hn : n ≤ 0x1000000000) : m.SameHighRegs (m.countReads a n) := by
  unfold Block.countReads
  split
  · exact .refl m
  · next hr =>
    have hstack := Block.stack_lt (not_not.mp hr)
    refine .foldl (fun m s => ?_) _ m
    dsimp only
    split
    · exact .refl m
    · exact .satFld m _ _ _ (Reg.hbmPoison_lt (by omega))

/-- A read of such an access. -/
theorem Block.sameHighRegs_correct (a : Nat) {n : Nat} (hn : n ≤ 0x1000000000) : m.SameHighRegs (m.correct a n) :=
  (m.sameHighRegs_countReads a hn).trans (.foldl Block.sameHighRegs_findError _ _)

/- Writes at home -/

variable (a : Nat) (bs : List Byte) (mask : List Bool)

/-- Sound data that goes to a host is not counted. -/
theorem Block.countHostPoison_sound : m.countHostPoison a false = m := if_neg (by simp)

/-- A thaw. -/
theorem Block.sameHighRegs_thaw (g : Nat) : m.SameHighRegs (m.thaw g) := by
  by_cases hs : m.staleAt g = none
  · rw [Block.thaw_of_fresh hs]
    exact .of_regs rfl rfl
  · rw [Block.thaw_of_stale hs]
    exact .withMem m _ _

/-- A write of sound data to one granule. -/
theorem Block.sameHighRegs_applyGranule : m.SameHighRegs (m.applyGranule a bs mask false) := by
  have hput (m : Block) : m.SameHighRegs (m.putPart a bs mask false) := by
    rw [Block.putPart, Block.countHostPoison_sound]
    exact .of_regs rfl rfl
  by_cases hf : m.stackFailed a = true
  · rw [Block.applyGranule_of_failed false hf]
    exact m.sameHighRegs_countDrop a
  · by_cases hw : Whole a bs mask
    · rw [Block.applyGranule_of_whole false (Bool.not_eq_true _ ▸ hf) hw, Block.putWhole, Block.countHostPoison_sound]
      exact .of_regs rfl rfl
    · rw [Block.applyGranule_of_part false (Bool.not_eq_true _ ▸ hf) hw]
      have hfound := (m.sameHighRegs_correct (128 * (a / 128)) (n := 128) (by decide)).trans (Block.sameHighRegs_thaw _ (a / 128))
      dsimp only
      split
      · exact hfound.trans (Block.sameHighRegs_countDrop _ a)
      · exact hfound.trans (hput _)

/-- A master's write of it, which a host copy or a host may hold back. -/
theorem Block.sameHighRegs_writeGranule : m.SameHighRegs (m.writeGranule a bs mask false) := by
  unfold Block.writeGranule
  dsimp only
  split
  · exact .refl m
  · split
    · exact m.sameHighRegs_applyGranule a bs mask
    · exact .refl m

/-- A write of several granules. -/
theorem Block.sameHighRegs_writeGranules (fuel : Nat) : m.SameHighRegs (m.writeGranules a bs mask false fuel) := by
  induction fuel generalizing m a bs mask with
  | zero => exact .refl m
  | succ fuel ih =>
    unfold Block.writeGranules
    split
    · exact .refl m
    · exact (m.sameHighRegs_writeGranule a _ _).trans (ih _ _ _ _)

/-- A write at home. -/
theorem Block.sameHighRegs_homeWrite : m.SameHighRegs (m.homeWrite a bs) := m.sameHighRegs_writeGranules a bs [] _

end

end Sys2Proof.Machine

/-! SUPPORT. Job rings and codecs (R180 to R191, R224, R240, R262, R283, R447): writes of TAIL, rings that halt, and what a codec row and the end of
its job make of the entry at HEAD. -/
namespace Sys2Proof.Machine

/- Writes of TAIL -/

/-- Entries of a ring that wait, from HEAD to TAIL. -/
def Block.ringUsed (m : Block) (mtype idx : Nat) : Nat :=
  (m.tailOf mtype idx + m.ringSize mtype idx - m.headOf mtype idx) % m.ringSize mtype idx

/-- A tail that stays in its ring and does not pass HEAD (R191). -/
def Block.TailFits (m : Block) (mtype idx tail : Nat) : Prop :=
  tail < m.ringSize mtype idx ∧
    m.ringUsed mtype idx + (tail + m.ringSize mtype idx - m.tailOf mtype idx) % m.ringSize mtype idx < m.ringSize mtype idx

section
variable {m : Block} {mtype idx tail : Nat}

/-- A write by firmware that fits is taken; an empty ring's master takes up work (R448). -/
theorem Block.writeTail_of_fits (h : m.TailFits mtype idx tail) : m.writeTail .firmware mtype idx tail =
    if m.ringUsed mtype idx = 0 then (m.setFld (ringTail mtype idx) (ringTop mtype) 0 tail).beat mtype idx
    else m.setFld (ringTail mtype idx) (ringTop mtype) 0 tail := by
  obtain ⟨hin, hbefore⟩ := h
  rw [Block.ringUsed] at hbefore
  refine if_neg ?_
  simp only [isFw, Bool.true_or, Bool.not_true, Bool.false_eq_true, false_or, not_or, ge_iff_le, not_le]
  exact ⟨hin, hbefore⟩

/-- Any other changes nothing. -/
theorem Block.writeTail_of_unfit (r : Requester) (h : ¬ m.TailFits mtype idx tail) : m.writeTail r mtype idx tail = m := by
  refine if_pos (.inr ?_)
  simpa only [Block.TailFits, not_and_or, not_lt, ge_iff_le, Block.ringUsed] using h

/-- Nor does one by a core that does not own the ring (R191). -/
theorem Block.writeTail_of_stranger {n : Nat} (h : m.ownsAsCore (.core n) (ringOwner mtype idx) = false) :
    m.writeTail (.core n) mtype idx tail = m :=
  if_pos (.inl (by simp [isFw, h]))

end

/-- The three rows that write a TAIL share its write. -/
theorem exec_ringTail {mtype idx unit ring tail : Nat} {r : Requester} {c : Instr}
    (h : (c = .cmpRingTail r unit ring tail ∧ mtype = 2 ∧ idx = 32 * unit + ring) ∨
      (c = .drvRingTail r unit ring tail ∧ mtype = 3 ∧ idx = 8 * unit + ring) ∨
      (c = .grmRingTail r unit ring tail ∧ mtype = 4 ∧ idx = 4 * unit + ring)) (s : State) :
    exec c s = s.commit (s.m.byHost r fun m => m.writeTail r mtype idx tail) := by
  rcases h with ⟨rfl, rfl, rfl⟩ | ⟨rfl, rfl, rfl⟩ | ⟨rfl, rfl, rfl⟩ <;> rfl

/- Rings that halt -/

/-- What a master serves is read from the tasks of the cores, the channels, the tiles, the commands, the Groom lists and, for a Groom ring, its
HEAD. -/
theorem Block.serves_congr {m m' : Block} (mtype idx t c : Nat) (hunits : m.SameUnits m')
    (hhead : mtype = 4 → m'.fld (ringHead 4 idx) 9 0 = m.fld (ringHead 4 idx) 9 0) : m'.serves mtype idx t c = m.serves mtype idx t c := by
  obtain ⟨hcores, htiles, hchans, hcmd, heng, -⟩ := hunits
  have htask (n : Nat) : (m'.core n).task = (m.core n).task := (congrArg CoreState.task (hcores n) :)
  unfold Block.serves
  split
  · exact htask idx
  · simp only [htask, Block.chan, Block.commandOf, hchans, hcmd]
  · simp only [hhead rfl, Block.commandOf, heng, hcmd]
  · simp only [Block.tile, htiles]
  · simp only [Block.commandOf, hcmd]

/-- The HEAD of a Groom ring lies past the registers that count memory errors. -/
theorem ringHead_groom_high (idx : Nat) : Reg.ddrTierStatus ≤ ringHead 4 idx := by
  simp only [ringHead, Reg.grmRingHead, Reg.ddrTierStatus]
  omega

section
variable (m : Block) (mtype idx : Nat) (x : Context) (size w : Nat)

/-- A write into an entry changes nothing of what its ring serves. -/
theorem Block.serves_entryWrite (v : Word) (t c : Nat) : (m.entryWrite mtype idx x size w v).serves mtype idx t c = m.serves mtype idx t c := by
  obtain ⟨⟨hunits, -⟩, -⟩ := m.homeWrite_frame (m.entryAddr mtype idx x size (m.headOf mtype idx) + 8 * w) (leBytes 8 v.toNat)
  refine Block.serves_congr _ _ _ _ hunits fun _ => ?_
  rw [Block.fld, Block.fld]
  exact congrArg (field · 9 0) (m.sameHighRegs_homeWrite _ _ _ (ringHead_groom_high idx))

/-- Nor does a change of its STATE. -/
theorem Block.serves_setState (v t c : Nat) : (m.setFld (ringHead mtype idx) 63 60 v).serves mtype idx t c = m.serves mtype idx t c := by
  refine Block.serves_congr _ _ _ _ (Block.SameUnits.refl m) fun h => ?_
  subst h
  exact m.fld_setFld_apart _ _ _ _ _ _ (.inl (by decide)) (by decide)

/-- A ring whose master serves no command halts with RESULT 3 in its entry (R188). -/
theorem Block.haltRing_of_unserved (hi : Nat) (word : Word) (h : m.serves mtype idx x.tenant x.ctx = none) :
    m.haltRing mtype idx x size w hi word =
      (m.entryWrite mtype idx x size w (putField word hi (hi - 1) 3)).setFld (ringHead mtype idx) 63 60 2 := by
  have hnone := (Block.serves_setState (m.entryWrite mtype idx x size w (putField word hi (hi - 1) 3)) mtype idx 2 x.tenant x.ctx).trans
    ((m.serves_entryWrite mtype idx x size w (putField word hi (hi - 1) 3) x.tenant x.ctx).trans h)
  simp only [Block.haltRing, hnone]

end

/- The codec rows -/

/-- The four codec rows share their effect; each runs the jobs of its own OP. -/
theorem exec_codec {die ring op : Nat} {c : Instr}
    (h : (c = .lossyEncode die ring ∧ op = 0) ∨ (c = .lossyDecode die ring ∧ op = 1) ∨ (c = .losslessEncode die ring ∧ op = 2) ∨
      (c = .losslessDecode die ring ∧ op = 3)) (s : State) : exec c s = s.commit (codecEffect op die ring s.m) := by
  rcases h with ⟨rfl, rfl⟩ | ⟨rfl, rfl⟩ | ⟨rfl, rfl⟩ | ⟨rfl, rfl⟩ <;> rfl

/-- What is kept of a job that has run, until its end. -/
def Course.job (r : Course) (op : Nat) : CodecJob :=
  { result := if r.subs = 0 then 1 else 2, dmgSub := r.subs, firstDmg := r.first.getD 0, dlen := r.dlen, encode := op == 2 }

/-- What a codec makes of a sound job that its ring has taken (R180 to R185, R189, R190). -/
def Block.runJob (m : Block) (op idx : Nat) (x : Context) (j : CJob) : Block :=
  let v := ringMover 2 idx x
  let r := runCodec m v j
  let m1 := r.m.dropReads v
  if !r.dead && !r.needs.isEmpty then m.request v r.needs
  else if r.dead then m1
  else { m1 with eng.codecs := Tbl.put m1.eng.codecs idx (r.job op) }.beat 2 idx

section
variable {m : Block} {op idx : Nat} {x : Context} {j : CJob} {r : Course} (h : runCodec m (ringMover 2 idx x) j = r)
include h

/-- What it cannot read yet it asks for, and does nothing else. -/
theorem Block.runJob_of_needs (hlive : r.dead = false) (hneeds : r.needs ≠ []) : m.runJob op idx x j = m.request (ringMover 2 idx x) r.needs := by
  subst h
  exact if_pos (by simp [hlive, hneeds])

/-- A check that fails curbs the ring (R443). -/
theorem Block.runJob_of_dead (hdead : r.dead = true) : m.runJob op idx x j = r.m.dropReads (ringMover 2 idx x) := by
  subst h
  exact (if_neg (by simp [hdead])).trans (if_pos hdead)

/-- A job that has read all it needs has run, and its end is to come. -/
theorem Block.runJob_of_ran (hlive : r.dead = false) (hneeds : r.needs = []) : m.runJob op idx x j =
    ({ r.m.dropReads (ringMover 2 idx x) with
      eng.codecs := Tbl.put (r.m.dropReads (ringMover 2 idx x)).eng.codecs idx (r.job op) } : Block).beat 2 idx := by
  subst h
  exact (if_neg (by simp [hneeds])).trans (if_neg (by simp [hlive]))

end

section
variable {m : Block} {die ring op : Nat} {x : Context} (hready : m.entryReady 2 (32 * die + ring) 64 x = true)
  (hidle : ∀ e ∈ m.eng.codecs, e.1 ≠ 32 * die + ring)
include hready hidle

/-- A ring that runs no job looks at the entry at HEAD: at its OP, and then at its other fields. -/
theorem codecEffect_of_ready {m1 : Block} {j : CJob} (hm : m1 = m.entryTaken 2 (32 * die + ring) 64 x)
    (hj : j = ⟨m.entryWords 2 (32 * die + ring) 64 x⟩) : codecEffect op die ring m =
      if j.op ≠ op ∧ j.op ≤ 3 then m
      else if m1.cjobBad j then m1.haltRing 2 (32 * die + ring) x 64 7 63 (wordAt j.w 7)
      else m1.runJob op (32 * die + ring) x j := by
  subst hm hj
  have hnone : (m.eng.codecs.any fun e => e.1 == 32 * die + ring) = false := List.any_eq_false.mpr fun e he => by simpa using hidle e he
  simp only [codecEffect, hnone, Block.takeEntry_of_ready hready, Bool.false_eq_true, if_false]
  rfl

end

/- The end of a job -/

/-- The block once a job's end is in its entry and HEAD has moved on (R187). -/
def Block.writeEnd (m : Block) (idx : Nat) (x : Context) (e : CodecJob) (w : List Word) : Block :=
  let w7 := putField (putField (putField (wordAt w 7) 63 62 e.result) 61 54 e.dmgSub) 47 0 e.firstDmg
  let m1 := if e.encode then
      (m.entryWrite 2 idx x 64 4 (putField (wordAt w 4) 63 48 (e.dlen % 65536))).entryWrite 2 idx x 64 5
        (putField (wordAt w 5) 63 42 (e.dlen / 65536))
    else m
  (m1.entryWrite 2 idx x 64 7 w7).nextEntry 2 idx

/-- And once its hitch is to follow. -/
def Block.endJob (m : Block) (idx : Nat) (x : Context) (e : CodecJob) : Block :=
  let a := m.entryAddr 2 idx x 64 (m.headOf 2 idx)
  let w := leWords 8 (m.readMem a 64)
  let m2 := m.writeEnd idx x e w
  { m2 with eng.codecs := Tbl.drop m2.eng.codecs idx }.signalAfter (bit (wordAt w 0) 39) x a 7 (field (wordAt w 5) 41 32)
    (field (wordAt w 5) 31 0)

/-- The fault record of a damaged job, of a KIND that no rule names (R190). -/
def Block.recordDamage (m : Block) (die ring : Nat) (x : Context) : Block :=
  (m.draw.2.satFld (Reg.cmpRingHead die ring) 43 12 1).faultFor (m.draw.1.toNat % 256) 2 (32 * die + ring) x.tenant x.ctx 0 0 0 0 0
    (m.commandOf x.tenant x.ctx)

/-- A job ends once all that it wrote is at its home. -/
theorem codecJobEndEffect_of_written {m : Block} {die ring k : Nat} {x : Context} {e : CodecJob}
    (he : (m.eng.codecs.find? fun e => e.1 == 32 * die + ring) = some (k, e)) (hx : m.ringOf 2 (32 * die + ring) = some x)
    (hruns : m.ringSt 2 (32 * die + ring) < 2) (hacked : m.allAcked (Master.code (.codec (32 * die + ring))) = true)
    (hhome : m.outputsWait ⟨leWords 8 (m.readMem (m.entryAddr 2 (32 * die + ring) x 64 (m.headOf 2 (32 * die + ring))) 64)⟩ = false) :
    codecJobEndEffect die ring m = if e.result = 2 then (m.endJob (32 * die + ring) x e).recordDamage die ring x
      else m.endJob (32 * die + ring) x e := by
  simp only [codecJobEndEffect, he, hx, hacked, hhome, ge_iff_le, Nat.not_le.mpr hruns, Bool.not_true, Bool.false_eq_true, or_self, if_false]
  rfl

/-- Settles O42: a write of TAIL by its writer and its value, a ring that halts, and the codec rows by what they find in the entry at HEAD. -/
theorem ringsAndCodecs : Obligations.RingsAndCodecs := by
  refine ⟨⟨?_, ?_⟩, ?_, ?_⟩
  · intro mtype idx unit ring tail r c s hc size used fits m
    have hexec := exec_ringTail hc s
    refine ⟨fun hr hfits hempty => ?_, fun hr hfits hused => ?_, fun hr hunfit => ?_, fun n hr hstranger => ?_⟩ <;> subst hr
    · exact gives_of_commit hexec ((Block.writeTail_of_fits hfits).trans (if_pos hempty))
    · exact gives_of_commit hexec ((Block.writeTail_of_fits hfits).trans (if_neg hused))
    · exact gives_of_commit hexec (Block.writeTail_of_unfit _ hunfit)
    · exact gives_of_commit hexec (Block.writeTail_of_stranger hstranger)
  · intro m mtype idx size w hi x word hserves
    have hhalt := m.haltRing_of_unserved mtype idx x size w hi word hserves
    refine ⟨hhalt, ?_⟩
    rw [hhalt]
    exact Block.fld_setFld_self _ _ _ _ _ (by decide)
  · intro die ring op x c s hc idx hready hidle m w j v r job
    have hrow := codecEffect_of_ready (op := op) hready hidle (m1 := m) (j := j) rfl rfl
    have hmine (h : j.op = op ∨ 3 < j.op) : ¬ (j.op ≠ op ∧ j.op ≤ 3) := by omega
    have hruns (ho : j.op = op) (hs : m.cjobBad j = false) := (hrow.trans (if_neg (hmine (.inl ho)))).trans (if_neg (Bool.not_eq_true _ ▸ hs))
    exact ⟨fun ho hin => gives_of_commit (exec_codec hc s) (hrow.trans (if_pos ⟨ho, hin⟩)),
      fun ho hbad => gives_of_commit (exec_codec hc s) ((hrow.trans (if_neg (hmine (.inl ho)))).trans (if_pos hbad)),
      fun ho hbad => gives_of_commit (exec_codec hc s) ((hrow.trans (if_neg (hmine (.inr ho)))).trans (if_pos hbad)),
      fun ho hs hlive hneeds => gives_of_commit (exec_codec hc s) ((hruns ho hs).trans (Block.runJob_of_needs rfl hlive hneeds)),
      fun ho hs hdead => gives_of_commit (exec_codec hc s) ((hruns ho hs).trans (Block.runJob_of_dead rfl hdead)),
      fun ho hs hlive hneeds => gives_of_commit (exec_codec hc s) ((hruns ho hs).trans (Block.runJob_of_ran rfl hlive hneeds))⟩
  · intro die ring x k e s idx he hx hruns hacked a w hhome w7 m1 m2 m3
    have hend := codecJobEndEffect_of_written he hx hruns hacked hhome
    rw [Block.endJob, show s.m.writeEnd idx x e w = m2 from rfl] at hend
    exact ⟨fun hsound => gives_of_commit rfl (hend.trans (if_neg hsound)), fun hdamaged => gives_of_commit rfl (hend.trans (if_pos hdamaged))⟩

end Sys2Proof.Machine

/-! SUPPORT. ATTENTION_PASS (R192 to R219): what its issue makes of a descriptor that it reads, how a pass ends or goes on after one of its
steps, and a pass under way when the core issues the instruction again. -/
namespace Sys2Proof.Machine

/-- A core that issues works on no pass. -/
theorem Block.att_of_issuing {m : Block} {n : Nat} (h : m.issuing n = true) : (m.core n).att = none := by
  simp only [Block.issuing, Bool.and_eq_true, Option.isNone_iff_eq_none] at h
  exact h.2

/-- ATTENTION_PASS reads its descriptor once the units' queues are empty: a malformed one stops the core, one without sequences does nothing more,
another begins its pass (R197, R200). -/
theorem attentionPassEffect_of_read {m f : Block} {i : Issue} {desc : Nat} {bs : List Byte} (hf : m.fetch i = some f)
    (hvec : (m.core i.core).vecQ = []) (hsfu : (m.core i.core).sfuQ = [])
    (hread : ((f.advance i).sense i.core ⟨.core, desc⟩ 128).readLoc i.core ⟨.core, desc⟩ 128 = .ok bs) :
    attentionPassEffect i desc m =
      if desc % 128 ≠ 0 ∨ (AttD.mk (leWords 16 bs)).bad = true then ((f.advance i).sense i.core ⟨.core, desc⟩ 128).attMalformed i.core
      else if (AttD.mk (leWords 16 bs)).seqs = 0 then (f.advance i).sense i.core ⟨.core, desc⟩ 128
      else Block.attGo i.core attFuel { w := leWords 16 bs } (((f.advance i).sense i.core ⟨.core, desc⟩ 128).nextStamp (i.core / 8)).2 := by
  have hatt : (m.core i.core).att = none := Block.att_of_issuing (Block.issuing_of_fetch hf)
  simp only [attentionPassEffect, hatt, hvec, hsfu, Block.issue_of_fetch hf, hread, Option.isSome_none, List.isEmpty_nil, Bool.and_self,
    Bool.not_true, Bool.false_eq_true, if_false]

/-- A pass under way goes on when nothing holds its core (R94). -/
theorem attentionPassEffect_of_pass {m : Block} {i : Issue} {r : AttRun} (desc : Nat) (h : (m.core i.core).att = some r) :
    attentionPassEffect i desc m = if m.passing i.core = true then Block.attGo i.core attFuel r m else m := by
  simp only [attentionPassEffect, Block.attResume, h, Option.isSome_some, if_true]

/-- The block in which core `n` has recorded its pass. -/
def Block.keepPass (m : Block) (n : Nat) (r : AttRun) : Block := m.modCore n fun c => { c with att := some r }

/-- One step of core `n`'s pass: how it ends, and the block after it. -/
def Block.passTurn (m : Block) (n : Nat) (r : AttRun) : Except Halt Turn × Block :=
  (attTurn ((m.keepPass n r).who n) r).run (m.keepPass n r)

/-- What core `n`'s pass does once a step of it has ended: it stops the core (R200, R218), ends (R201), holds the core on a hitch (R217), waits as it
stands, or goes on with `k` steps left. -/
def Block.afterTurn (m : Block) (n k : Nat) : Turn → Block
  | .malformed => m.attMalformed n
  | .done refused => m.attEnd n refused
  | .waitFor hitch target r => (m.keepPass n r).attWait n hitch target
  | .later r => m.keepPass n r
  | .next r => Block.attGo n k r (m.dropReads (m.coreMover n))

/-- A pass is worked on step by step: it does what the end of its next step says. -/
theorem Block.attGo_of_passTurn {m m1 : Block} {n : Nat} (k : Nat) {r : AttRun} {t : Turn} (h : m.passTurn n r = (.ok t, m1)) :
    Block.attGo n (k + 1) r m = m1.afterTurn n k t := by
  rw [Block.passTurn, Block.keepPass] at h
  cases t <;> simp only [Block.attGo, h, Block.afterTurn, Block.keepPass]

/-- Settles O22: an issue by what its descriptor holds, a pass by how its step ends, and a pass under way by whether its core is held. -/
theorem attentionPassRuns : Obligations.AttentionPassRuns := by
  refine ⟨?_, ?_, ?_⟩
  · intro i desc bs s f hf hvec hsfu m d hread
    have hrow := attentionPassEffect_of_read hf hvec hsfu hread
    have hsound (ha : desc % 128 = 0) (hbad : d.bad = false) : ¬ (desc % 128 ≠ 0 ∨ d.bad = true) := by simp [ha, hbad]
    exact ⟨fun hmal => gives_of_commit (exec_attentionPass i desc s) (hrow.trans (if_pos hmal)),
      fun ha hbad hseqs => gives_of_commit (exec_attentionPass i desc s) ((hrow.trans (if_neg (hsound ha hbad))).trans (if_pos hseqs)),
      fun ha hbad hseqs => gives_of_commit (exec_attentionPass i desc s) ((hrow.trans (if_neg (hsound ha hbad))).trans (if_neg hseqs))⟩
  · intro n k r m m1 m0 turn
    exact ⟨Block.attGo_of_passTurn k, fun _ => Block.attGo_of_passTurn k, fun _ _ _ => Block.attGo_of_passTurn k,
      fun _ => Block.attGo_of_passTurn k⟩
  · intro i desc r s hatt
    have hrow := attentionPassEffect_of_pass desc hatt
    exact ⟨fun hpass => gives_of_commit (exec_attentionPass i desc s) (hrow.trans (if_pos hpass)),
      fun hheld => gives_of_commit (exec_attentionPass i desc s) (hrow.trans (if_neg (Bool.eq_false_iff.mp hheld)))⟩

end Sys2Proof.Machine

/-! SUPPORT. The order that TOPK ranks by (R221): scores as points of a linear order with NaN at its lower end, and the selection of the best of
a row's scores one by one. -/
namespace Sys2Proof.Machine

/- Scores in order -/

/-- The rational number that a finite value stands for. -/
def signedValue (neg : Bool) (m : Nat) (e : Int) : ℚ := (if neg then -(m : ℚ) else m) * 2 ^ e

/-- A value's place in the ranking: NaN, −∞, the numbers, +∞, in rising order. -/
def rankKey : Val → ℕ ×ₗ ℚ
  | .nan => toLex (0, 0)
  | .inf true => toLex (1, 0)
  | .fin neg m e => toLex (2, signedValue neg m e)
  | .inf false => toLex (3, 0)

/-- A finite value in units of a smaller power of two. -/
theorem signedInt_mul_zpow {e k : Int} (h : k ≤ e) (neg : Bool) (m : Nat) :
    (signedInt neg m (e - k).toNat : ℚ) * 2 ^ k = signedValue neg m e := by
  have hpow : (2 : ℚ) ^ (e - k).toNat * 2 ^ k = 2 ^ e := by
    rw [← zpow_natCast, Int.toNat_of_nonneg (by omega), ← zpow_add₀ (by norm_num), Int.sub_add_cancel]
  rw [signedValue, ← hpow, ← mul_assoc]
  cases neg <;> simp [signedInt]

/-- Finite values compare as the numbers that they stand for. -/
theorem lt_fin_iff (na nb : Bool) (ma mb : Nat) (ea eb : Int) :
    (Val.fin na ma ea).lt (.fin nb mb eb) = true ↔ signedValue na ma ea < signedValue nb mb eb := by
  have hunit : (0 : ℚ) < 2 ^ min ea eb := by positivity
  rw [← signedInt_mul_zpow (min_le_left ea eb), ← signedInt_mul_zpow (min_le_right ea eb), mul_lt_mul_iff_left₀ hunit, Int.cast_lt]
  exact decide_eq_true_iff

/-- Numbers compare as their places in the ranking. -/
theorem lt_iff_rankKey {a b : Val} (ha : a.isNan = false) (hb : b.isNan = false) : a.lt b = true ↔ rankKey a < rankKey b := by
  cases a with
  | nan => exact absurd ha (by decide)
  | inf na =>
    cases b with
    | nan => exact absurd hb (by decide)
    | inf nb => cases na <;> cases nb <;> simp [Val.lt, rankKey, Prod.Lex.toLex_lt_toLex]
    | fin nb mb eb => cases na <;> simp [Val.lt, rankKey, Prod.Lex.toLex_lt_toLex]
  | fin na ma ea =>
    cases b with
    | nan => exact absurd hb (by decide)
    | inf nb => cases nb <;> simp [Val.lt, rankKey, Prod.Lex.toLex_lt_toLex]
    | fin nb mb eb => simp [lt_fin_iff, rankKey, Prod.Lex.toLex_lt_toLex]

/-- NaN stands below every number. -/
theorem rankKey_nan_lt_iff (a : Val) : rankKey .nan < rankKey a ↔ a.isNan = false := by
  cases a with
  | nan => simp [Val.isNan]
  | inf na => cases na <;> simp [rankKey, Val.isNan, Prod.Lex.toLex_lt_toLex]
  | fin na ma ea => simp [rankKey, Val.isNan, Prod.Lex.toLex_lt_toLex]

/-- Only NaN is NaN. -/
theorem eq_nan_of_isNan {a : Val} (h : a.isNan = true) : a = .nan := by
  cases a with
  | nan => rfl
  | inf | fin => cases h

/-- One score ranks before another when its place is above the other's (R221). -/
theorem ranksBefore_iff (a b : Val) : ranksBefore a b = true ↔ rankKey b < rankKey a := by
  cases hb : b.isNan with
  | true => simp [ranksBefore, eq_nan_of_isNan hb, rankKey_nan_lt_iff, show Val.nan.isNan = true from rfl]
  | false =>
    cases ha : a.isNan with
    | true =>
      have hbelow : ¬ rankKey b < rankKey .nan := ((rankKey_nan_lt_iff b).mpr hb).not_gt
      simp [ranksBefore, eq_nan_of_isNan ha, hbelow, show Val.nan.isNan = true from rfl]
    | false => simp [ranksBefore, ha, hb, lt_iff_rankKey hb ha]

/-- And does not when its place is not above. -/
theorem not_ranksBefore_iff (a b : Val) : ranksBefore a b = false ↔ rankKey a ≤ rankKey b := by
  rw [← not_lt, ← ranksBefore_iff, Bool.not_eq_true]

/-- Numbers at the same place are equal. -/
theorem eq_of_rankKey {a b : Val} (ha : a.isNan = false) (hb : b.isNan = false) (h : rankKey a = rankKey b) : a.eq b = true := by
  have hab : a.lt b = false := by rw [← Bool.not_eq_true, lt_iff_rankKey ha hb, h]; exact lt_irrefl _
  have hba : b.lt a = false := by rw [← Bool.not_eq_true, lt_iff_rankKey hb ha, h]; exact lt_irrefl _
  simp [Val.eq, Val.le, ha, hb, hab, hba]

/-- The two zeros stand at the same place. -/
theorem rankKey_zero (neg : Bool) (e : Int) : rankKey (.fin neg 0 e) = rankKey .zero := by
  simp [rankKey, signedValue, Val.zero]

/- The first of two scores -/

/-- Of two scores with their indices the first comes first: it ranks before the other, or ties with it at a smaller index (R221). -/
def ComesFirst (a b : Val × Nat) : Prop := ranksBefore b.1 a.1 = false ∧ (ranksBefore a.1 b.1 = false → a.2 < b.2)

/-- What comes before a second score comes before all that the second comes before. -/
theorem ComesFirst.trans {a b c : Val × Nat} (hab : ComesFirst a b) (hbc : ComesFirst b c) : ComesFirst a c := by
  obtain ⟨hle, htie⟩ := hab
  obtain ⟨hle', htie'⟩ := hbc
  rw [not_ranksBefore_iff] at hle hle' htie htie'
  refine ⟨(not_ranksBefore_iff _ _).mpr (hle'.trans hle), fun h => ?_⟩
  rw [not_ranksBefore_iff] at h
  exact (htie (h.trans hle')).trans (htie' (hle.trans h))

/-- No score comes before itself. -/
theorem ComesFirst.irrefl (a : Val × Nat) : ¬ ComesFirst a a := fun ⟨hle, htie⟩ => (htie hle).false

/-- A score that ranks before another comes first. -/
theorem ComesFirst.of_ranksBefore {a b : Val × Nat} (h : ranksBefore a.1 b.1 = true) : ComesFirst a b := by
  refine ⟨(not_ranksBefore_iff _ _).mpr ((ranksBefore_iff _ _).mp h).le, fun h' => ?_⟩
  rw [h] at h'
  cases h'

/- The best score -/

/-- The one of two scores that a row keeps: the earlier, unless the later ranks before it. -/
def betterScore (b y : Val × Nat) : Val × Nat := if ranksBefore y.1 b.1 then y else b

/-- Of two scores with rising indices the better one comes first. -/
theorem betterScore_comesFirst {b c : Val × Nat} (h : b.2 < c.2) :
    betterScore b c = b ∧ ComesFirst b c ∨ betterScore b c = c ∧ ComesFirst c b := by
  cases hr : ranksBefore c.1 b.1 with
  | true => exact .inr ⟨if_pos hr, ComesFirst.of_ranksBefore hr⟩
  | false => exact .inl ⟨if_neg (by simp [hr]), hr, fun _ => h⟩

/-- What comes before all others of a list comes before whatever one of them comes before. -/
theorem comesFirst_insert {l : List (Val × Nat)} {r w u : Val × Nat} (hr : ∀ y ∈ l, y ≠ r → ComesFirst r y) (hw : w ∈ l)
    (h : ComesFirst w u) : ComesFirst r u := by
  rcases eq_or_ne w r with rfl | hne
  · exact h
  · exact (hr w hw hne).trans h

/-- Carried along rising indices, the better score comes before all others. -/
theorem foldl_betterScore_comesFirst (l : List (Val × Nat)) (b : Val × Nat) (h : (b :: l).Pairwise fun x y => x.2 < y.2) :
    l.foldl betterScore b ∈ b :: l ∧ ∀ y ∈ b :: l, y ≠ l.foldl betterScore b → ComesFirst (l.foldl betterScore b) y := by
  induction l generalizing b with
  | nil => simp
  | cons c l ih =>
    obtain ⟨hb, hcl⟩ := List.pairwise_cons.mp h
    rw [List.foldl_cons]
    rcases betterScore_comesFirst (hb c List.mem_cons_self) with ⟨hw, hfirst⟩ | ⟨hw, hfirst⟩ <;> rw [hw]
    · obtain ⟨hmem, hrest⟩ := ih b (h.sublist (by simp))
      refine ⟨by grind, fun y hy hne => ?_⟩
      rcases eq_or_ne y c with rfl | hyc
      · exact comesFirst_insert hrest List.mem_cons_self hfirst
      · exact hrest y (by grind) hne
    · obtain ⟨hmem, hrest⟩ := ih c hcl
      refine ⟨List.mem_cons_of_mem _ hmem, fun y hy hne => ?_⟩
      rcases List.mem_cons.mp hy with rfl | hy
      · exact comesFirst_insert hrest List.mem_cons_self hfirst
      · exact hrest y hy hne

/-- Scores of the row `vs` with their indices, in rising order. -/
def ScoresOf (vs : List Val) (l : List (Val × Nat)) : Prop := (l.Pairwise fun x y => x.2 < y.2) ∧ ∀ p ∈ l, vs.getD p.2 .zero = p.1

/-- The whole row. -/
theorem ScoresOf.zipIdx (vs : List Val) : ScoresOf vs vs.zipIdx := by
  refine ⟨?_, fun p hp => ?_⟩
  · have hrising := List.pairwise_lt_range' (s := 0) (n := vs.length)
    rwa [← List.zipIdx_map_snd, List.pairwise_map] at hrising
  · obtain ⟨v, i⟩ := p
    rw [List.mk_mem_zipIdx_iff_getElem?] at hp
    simp [List.getD, hp]

/-- What is left of it. -/
theorem ScoresOf.filter {vs : List Val} {l : List (Val × Nat)} (h : ScoresOf vs l) (p : Val × Nat → Bool) : ScoresOf vs (l.filter p) :=
  ⟨h.1.filter p, fun x hx => h.2 x (List.mem_of_mem_filter hx)⟩

/-- A row that is not empty has a best score. -/
theorem ScoresOf.bestScore {vs : List Val} {l : List (Val × Nat)} (h : ScoresOf vs l) (hne : l ≠ []) :
    ∃ b ∈ l, bestScore l = some b ∧ ∀ y ∈ l, y ≠ b → ComesFirst b y := by
  cases l with
  | nil => exact absurd rfl hne
  | cons x t =>
    obtain ⟨hmem, hfirst⟩ := foldl_betterScore_comesFirst t x h.1
    exact ⟨_, hmem, rfl, hfirst⟩

/-- Without one of its scores a row is one shorter. -/
theorem ScoresOf.length_filter {vs : List Val} {l : List (Val × Nat)} (h : ScoresOf vs l) {b : Val × Nat} (hb : b ∈ l) :
    (l.filter fun y => y.2 != b.2).length = l.length - 1 := by
  have hnodup : (l.map (·.2)).Nodup := (List.pairwise_map.mpr h.1).imp fun hlt => hlt.ne
  have herase := congrArg List.length (hnodup.erase_eq_filter b.2)
  rw [List.length_erase_of_mem (List.mem_map_of_mem hb), List.length_map, List.filter_map, List.length_map] at herase
  exact herase.symm

/-- The indices left without one of them. -/
theorem mem_indices_filter (l : List (Val × Nat)) (i x : Nat) :
    x ∈ (l.filter fun y => y.2 != i).map (·.2) ↔ x ∈ l.map (·.2) ∧ x ≠ i := by
  have hfilter : (l.map (·.2)).filter (· != i) = (l.filter fun y => y.2 != i).map (·.2) := List.filter_map
  rw [← hfilter, List.mem_filter, bne_iff_ne]

/- The selection -/

/-- Index `x` of the row comes before index `y`. -/
def Leads (vs : List Val) (x y : Nat) : Prop := ComesFirst (vs.getD x .zero, x) (vs.getD y .zero, y)

/-- One selection more: the best score, and then the best of the others. -/
theorem ScoresOf.topkRank_succ {vs : List Val} {l : List (Val × Nat)} (h : ScoresOf vs l) (hne : l ≠ []) (k : Nat) :
    ∃ b ∈ l, topkRank (k + 1) l = b.2 :: topkRank k (l.filter fun y => y.2 != b.2) ∧ ∀ y ∈ l, y.2 ≠ b.2 → Leads vs b.2 y.2 := by
  obtain ⟨b, hb, hbest, hfirst⟩ := h.bestScore hne
  refine ⟨b, hb, by simp only [topkRank, hbest], fun y hy hne => ?_⟩
  rw [Leads, h.2 b hb, h.2 y hy]
  exact hfirst y hy fun e => hne (e ▸ rfl)

/-- What TOPK selects of a row: as many scores as it asks for, each before those selected later and before those not selected. -/
theorem ScoresOf.selects {vs : List Val} (k : Nat) {l : List (Val × Nat)} (h : ScoresOf vs l) (hk : k ≤ l.length) :
    (topkRank k l).length = k ∧ (topkRank k l).Pairwise (Leads vs) ∧ (∀ x ∈ topkRank k l, x ∈ l.map (·.2)) ∧
      ∀ x ∈ topkRank k l, ∀ y ∈ l.map (·.2), y ∉ topkRank k l → Leads vs x y := by
  induction k generalizing l with
  | zero => simp [topkRank]
  | succ k ih =>
    have hne : l ≠ [] := by rintro rfl; simp at hk
    obtain ⟨b, hb, hsel, hlead⟩ := h.topkRank_succ hne k
    have hlen := h.length_filter hb
    obtain ⟨ihlen, ihpair, ihmem, ihout⟩ := ih (h.filter fun y => y.2 != b.2) (by omega)
    have hrest := mem_indices_filter l b.2
    have hlead' (x : Nat) (hx : x ∈ l.map (·.2)) (hxb : x ≠ b.2) : Leads vs b.2 x := by
      obtain ⟨y, hy, rfl⟩ := List.mem_map.mp hx
      exact hlead y hy hxb
    rw [hsel]
    refine ⟨by simp [ihlen], List.pairwise_cons.mpr ⟨fun x hx => ?_, ihpair⟩, fun x hx => ?_, fun x hx y hy hnot => ?_⟩
    · obtain ⟨hxl, hxb⟩ := (hrest x).mp (ihmem x hx)
      exact hlead' x hxl hxb
    · rcases List.mem_cons.mp hx with rfl | hx
      · exact List.mem_map_of_mem hb
      · exact ((hrest x).mp (ihmem x hx)).1
    · obtain ⟨hyb, hynot⟩ := not_or.mp (mt List.mem_cons.mpr hnot)
      rcases List.mem_cons.mp hx with rfl | hx
      · exact hlead' y hy hyb
      · exact ihout x hx y ((hrest y).mpr ⟨hy, hyb⟩) hynot

/- BF16 scores -/

/-- A mantissa with 16 more bits, and an exponent less by 16, spell the same number. -/
theorem signedValue_widen (neg : Bool) (m : Nat) (e : Int) : signedValue neg (65536 * m) (e - 16) = signedValue neg m e := by
  have hpow : (2 : ℚ) ^ e = 2 ^ (e - 16) * 65536 := by
    rw [show (65536 : ℚ) = 2 ^ (16 : ℤ) by norm_num, ← zpow_add₀ (by norm_num), Int.sub_add_cancel]
  rw [signedValue, signedValue, hpow]
  cases neg <;> simp <;> ring

/-- A BF16 code and the FP32 code that continues it with zeros agree on NaN and stand at the same place of the ranking. -/
theorem bf16_decode_agrees (c : Nat) : (Fmt.bf16.decode c).isNan = (Fmt.fp32.decode (65536 * c)).isNan ∧
    rankKey (Fmt.bf16.decode c) = rankKey (Fmt.fp32.decode (65536 * c)) := by
  have hsign : (65536 * c).testBit 31 = c.testBit 15 := by
    rw [show 65536 = 2 ^ 16 from rfl, Nat.testBit_two_pow_mul, decide_eq_true (by decide), Bool.true_and]
  have hmag : 65536 * c % 2 ^ 31 = 65536 * (c % 2 ^ 15) := by omega
  simp only [Fmt.decode, Fmt.float, FloatFmt.decode, Nat.add_one_sub_one, hsign, hmag]
  generalize c.testBit 15 = neg
  generalize c % 2 ^ 15 = d
  have hinf : (some 2139095040 = some (65536 * d)) ↔ (some 32640 = some d) := by simp only [Option.some.injEq]; omega
  have hnan : 65536 * d > 2139095039 ↔ d > 32639 := by omega
  have hsub : 65536 * d < 2 ^ 23 ↔ d < 2 ^ 7 := by omega
  have hmant : 2 ^ 23 + 65536 * d % 2 ^ 23 = 65536 * (2 ^ 7 + d % 2 ^ 7) := by omega
  have hbinade : 65536 * d / 2 ^ 23 = d / 2 ^ 7 := by omega
  simp only [hinf, hnan, hsub, hmant, hbinade]
  split_ifs
  · exact ⟨rfl, rfl⟩
  · exact ⟨rfl, rfl⟩
  · refine ⟨rfl, congrArg (fun q => toLex (2, q)) ?_⟩
    rw [← signedValue_widen]
    rfl
  · refine ⟨rfl, congrArg (fun q => toLex (2, q)) ?_⟩
    rw [← signedValue_widen]
    congr 1
    push_cast
    ring

/-- Settles O13: the selection by induction on its length; the rest by the order of the scores' places. -/
theorem topkRanking : Obligations.TopkRanking := by
  refine ⟨fun vs k hk => ?_, fun a b => ?_, fun n n' e e' => ?_, fun c _ => ?_⟩
  · obtain ⟨hlen, hpair, hmem, hout⟩ := (ScoresOf.zipIdx vs).selects k (by simpa using hk)
    have hrow (x : Nat) : x ∈ vs.zipIdx.map (·.2) ↔ x < vs.length := by simp
    refine ⟨hlen, hpair.imp fun hl => ?_, fun x hx => (hrow x).mp (hmem x hx),
      fun x hx y hy hnot => hout x hx y ((hrow y).mpr hy) hnot, fun p q hpq hq => ?_⟩
    · rintro rfl
      exact ComesFirst.irrefl _ hl
    · have hp' : p < (topkRank k vs.zipIdx).length := by omega
      have hq' : q < (topkRank k vs.zipIdx).length := by omega
      rw [List.getD_eq_getElem _ _ hp', List.getD_eq_getElem _ _ hq']
      exact List.pairwise_iff_getElem.mp hpair p q hp' hq' hpq
  · refine ⟨rfl, fun ha => ?_, fun ha hb => ?_⟩
    · simp [ranksBefore, ha, show Val.nan.isNan = true from rfl]
    · simp [ranksBefore, ha, hb]
  · rw [not_ranksBefore_iff, rankKey_zero, rankKey_zero]
  · obtain ⟨hnan, hkey⟩ := bf16_decode_agrees c
    exact ⟨hnan, fun h => eq_of_rankKey h (hnan ▸ h) hkey⟩

end Sys2Proof.Machine

/-! SUPPORT. TOPK, GATHER and SCATTER (R79, R221, R222): what the vector unit makes of operands in and outside their ranges. -/
namespace Sys2Proof.Machine

/-- The operands that TOPK takes (R221, R222). -/
def TopkInRange (scores : Loc) (bf16 : Bool) (spitch experts k : Nat) : Prop :=
  1 ≤ experts ∧ experts ≤ 4096 ∧ 1 ≤ k ∧ k ≤ 16 ∧ k ≤ experts ∧ scores.off % 128 = 0 ∧ spitch % 128 = 0 ∧
    experts * (if bf16 then 2 else 4) ≤ spitch

section
variable {scores : Loc} {bf16 : Bool} {spitch experts k : Nat} (n rows : Nat) (route wgt : Loc) (m : Block)

/-- TOPK ranks row by row. -/
theorem topkRun_of_inRange (h : TopkInRange scores bf16 spitch experts k) : topkRun n scores bf16 spitch rows experts k route wgt m =
    Block.finishRows n (overRows rows (fun m t => m.topkRow n scores bf16 spitch experts k route wgt t) m) := by
  refine if_neg ?_
  simp only [TopkInRange] at h
  omega

/-- Other operands stop the core with LIMIT. -/
theorem topkRun_of_outOfRange (h : ¬ TopkInRange scores bf16 spitch experts k) :
    topkRun n scores bf16 spitch rows experts k route wgt m = m.faultStop n 6 := by
  refine if_pos ?_
  simp only [TopkInRange] at h
  omega

end

section
variable {f m : Block} {n k : Nat} {idx : Loc} {ks : List Nat} (hm : f.sense n idx (4 * k) = m) (h : m.readIdx n idx k = .ok ks)
  (dst src : Loc) (esize : Nat)
include hm h

/-- GATHER with its index list read goes on element by element. -/
theorem gatherRun_of_read : gatherRun n dst src idx esize k f = Block.finishRows n (overRows k (Block.gatherElem n dst src esize ks) m) := by
  simp only [gatherRun, hm, h]

/-- And so does SCATTER. -/
theorem scatterRun_of_read : scatterRun n dst src idx esize k f = Block.finishRows n (overRows k (Block.scatterElem n dst src esize ks) m) := by
  simp only [scatterRun, hm, h]

end

/-- Settles O11: TOPK by its ranges, GATHER and SCATTER by the index list that they read. -/
theorem topkGatherScatter : Obligations.TopkGatherScatter := by
  refine ⟨?_, ?_⟩
  · intro i scores bf16 spitch rows experts k route wgt s st m hf inRange
    exact ⟨fun h => gives_of_vecPerform rfl hf (congrArg some (topkRun_of_inRange i.core rows route wgt m h)),
      fun h => gives_of_vecPerform rfl hf (congrArg some (topkRun_of_outOfRange i.core rows route wgt m h))⟩
  · intro i dst src idx esize n s st f ks hf m h
    exact ⟨gives_of_vecPerform rfl hf (congrArg some (gatherRun_of_read rfl h dst src esize)),
      gives_of_vecPerform rfl hf (congrArg some (scatterRun_of_read rfl h dst src esize))⟩

end Sys2Proof.Machine

/-! SUPPORT. The Drover at the origin of an exchange (R226, R227, R230 to R236): a job whose lists are sound, the answers to its claims, its end,
and its combine. -/
namespace Sys2Proof.Machine

/- A job's lists -/

/-- The addresses of an expert map of `n` entries (Table 9.2). -/
def mapEntries (n : Nat) (bs : List Byte) : List Nat := (List.range n).map fun e => leAt bs (8 * e) 8

/-- An engine without a job at `idx`. -/
theorem any_eq_false_of_idle {α : Type} {l : List (Nat × α)} {idx : Nat} (h : ∀ e ∈ l, e.1 ≠ idx) : (l.any fun e => e.1 == idx) = false :=
  List.any_eq_false.mpr fun e he => by simpa using h e he

section
variable {m m1 m2 : Block} {idx : Nat} {x : Context} {v : Mover} {d : XD} {hs ms : List Byte}
  (hres : d.reserved = false) (hmis : d.misaligned = false) (hrange : d.outOfRange x = false)
  (hhs : m.engRead v (d.addr 9) (32 * d.hosted) = .data m1 hs false) (hms : m1.engRead v (d.addr 5) (8 * d.experts) = .data m2 ms false)
  (hents : ∀ e ∈ hostEnts d.hosted hs, e.rsv = 0 ∧ e.misaligned d.op = false)
  (hmap : ∀ q ∈ mapEntries d.experts ms, m2.mapBad q = false)
include hres hmis hrange hhs hms hents hmap

/-- Sound lists are handed on (R226). -/
theorem Block.withLists_of_sound (k : Block → List Nat → List HostEnt → Block) :
    m.withLists idx x v d k = k m2 (mapEntries d.experts ms) (hostEnts d.hosted hs) := by
  have hrsv : ((hostEnts d.hosted hs).any fun e => e.rsv != 0) = false := List.any_eq_false.mpr fun e he => by simp [(hents e he).1]
  have halign : ((hostEnts d.hosted hs).any fun e => e.misaligned d.op) = false := List.any_eq_false.mpr fun e he => by simp [(hents e he).2]
  have hplaces : (mapEntries d.experts ms).any m2.mapBad = false := List.any_eq_false.mpr fun q hq => by simp [hmap q hq]
  rw [mapEntries] at hplaces
  simp only [Block.withLists, hres, hmis, hrange, Block.withRead_of_data hhs, Block.withRead_of_data hms, hrsv, halign, hplaces, Bool.or_self,
    Bool.false_eq_true, if_false]
  rfl

end

/- EXCHANGE_DISPATCH -/

/-- The segments of a dispatch, one for each expert of its map, with the choices that name it. -/
def segmentsOf (map : List Nat) (ch : List (Nat × Nat × Nat)) (time : Nat) : List Seg :=
  map.zipIdx.map fun qe =>
    { expert := qe.2, qaddr := qe.1, choices := (ch.filter fun tc => tc.2.2 == qe.2).map fun tc => (tc.1, tc.2.1), since := time, sent := time }

/-- The block `m`, in which a dispatch has armed `hosted`, once the job is open: a claim for each segment sent, and the claims held for its queues
served (R227, R234). -/
def Block.openJob (m : Block) (idx : Nat) (x : Context) (d : XD) (segs : List Seg) (hosted : List Nat) : Block :=
  let job : XJob := { words := d.w, exch := d.exch, segs := segs, reason := 0, hosted := hosted }
  let m1 := ({ m with eng.xjobs := Tbl.put m.eng.xjobs idx job }.beat 3 idx).dropReads (ringMover 3 idx x)
  hosted.foldl (fun m q => m.serveHeld q d.exch) (segs.foldl (fun m g => m.xsend (.claim (segClaim m x d g))) m1)

/-- A dispatch whose lists, headers and choices are sound opens its job. -/
theorem exchangeDispatchEffect_of_sound {m m2 m3 : Block} {tile ring idx : Nat} {x : Context} {d : XD} {v : Mover} {hs ms route : List Byte}
    {a : Block × List Nat × List Nat} (hidx : idx = 8 * tile + ring) (hd : d = ⟨m.entryWords 3 idx 128 x⟩) (hv : v = ringMover 3 idx x)
    (hready : m.entryReady 3 idx 128 x = true) (hidle : ∀ e ∈ m.eng.xjobs, e.1 ≠ idx) (hop : d.op = 0)
    (hlists : ∀ k, (m.entryTaken 3 idx 128 x).withLists idx x v d k = k m2 (mapEntries d.experts ms) (hostEnts d.hosted hs))
    (hheaders : m2.headerReads v (hostEnts d.hosted hs) = ([], none))
    (hroute : m2.engRead v (d.addr 2) (32 * d.tokens) = .data m3 route false)
    (hchoices : ∀ tc ∈ routeChoices d route, tc.2.2 < d.experts ∨ tc.2.2 = 0xFFFF)
    (ha : m3.armHosted idx d x v (hostEnts d.hosted hs) = a) (harmed : a.2.1 = []) :
    exchangeDispatchEffect tile ring m =
      a.1.openJob idx x d (segmentsOf (mapEntries d.experts ms) (routeChoices d route) m.time) a.2.2 := by
  have hbad : ((routeChoices d route).any fun tc => decide (tc.2.2 ≥ d.experts) && tc.2.2 != 0xFFFF) = false := by
    refine List.any_eq_false.mpr fun tc htc => ?_
    rcases hchoices tc htc with h | h <;> simp [h]
  subst hidx hd hv
  simp only [exchangeDispatchEffect, any_eq_false_of_idle hidle, Block.takeEntry_of_ready hready, hop, hlists, hheaders, List.isEmpty_nil,
    Block.withRead_of_data hroute, hbad, ha, harmed, Bool.not_true, Bool.false_eq_true, if_false, zero_ne_one,
    List.append_nil, show lowest [] = 0 from rfl, if_true]
  rfl

/- The answers to a claim -/

/-- A ring's job, while the ring is neither halted nor curbed. -/
theorem Block.onJob_of_job {m : Block} {tile ring k : Nat} {j : XJob} {x : Context}
    (hj : (m.eng.xjobs.find? fun e => e.1 == 8 * tile + ring) = some (k, j)) (hx : m.ringOf 3 (8 * tile + ring) = some x)
    (hst : m.ringSt 3 (8 * tile + ring) < 2) (f : Nat → Context → XJob → Block) : m.onJob tile ring f = f (8 * tile + ring) x j := by
  simp only [Block.onJob, hj, hx, ge_iff_le, hst.not_ge, if_false]

/-- What the answer to a claim makes of its segment `g` (R227, R231, R233, R234). -/
def Block.takeAnswer (m : Block) (idx : Nat) (x : Context) (j : XJob) (g : Seg) (grant base rowsOff : Nat) : ClaimAnswer → Block
  | .full => m.modSeg idx g.expert fun y => { y with nacked := true }
  | .held => m.modSeg idx g.expert fun y => { y with nacked := false }
  | .expired => m.expireSeg idx g.expert
  | .granted =>
    let g1 := { g with phase := 1, grant := min grant g.choices.length, base := base, rowsOff := rowsOff, nacked := false }
    (m.modSeg idx g.expert fun _ => g1).moveRows idx x j g1
  | .refused =>
    let g1 := { g with phase := 1, grant := 0, refused := true, nacked := false }
    (m.modSeg idx g.expert fun _ => g1).moveRows idx x j g1

section
variable {m : Block} {tile ring expert k : Nat} {j : XJob} {x : Context} {g : Seg}
  (hj : (m.eng.xjobs.find? fun e => e.1 == 8 * tile + ring) = some (k, j)) (hx : m.ringOf 3 (8 * tile + ring) = some x)
  (hst : m.ringSt 3 (8 * tile + ring) < 2) (hg : (j.segs.find? fun y => y.expert == expert) = some g)
include hj hx hst hg

/-- An answer meets its claim. -/
theorem grantArrivalEffect_of_claiming (hphase : g.phase = 0) (a : ClaimAnswer) (grant base rowsOff : Nat) :
    grantArrivalEffect tile ring expert a grant base rowsOff m = m.takeAnswer (8 * tile + ring) x j g grant base rowsOff a := by
  have hexpert : g.expert = expert := by simpa using List.find?_some hg
  simp only [grantArrivalEffect, Block.onJob_of_job hj hx hst, hg, hphase, zero_ne_one, ne_eq, not_true_eq_false, if_false, hexpert]
  cases a <;> simp only [Block.takeAnswer, hexpert]

/-- A segment that has its grant goes on. -/
theorem grantArrivalEffect_of_granted (hphase : g.phase = 1) (a : ClaimAnswer) (grant base rowsOff : Nat) :
    grantArrivalEffect tile ring expert a grant base rowsOff m = m.moveRows (8 * tile + ring) x j g := by
  simp only [grantArrivalEffect, Block.onJob_of_job hj hx hst, hg, hphase, if_true]

/-- A closed segment stays as it is. -/
theorem grantArrivalEffect_of_closed (hphase : 2 ≤ g.phase) (a : ClaimAnswer) (grant base rowsOff : Nat) :
    grantArrivalEffect tile ring expert a grant base rowsOff m = m := by
  have hnotGranted : g.phase ≠ 1 := by omega
  have hnotClaiming : g.phase ≠ 0 := by omega
  simp only [grantArrivalEffect, Block.onJob_of_job hj hx hst, hg, hnotGranted, hnotClaiming, ne_eq, not_false_eq_true, if_false, if_true]

/-- A claim that was not turned back, or not 200 µs ago, is not sent again. -/
theorem claimResendEffect_of_early (h : g.nacked = false ∨ m.time < g.sent + 5000) : claimResendEffect tile ring expert m = m := by
  have hearly : g.phase ≠ 0 ∨ (!g.nacked) = true ∨ m.time < g.sent + 5000 := .inr (by simpa using h)
  simp only [claimResendEffect, Block.onJob_of_job hj hx hst, hg, hearly, if_true]

/-- Else it is, and refused once ARM_TMO is over (R234). -/
theorem claimResendEffect_of_due (hphase : g.phase = 0) (hnacked : g.nacked = true) (hdue : g.sent + 5000 ≤ m.time) :
    claimResendEffect tile ring expert m =
      if g.since + m.fld (Reg.drvCfg tile) 39 0 ≤ m.time then m.expireSeg (8 * tile + ring) expert
      else (m.modSeg (8 * tile + ring) expert fun y => { y with sent := m.time }).xsend (.claim (segClaim m x ⟨j.words⟩ g)) := by
  simp only [claimResendEffect, Block.onJob_of_job hj hx hst, hg, hphase, hnacked, hdue.not_gt, ne_eq, not_true_eq_false, Bool.not_true,
    Bool.false_eq_true, or_self, if_false, ge_iff_le]

end

/- DISPATCH_JOB_END -/

/-- The receipts of a job (R231). -/
def XJob.receipts (j : XJob) : List Byte :=
  (List.range (XD.tokens ⟨j.words⟩)).flatMap fun t => (List.range (XD.k ⟨j.words⟩)).flatMap fun c => leBytes 4 (j.receipt t c)

/-- The block `m`, in which a job's receipts are written, once the job has ended: RESULT 3 with the reason that it was opened with, RESULT 2 where a
claim was refused after ARM_TMO, the queues that are not complete disarmed, else RESULT 1 (R232 to R234). -/
def Block.closeJob (m : Block) (idx : Nat) (x : Context) (j : XJob) : Block :=
  let d : XD := ⟨j.words⟩
  let refused := j.segs.any (·.refused)
  if j.reason ≠ 0 then m.endExchange idx x d 3 j.reason refused
  else if j.timedOut then
    (j.hosted.foldl (fun m q => if (m.armedAt q).any (fun a => !a.complete) then m.disarm q else m) m).endExchange idx x d 2 7 refused
  else m.endExchange idx x d 1 0 refused

/-- A job ends once its segments are closed, its queues completed, unless a claim of it was refused, and its writes home. -/
theorem dispatchJobEndEffect_of_closed {m m1 p : Block} {tile ring idx k : Nat} {j : XJob} {x : Context} (hp : p = m.payQueues)
    (hidx : idx = 8 * tile + ring) (hj : (p.eng.xjobs.find? fun e => e.1 == idx) = some (k, j)) (hx : p.ringOf 3 idx = some x)
    (hst : p.ringSt 3 idx < 2) (hclosed : ∀ g ∈ j.segs, 2 ≤ g.phase)
    (hqueues : j.timedOut = true ∨ ∀ q ∈ j.hosted, ∀ a, p.armedAt q = some a → a.complete = true ∧ a.owed = false)
    (hacked : p.allAcked (ringMover 3 idx x).code = true)
    (hreceipts : p.engWrite (ringMover 3 idx x) (XD.addr ⟨j.words⟩ 6) j.receipts false = (m1, true)) :
    dispatchJobEndEffect tile ring m = m1.closeJob idx x j := by
  have hgranted : (j.segs.find? fun s => s.phase == 1) = none :=
    List.find?_eq_none.mpr fun g hg => by have := hclosed g hg; simp; omega
  have hclaiming : (j.segs.any fun s => s.phase == 0) = false :=
    List.any_eq_false.mpr fun g hg => by have := hclosed g hg; simp; omega
  have hdone : (!j.timedOut && !j.hosted.all fun q => (p.armedAt q).all fun a => a.complete && !a.owed) = false := by
    rcases hqueues with h | h
    · simp [h]
    · have hall : (j.hosted.all fun q => (p.armedAt q).all fun a => a.complete && !a.owed) = true := by
        refine List.all_eq_true.mpr fun q hq => (Option.all_eq_true _ _).mpr fun a ha => ?_
        simp [h q hq a ha]
      simp [hall]
  subst hp hidx
  rw [XJob.receipts] at hreceipts
  simp only [dispatchJobEndEffect, Block.onJob_of_job hj hx hst, hgranted, hclaiming, hdone, hacked, hreceipts, Block.closeJob, Bool.not_true,
    Bool.or_self, Bool.false_eq_true, if_false]
  by_cases hreason : j.reason = 0
  · cases j.timedOut <;> simp [hreason]
  · simp [hreason]

/- EXCHANGE_COMBINE -/

/-- The queues that a combine of context `x` names, each with what this module has armed there, completed, for its EXCH (R236). -/
def Block.combineWork (m : Block) (x : Context) (d : XD) (ents : List HostEnt) : List (HostEnt × Option Armed) :=
  ents.map fun e => (e, if m.onModule (e.qaddr, 128) then
    (m.armedAt (localPart e.qaddr)).filter fun a => a.complete && a.exch == d.exch && a.tenant == x.tenant else none)

/-- Those of them that are there. -/
def combineJobs (work : List (HostEnt × Option Armed)) : List (HostEnt × Armed) := work.filterMap fun ea => ea.2.map fun a => (ea.1, a)

/-- The combine of the queues `jobs`: their rows written, one queue after another until an access fails. -/
def Block.returnRows (m : Block) (idx : Nat) (x : Context) (d : XD) (jobs : List (HostEnt × Armed)) : Block × Bool :=
  jobs.foldl (fun (r : Block × Bool) ea => if r.2 then r.1.combineRows idx x d ea.1 ea.2 else r) (m, true)

/-- The block `m`, in which the rows of `jobs` are written, once the combine has ended: rows counted, origins signalled, queues disarmed (R236). -/
def Block.closeCombine (m : Block) (tile ring : Nat) (x : Context) (d : XD) (jobs : List (HostEnt × Armed)) : Block :=
  let v := ringMover 3 (8 * tile + ring) x
  (jobs.foldl (fun m ea => (m.closeOrigins v d ea.2).disarm ea.2.qaddr)
    ((m.dropReads v).addFld (Reg.drvRowsSent tile ring) 63 0 (total (jobs.map fun ea => ea.2.fill)))).endExchange (8 * tile + ring) x d 1 0 false

/-- What the rows of completed queues still lack. -/
def Block.combineNeeds (m : Block) (v : Mover) (d : XD) (jobs : List (HostEnt × Armed)) : List Need :=
  jobs.flatMap fun ea => (List.range ea.2.fill).flatMap fun s =>
    m.engNeeds v (ownGlobal (ea.2.qaddr + 128 + 16 * s)) 16 ++ m.engNeeds v (ea.1.outAddr + s * ea.1.outPitch) d.rowBytes

/-- Some queue's hitch is owed exactly when that of one that is there is. -/
theorem any_owed_combineJobs (work : List (HostEnt × Option Armed)) :
    (work.any fun ea => ea.2.any (·.owed)) = (combineJobs work).any fun ea => ea.2.owed := by
  induction work with
  | nil => rfl
  | cons ea work ih =>
    obtain ⟨e, a⟩ := ea
    cases a <;> simp_all [combineJobs]

section
variable {m m2 p : Block} {tile ring idx : Nat} {x : Context} {d : XD} {v : Mover} {map : List Nat} {ents : List HostEnt}
  {work : List (HostEnt × Option Armed)} {jobs : List (HostEnt × Armed)} (hp : p = m.payQueues) (hidx : idx = 8 * tile + ring)
  (hd : d = ⟨p.entryWords 3 idx 128 x⟩) (hv : v = ringMover 3 idx x) (hready : p.entryReady 3 idx 128 x = true)
  (hidle : ∀ e ∈ p.eng.xjobs, e.1 ≠ idx) (hop : d.op = 1)
  (hlists : ∀ k, (p.entryTaken 3 idx 128 x).withLists idx x v d k = k m2 map ents)
  (hwork : work = m2.combineWork x d ents) (hjobs : jobs = combineJobs work)
include hp hidx hd hv hready hidle hop hlists hwork hjobs

/-- A combine with sound lists, by what it finds of its queues. -/
theorem exchangeCombineEffect_of_lists : exchangeCombineEffect tile ring m =
    if m2.combineReason work ≠ 0 then m2.endExchange idx x d 3 (m2.combineReason work) false
    else if jobs.any (fun ea => ea.2.owed) then p
    else if !(m2.combineNeeds v d jobs).isEmpty then m2.request v (m2.combineNeeds v d jobs)
    else if !(m2.returnRows idx x d jobs).2 then (m2.returnRows idx x d jobs).1
    else (m2.returnRows idx x d jobs).1.closeCombine tile ring x d jobs := by
  subst hp hidx hd hv hjobs
  rw [← any_owed_combineJobs]
  simp only [exchangeCombineEffect, any_eq_false_of_idle hidle, Block.takeEntry_of_ready hready, hop, hlists, Bool.false_eq_true, if_false,
    one_ne_zero]
  subst hwork
  rfl

/-- A reason ends it (R226, R236). -/
theorem exchangeCombineEffect_of_reason (hreason : m2.combineReason work ≠ 0) :
    exchangeCombineEffect tile ring m = m2.endExchange idx x d 3 (m2.combineReason work) false :=
  (exchangeCombineEffect_of_lists hp hidx hd hv hready hidle hop hlists hwork hjobs).trans (if_pos hreason)

/-- A hitch that is still owed keeps it waiting (R230). -/
theorem exchangeCombineEffect_of_owed (hreason : m2.combineReason work = 0) (howed : ∃ ea ∈ jobs, ea.2.owed = true) :
    exchangeCombineEffect tile ring m = p :=
  ((exchangeCombineEffect_of_lists hp hidx hd hv hready hidle hop hlists hwork hjobs).trans (if_neg (not_not.mpr hreason))).trans
    (if_pos (List.any_eq_true.mpr howed))

/-- Rows that are here are returned (R236). -/
theorem exchangeCombineEffect_of_rows {r : Block × Bool} (hr : r = m2.returnRows idx x d jobs) (hreason : m2.combineReason work = 0)
    (howed : ∀ ea ∈ jobs, ea.2.owed = false)
    (hrows : ∀ ea ∈ jobs, ∀ k < ea.2.fill, m2.engNeeds v (ownGlobal (ea.2.qaddr + 128 + 16 * k)) 16 = [] ∧
      m2.engNeeds v (ea.1.outAddr + k * ea.1.outPitch) d.rowBytes = []) (hreturned : r.2 = true) :
    exchangeCombineEffect tile ring m = r.1.closeCombine tile ring x d jobs := by
  have hnone : (jobs.any fun ea => ea.2.owed) = false := List.any_eq_false.mpr fun ea hea => by simp [howed ea hea]
  have hneeds : m2.combineNeeds v d jobs = [] := by
    refine List.flatMap_eq_nil_iff.mpr fun ea hea => List.flatMap_eq_nil_iff.mpr fun k hk => ?_
    obtain ⟨hrecord, hrow⟩ := hrows ea hea k (List.mem_range.mp hk)
    rw [hrecord, hrow, List.append_nil]
  rw [exchangeCombineEffect_of_lists hp hidx hd hv hready hidle hop hlists hwork hjobs, if_neg (not_not.mpr hreason), hnone, hneeds, ← hr,
    hreturned]
  simp only [List.isEmpty_nil, Bool.not_true, Bool.false_eq_true, if_false]

end

end Sys2Proof.Machine

/-! SUPPORT. The Drover at the host of a queue (R228 to R231, R234): the queue that is armed, a claim, a close, and claims that are held. -/
namespace Sys2Proof.Machine

/- The armed queue at an address -/

/-- A message sent leaves the armed queues alone. -/
@[simp] theorem Block.armedAt_xsend (m : Block) (x : XMsg) (q : Nat) : (m.xsend x).armedAt q = m.armedAt q := rfl

/-- So does a count. -/
@[simp] theorem Block.armedAt_addFld (m : Block) (r hi lo k q : Nat) : (m.addFld r hi lo k).armedAt q = m.armedAt q := rfl

/-- A change of armed queues that keeps their addresses changes the one at its address. -/
theorem Block.armedAt_modArmed {m : Block} {a : Armed} {f : Armed → Armed} (hq : ∀ y : Armed, (f y).qaddr = y.qaddr)
    (h : m.armedAt a.qaddr = some a) : (m.modArmed a.qaddr f).armedAt a.qaddr = some (f a) := by
  have hflat : (m.modArmed a.qaddr f).eng.armed.flatMap (·.2) = mapIf (fun q : Armed => q.qaddr == a.qaddr) f (m.eng.armed.flatMap (·.2)) := by
    simp [Block.modArmed, mapIf, List.flatMap_map, List.map_flatMap]
  have hpred : ((fun q : Armed => q.qaddr == a.qaddr) ∘ fun y => if y.qaddr == a.qaddr then f y else y) = fun q : Armed => q.qaddr == a.qaddr := by
    funext y
    simp only [Function.comp_apply]
    split <;> simp [hq]
  rw [Block.armedAt] at h ⊢
  rw [hflat, mapIf, List.find?_map, hpred, h]
  simp

/- Claims -/

/-- What an armed queue records of a claim granted `g` rows (R228, R230). -/
def Armed.grantTo (a : Armed) (c : Claim) (g : Nat) : Armed :=
  { a with
    fill := a.fill + g, claimed := (a.claimed + c.n) % 2 ^ 32, routed := a.routed + c.n, skipped := a.skipped + (c.n - g)
    origins := a.origins ++ [(c.node, c.tenant, c.ctx, c.combHitch)] }

/-- Whether a claim has the row size and the tenant of its queue (R233). -/
def Armed.Fits (a : Armed) (c : Claim) : Prop := c.rowBytes = a.rowBytes ∧ c.tenant = a.tenant

section
variable {m : Block} {a : Armed} {c : Claim}

/-- Each choice of a claim is granted or skipped. -/
theorem Armed.grantTo_counts {g : Nat} (h : g ≤ c.n) :
    (a.grantTo c g).fill + (a.grantTo c g).skipped = a.fill + a.skipped + c.n := by
  simp only [Armed.grantTo]
  omega

/-- A grant of at most the room that is left fills the queue up to its capacity. -/
theorem Armed.grantTo_room (c : Claim) (h : a.fill ≤ a.capacity) :
    let b := a.grantTo c (min c.n (a.capacity - a.fill))
    b.fill = min (a.fill + c.n) a.capacity ∧ b.fill ≤ b.capacity ∧ b.fill - a.fill = min c.n (a.capacity - a.fill) := by
  simp only [Armed.grantTo]
  omega

/-- A claim that fits is granted at most the room that is left. -/
theorem Block.serveClaim_of_fits (harmed : m.armedAt a.qaddr = some a) (h : a.Fits c) :
    (m.serveClaim a c).armedAt a.qaddr = some (a.grantTo c (min c.n (a.capacity - a.fill))) ∧
      (m.serveClaim a c).eng.xout = m.eng.xout ++
        [.answer c .granted (min c.n (a.capacity - a.fill)) a.fill (field (wordAt (leWords 16 a.header) 1) 63 32)] := by
  have hfits : (c.rowBytes != a.rowBytes || c.tenant != a.tenant) = false := by simp [h.1, h.2]
  simp only [Block.serveClaim, hfits, Bool.false_eq_true, if_false]
  refine ⟨?_, rfl⟩
  rw [Block.armedAt_xsend, Block.armedAt_addFld]
  exact Block.armedAt_modArmed (f := fun q => q.grantTo c (min c.n (a.capacity - a.fill))) (fun _ => rfl) harmed

/-- Another is granted nothing. -/
theorem Block.serveClaim_of_unfit (harmed : m.armedAt a.qaddr = some a) (h : ¬ a.Fits c) :
    (m.serveClaim a c).armedAt a.qaddr = some (a.grantTo c 0) ∧
      (m.serveClaim a c).eng.xout = m.eng.xout ++ [.answer c .refused 0 a.fill (field (wordAt (leWords 16 a.header) 1) 63 32)] := by
  have hunfit : (c.rowBytes != a.rowBytes || c.tenant != a.tenant) = true := by
    simpa [Armed.Fits, not_and_or, -not_and] using h
  simp only [Block.serveClaim, hunfit, if_true]
  refine ⟨?_, rfl⟩
  rw [Block.armedAt_xsend, Block.armedAt_addFld]
  exact Block.armedAt_modArmed (f := fun q => q.grantTo c 0) (fun _ => rfl) harmed

end

/-- A claim that its host holds, or turns back with 1,024 held (R234). -/
def Block.holdClaim (m : Block) (tile : Nat) (c : Claim) : Block :=
  let l := Tbl.getD [] m.eng.heldClaims tile
  if l.length < 1024 then
    { m with eng.heldClaims := Tbl.put m.eng.heldClaims tile (l ++ [({ claim := c, since := m.time } : HeldClaim)]) }.xsend (.answer c .held 0 0 0)
  else m.xsend (.answer c .full 0 0 0)

/-- One of fewer than 1,024 is held, and its origin told so. -/
theorem Block.holdClaim_of_room {m : Block} {tile : Nat} (c : Claim) (h : (Tbl.getD [] m.eng.heldClaims tile).length < 1024) :
    m.holdClaim tile c = { m with eng.heldClaims := Tbl.put m.eng.heldClaims tile (Tbl.getD [] m.eng.heldClaims tile ++
      [({ claim := c, since := m.time } : HeldClaim)]) }.xsend (.answer c .held 0 0 0) :=
  if_pos h

/-- With 1,024 held a claim is turned back. -/
theorem Block.holdClaim_of_full {m : Block} {tile : Nat} (c : Claim) (h : 1024 ≤ (Tbl.getD [] m.eng.heldClaims tile).length) :
    m.holdClaim tile c = m.xsend (.answer c .full 0 0 0) :=
  if_neg h.not_gt

/-- A claim at a queue armed with its EXCH is served. -/
theorem claimArrivalEffect_of_armed {m : Block} {a : Armed} {c : Claim} (tile : Nat) (h : m.armedAt (localPart c.qaddr) = some a)
    (hexch : a.exch = c.exch) (hopen : a.complete = false) : claimArrivalEffect tile c m = m.serveClaim a c := by
  simp only [claimArrivalEffect, h, hexch, hopen, Bool.not_false, and_self, if_true]

/-- Any other is held or turned back. -/
theorem claimArrivalEffect_of_unarmed {m : Block} {c : Claim} (tile : Nat)
    (h : ∀ a, m.armedAt (localPart c.qaddr) = some a → a.exch ≠ c.exch ∨ a.complete = true) :
    claimArrivalEffect tile c m = m.holdClaim tile c := by
  cases ha : m.armedAt (localPart c.qaddr) with
  | none => simp only [claimArrivalEffect, ha, Block.holdClaim]
  | some a =>
    have hother : ¬ (a.exch = c.exch ∧ (!a.complete) = true) := by
      rcases h a ha with he | hcomplete
      · exact fun h => he h.1
      · simp [hcomplete]
    simp only [claimArrivalEffect, ha, hother, if_false, Block.holdClaim]

/- Closes -/

/-- A close for a queue that is not armed is discarded (R230). -/
theorem segmentCloseArrivalEffect_of_unarmed {m : Block} {q : Nat} (tile exch : Nat) (h : m.armedAt (localPart q) = none) :
    segmentCloseArrivalEffect tile q exch m = m := by
  simp only [segmentCloseArrivalEffect, h]

/-- The last of PEERS closes completes the queue, and an earlier one is counted (R230). -/
theorem segmentCloseArrivalEffect_of_armed {m : Block} {q exch : Nat} {a : Armed} (tile : Nat) (h : m.armedAt (localPart q) = some a)
    (hexch : a.exch = exch) (hopen : a.complete = false) : segmentCloseArrivalEffect tile q exch m =
      if a.segments + 1 = a.peers then
        ((m.modArmed a.qaddr fun _ => { a with segments := a.segments + 1 }).finishQueue { a with segments := a.segments + 1 }).payQueues
      else m.modArmed a.qaddr fun _ => { a with segments := a.segments + 1 } := by
  have hcounts : ¬ (a.exch ≠ exch ∨ a.complete = true) := by simp [hexch, hopen]
  simp only [segmentCloseArrivalEffect, h, hcounts, if_false]

/- Held claims -/

/-- The block once the claim held at place `i` of a tile's list is no longer held. -/
def Block.dropHeld (m : Block) (tile i : Nat) : Block :=
  { m with eng.heldClaims := Tbl.put m.eng.heldClaims tile (removeAt (Tbl.getD [] m.eng.heldClaims tile) i) }

/-- Whether a job is the origin of a claim at its own module: a segment of it claims with this claim's expert and queue. -/
def Block.claimant (m : Block) (c : Claim) (e : Nat × XJob) : Bool :=
  e.2.exch == c.exch && ((m.ringOf 3 e.1).any fun x => x.tenant == c.tenant && x.ctx == c.ctx) &&
    e.2.segs.any fun g => g.phase == 0 && g.expert == c.expert && g.qaddr == c.qaddr

/-- Where no claim is held the tile's own claims are tried (R234). -/
theorem claimArmTimeoutEffect_of_none {m : Block} {tile i : Nat} (h : (Tbl.getD [] m.eng.heldClaims tile)[i]? = none) :
    claimArmTimeoutEffect tile i m = m.expireResends tile := by
  simp only [claimArmTimeoutEffect, h]

section
variable {m : Block} {tile i : Nat} {h : HeldClaim} (hheld : (Tbl.getD [] m.eng.heldClaims tile)[i]? = some h)
include hheld

/-- A claim held for less than ARM_TMO stays held. -/
theorem claimArmTimeoutEffect_of_early (hearly : ¬ h.since + m.fld (Reg.drvCfg tile) 39 0 ≤ m.time) : claimArmTimeoutEffect tile i m = m := by
  simp only [claimArmTimeoutEffect, hheld, not_le.mp hearly, if_true]

/-- After ARM_TMO a job of this module is told at once, and any other origin is answered. -/
theorem claimArmTimeoutEffect_of_over (hover : h.since + m.fld (Reg.drvCfg tile) 39 0 ≤ m.time) : claimArmTimeoutEffect tile i m =
    match m.eng.xjobs.find? fun e => h.claim.node == m.ownNode && m.claimant h.claim e with
    | some e => (m.dropHeld tile i).expireSeg e.1 h.claim.expert
    | none => (m.dropHeld tile i).xsend (.answer h.claim .expired 0 0 0) := by
  have hpred : (fun e : Nat × XJob => h.claim.node == m.ownNode && m.claimant h.claim e) = fun e =>
      h.claim.node == m.ownNode && e.2.exch == h.claim.exch &&
      ((m.ringOf 3 e.1).any fun x => x.tenant == h.claim.tenant && x.ctx == h.claim.ctx) &&
      e.2.segs.any fun g => g.phase == 0 && g.expert == h.claim.expert && g.qaddr == h.claim.qaddr := by
    funext e
    simp only [Block.claimant, Bool.and_assoc]
  simp only [claimArmTimeoutEffect, hheld, hover.not_gt, if_false, hpred]
  rfl

/-- An origin elsewhere, or one whose job no longer claims, is answered. -/
theorem claimArmTimeoutEffect_of_away (hover : h.since + m.fld (Reg.drvCfg tile) 39 0 ≤ m.time)
    (haway : h.claim.node ≠ m.ownNode ∨ m.eng.xjobs.find? (m.claimant h.claim) = none) :
    claimArmTimeoutEffect tile i m = (m.dropHeld tile i).xsend (.answer h.claim .expired 0 0 0) := by
  have hnone : (m.eng.xjobs.find? fun e => h.claim.node == m.ownNode && m.claimant h.claim e) = none := by
    refine List.find?_eq_none.mpr fun e he => ?_
    rcases haway with hnode | hjobs
    · simp [hnode]
    · simp [List.find?_eq_none.mp hjobs e he]
  rw [claimArmTimeoutEffect_of_over hheld hover, hnone]

/-- A job of this module that claims is told. -/
theorem claimArmTimeoutEffect_of_own {e : Nat × XJob} (hover : h.since + m.fld (Reg.drvCfg tile) 39 0 ≤ m.time)
    (hown : h.claim.node = m.ownNode) (hjob : m.eng.xjobs.find? (m.claimant h.claim) = some e) :
    claimArmTimeoutEffect tile i m = (m.dropHeld tile i).expireSeg e.1 h.claim.expert := by
  have hsome : (m.eng.xjobs.find? fun e => h.claim.node == m.ownNode && m.claimant h.claim e) = some e := by simpa [hown] using hjob
  rw [claimArmTimeoutEffect_of_over hheld hover, hsome]

end

/-- Settles O43: the commands of the origin and of the host, each by what it finds. -/
theorem droverRows : Obligations.DroverRows := by
  refine ⟨⟨?_, ?_, ?_, ?_⟩, ?_, ?_, ?_, ?_, ?_, ?_, ?_⟩
  · intro tile ring x m1 m2 m3 hs ms route s idx d v ents map ch a hready hidle hop hres hmis hrange hhs hms hents hmap hheaders hroute hchoices
      harmed segs job m4
    have hopen := exchangeDispatchEffect_of_sound (m := s.m) (tile := tile) (ring := ring) (a := a) rfl rfl rfl hready hidle hop
      (fun k => Block.withLists_of_sound hres hmis hrange hhs hms hents hmap k) hheaders hroute hchoices rfl harmed
    exact gives_of_commit rfl hopen
  · intro tile ring expert grant base rows k j x g s idx hj hx hst hg
    refine ⟨fun hphase => ?_, fun hphase a => gives_of_commit rfl (grantArrivalEffect_of_granted hj hx hst hg hphase a grant base rows),
      fun hphase a => gives_of_commit rfl (grantArrivalEffect_of_closed hj hx hst hg hphase a grant base rows)⟩
    have hexpert : g.expert = expert := by simpa using List.find?_some hg
    subst hexpert
    have hanswer (a : ClaimAnswer) := grantArrivalEffect_of_claiming hj hx hst hg hphase a grant base rows
    have hresend := claimResendEffect_of_due hj hx hst hg hphase
    exact ⟨gives_of_commit rfl (hanswer .full), gives_of_commit rfl (hanswer .held), gives_of_commit rfl (hanswer .expired),
      gives_of_commit rfl (hanswer .granted),
      fun hnacked hdue hlive => gives_of_commit rfl ((hresend hnacked hdue).trans (if_neg hlive.not_ge)),
      fun hnacked hdue hover => gives_of_commit rfl ((hresend hnacked hdue).trans (if_pos hover)),
      fun hearly => gives_of_commit rfl (claimResendEffect_of_early hj hx hst hg hearly)⟩
  · intro tile ring k j x m s idx d p hj hx hst hclosed hqueues hacked hreceipts late
    have hend := dispatchJobEndEffect_of_closed rfl rfl hj hx hst hclosed hqueues hacked hreceipts
    exact ⟨fun hreason => gives_of_commit rfl (hend.trans (if_pos hreason)),
      fun hreason htimed => gives_of_commit rfl (hend.trans ((if_neg (not_not.mpr hreason)).trans (if_neg (by simp [htimed])))),
      fun hreason htimed => gives_of_commit rfl (hend.trans ((if_neg (not_not.mpr hreason)).trans (if_pos htimed)))⟩
  · intro tile ring x m1 m2 hs ms s idx p d v map hready hidle hop hres hmis hrange hhs hms hmap hents work jobs r
    have hlists (k) := Block.withLists_of_sound (idx := idx) hres hmis hrange hhs hms hents hmap k
    have hreturn := exchangeCombineEffect_of_rows (m := s.m) (r := r) rfl rfl rfl rfl hready hidle hop hlists (work := work) rfl
      (jobs := jobs) rfl rfl
    exact ⟨fun hreason => gives_of_commit rfl (exchangeCombineEffect_of_reason rfl rfl rfl rfl hready hidle hop hlists rfl rfl hreason),
      fun hreason howed => gives_of_commit rfl (exchangeCombineEffect_of_owed rfl rfl rfl rfl hready hidle hop hlists rfl rfl hreason howed),
      fun hreason howed hrows hreturned => gives_of_commit rfl (hreturn hreason howed hrows hreturned)⟩
  · intro tile c a s harmed hexch hopen
    exact gives_of_commit rfl (claimArrivalEffect_of_armed tile harmed hexch hopen)
  · intro m a c hroom harmed fits m'
    by_cases hfits : a.Fits c
    · obtain ⟨hqueue, hout⟩ := Block.serveClaim_of_fits harmed hfits
      obtain ⟨hfill, hbound, hgrant⟩ := Armed.grantTo_room c hroom
      refine ⟨_, hqueue, hbound, rfl, Armed.grantTo_counts (min_le_left _ _), rfl, fun _ => ⟨hfill, ?_⟩, fun h => absurd hfits h⟩
      rw [hgrant]
      exact hout
    · obtain ⟨hqueue, hout⟩ := Block.serveClaim_of_unfit harmed hfits
      exact ⟨_, hqueue, hroom, rfl, Armed.grantTo_counts (Nat.zero_le _), rfl, fun h => absurd h hfits, fun _ => ⟨rfl, hout⟩⟩
  · intro tile c s hunarmed l
    have hhold := claimArrivalEffect_of_unarmed tile hunarmed
    exact ⟨fun hroom => gives_of_commit rfl (hhold.trans (Block.holdClaim_of_room c hroom)),
      fun hfull => gives_of_commit rfl (hhold.trans (Block.holdClaim_of_full c hfull))⟩
  · intro tile q exch s hunarmed
    exact gives_of_commit rfl (segmentCloseArrivalEffect_of_unarmed tile exch hunarmed)
  · intro tile q exch a s harmed hexch hopen a1 m
    have hclose := segmentCloseArrivalEffect_of_armed tile harmed hexch hopen
    exact ⟨fun hlast => gives_of_commit rfl (hclose.trans (if_pos hlast)), fun hmore => gives_of_commit rfl (hclose.trans (if_neg hmore))⟩
  · intro tile i s hnone
    exact gives_of_commit rfl (claimArmTimeoutEffect_of_none hnone)
  · intro tile i h s hheld m claims over_
    exact ⟨fun hearly => gives_of_commit rfl (claimArmTimeoutEffect_of_early hheld hearly),
      fun hover haway => gives_of_commit rfl (claimArmTimeoutEffect_of_away hheld hover haway),
      fun e hover hown hjob => gives_of_commit rfl (claimArmTimeoutEffect_of_own hheld hover hown hjob)⟩

end Sys2Proof.Machine

/-! SUPPORT. The Groom (R262 to R278): what the checks of a descriptor find and what its row then does, the end of a descriptor, and the ring that
GROOM_UPDATE gives its list to. -/
namespace Sys2Proof.Machine

/- The checks of a descriptor -/

/-- The six rule rows share their effect; each runs the descriptors that its RULE and SPARSE name. -/
theorem exec_groom {stack ring : Nat} {row : GD → Bool} {c : Instr}
    (h : (c = .momentumSgd stack ring ∧ row = plainRow 0) ∨ (c = .adamw stack ring ∧ row = plainRow 1) ∨
      (c = .signMomentum stack ring ∧ row = plainRow 2) ∨ (c = .factoredSecondMoment stack ring ∧ row = plainRow 3) ∨
      (c = .generalRecurrence stack ring ∧ row = plainRow 4) ∨ (c = .sparseRowUpdate stack ring ∧ row = fun d => d.sparse)) (s : State) :
    exec c s = s.commit (groomEffect row stack ring s.m) := by
  rcases h with ⟨rfl, rfl⟩ | ⟨rfl, rfl⟩ | ⟨rfl, rfl⟩ | ⟨rfl, rfl⟩ | ⟨rfl, rfl⟩ | ⟨rfl, rfl⟩ <;> rfl

/-- The parameters of a parameter block (Table 11.2). -/
def paramsOf (pb : List Byte) : Prm := ⟨(List.range 10).map fun i => BitVec.ofNat 32 (leAt pb (8 * i) 4)⟩

/-- Whether a reserved part of a parameter block is not zero (Table 11.2). -/
def paramsReserved (pb : List Byte) : Bool :=
  ((List.range 10).any fun i => leAt pb (8 * i + 4) 4 != 0) || (List.range 6).any fun i => leAt pb (80 + 8 * i) 8 != 0

/-- The row indices of a sparse descriptor (R271). -/
def GD.rowList (d : GD) (il : List Byte) : List Nat := (List.range d.rows).map fun i => leAt il (4 * i) 4

/-- The codes of R278 that a descriptor's own words give. -/
def Block.ownCodes (m : Block) (x : Context) (d : GD) : List Nat :=
  (if d.reserved then [1] else []) ++ (if d.outOfRange then [3] else []) ++
    (if !m.inPoolWindow x (d.addr 15) 128 || (d.rule == 4 && !m.inPoolWindow x (d.addr 11) 256) then [2] else [])

/-- The codes of R278 once the parameters are read: those of its own words, of the parameters and of its regions. -/
def Block.paramCodes (m m2 : Block) (stack : Nat) (x : Context) (d : GD) (pb : List Byte) : List Nat :=
  m.ownCodes x d ++ (if paramsReserved pb then [1] else []) ++
    (if d.rule == 3 && !(Val.zero.lt ((paramsOf pb).at 6).val && Val.zero.lt ((paramsOf pb).at 7).val) then [3] else []) ++
    (if (d.regions (paramsOf pb)).all (m2.inStack stack) then [] else [2]) ++ (if regionsMeet (d.regions (paramsOf pb)) then [3] else [])

/-- The codes of R278 that its row list, its program and its group give. -/
def Block.listCodes (m4 : Block) (stack : Nat) (x : Context) (d : GD) (il pg : List Byte) : List Nat :=
  (if d.rule == 4 && !m4.genrecMask.testBit stack then [4] else []) ++
    (if d.sparse && ((((d.rowList il).zip ((d.rowList il).drop 1)).any fun ab => decide (ab.1 ≥ ab.2)) ||
      (d.rowList il).any fun r => decide (r ≥ d.tableRows)) then [5] else []) ++
    (if d.rule == 4 && progBad (leWords 32 pg) then [6] else []) ++ (if d.paced && !m4.ownsGroup x.tenant d.group then [7] else [])

/-- No code, no reason. -/
theorem lowest_nil : lowest [] = 0 := rfl

/-- Parameters outside the pool window give the reason 2, unless a reserved field gives 1. -/
theorem Block.lowest_ownCodes {m : Block} {x : Context} {d : GD} (hparams : m.inPoolWindow x (d.addr 15) 128 = false) :
    lowest (m.ownCodes x d) = if d.reserved then 1 else 2 := by
  rw [Block.ownCodes, hparams]
  cases d.reserved <;> cases d.outOfRange <;> rfl

/-- With the parameters in the pool window, only a program outside it gives the reason 2 of the descriptor's own words. -/
theorem Block.ownCodes_of_inside {m : Block} {x : Context} {d : GD} (hparams : m.inPoolWindow x (d.addr 15) 128 = true) :
    m.ownCodes x d = (if d.reserved then [1] else []) ++ (if d.outOfRange then [3] else []) ++
      (if d.rule == 4 && !m.inPoolWindow x (d.addr 11) 256 then [2] else []) := by
  rw [Block.ownCodes, hparams, Bool.not_true, Bool.false_or]

/-- A descriptor whose own words, parameters and regions are sound. -/
theorem Block.paramCodes_of_sound {m m2 : Block} {stack : Nat} {x : Context} {d : GD} {pb : List Byte}
    (hres : d.reserved = false) (hrange : d.outOfRange = false) (hparams : m.inPoolWindow x (d.addr 15) 128 = true)
    (hprog : d.rule = 4 → m.inPoolWindow x (d.addr 11) 256 = true)
    (hwords : ∀ i < 10, leAt pb (8 * i + 4) 4 = 0) (hrest : ∀ i < 6, leAt pb (80 + 8 * i) 8 = 0)
    (hfactored : d.rule = 3 → Val.zero.lt ((paramsOf pb).at 6).val = true ∧ Val.zero.lt ((paramsOf pb).at 7).val = true)
    (hregions : ∀ e ∈ d.regions (paramsOf pb), m2.inStack stack e = true) (hapart : regionsMeet (d.regions (paramsOf pb)) = false) :
    m.paramCodes m2 stack x d pb = [] := by
  have hinside : (d.rule == 4 && !m.inPoolWindow x (d.addr 11) 256) = false :=
    Bool.and_eq_false_imp.mpr fun h => by simp [hprog (by simpa using h)]
  have hreserved : paramsReserved pb = false :=
    Bool.or_eq_false_iff.mpr ⟨List.any_eq_false.mpr fun i hi => by simp [hwords i (List.mem_range.mp hi)],
      List.any_eq_false.mpr fun i hi => by simp [hrest i (List.mem_range.mp hi)]⟩
  have hdivisors : (d.rule == 3 && !(Val.zero.lt ((paramsOf pb).at 6).val && Val.zero.lt ((paramsOf pb).at 7).val)) = false :=
    Bool.and_eq_false_imp.mpr fun h => by simp [hfactored (by simpa using h)]
  simp only [Block.paramCodes, Block.ownCodes_of_inside hparams, hres, hrange, hinside, hreserved, hdivisors,
    List.all_eq_true.mpr hregions, hapart, Bool.false_eq_true, if_false, if_true, List.append_nil]

/-- A descriptor whose row list, program and group are sound. -/
theorem Block.listCodes_of_sound {m4 : Block} {stack : Nat} {x : Context} {d : GD} {il pg : List Byte}
    (hprog : d.rule = 4 → m4.genrecMask.testBit stack = true ∧ progBad (leWords 32 pg) = false)
    (hrows : d.sparse = true → (∀ ab ∈ (d.rowList il).zip ((d.rowList il).drop 1), ab.1 < ab.2) ∧ ∀ r ∈ d.rowList il, r < d.tableRows)
    (hgroup : d.paced = true → m4.ownsGroup x.tenant d.group = true) : m4.listCodes stack x d il pg = [] := by
  have hfused : (d.rule == 4 && !m4.genrecMask.testBit stack) = false :=
    Bool.and_eq_false_imp.mpr fun h => by simp [hprog (by simpa using h)]
  have hrising : (d.sparse && ((((d.rowList il).zip ((d.rowList il).drop 1)).any fun ab => decide (ab.1 ≥ ab.2)) ||
      (d.rowList il).any fun r => decide (r ≥ d.tableRows))) = false := Bool.and_eq_false_imp.mpr fun h => by
    obtain ⟨hrise, hbound⟩ := hrows h
    exact Bool.or_eq_false_iff.mpr ⟨List.any_eq_false.mpr fun ab hab => by simpa using hrise ab hab,
      List.any_eq_false.mpr fun r hr => by simpa using hbound r hr⟩
  have hsteps : (d.rule == 4 && progBad (leWords 32 pg)) = false := Bool.and_eq_false_imp.mpr fun h => (hprog (by simpa using h)).2
  have howned : (d.paced && !m4.ownsGroup x.tenant d.group) = false := Bool.and_eq_false_imp.mpr fun h => by simp [hgroup h]
  simp only [Block.listCodes, hfused, hrising, hsteps, howned, Bool.false_eq_true, if_false, List.append_nil]

/- A descriptor by what its checks find -/

section
variable {m m1 : Block} {row : GD → Bool} {stack ring idx : Nat} {x : Context} {d : GD} {v : Mover} (hidx : idx = 4 * stack + ring)
  (hm : m1 = m.entryTaken 4 idx 128 x) (hd : d = ⟨m.entryWords 4 idx 128 x⟩) (hv : v = ringMover 4 idx x)
  (hready : m.entryReady 4 idx 128 x = true) (hidle : ∀ e ∈ m.eng.grooms, e.1 ≠ idx)
include hidx hm hd hv hready hidle

/-- A row leaves another row's descriptor alone. -/
theorem groomEffect_of_other (hrow : row d = false) : groomEffect row stack ring m = m := by
  subst hidx hm hd hv
  simp only [groomEffect, any_eq_false_of_idle hidle, Block.takeEntry_of_ready hready, hrow, Bool.not_false, Bool.false_eq_true, if_false, if_true]

/-- Parameters outside the pool window are not read: the descriptor's own words give the reason. -/
theorem groomEffect_of_outside (hrow : row d = true) (hparams : m1.inPoolWindow x (d.addr 15) 128 = false) :
    groomEffect row stack ring m = m1.refuseGroom idx x d (lowest (m1.ownCodes x d)) := by
  subst hidx hm hd hv
  simp only [groomEffect, any_eq_false_of_idle hidle, Block.takeEntry_of_ready hready, hrow, hparams, Bool.not_true, Bool.not_false,
    Bool.false_eq_true, if_false, if_true, Block.ownCodes]

section
variable {m2 : Block} {pb : List Byte} (hrow : row d = true) (hparams : m1.inPoolWindow x (d.addr 15) 128 = true)
  (hread : m1.engRead v (ownGlobal (localPart (d.addr 15))) 128 = .data m2 pb false)
include hrow hparams hread

/-- Once the parameters are read, the lowest code refuses the descriptor; without one its lists are read. -/
theorem groomEffect_of_params : groomEffect row stack ring m =
    if lowest (m1.paramCodes m2 stack x d pb) ≠ 0 then m2.refuseGroom idx x d (lowest (m1.paramCodes m2 stack x d pb))
    else m2.withRead v (ownGlobal (localPart (d.addr 11))) (if d.sparse then 4 * d.rows else 0) fun m3 il =>
      m3.withRead v (ownGlobal (localPart (d.addr 11))) (if d.rule = 4 then 256 else 0) fun m4 pg =>
        if lowest (m4.listCodes stack x d il pg) ≠ 0 then m4.refuseGroom idx x d (lowest (m4.listCodes stack x d il pg))
        else m4.startGroom idx stack v d (paramsOf pb) il (leWords 32 pg) := by
  subst hidx hm hd hv
  simp only [groomEffect, any_eq_false_of_idle hidle, Block.takeEntry_of_ready hready, hrow, Bool.not_true, Bool.false_eq_true, if_false]
  rw [hparams, Bool.not_true, if_neg Bool.false_ne_true, Block.withRead_of_data hread, Block.paramCodes, Block.ownCodes, hparams]
  rfl

/-- A descriptor with none of R278's conditions is applied. -/
theorem groomEffect_of_sound {m3 m4 : Block} {il pg : List Byte} (hcodes : m1.paramCodes m2 stack x d pb = [])
    (hil : m2.engRead v (ownGlobal (localPart (d.addr 11))) (if d.sparse then 4 * d.rows else 0) = .data m3 il false)
    (hpg : m3.engRead v (ownGlobal (localPart (d.addr 11))) (if d.rule = 4 then 256 else 0) = .data m4 pg false)
    (hlists : m4.listCodes stack x d il pg = []) :
    groomEffect row stack ring m = m4.startGroom idx stack v d (paramsOf pb) il (leWords 32 pg) := by
  rw [groomEffect_of_params hidx hm hd hv hready hidle hrow hparams hread, hcodes, lowest_nil, if_neg (not_not.mpr rfl),
    Block.withRead_of_data hil, Block.withRead_of_data hpg, hlists, lowest_nil, if_neg (not_not.mpr rfl)]

end

end

/- The end of a descriptor -/

/-- STORED_STEP and STATE, which the end writes into the shard header (R275). -/
def closeHeader (v : Mover) (d : GD) (step : Nat) : AttM Unit := do
  let hd ← grmHeader v d
  putHeader v d ((hd.set 0 (putField (wordAt hd 0) 63 32 step)).set 1 (putField (wordAt hd 1) 63 62 0))

/-- The descriptor at HEAD of a Groom ring, as the ring's memory holds it. -/
def Block.groomAtHead (m : Block) (idx : Nat) (x : Context) : GD :=
  ⟨leWords 16 (m.readMem (m.entryAddr 4 idx x 128 (m.headOf 4 idx)) 128)⟩

/-- The block `m1`, in which the header of the descriptor at HEAD in `m` is closed, once RESULT is written, HEAD moved on and the hitch signalled. -/
def Block.endGroom (m m1 : Block) (idx : Nat) (x : Context) (e : GroomJob) : Block :=
  let d := m.groomAtHead idx x
  let m2 := (m1.entryWrite 4 idx x 128 3 (putField (putField (wordAt d.w 3) 63 62 e.result) 61 56 e.reason)).nextEntry 4 idx
  { m2 with eng.grooms := Tbl.drop m2.eng.grooms idx }.signalAfter d.sig x (m.entryAddr 4 idx x 128 (m.headOf 4 idx)) 3
    (field (wordAt d.w 0) 27 18) (field (wordAt d.w 1) 31 0)

/-- Whether a list holds ring `idx`'s entry `h`. -/
def listsEntry (idx h : Nat) (l : QueueId × Nat × Nat × List Nat) : Bool := l.2.1 == idx && l.2.2.2.contains h

/-- The list without the entry `h`, its next descriptors copied (R262). -/
def Block.unlist (m : Block) (q : QueueId) (h : Nat) : Block :=
  (m.modList q fun l => (l.1, l.2.1, l.2.2.1, l.2.2.2.erase h)).feedList q

/-- A descriptor that has been applied ends; if a list put it into the ring, the list goes on. -/
theorem groomDescriptorEndEffect_of_closed {m m1 : Block} {stack ring idx k : Nat} {x : Context} {e : GroomJob} (hidx : idx = 4 * stack + ring)
    (he : (m.eng.grooms.find? fun e => e.1 == idx) = some (k, e)) (hx : m.ringOf 4 idx = some x) (hst : m.ringSt 4 idx < 2)
    (hclose : (closeHeader (ringMover 4 idx x) (m.groomAtHead idx x) e.step).run m = (.ok (), m1)) :
    groomDescriptorEndEffect stack ring m =
      ((m.endGroom m1 idx x e).eng.groomLists.find? (listsEntry idx (m.headOf 4 idx))).elim (m.endGroom m1 idx x e)
        fun l => (m.endGroom m1 idx x e).unlist l.1 (m.headOf 4 idx) := by
  subst hidx
  rw [closeHeader, Block.groomAtHead] at hclose
  simp only [groomDescriptorEndEffect, he, hx, ge_iff_le, hst.not_ge, if_false, hclose]
  split
  next l h =>
    rw [show (m.endGroom m1 (4 * stack + ring) x e).eng.groomLists.find? (listsEntry (4 * stack + ring) _) = some l from h]
    rfl
  next h =>
    rw [show (m.endGroom m1 (4 * stack + ring) x e).eng.groomLists.find? (listsEntry (4 * stack + ring) _) = none from h]
    rfl

/- The list of GROOM_UPDATE -/

/-- Whether the context of a queue owns ring `k` of unit `u`. -/
def Block.ownsGroomRing (m : Block) (q : QueueId) (u k : Nat) : Bool := m.ownedBy (Reg.grmRingOwner u k) q.tenant q.ctx

/-- Ring `k` of its unit takes the list of command `c`, if the tenant may read it on this module (R262); status 2 for another list is the
model's choice (assumption log entry 71). -/
def Block.giveList (m : Block) (q : QueueId) (c : Cmd) (k : Nat) : Block :=
  if (m.check q.tenant q.ctx (c.p 0).toNat (128 * field (c.p 1) 15 0) false).isSome || (m.remoteNode (c.p 0).toNat).isSome then
    m.complete q 2 0
  else ({ m.setWait q .unit with
    eng.groomLists := m.eng.groomLists ++ [(q, 4 * field (c.p 1) 20 16 + k, 0, [])] }).feedList q

section
variable {m : Block} {q : QueueId} {c : Cmd} (hr : m.runs q 0x120 c = true)
include hr

/-- A GROOM_UPDATE that has not yet begun looks for a ring of its unit. -/
theorem groomUpdateEffect_of_runs : groomUpdateEffect q m =
    ((List.range 4).find? (m.ownsGroomRing q (field (c.p 1) 20 16))).elim (m.complete q 7 0) (m.giveList q c) := by
  obtain ⟨hc, hop, hw⟩ := Block.running_of_runs m q 0x120 c hr
  simp only [groomUpdateEffect, hc, hop, hw, ne_eq, not_true_eq_false, if_false, reduceCtorEq]
  rw [show (fun k => m.ownedBy (Reg.grmRingOwner (field (c.p 1) 20 16) k) q.tenant q.ctx) = m.ownsGroomRing q (field (c.p 1) 20 16) from rfl]
  cases (List.range 4).find? (m.ownsGroomRing q (field (c.p 1) 20 16)) <;> rfl

/-- A context that owns no ring of the unit: status 7. -/
theorem groomUpdateEffect_of_ringless (hnone : ∀ k < 4, m.ownsGroomRing q (field (c.p 1) 20 16) k = false) :
    groomUpdateEffect q m = m.complete q 7 0 := by
  rw [groomUpdateEffect_of_runs hr, List.find?_range_eq_none.mpr fun k hk => by rw [hnone k hk, Bool.not_false], Option.elim_none]

/-- The lowest ring that the context owns takes the list. -/
theorem groomUpdateEffect_of_ring {k : Nat} (hk : k < 4) (hbelow : ∀ j < k, m.ownsGroomRing q (field (c.p 1) 20 16) j = false)
    (hown : m.ownsGroomRing q (field (c.p 1) 20 16) k = true) : groomUpdateEffect q m = m.giveList q c k := by
  rw [groomUpdateEffect_of_runs hr,
    List.find?_range_eq_some.mpr ⟨hown, List.mem_range.mpr hk, fun j hj => by rw [hbelow j hj, Bool.not_false]⟩, Option.elim_some]

end

/-- Settles O44: a row by what the checks of the descriptor at HEAD find, the end of a descriptor by whether it is listed, and GROOM_UPDATE by the
rings that its context owns. -/
theorem groomRows : Obligations.GroomRows := by
  refine ⟨?_, ?_, ?_⟩
  · intro stack ring row x c s hc idx hready hidle m d v
    have hgives {m' : Block} : groomEffect row stack ring s.m = m' → Gives c s m' := gives_of_commit (exec_groom hc s)
    refine ⟨fun hrow => hgives (groomEffect_of_other rfl rfl rfl rfl hready hidle hrow), ?_, fun hrow hparams => hgives ?_, ?_⟩
    · intro m2 pb q codes hrow hparams hread hcodes
      have hsame : m.paramCodes m2 stack x d pb = codes := by
        rw [Block.paramCodes, Block.ownCodes_of_inside hparams]
        rfl
      rw [← hsame] at hcodes ⊢
      exact hgives ((groomEffect_of_params rfl rfl rfl rfl hready hidle hrow hparams hread).trans (if_pos hcodes))
    · rw [groomEffect_of_outside rfl rfl rfl rfl hready hidle hrow hparams, Block.lowest_ownCodes hparams]
    · intro m2 m3 m4 pb il pg q rows hrow hres hrange hparams hprog hread hwords hrest hfactored hregions hapart hil hpg hprogram hlist hgroup
      exact hgives (groomEffect_of_sound rfl rfl rfl rfl hready hidle hrow hparams hread
        (Block.paramCodes_of_sound hres hrange hparams hprog hwords hrest hfactored hregions hapart) hil hpg
        (Block.listCodes_of_sound hprogram hlist hgroup))
  · intro stack ring x k e m1 s idx d v fin he hx hst hclose m2 m3 mine
    have hend := groomDescriptorEndEffect_of_closed rfl he hx hst hclose
    exact ⟨fun hnone => gives_of_commit rfl (hend.trans (congrArg (Option.elim · _ _) hnone)),
      fun l hlist => gives_of_commit rfl (hend.trans (congrArg (Option.elim · _ _) hlist))⟩
  · intro q c s hr u a n
    refine ⟨fun hnone => gives_of_commit rfl (groomUpdateEffect_of_ringless hr hnone), fun k hk hbelow hown => ?_⟩
    have hring := groomUpdateEffect_of_ring hr hk hbelow hown
    refine ⟨fun hcheck hlocal => gives_of_commit rfl (hring.trans (if_neg ?_)), fun hbad => gives_of_commit rfl (hring.trans (if_pos ?_))⟩
    · rw [hcheck, hlocal]
      decide
    · rw [Bool.or_eq_true, Option.isSome_iff_ne_none, Option.isSome_iff_ne_none]
      exact hbad

end Sys2Proof.Machine

/-! SUPPORT. Completion records (R300, R378, R459, Table 12.7): where a queue's next record goes and what the queue is after it, and the fields that a
record holds. -/
namespace Sys2Proof.Machine

/-- A queue as it is found after an update of the queue with its identity, where the update keeps identities. -/
theorem Block.queue?_modQueue_self {m : Block} {q : QueueId} {x : Queue} (f : Queue → Queue) (hid : ∀ y, (f y).id = y.id) (h : m.queue? q = some x) :
    (m.modQueue q f).queue? q = some (f x) := by
  have hfound : (x.id == q) = true := List.find?_some (p := fun y : Queue => y.id == q) h
  have hkeeps : ((fun y : Queue => y.id == q) ∘ fun y => if y.id == q then f y else y) = fun y => y.id == q := by
    funext y
    simp only [Function.comp_apply, apply_ite Queue.id, hid, ite_self]
  show List.find? _ (List.map _ m.cmd.queues) = _
  rw [List.find?_map, hkeeps, show m.cmd.queues.find? (fun y => y.id == q) = some x from h, Option.map_some, if_pos hfound]

/-- An interrupt message leaves the commands and their queues. -/
@[simp] theorem Block.interrupt_cmd (m : Block) (t msg : Nat) : (m.interrupt t msg).cmd = m.cmd := by
  unfold Block.interrupt
  extract_lets
  split <;> rfl

/-- A write at home leaves the commands and their queues. -/
@[simp] theorem Block.homeWrite_cmd (m : Block) (a : Nat) (bs : List Byte) : (m.homeWrite a bs).cmd = m.cmd := by
  obtain ⟨-, -, -, hcmd, -⟩ := (m.homeWrite_frame a bs).1.1
  exact hcmd

/-- A queue once a record stands in its next slot: the tail moves on, and at the ring's end the phase turns (R300). -/
def Queue.posted (x : Queue) : Queue :=
  { x with
    cqTail := (x.cqTail + 1) % 2 ^ x.log2Cq
    phase := if (x.cqTail + 1) % 2 ^ x.log2Cq = 0 then !x.phase else x.phase }

/-- A queue whose record has been written is as `posted` says. -/
theorem Block.queue?_postRecord {m : Block} {x : Queue} (rec : Completion) (irq : Bool) (h : m.queue? x.id = some x) :
    (m.postRecord x rec irq).queue? x.id = some x.posted := by
  unfold Block.postRecord
  extract_lets size w1 bytes next m1
  have hm1 : m1.queue? x.id = some x.posted := by
    refine Block.queue?_modQueue_self _ (fun _ => rfl) ?_
    rwa [Block.queue?, Block.homeWrite_cmd]
  split
  · rwa [Block.queue?, Block.interrupt_cmd]
  · exact hm1

/-- A bit apart from the field put. -/
theorem bit_putField_apart (w : Word) {hi lo : Nat} (v : Nat) {i : Nat} (h : i < lo ∨ hi < i) (h64 : i < 64) : bit (putField w hi lo v) i = bit w i := by
  rw [bit, testBit_putField, if_neg (by omega), decide_eq_true h64, Bool.true_and, bit]

/-- A bit that was put. -/
theorem bit_putBit_self (w : Word) {i : Nat} (b : Bool) (h : i < 64) : bit (putBit w i b) i = b := by
  rw [bit, putBit, testBit_putField, if_pos (by omega), decide_eq_true h, Bool.true_and, Nat.sub_self]
  cases b <;> rfl

/-- A field that lies inside the one put. -/
theorem field_putField_inside (w : Word) {hi lo : Nat} (v : Nat) {hi' lo' : Nat} (hhi : hi' ≤ hi) (hlo : lo ≤ lo') (h64 : hi' < 64) :
    field (putField w hi lo v) hi' lo' = v / 2 ^ (lo' - lo) % 2 ^ (hi' + 1 - lo') := by
  apply Nat.eq_of_testBit_eq
  intro i
  rw [testBit_field, testBit_putField, Nat.testBit_mod_two_pow, Nat.testBit_div_two_pow]
  by_cases hin : i < hi' + 1 - lo'
  · rw [if_pos (by omega), decide_eq_true (show lo' + i < 64 by omega), Bool.true_and, show lo' + i - lo = i + (lo' - lo) by omega]
  · simp only [hin, decide_false, Bool.false_and]

section
variable (c : Cmd) (time status result : Nat)

/-- Word 0 of a record: the status, and the opcode and the tag of the packet. -/
theorem Cmd.record_word0 (hs : status < 2 ^ 16) : field (wordAt (c.record time status result) 0) 63 48 = status ∧
    field (wordAt (c.record time status result) 0) 47 32 = c.opcode ∧
    field (wordAt (c.record time status result) 0) 31 0 = field (wordAt c.packet 0) 31 0 := by
  have hop : c.opcode < 2 ^ 16 := Nat.mod_lt _ (by decide)
  have htag : field (wordAt c.packet 0) 31 0 < 2 ^ 32 := Nat.mod_lt _ (by decide)
  rw [show wordAt (c.record time status result) 0 =
    putField (putField (putField 0 63 48 status) 47 32 c.opcode) 31 0 (field (wordAt c.packet 0) 31 0) from rfl]
  refine ⟨?_, ?_, ?_⟩
  · rw [field_putField_apart _ _ _ _ _ _ (by decide) (by decide), field_putField_apart _ _ _ _ _ _ (by decide) (by decide),
      field_putField_self _ _ _ _ (by decide), Nat.mod_eq_of_lt hs]
  · rw [field_putField_apart _ _ _ _ _ _ (by decide) (by decide), field_putField_self _ _ _ _ (by decide), Nat.mod_eq_of_lt hop]
  · rw [field_putField_self _ _ _ _ (by decide), Nat.mod_eq_of_lt htag]

/-- The flags of word 1: deferred, promoted, replayed. -/
theorem Cmd.record_flags : bit (wordAt (c.record time status result) 1) 62 = c.deferred ∧
    bit (wordAt (c.record time status result) 1) 61 = c.promoted ∧ bit (wordAt (c.record time status result) 1) 60 = c.replayed := by
  rw [show wordAt (c.record time status result) 1 = putField (putField (putBit (putBit (putBit 0 62 c.deferred) 61 c.promoted) 60 c.replayed) 47 32
    c.sqHead) 16 0 (c.q.tenant * 4096 + c.q.ctx * 16 + c.q.queue) from rfl]
  have hflag {i : Nat} (w : Word) (hi : 47 < i) (h64 : i < 64) :
      bit (putField (putField w 47 32 c.sqHead) 16 0 (c.q.tenant * 4096 + c.q.ctx * 16 + c.q.queue)) i = bit w i := by
    rw [bit_putField_apart _ _ (by omega) h64, bit_putField_apart _ _ (by omega) h64]
  have hbelow {i j : Nat} (w : Word) (b : Bool) (hij : i ≠ j) (h64 : i < 64) : bit (putBit w j b) i = bit w i :=
    bit_putField_apart _ _ (by omega) h64
  refine ⟨?_, ?_, ?_⟩
  · rw [hflag _ (by decide) (by decide), hbelow _ _ (by decide) (by decide), hbelow _ _ (by decide) (by decide), bit_putBit_self _ _ (by decide)]
  · rw [hflag _ (by decide) (by decide), hbelow _ _ (by decide) (by decide), bit_putBit_self _ _ (by decide)]
  · rw [hflag _ (by decide) (by decide), bit_putBit_self _ _ (by decide)]

/-- The rest of word 1: the head after the packet and the queue's identity. -/
theorem Cmd.record_queue (hh : c.sqHead < 2 ^ 16) (ht : c.q.tenant < 32) (hx : c.q.ctx < 256) (hq : c.q.queue < 16) :
    field (wordAt (c.record time status result) 1) 47 32 = c.sqHead ∧ field (wordAt (c.record time status result) 1) 16 12 = c.q.tenant ∧
    field (wordAt (c.record time status result) 1) 11 4 = c.q.ctx ∧ field (wordAt (c.record time status result) 1) 3 0 = c.q.queue := by
  rw [show wordAt (c.record time status result) 1 = putField (putField (putBit (putBit (putBit 0 62 c.deferred) 61 c.promoted) 60 c.replayed) 47 32
    c.sqHead) 16 0 (c.q.tenant * 4096 + c.q.ctx * 16 + c.q.queue) from rfl]
  refine ⟨?_, ?_, ?_, ?_⟩
  · rw [field_putField_apart _ _ _ _ _ _ (by decide) (by decide), field_putField_self _ _ _ _ (by decide), Nat.mod_eq_of_lt hh]
  all_goals
    rw [field_putField_inside _ _ (by decide) (by decide) (by decide)]
    omega

/-- Words 2 and 3: the end time and the result, with no delay beside it but for a late command (R332). -/
theorem Cmd.record_words (htime : time < 2 ^ 64) (hres : result < 2 ^ 32) : (wordAt (c.record time status result) 2).toNat = time ∧
    field (wordAt (c.record time status result) 3) 31 0 = result ∧
    (status ≠ 0x11 → status ≠ 0x12 → field (wordAt (c.record time status result) 3) 63 32 = 0) := by
  rw [show wordAt (c.record time status result) 2 = BitVec.ofNat 64 time from rfl,
    show wordAt (c.record time status result) 3 = putField (putField 0 63 32 (if status = 0x11 ∨ status = 0x12 then min (time - c.deadline) (2 ^ 32 - 1) else 0))
      31 0 result from rfl]
  refine ⟨?_, ?_, fun h11 h12 => ?_⟩
  · rw [BitVec.toNat_ofNat, Nat.mod_eq_of_lt htime]
  · rw [field_putField_self _ _ _ _ (by decide), Nat.mod_eq_of_lt hres]
  · rw [field_putField_apart _ _ _ _ _ _ (by decide) (by decide), field_putField_self _ _ _ _ (by decide), if_neg (not_or.mpr ⟨h11, h12⟩), Nat.zero_mod]

end

section
variable {m : Block} {q : QueueId} {x : Queue} (hq : m.queue? q = some x)

/-- A queue whose next slot does not wait has room for the record after its tail (R300). -/
theorem Block.next_ne_head_of_free (h : m.slotWaits x = false) : (x.cqTail + 1) % 2 ^ x.log2Cq ≠ x.cqHead := by
  simp only [Block.slotWaits, Bool.or_eq_false_iff, beq_eq_false_iff_ne] at h
  exact h.1.1

/-- A slot waits for room behind the head, and for the host copies of its granule (R152, R300). -/
theorem Block.slotWaits_of_full_or_copied (h : (x.cqTail + 1) % 2 ^ x.log2Cq = x.cqHead ∨ m.hostCopies (x.slot / 128) ≠ []) : m.slotWaits x = true := by
  rw [Block.slotWaits, Block.slotCopies, Bool.or_eq_true, Bool.or_eq_true, beq_iff_eq, Bool.not_eq_true', List.isEmpty_eq_false_iff]
  exact .inl h

include hq

/-- A record whose host is there is held behind others, and where its slot waits (R152, R300). -/
theorem Block.deliver_of_held (rec : Completion) (irq : Bool) (entry : Option Cmd) (hhost : m.hostHeld q.tenant = false)
    (h : x.held ≠ [] ∨ m.slotWaits x = true) :
    m.deliver q rec irq entry = (m.snoopEntries (m.slotCopies x)).modQueue q fun y => { y with held := y.held ++ [⟨rec, irq, entry⟩] } := by
  rw [← List.length_pos_iff] at h
  simp only [Block.deliver, hq, hhost, Bool.false_eq_true, if_false]
  exact if_pos h

/-- A record whose host is lost goes to what the port keeps (R378): neither memory nor any queue changes. -/
theorem Block.deliver_of_lost (rec : Completion) (irq : Bool) (entry : Option Cmd) (hhost : m.hostHeld q.tenant = true) :
    SameMem m (m.deliver q rec irq entry) ∧ (m.deliver q rec irq entry).cmd = m.cmd := by
  simp only [Block.deliver, hq, hhost, if_true]
  exact ⟨⟨fun _ => rfl, rfl, rfl⟩, rfl⟩

end

/-- Settles O31: a record by its host and by its slot, and a queue after it as `Queue.posted` says; what a record holds, word by word. -/
theorem completionRecords : Obligations.CompletionRecords := by
  refine ⟨?_, ?_⟩
  · intro m q x rec irq entry hq hid _ next
    subst hid
    refine ⟨fun hhost hheld hslot => ⟨m.deliver_of_room _ _ rec irq entry hq hhost hheld hslot, fun y hy => ?_⟩,
      Block.deliver_of_held hq rec irq entry, Block.slotWaits_of_full_or_copied, Block.deliver_of_lost hq rec irq entry⟩
    rw [Block.queue?_postRecord rec irq hq, Option.some_inj] at hy
    subst hy
    exact ⟨rfl, Block.next_ne_head_of_free hslot, rfl⟩
  · intro c time status result hstatus hhead ht hx hq htime hresult r
    obtain ⟨h0, hop, htag⟩ := c.record_word0 time status result hstatus
    obtain ⟨hdeferred, hpromoted, hreplayed⟩ := c.record_flags time status result
    obtain ⟨hsq, htenant, hctx, hqueue⟩ := c.record_queue time status result hhead ht hx hq
    obtain ⟨hend, hres, hdelay⟩ := c.record_words time status result htime hresult
    exact ⟨rfl, h0, hop, htag, hdeferred, hpromoted, hreplayed, hsq, htenant, hctx, hqueue, hend, hres, hdelay⟩

end Sys2Proof.Machine

/-! SUPPORT. Doorbells of a host (R291, R292, R300, R321, R430), and SYS_ADMIN_ENABLE (R288, R289, R318). -/
namespace Sys2Proof.Machine

/-- Asking for M0 leaves the queues. -/
@[simp] theorem Block.queue?_askWake (m : Block) (q : QueueId) : m.askWake.queue? q = m.queue? q := by
  unfold Block.askWake
  split <;> rfl

/-- Slots from one index of a submission ring on to another. -/
def Queue.sqSteps (x : Queue) (from_ to_ : Nat) : Nat := (to_ + 2 ^ x.log2Sq - from_) % 2 ^ x.log2Sq

/-- Whether an SQ_TAIL index stays in the ring and does not overrun it (R291). -/
def Queue.TakesTail (x : Queue) (index : Nat) : Prop :=
  index < 2 ^ x.log2Sq ∧ x.sqSteps x.sqHead x.sqTail + x.sqSteps x.sqTail index < 2 ^ x.log2Sq

/-- A PACED queue's doorbell: the new tail, and the tick with the packets that it covers (R321). -/
def Block.ringPaced (m : Block) (q : QueueId) (index step : Nat) : Block :=
  m.modQueue q fun y => { y with sqTail := index, bells := if step = 0 then y.bells else y.bells ++ [(m.time, step)] }

section
variable {m : Block} {q : QueueId} {x : Queue} {p t index : Nat} (hq : m.queue? q = some x)
include hq

/-- SQ_TAIL by a host, on a queue that exists (R291, R292, R321, R430). -/
theorem doorbellSqTailEffect_host : doorbellSqTailEffect (.host p t) q index m =
    if 2 ^ x.log2Sq ≤ index ∨ 2 ^ x.log2Sq ≤ x.sqSteps x.sqHead x.sqTail + x.sqSteps x.sqTail index then m.askWake
    else
      let m1 := m.askWake.modQueue q fun y =>
        { y with sqTail := index
                 bells := if x.cls = 0 ∧ x.sqSteps x.sqTail index ≠ 0 then y.bells ++ [(m.askWake.time, x.sqSteps x.sqTail index)] else y.bells }
      if x.cls = 0 ∧ m.askWake.serving ∧ m.askWake.ctxOpen q.tenant q.ctx ∧ x.destroyBy.isNone ∧ x.lossTail.isNone then
        Block.fetchAll q (2 ^ x.log2Sq) m1
      else m1 := by
  simp only [doorbellSqTailEffect, Block.doorbellFrom, Except.isOk, Except.toBool, if_true, Block.queue?_askWake, hq]
  rfl

/-- An index that does not fit changes nothing but M2. -/
theorem doorbellSqTailEffect_of_refused (h : ¬ x.TakesTail index) : doorbellSqTailEffect (.host p t) q index m = m.askWake := by
  rw [Queue.TakesTail, not_and_or, not_lt, not_lt] at h
  exact (doorbellSqTailEffect_host hq).trans (if_pos h)

section
variable (h : x.TakesTail index)
include h

/-- One that fits is the tail of a queue below PACED. -/
theorem doorbellSqTailEffect_of_below (hc : x.cls ≠ 0) :
    doorbellSqTailEffect (.host p t) q index m = m.askWake.modQueue q fun y => { y with sqTail := index } := by
  rw [doorbellSqTailEffect_host hq, if_neg (by rwa [not_or, not_le, not_le])]
  simp only [hc, false_and, if_false]

/-- And that of a PACED queue, whose packets firmware reads at once where it serves the queue. -/
theorem doorbellSqTailEffect_of_paced (hc : x.cls = 0) : doorbellSqTailEffect (.host p t) q index m =
    if m.askWake.serving ∧ m.askWake.ctxOpen q.tenant q.ctx ∧ x.destroyBy.isNone ∧ x.lossTail.isNone then
      Block.fetchAll q (2 ^ x.log2Sq) (m.askWake.ringPaced q index (x.sqSteps x.sqTail index))
    else m.askWake.ringPaced q index (x.sqSteps x.sqTail index) := by
  rw [doorbellSqTailEffect_host hq, if_neg (by rwa [not_or, not_le, not_le])]
  simp only [hc, true_and, ne_eq, ite_not]
  rfl

end

/-- CQ_HEAD by a host: an index that does not pass the tail is taken, and the records that waited for room follow; any other changes nothing but
M2 (R291, R300, R430). -/
theorem doorbellCqHeadEffect_host : doorbellCqHeadEffect (.host p t) q index m =
    if 2 ^ x.log2Cq ≤ index ∨ (x.cqTail + 2 ^ x.log2Cq - x.cqHead) % 2 ^ x.log2Cq < (index + 2 ^ x.log2Cq - x.cqHead) % 2 ^ x.log2Cq then m.askWake
    else Block.pumpHeld q (2 ^ x.log2Cq) (m.askWake.modQueue q fun y => { y with cqHead := index }) := by
  simp only [doorbellCqHeadEffect, Block.doorbellFrom, Except.isOk, Except.toBool, if_true, Block.queue?_askWake, hq]

end

/-- A doorbell write of an accepted host request is its effect. -/
theorem exec_doorbellSqTail_host {p t index : Nat} {q : QueueId} {s : State} (hp : s.m.choSt p = 2) (ht : s.m.tagOk p t = true) :
    exec (.doorbellSqTail (.host p t) q index) s = s.commit (doorbellSqTailEffect (.host p t) q index s.m) :=
  congrArg s.commit (s.m.byHost_of_ok p t _ hp ht)

/-- The same for the completion ring. -/
theorem exec_doorbellCqHead_host {p t index : Nat} {q : QueueId} {s : State} (hp : s.m.choSt p = 2) (ht : s.m.tagOk p t = true) :
    exec (.doorbellCqHead (.host p t) q index) s = s.commit (doorbellCqHeadEffect (.host p t) q index s.m) :=
  congrArg s.commit (s.m.byHost_of_ok p t _ hp ht)

/-- Settles O28: each doorbell by whether its ring takes the index, and SQ_TAIL by the queue's class. -/
theorem doorbells : Obligations.Doorbells := by
  intro p t index x q s hp ht hq m sq cq fits
  have hsq {m' : Block} : doorbellSqTailEffect (.host p t) q index s.m = m' → Gives (.doorbellSqTail (.host p t) q index) s m' :=
    gives_of_commit (exec_doorbellSqTail_host hp ht)
  have hcq {m' : Block} : doorbellCqHeadEffect (.host p t) q index s.m = m' → Gives (.doorbellCqHead (.host p t) q index) s m' :=
    gives_of_commit (exec_doorbellCqHead_host hp ht)
  have hreads : (m.serving = true ∧ m.ctxOpen q.tenant q.ctx = true ∧ x.destroyBy.isNone = true ∧ x.lossTail.isNone = true) ↔
      (m.serving = true ∧ m.ctxOpen q.tenant q.ctx = true ∧ x.destroyBy = none ∧ x.lossTail = none) := by
    rw [Option.isNone_iff_eq_none, Option.isNone_iff_eq_none]
  refine ⟨fun hf hc => hsq (doorbellSqTailEffect_of_below hq hf hc), fun hf hc => ⟨fun hr => hsq ?_, fun hr => hsq ?_⟩,
    fun hf => hsq (doorbellSqTailEffect_of_refused hq hf), fun hi h => hcq ((doorbellCqHeadEffect_host hq).trans (if_neg ?_)),
    fun h => hcq ((doorbellCqHeadEffect_host hq).trans (if_pos h))⟩
  · exact (doorbellSqTailEffect_of_paced hq hf hc).trans (if_pos (hreads.mpr hr))
  · exact (doorbellSqTailEffect_of_paced hq hf hc).trans (if_neg (mt hreads.mp hr))
  · exact not_or.mpr ⟨Nat.not_le.mpr hi, Nat.not_lt.mpr h⟩

/- The system admin queue -/

/-- CMD_SYS_CFG as SYS_ADMIN_ENABLE writes it. -/
def sysCfgWord (cq sq : Nat) : Word := putBit (putField (putField 0 7 4 cq) 3 0 sq) 63 true

/-- Its fields. -/
theorem sysCfgWord_fields {cq sq : Nat} (hc : cq < 16) (hs : sq < 16) :
    field (sysCfgWord cq sq) 63 63 = 1 ∧ field (sysCfgWord cq sq) 7 4 = cq ∧ field (sysCfgWord cq sq) 3 0 = sq := by
  refine ⟨?_, ?_, ?_⟩
  · exact field_putField_self _ _ _ _ (by decide)
  · rw [sysCfgWord, putBit, field_putField_apart _ _ _ _ _ _ (by decide) (by decide), field_putField_apart _ _ _ _ _ _ (by decide) (by decide),
      field_putField_self _ _ _ _ (by decide), Nat.mod_eq_of_lt (by omega)]
  · rw [sysCfgWord, putBit, field_putField_apart _ _ _ _ _ _ (by decide) (by decide), field_putField_self _ _ _ _ (by decide), Nat.mod_eq_of_lt (by omega)]

/-- Whether the `n` bytes of a ring stand in host memory on 4 KiB (R288). -/
def HostRing (a : Word) (n : Nat) : Prop := a.toNat % 4096 = 0 ∧ hostBase ≤ localPart a.toNat ∧ localPart a.toNat + n ≤ 2 * hostBase

/-- The system admin queue with the rings that firmware finds in its registers: class HIGH, with interrupts (log entry 55). -/
def Block.systemQueue (m : Block) (cq sq : Nat) : Queue :=
  { id := ⟨0, 0, 0⟩, sqBase := (m.reg Reg.cmdSysSq).toNat, cqBase := (m.reg Reg.cmdSysCq).toNat, log2Sq := sq, log2Cq := cq, cls := 1, irqEn := true }

/-- Firmware that runs serves the queue that it enables, where rings and sizes are those of R288 and R289. -/
theorem sysAdminEnableEffect_of_sound {m : Block} {cq sq : Nat} (hoff : m.fld Reg.cmdSysCfg 63 63 = 0) (hup : m.fw.fwUp = true) (h4 : 4 ≤ sq)
    (hsq : sq ≤ cq) (hcq : cq ≤ 12) (hnone : m.queue? ⟨0, 0, 0⟩ = none) (hs : HostRing (m.reg Reg.cmdSysSq) (64 * 2 ^ sq))
    (hc : HostRing (m.reg Reg.cmdSysCq) (32 * 2 ^ cq)) :
    sysAdminEnableEffect .firmware cq sq m = (m.setReg Reg.cmdSysCfg (sysCfgWord cq sq)).addQueue (m.systemQueue cq sq) := by
  have hring {a : Word} {n : Nat} (h : HostRing a n) : (a.toNat % 4096 == 0 && inHost (localPart a.toNat) n) = true := by
    obtain ⟨hal, hlo, hhi⟩ := h
    simp only [inHost, hal, hlo, hhi, beq_self_eq_true, decide_true, Bool.and_self]
  simp only [sysAdminEnableEffect, isFw, Bool.true_or, Bool.not_true, Bool.false_eq_true, if_false, hoff, hup, hnone, Option.isNone_none,
    Nat.mod_eq_of_lt (show cq < 16 by omega), Nat.mod_eq_of_lt (show sq < 16 by omega), hring hs, hring hc, h4, hsq, hcq, and_self, if_true]
  rfl

/-- A host's write while ENABLE is 1 (R318). -/
theorem sysAdminEnableEffect_of_on {m : Block} {p t cq sq : Nat} (hon : m.fld Reg.cmdSysCfg 63 63 = 1) :
    sysAdminEnableEffect (.host p t) cq sq m = m := by
  simp [sysAdminEnableEffect, isFw, hon]

/-- Settles O29: firmware's enable adds the queue and writes CMD_SYS_CFG; a host's second one does nothing. -/
theorem systemAdminQueue : Obligations.SystemAdminQueue := by
  refine ⟨?_, ?_⟩
  · intro cq sq s hoff hup h4 hsq hcq hnone hrings
    have heffect := sysAdminEnableEffect_of_sound hoff hup h4 hsq hcq hnone (hrings (Reg.cmdSysSq, _) (.head _)) (hrings (Reg.cmdSysCq, _) (.tail _ (.head _)))
    have hgives : Gives (.sysAdminEnable .firmware cq sq) s ((s.m.setReg Reg.cmdSysCfg (sysCfgWord cq sq)).addQueue (s.m.systemQueue cq sq)) :=
      gives_of_commit rfl heffect
    obtain ⟨hone, hcqf, hsqf⟩ := sysCfgWord_fields (show cq < 16 by omega) (show sq < 16 by omega)
    have hcfg : (((s.m.setReg Reg.cmdSysCfg (sysCfgWord cq sq)).addQueue (s.m.systemQueue cq sq)).settle).reg Reg.cmdSysCfg = sysCfgWord cq sq :=
      s.m.reg_setReg_self _ _
    refine hgives.completes ⟨rfl, ?_, ?_, ?_, fun r hr => ?_, ?_, fun _ => rfl⟩
    · rw [Block.fld, hcfg, hone]
    · rw [Block.fld, hcfg, hcqf]
    · rw [Block.fld, hcfg, hsqf]
    · exact s.m.reg_setReg_ne _ _ _ (List.ne_of_not_mem_cons hr)
    · exact (SameMem.of_eq rfl rfl rfl rfl : SameMem s.m _).trans (OnlyRegs.settle [] _).2.1
  · intro p cq sq s hp hon
    have htag : s.m.tagOk p 0 = true := rfl
    exact gives_of_commit rfl ((s.m.byHost_of_ok p 0 _ hp htag).trans (sysAdminEnableEffect_of_on hon))

end Sys2Proof.Machine

/-! SUPPORT. What firmware starts, and in what order (R302, R303, R329). -/
namespace Sys2Proof.Machine

/-- Firmware that serves queues runs. -/
theorem Block.fwRuns_of_serving {m : Block} (h : m.serving = true) : m.fwRuns = true := (Bool.and_eq_true _ _ |>.mp h).1

/-- The block as DISPATCH looks at its queues: the page-ins that held commands need are begun, and queues that starve promoted (R255, R303). -/
def Block.aged (m : Block) : Block := m.cmd.queues.foldl (fun m q => m.promote q) m.loadHeld

/-- PACED work that is due starts first (R329). -/
theorem dispatchEffect_of_due {m : Block} {c : Cmd} (hrun : m.fwRuns = true) (hdue : m.cmd.cmds.find? m.leadDue = some c) :
    dispatchEffect m = m.startPaced c := by
  simp only [dispatchEffect, hrun, hdue, Bool.not_true, Bool.false_eq_true, if_false]

section
variable {m : Block} (hserving : m.serving = true) (hnone : m.cmd.cmds.find? m.leadDue = none)
include hserving hnone

/-- Without it the next queue of class 1 does, else of 2, else of 3 (R302). -/
theorem dispatchEffect_of_none_due : dispatchEffect m =
    ((m.aged.nextOfClass 1).or ((m.aged.nextOfClass 2).or (m.aged.nextOfClass 3))).elim m.aged m.aged.startQueue := by
  simp only [dispatchEffect, Block.fwRuns_of_serving hserving, hserving, hnone, Bool.not_true, Bool.false_eq_true, if_false]
  rw [← Block.aged]
  cases (m.aged.nextOfClass 1).or ((m.aged.nextOfClass 2).or (m.aged.nextOfClass 3)) <;> rfl

/-- The queue that DISPATCH finds starts its command. -/
theorem dispatchEffect_of_queue {x : Queue}
    (h : (m.aged.nextOfClass 1).or ((m.aged.nextOfClass 2).or (m.aged.nextOfClass 3)) = some x) : dispatchEffect m = m.aged.startQueue x := by
  rw [dispatchEffect_of_none_due hserving hnone, h, Option.elim_some]

/-- With no queue ready nothing starts. -/
theorem dispatchEffect_of_no_queue (h : (m.aged.nextOfClass 1).or ((m.aged.nextOfClass 2).or (m.aged.nextOfClass 3)) = none) :
    dispatchEffect m = m.aged := by
  rw [dispatchEffect_of_none_due hserving hnone, h, Option.elim_none]

end

/-- A queue below HIGH that has waited its starvation time has starved (R303). -/
theorem Block.starved_of_late {m : Block} {x : Queue} {w : Nat} (hcls : x.cls = 2 ∨ x.cls = 3) (hready : x.ready = some w)
    (hlate : w + x.starve ≤ m.time) : m.starved x = true := by
  simp only [Block.starved, hready, hlate, decide_true, Bool.and_true, Bool.or_eq_true, beq_iff_eq]
  exact hcls

/-- A queue that has starved is promoted once, and counted (R303). -/
theorem Block.promote_of_starved {m : Block} {x : Queue} (h : m.starved x = true) (hp : x.promoted = false) :
    m.promote x = (m.modQueue x.id fun y => { y with promoted := true }).addFld Reg.cmdAged 63 0 1 := by
  simp only [Block.promote, h, hp, Bool.not_false, Bool.and_self, if_true]

/-- Settles O34: DISPATCH by what is due and by the class of the queue found; the two other rows by their own conditions. -/
theorem dispatchOrder : Obligations.DispatchOrder := by
  refine ⟨fun c s hrun hdue => gives_of_commit rfl (dispatchEffect_of_due hrun hdue), ?_, ?_, ?_⟩
  · intro s hserving hnone m
    have hqueue {x : Queue} (h : (m.nextOfClass 1).or ((m.nextOfClass 2).or (m.nextOfClass 3)) = some x) : Gives .dispatch s (m.startQueue x) :=
      gives_of_commit rfl (dispatchEffect_of_queue hserving hnone h)
    refine ⟨fun x h1 => hqueue ?_, fun x h1 h2 => hqueue ?_, fun x h1 h2 h3 => hqueue ?_,
      fun h1 h2 h3 => gives_of_commit rfl (dispatchEffect_of_no_queue hserving hnone ?_)⟩
    · rw [h1, Option.some_or]
    · rw [h1, h2, Option.none_or, Option.some_or]
    · rw [h1, h2, h3, Option.none_or, Option.none_or]
    · exact Option.or_eq_none_iff.mpr ⟨h1, Option.or_eq_none_iff.mpr ⟨h2, h3⟩⟩
  · intro q x w s hq hcls hready hlate hp
    refine gives_of_commit rfl ?_
    rw [agingPromotionEffect, hq]
    exact Block.promote_of_starved (Block.starved_of_late hcls hready hlate) hp
  · intro q c s hfind hrun hdue
    refine gives_of_commit rfl ?_
    simp only [pacedLeadStartEffect, hfind, hrun, hdue, Bool.and_self, if_true]

end Sys2Proof.Machine

/-! SUPPORT. The commands of the system admin queue (Table 12.9, R304 to R309, R312, R313, R486, R487): what each does once it runs. -/
namespace Sys2Proof.Machine

/-- The command that a queue runs is the queue's. -/
theorem Block.q_of_running {m : Block} {q : QueueId} {c : Cmd} (h : m.running q = some c) : c.q = q := by
  have hc := List.find?_some h
  simp only [Bool.and_eq_true, beq_iff_eq] at hc
  exact hc.1

/-- The command of a row that runs is the queue's. -/
theorem Block.q_of_runs {m : Block} {q : QueueId} {op : Nat} {c : Cmd} (h : m.runs q op c = true) : c.q = q :=
  Block.q_of_running (m.running_of_runs q op c h).1

/-- An enable that runs freely runs, and nothing holds it back (R308). -/
theorem Block.runs_of_freely {m : Block} {q : QueueId} {op : Nat} {c : Cmd} (h : m.runsFreely q op c = true) :
    m.runs q op c = true ∧ m.blocked c = false := by
  rwa [Block.runsFreely, Bool.and_eq_true, Bool.not_eq_true'] at h

/-- An enable that an earlier shutdown holds back waits, deferred (R308). -/
theorem Block.enable_of_blocked {m : Block} {c : Cmd} (k : Block → Cmd → Block) (h : m.blocked c = true) : m.enable c k = m.defer c.q := if_pos h

/-- Memory without host copies is filled at once. -/
theorem Block.whenBare_of_bare {m : Block} {a n : Nat} (k : Block → Block) (h : m.copiesIn a n = []) : m.whenBare a n k = k m := by
  rw [Block.whenBare, h]

/-- Host copies are asked back first (R152). -/
theorem Block.whenBare_of_copied {m : Block} {a n : Nat} (k : Block → Block) (h : m.copiesIn a n ≠ []) :
    m.whenBare a n k = m.snoopEntries (m.copiesIn a n) := by
  unfold Block.whenBare
  split
  · next hnil => exact absurd hnil h
  · rfl

/-- NOP completes (R295). -/
theorem nopEffect_of_runs {m : Block} {q : QueueId} {c : Cmd} (hr : m.runs q 0 c = true) : nopEffect q m = m.complete q 0 0 := by
  obtain ⟨hc, hop, hw⟩ := m.running_of_runs q 0 c hr
  simp only [nopEffect, hc, hop, hw, and_self, if_true]

/- Tenants -/

/-- A tenant that exists is not created again. -/
theorem Block.tenantCreatePerform_of_present {m : Block} {c : Cmd} (h : m.tenantExists (field (c.p 3) 4 0) = true) :
    m.tenantCreatePerform c = m.complete c.q 8 0 := if_pos h

/-- A new tenant has its admin context and its admin queue, class HIGH with interrupts (R287, R288, log entry 55). -/
theorem Block.tenantCreatePerform_of_new {m : Block} {c : Cmd} {t : Nat} (ht : field (c.p 3) 4 0 = t) (h : m.tenantExists t = false)
    (hroom : (m.cmd.contexts.filter (·.exists_)).length < 4096) : m.tenantCreatePerform c =
      ({ m with
        cmd.tenants := m.cmd.tenants ++ [({ id := t } : Tenant)]
        cmd.contexts := (m.cmd.contexts.filter fun (x : Context) => !(x.tenant == t && x.ctx == 0)) ++ [({ tenant := t, ctx := 0 } : Context)] }.addQueue
          { id := ⟨t, 0, 0⟩, sqBase := (c.p 0).toNat, cqBase := (c.p 1).toNat, log2Sq := field (c.p 2) 59 56, log2Cq := field (c.p 2) 55 52
            cls := 1, irqEn := true }).complete c.q 0 0 := by
  subst ht
  rw [Block.tenantCreatePerform, h, if_neg Bool.false_ne_true, if_neg (Nat.not_le.mpr hroom)]

section
variable {m : Block} {q : QueueId} {c : Cmd} (hr : m.runs q 0x11 c = true)
include hr

/-- TENANT_DESTROY of no tenant. -/
theorem tenantDestroyEffect_of_absent (h : m.tenantExists (field (c.p 3) 4 0) = false) : tenantDestroyEffect q m = m.complete q 7 0 := by
  simp only [tenantDestroyEffect, m.onCommand_of_runs q 0x11 c _ hr, h, Bool.not_false, true_or, if_true]

/-- TENANT_DESTROY of a tenant that does not go yet begins its end (R307, R309). -/
theorem tenantDestroyEffect_of_present (h : m.tenantExists (field (c.p 3) 4 0) = true)
    (hd : (m.cmd.tenants.any fun x => x.id == field (c.p 3) 4 0 && x.dying) = false) :
    tenantDestroyEffect q m = (m.setWait q .teardown).destroyTenant (field (c.p 3) 4 0) (some q) := by
  simp only [tenantDestroyEffect, m.onCommand_of_runs q 0x11 c _ hr, h, hd, Bool.not_true, Bool.false_eq_true, or_self, if_false]

end

/- Keys -/

/-- The header of a key load that names a tenant but tenant 0: version, number and reserved bytes (Table 20.6). -/
def KeyHeader (p : List Byte) : Prop := leAt p 0 1 = 1 ∧ leAt p 1 1 < 32 ∧ leAt p 2 6 = 0 ∧ leAt p 1 1 ≠ 0

section
variable {m : Block} {c : Cmd}

/-- A key load of another length. -/
theorem Block.keyLoadPerform_of_length (h : c.payloadBytes ≠ 1656) : m.keyLoadPerform c = m.rejectKey c 2 false := if_pos (.inl h)

section
variable (hlen : c.payloadBytes = 1656) (hh : KeyHeader c.payload)
include hlen hh

/-- A sound key load by its tenant, by the key that wraps it, and by the two keys that unwrap, which must differ, for a tenant without ranges
(R484, R486, R487). -/
theorem Block.keyLoadPerform_of_sound : m.keyLoadPerform c =
    if !m.tenantExists (leAt c.payload 1 1) then m.rejectKey c 7 false
    else if BitVec.ofNat 64 (leAt c.payload 8 8) ≠ m.reg Reg.secKemId then m.rejectKey c 2 true
    else (Config.keyUnwrap m.sec.kemSeed (BitVec.ofNat 64 (leAt c.payload 8 8)) (leAt c.payload 1 1) (slice c.payload 0x10 1568)
      (slice c.payload 0x630 72)).elim (m.rejectKey c 2 false) fun k =>
        if k.take 32 = k.drop 32 then m.rejectKey c 2 false
        else if m.cmd.ranges.any fun r => r.tenant == leAt c.payload 1 1 then m.rejectKey c 8 false
        else if m.blocked c then m.defer c.q
        else (m.installKey (leAt c.payload 1 1) k).complete c.q 0 0 := by
  obtain ⟨hversion, ht, hzero, hne⟩ := hh
  simp only [Block.keyLoadPerform, hlen, hversion, Nat.not_le.mpr ht, hzero, hne, ne_eq, not_true_eq_false, or_self, if_false]
  cases Config.keyUnwrap m.sec.kemSeed (BitVec.ofNat 64 (leAt c.payload 8 8)) (leAt c.payload 1 1) (slice c.payload 0x10 1568)
    (slice c.payload 0x630 72) <;> rfl

/-- A key load for no tenant. -/
theorem Block.keyLoadPerform_of_absent (h : m.tenantExists (leAt c.payload 1 1) = false) : m.keyLoadPerform c = m.rejectKey c 7 false := by
  rw [Block.keyLoadPerform_of_sound hlen hh, h, Bool.not_false, if_pos rfl]

variable (ht : m.tenantExists (leAt c.payload 1 1) = true)
include ht

/-- A key load wrapped for another key of the module is stale. -/
theorem Block.keyLoadPerform_of_stale (h : BitVec.ofNat 64 (leAt c.payload 8 8) ≠ m.reg Reg.secKemId) :
    m.keyLoadPerform c = m.rejectKey c 2 true := by
  rw [Block.keyLoadPerform_of_sound hlen hh, ht, Bool.not_true, if_neg Bool.false_ne_true, if_pos h]

/-- For a tenant without ranges, and with nothing that holds it back, the two keys decide. -/
theorem Block.keyLoadPerform_of_current (h : BitVec.ofNat 64 (leAt c.payload 8 8) = m.reg Reg.secKemId)
    (hranges : ∀ r ∈ m.cmd.ranges, r.tenant ≠ leAt c.payload 1 1) (hfree : m.blocked c = false) :
    m.keyLoadPerform c =
      (Config.keyUnwrap m.sec.kemSeed (BitVec.ofNat 64 (leAt c.payload 8 8)) (leAt c.payload 1 1) (slice c.payload 0x10 1568)
        (slice c.payload 0x630 72)).elim (m.rejectKey c 2 false)
        fun k => if k.take 32 = k.drop 32 then m.rejectKey c 2 false else (m.installKey (leAt c.payload 1 1) k).complete c.q 0 0 := by
  have hnone : (m.cmd.ranges.any fun r => r.tenant == leAt c.payload 1 1) = false :=
    List.any_eq_false.mpr fun r hm => by rw [beq_iff_eq]; exact hranges r hm
  rw [Block.keyLoadPerform_of_sound hlen hh, ht, Bool.not_true, if_neg Bool.false_ne_true, if_neg (not_not_intro h), hnone, hfree]
  simp only [Bool.false_eq_true, if_false]

end
end

/-- TENANT_KEY_LOAD reads its payload first. -/
theorem tenantKeyLoadEffect_of_runs {m : Block} {q : QueueId} {c : Cmd} (hr : m.runs q 0x12 c = true) :
    tenantKeyLoadEffect q m =
      (m.modCmd q fun _ => { c with payload := m.readPayload c }).keyLoadPerform { c with payload := m.readPayload c } := by
  simp only [tenantKeyLoadEffect, m.onCommand_of_runs q 0x12 c _ hr]

/- Ranges -/

/-- Whether another range stands in the way of a RANGE_SET: one with its name, or another tenant's over its bytes (R304). -/
def Block.rangeClash (m : Block) (c : Cmd) : Bool := m.cmd.ranges.any fun r =>
  (r.tenant == c.rangeTenant && r.idx == c.rangeIndex) || (r.tenant != c.rangeTenant && overlaps (c.p 0).toNat (c.p 1).toNat r.base r.size)

section
variable {m : Block} {c : Cmd}

/-- A range for no tenant. -/
theorem Block.rangeSetPerform_of_absent (h : m.tenantExists c.rangeTenant = false) : m.rangeSetPerform c = m.complete c.q 7 0 := by
  simp only [Block.rangeSetPerform, h, Bool.not_false, if_true]

section
variable (ht : m.tenantExists c.rangeTenant = true)
include ht

/-- A range for a tenant without a key. -/
theorem Block.rangeSetPerform_of_keyless (h : m.keyValid c.rangeTenant = false) : m.rangeSetPerform c = m.complete c.q 3 0 := by
  simp only [Block.rangeSetPerform, ht, h, Bool.not_true, Bool.not_false, Bool.false_eq_true, if_false, if_true]

variable (hk : m.keyValid c.rangeTenant = true)
include hk

/-- A range over what it may not hold (R304). -/
theorem Block.rangeSetPerform_of_conflict
    (h : m.rangeClash c = true ∨ m.hasRetired (c.p 0).toNat (c.p 1).toNat = true ∨ firmwareArea (c.p 0).toNat (c.p 1).toNat = true) :
    m.rangeSetPerform c = m.complete c.q 8 0 := by
  simp only [Block.rangeSetPerform, ht, hk, Bool.not_true, Bool.false_eq_true, if_false]
  exact if_pos (by rwa [Bool.or_eq_true, Bool.or_eq_true, or_assoc])

/-- Any other: the line caches are invalidated and the zero fill begins (R306). -/
theorem Block.rangeSetPerform_of_room (h : m.rangeClash c = false) (hret : m.hasRetired (c.p 0).toNat (c.p 1).toNat = false)
    (hfw : firmwareArea (c.p 0).toNat (c.p 1).toNat = false) : m.rangeSetPerform c = m.invalidateAll.setWait c.q .zeroFill := by
  simp only [Block.rangeSetPerform, ht, hk, Bool.not_true, Bool.false_eq_true, if_false]
  refine if_neg ?_
  rw [hret, hfw, Bool.or_false, Bool.or_false]
  exact ne_true_of_eq_false h

end
end

/-- RANGE_SET outside the places of a range. -/
theorem rangeSetEffect_of_misplaced {m : Block} {q : QueueId} {c : Cmd} (hr : m.runs q 0x13 c = true)
    (h : m.rangePlace (c.p 0).toNat (c.p 1).toNat = false) : rangeSetEffect q m = m.complete q 2 0 := by
  simp only [rangeSetEffect, m.onCommand_of_runs q 0x13 c _ hr, h, Bool.not_false, if_true]

/-- RANGE_SET inside one is an enable. -/
theorem rangeSetEffect_of_placed {m : Block} {q : QueueId} {c : Cmd} (hr : m.runs q 0x13 c = true)
    (h : m.rangePlace (c.p 0).toNat (c.p 1).toNat = true) : rangeSetEffect q m = m.enable c Block.rangeSetPerform := by
  simp only [rangeSetEffect, m.onCommand_of_runs q 0x13 c _ hr, h, Bool.not_true, Bool.false_eq_true, if_false]

/-- The range that a RANGE_SET gives (R304, R305). -/
def Cmd.newRange (c : Cmd) : Range :=
  { tenant := c.rangeTenant, idx := c.rangeIndex, base := (c.p 0).toNat, size := (c.p 1).toNat
    readers := field (c.p 2) 63 32, r := bit (c.p 2) 0, w := bit (c.p 2) 1, fabricIn := bit (c.p 2) 3 }

/-- The range is given and its command completes. -/
def Block.giveRange (m : Block) (q : QueueId) (r : Range) : Block := ({ m with cmd.ranges := m.cmd.ranges ++ [r] }).complete q 0 0

section
variable {m : Block} {q : QueueId} {c : Cmd} (hc : m.running q = some c) (hop : c.opcode = 0x13) (hw : c.wait = .zeroFill)
include hc hop hw

/-- A range of host memory is given as it stands (R306). -/
theorem rangeZeroFillEndEffect_of_host (h : m.region (c.p 0).toNat = .host) : rangeZeroFillEndEffect q m = m.giveRange q c.newRange := by
  simp only [rangeZeroFillEndEffect, hc, hop, hw, h, ne_eq, not_true_eq_false, or_self, if_false, if_true]
  rfl

/-- One of the module's memory is filled once no host holds a copy of it (R152, R306). -/
theorem rangeZeroFillEndEffect_of_module (h : m.region (c.p 0).toNat ≠ .host) : rangeZeroFillEndEffect q m =
    m.whenBare (c.p 0).toNat (c.p 1).toNat fun m => (m.clearMem (c.p 0).toNat (c.p 1).toNat).giveRange q c.newRange := by
  simp only [rangeZeroFillEndEffect, hc, hop, hw, h, ne_eq, not_true_eq_false, or_self, if_false]
  rfl

end

section
variable {m : Block} {q : QueueId} {c : Cmd} (hr : m.runs q 0x14 c = true)
include hr

/-- RANGE_CLEAR of a range that is there (R307). -/
theorem rangeClearEffect_of_present (ht : m.tenantExists c.rangeTenant = true)
    (h : (m.cmd.ranges.any fun r => r.tenant == c.rangeTenant && r.idx == c.rangeIndex) = true) :
    rangeClearEffect q m = (m.clearRanges fun r => r.tenant == c.rangeTenant && r.idx == c.rangeIndex).complete q 0 0 := by
  simp only [rangeClearEffect, m.onCommand_of_runs q 0x14 c _ hr, ht, h, Bool.and_self, if_true]

/-- RANGE_CLEAR of none. -/
theorem rangeClearEffect_of_absent
    (h : m.tenantExists c.rangeTenant = false ∨ (m.cmd.ranges.any fun r => r.tenant == c.rangeTenant && r.idx == c.rangeIndex) = false) :
    rangeClearEffect q m = m.complete q 7 0 := by
  simp only [rangeClearEffect, m.onCommand_of_runs q 0x14 c _ hr]
  exact if_neg (by rwa [Bool.and_eq_true, not_and_or, Bool.not_eq_true, Bool.not_eq_true])

end

/-- MAILBOX_ASSIGN by whether its tenant is there (R313). -/
theorem mailboxAssignEffect_of_runs {m : Block} {q : QueueId} {c : Cmd} (hr : m.runs q 0x15 c = true) : mailboxAssignEffect q m =
    if m.tenantExists (field (c.p 0) 12 8) then
      ((m.setFld (Reg.cmdMbCtl (field (c.p 0) 5 0)) 63 63 1).setFld (Reg.cmdMbCtl (field (c.p 0) 5 0)) 60 56 (field (c.p 0) 12 8)).complete q 0 0
    else m.complete q 7 0 := by
  simp only [mailboxAssignEffect, m.onCommand_of_runs q 0x15 c _ hr]

/- Deferral and scrubs -/

/-- What an enable that was held does (R308). -/
def heldEnable (op : Nat) : Option (Block → Cmd → Block) :=
  match op with
  | 0x10 => some Block.tenantCreatePerform
  | 0x12 => some Block.keyLoadPerform
  | 0x13 => some Block.rangeSetPerform
  | 0x20 => some Block.contextCreatePerform
  | 0x25 => some Block.resourceAssignPerform
  | _ => none

/-- Once nothing holds it, DEFERRED_PERFORM performs it. -/
theorem deferredPerformEffect_of_free {m : Block} {q : QueueId} {c : Cmd} {k : Block → Cmd → Block} (hc : m.running q = some c)
    (hw : c.wait = .shutdown) (hfree : m.blocked c = false) (hk : heldEnable c.opcode = some k) :
    deferredPerformEffect q m = k (m.setWait q .none) { c with wait := .none } := by
  simp only [deferredPerformEffect, hc, hw, hfree, ne_eq, not_true_eq_false, Bool.false_eq_true, or_self, if_false]
  unfold heldEnable at hk
  split at hk
  all_goals cases hk
  all_goals simp only [*]

/-- A scrub fills its memory with zeros once no host holds a copy of it, and ends (R152, R312). -/
theorem scrubEndEffect_of_scrub {m : Block} {idx : Nat} {x : Scrub} (h : m.cmd.scrubs[idx]? = some x) : scrubEndEffect idx m =
    m.whenBare x.base x.size fun m =>
      let m1 := (m.zeroFill x.base x.size).invalidateAll
      { m1 with cmd.scrubs := removeAt m1.cmd.scrubs idx }.endTenants := by
  simp only [scrubEndEffect, h]

/-- Settles O38: a row by whether its target is there, an enable by whether a shutdown holds it, a fill by the host copies of its memory. -/
theorem tenantCommands : Obligations.TenantCommands := by
  refine ⟨fun q c s hr => gives_of_commit rfl (nopEffect_of_runs hr), ?_, ?_, ?_, ?_, ?_, ?_, ?_, ?_, ?_, ?_⟩
  · intro q c s hfreely t
    obtain ⟨hr, hfree⟩ := Block.runs_of_freely hfreely
    obtain rfl := Block.q_of_runs hr
    have hgives {m' : Block} (h : s.m.tenantCreatePerform c = m') : Gives (.tenantCreate c.q) s m' :=
      gives_of_commit rfl ((s.m.onCommand_of_runs c.q 0x10 c _ hr).trans ((s.m.enable_of_free c _ hfree).trans h))
    exact ⟨fun h => hgives (Block.tenantCreatePerform_of_present h), fun h hroom => hgives (Block.tenantCreatePerform_of_new rfl h hroom)⟩
  · intro q c s hr t
    exact ⟨fun h => gives_of_commit rfl (tenantDestroyEffect_of_absent hr h),
      fun h hd => gives_of_commit rfl (tenantDestroyEffect_of_present hr h hd)⟩
  · intro q c s hr c1 m
    have hgives {m' : Block} (h : m.keyLoadPerform c1 = m') : Gives (.tenantKeyLoad q) s m' :=
      gives_of_commit rfl ((tenantKeyLoadEffect_of_runs hr).trans h)
    refine ⟨fun hlen => hgives (Block.keyLoadPerform_of_length (c := c1) hlen),
      fun hlen h1 h2 h3 h4 ht => hgives (Block.keyLoadPerform_of_absent (c := c1) hlen ⟨h1, h2, h3, h4⟩ ht),
      fun hlen h1 h2 h3 h4 ht hkem => hgives (Block.keyLoadPerform_of_stale (c := c1) hlen ⟨h1, h2, h3, h4⟩ ht hkem),
      fun hlen h1 h2 h3 h4 ht hkem hranges hfree hq => hgives ?_⟩
    rw [Block.keyLoadPerform_of_current (c := c1) hlen ⟨h1, h2, h3, h4⟩ ht hkem hranges hfree, hq]
    cases Config.keyUnwrap m.sec.kemSeed (BitVec.ofNat 64 (leAt c1.payload 8 8)) (leAt c1.payload 1 1) (slice c1.payload 0x10 1568)
      (slice c1.payload 0x630 72) <;> rfl
  · intro q c s hfreely base size clash
    obtain ⟨hr, hfree⟩ := Block.runs_of_freely hfreely
    obtain rfl := Block.q_of_runs hr
    have hgives {m' : Block} (hplace : s.m.rangePlace base size = true) (h : s.m.rangeSetPerform c = m') : Gives (.rangeSet c.q) s m' :=
      gives_of_commit rfl ((rangeSetEffect_of_placed hr hplace).trans ((s.m.enable_of_free c _ hfree).trans h))
    exact ⟨fun hplace => gives_of_commit rfl (rangeSetEffect_of_misplaced hr hplace),
      fun hplace ht => hgives hplace (Block.rangeSetPerform_of_absent ht),
      fun hplace ht hk => hgives hplace (Block.rangeSetPerform_of_keyless ht hk),
      fun hplace ht hk => ⟨fun h => hgives hplace (Block.rangeSetPerform_of_conflict ht hk h),
        fun hclash hret hfw => hgives hplace (Block.rangeSetPerform_of_room ht hk hclash hret hfw)⟩⟩
  · intro q c s hc hop hw base size give
    exact ⟨fun h => gives_of_commit rfl (rangeZeroFillEndEffect_of_host hc hop hw h),
      fun h hbare => gives_of_commit rfl ((rangeZeroFillEndEffect_of_module hc hop hw h).trans (Block.whenBare_of_bare _ hbare)),
      fun h hcopied => gives_of_commit rfl ((rangeZeroFillEndEffect_of_module hc hop hw h).trans (Block.whenBare_of_copied _ hcopied))⟩
  · intro q c s hr p
    exact ⟨fun ht h => gives_of_commit rfl (rangeClearEffect_of_present hr ht h), fun h => gives_of_commit rfl (rangeClearEffect_of_absent hr h)⟩
  · intro q c s hr k t
    exact ⟨fun ht => gives_of_commit rfl ((mailboxAssignEffect_of_runs hr).trans (if_pos ht)),
      fun ht => gives_of_commit rfl ((mailboxAssignEffect_of_runs hr).trans (if_neg (ne_true_of_eq_false ht)))⟩
  · intro q c s hrow hblocked
    have hrow' : s.m.runs q c.opcode c = true ∧ c.q = q := by
      rcases hrow with hr | hr | hr | hr <;>
        exact ⟨(s.m.running_of_runs q _ c hr).2.1 ▸ hr, Block.q_of_runs hr⟩
    obtain ⟨hr, rfl⟩ := hrow'
    have hdefer {op : Nat} (hop : c.opcode = op) (k : Block → Cmd → Block) : s.m.onCommand c.q op (fun c => s.m.enable c k) = s.m.defer c.q :=
      (s.m.onCommand_of_runs c.q op c _ (hop ▸ hr)).trans (Block.enable_of_blocked k hblocked)
    refine ⟨fun hop => gives_of_commit rfl (hdefer hop _), fun hop hplace => gives_of_commit rfl ?_, fun hop => gives_of_commit rfl (hdefer hop _),
      fun hop => gives_of_commit rfl (hdefer hop _)⟩
    exact (rangeSetEffect_of_placed (hop ▸ hr) hplace).trans (Block.enable_of_blocked _ hblocked)
  · intro q c s hc hw hfree m c1
    have hgives {k : Block → Cmd → Block} (h : heldEnable c.opcode = some k) : Gives (.deferredPerform q) s (k m c1) :=
      gives_of_commit rfl (deferredPerformEffect_of_free hc hw hfree h)
    exact ⟨fun hop => hgives (by rw [hop]; rfl), fun hop => hgives (by rw [hop]; rfl), fun hop => hgives (by rw [hop]; rfl),
      fun hop => hgives (by rw [hop]; rfl), fun hop => hgives (by rw [hop]; rfl)⟩
  · intro idx x s hx
    exact ⟨fun hbare => gives_of_commit rfl ((scrubEndEffect_of_scrub hx).trans (Block.whenBare_of_bare _ hbare)),
      fun hcopied => gives_of_commit rfl ((scrubEndEffect_of_scrub hx).trans (Block.whenBare_of_copied _ hcopied))⟩

end Sys2Proof.Machine

/-! SUPPORT. The commands of a tenant's admin queue (Tables 12.9 and 12.10, R289, R295, R309 to R312): contexts and their teardown, queues, and
resources. -/
namespace Sys2Proof.Machine

/- Contexts -/

section
variable {m : Block} {c : Cmd}

/-- A context that exists is not created again. -/
theorem Block.contextCreatePerform_of_present {x : Context} (h : m.context? c.q.tenant (field (c.p 0) 7 0) = some x) :
    m.contextCreatePerform c = m.complete c.q 8 0 := by
  simp only [Block.contextCreatePerform, h, Option.isSome_some, Bool.true_or, if_true]

/-- The context of a CONTEXT_CREATE without windows (R295). -/
def Cmd.windowlessContext (c : Cmd) : Context :=
  { tenant := c.q.tenant, ctx := field (c.p 0) 7 0, poolBase := field (c.p 1) 31 16, poolSize := 0, cmBase := 0, cmSize := 0
    hitches := field (c.p 0) 26 16 }

/-- A context's place is taken by a new context. -/
def Block.putContext (m : Block) (x : Context) : Block :=
  { m with cmd.contexts := (m.cmd.contexts.filter fun (y : Context) => !(y.tenant == x.tenant && y.ctx == x.ctx)) ++ [x] }

/-- One without windows lies over nothing: it is created while the module has room and no host holds a copy of its hitches (R112, R152, R287). -/
theorem Block.contextCreatePerform_of_windowless (hnone : m.context? c.q.tenant (field (c.p 0) 7 0) = none) (hpool : field (c.p 2) 32 16 = 0)
    (hcm : field (c.p 3) 22 12 = 0) (hroom : (m.cmd.contexts.filter (·.exists_)).length < 4096)
    (hbare : m.copiesIn c.windowlessContext.poolAt (8 * c.windowlessContext.hitches) = []) :
    m.contextCreatePerform c =
      ((m.putContext c.windowlessContext).tagHitches c.windowlessContext.poolAt c.windowlessContext.hitches).complete c.q 0 0 := by
  simp only [Block.contextCreatePerform, hnone, hpool, hcm, Option.isSome_none, bne_self_eq_false, Bool.false_and, Bool.or_self, Bool.false_eq_true,
    if_false, ge_iff_le, Nat.not_le.mpr hroom, if_true]
  exact Block.whenBare_of_bare _ hbare

end

section
variable {m : Block} {q : QueueId} {c : Cmd} (reset : Bool)

/-- A teardown of no context. -/
theorem Block.startTeardown_of_absent (h : m.context? q.tenant (field (c.p 0) 7 0) = none) : m.startTeardown q reset c = m.complete q 7 0 := by
  simp only [Block.startTeardown, h]

/-- A context that is not being torn down begins to be (R309, R311). -/
theorem Block.startTeardown_of_present {x : Context} (h : m.context? q.tenant (field (c.p 0) 7 0) = some x) (ht : x.tear = none) :
    m.startTeardown q reset c = (m.setWait q .teardown).beginTeardown q.tenant x.ctx (some q) reset := by
  simp only [Block.startTeardown, h, ht, Option.isSome_none, Bool.false_eq_true, if_false]

end

section
variable {m : Block} {t ctx : Nat} {x : Context} {d : Teardown} (hx : m.context? t ctx = some x) (hd : x.tear = some d)
include hx hd

/-- A teardown ends once nothing of the context is outstanding, no host holds a copy of its hitches, and no purge runs (Table 12.10). -/
theorem teardownDrainEndEffect_of_drained (hout : m.outstanding t ctx = 0) (hp : d.purging = false) (hbare : m.copiesIn x.poolAt (8 * x.hitches) = []) :
    teardownDrainEndEffect t ctx m = m.finishTeardown x d 0 := by
  simp only [teardownDrainEndEffect, hx, hd, hout, hp, Bool.not_false, and_self, if_true]
  exact Block.whenBare_of_bare _ hbare

/-- After 100 ms the purge is ordered (R310). -/
theorem teardownDrainTimeoutEffect_of_late (hout : m.outstanding t ctx ≠ 0) (hp : d.purging = false) (hlate : d.since + 2500000 ≤ m.time) :
    teardownDrainTimeoutEffect t ctx m =
      m.modContext t ctx fun y => { y with tear := some { d with purging := true, purged := m.outstanding t ctx } } := by
  simp only [teardownDrainTimeoutEffect, hx, hd, hout, hp, Nat.not_lt.mpr hlate, Bool.false_eq_true, or_self, if_false]

end

/-- Whether an unacknowledged burst is a context's. -/
def TxBurst.ofContext (t ctx : Nat) (u : TxBurst) : Bool := u.burst.tenant == t && u.burst.ctx == ctx

/-- What a purge tells a pair's other node: the next burst number to expect, in a transaction for the context's first burst (R351 KIND 8). -/
def TxPair.purgeNote (t ctx : Nat) (p : TxPair) : Option Burst :=
  (p.unacked.find? (TxBurst.ofContext t ctx)).map fun u =>
    { u.burst with kind := 8, seq := ((p.unacked.find? fun v => !TxBurst.ofContext t ctx v).map (·.burst.seq)).getD p.nextSeq, data := [], mask := [] }

/-- The block without a context's unacknowledged bursts, reads, held writes and collective segments (R310). -/
def Block.purged (m : Block) (t ctx : Nat) : Block :=
  { m with
    cho.hostWrites := m.cho.hostWrites.filter fun w => w.owner != some (t, ctx)
    fab.tx := m.fab.tx.map fun (p : TxPair) => { p with unacked := p.unacked.filter fun u => !TxBurst.ofContext t ctx u }
    fab.reads := m.fab.reads.filter fun r => !(r.tenant == t && r.ctx == ctx)
    eng.collOut := m.eng.collOut.filter fun o => !(o.tenant == t && o.ctx == ctx)
    fab.fabOut := m.fab.fabOut ++ m.fab.tx.filterMap (TxPair.purgeNote t ctx) }

/-- The end of a purge: its entries are counted, and the teardown is complete (Table 12.10). -/
theorem purgeEndEffect_of_purging {m : Block} {t ctx : Nat} {x : Context} {d : Teardown} (hx : m.context? t ctx = some x) (hd : x.tear = some d)
    (hp : d.purging = true) (hbare : m.copiesIn x.poolAt (8 * x.hitches) = []) :
    purgeEndEffect t ctx m = ((m.purged t ctx).addFld Reg.cmdPurged 63 0 d.purged).finishTeardown x d d.purged := by
  have hnote : m.fab.tx.filterMap (fun p => match p.unacked.filter (TxBurst.ofContext t ctx) with
      | [] => none
      | u :: _ => some { u.burst with
          kind := 8, seq := ((p.unacked.filter fun v => !TxBurst.ofContext t ctx v).head?.map (·.burst.seq)).getD p.nextSeq, data := [], mask := [] }) =
      m.fab.tx.filterMap (TxPair.purgeNote t ctx) := by
    refine congrArg (List.filterMap · m.fab.tx) (funext fun p => ?_)
    rw [TxPair.purgeNote, ← List.head?_filter, ← List.head?_filter]
    cases p.unacked.filter (TxBurst.ofContext t ctx) <;> rfl
  simp only [purgeEndEffect, hx, hd, hp, Bool.not_true, Bool.false_eq_true, if_false]
  refine (Block.whenBare_of_bare _ (by exact hbare)).trans ?_
  rw [Block.purged, ← hnote]
  rfl

/- Queues -/

/-- Identity of the queue that QUEUE_CREATE names. -/
def Cmd.createdId (c : Cmd) (q : QueueId) : QueueId := ⟨q.tenant, field (c.p 2) 47 40, field (c.p 2) 39 36⟩

/-- Starvation time of a queue: the class's own where none is given, and at least 1 ms (R303). -/
def Cmd.starveTime (c : Cmd) : Nat :=
  if field (c.p 3) 39 0 = 0 then (if field (c.p 2) 51 50 = 2 then 2500000 else 25000000) else max (field (c.p 3) 39 0) 25000

/-- The queue of QUEUE_CREATE. -/
def Cmd.createdQueue (c : Cmd) (q : QueueId) : Queue :=
  { id := c.createdId q, sqBase := (c.p 0).toNat, cqBase := (c.p 1).toNat, log2Sq := field (c.p 2) 59 56, log2Cq := field (c.p 2) 55 52
    cls := field (c.p 2) 51 50, irqEn := bit (c.p 2) 49, starve := c.starveTime }

/-- Whether a ring of `n` bytes stands in ranges of this module's memory that grant the tenant both accesses (R289, R294). -/
def Block.RingInRange (m : Block) (t a n : Nat) : Prop :=
  m.remoteNode a = none ∧ a < 2 ^ 60 ∧ m.rangeOk t (localPart a) n false false = true ∧ m.rangeOk t (localPart a) n true false = true

/-- Whether both rings of a QUEUE_CREATE do. -/
def Block.RingsInRange (m : Block) (q : QueueId) (c : Cmd) : Prop :=
  m.RingInRange q.tenant (c.p 0).toNat (64 * 2 ^ field (c.p 2) 59 56) ∧ m.RingInRange q.tenant (c.p 1).toNat (32 * 2 ^ field (c.p 2) 55 52)

/-- A ring in range, as QUEUE_CREATE tests it. -/
def Block.ringTest (m : Block) (t a n : Nat) : Bool :=
  (m.remoteNode a).isNone && decide (a < 2 ^ 60) && m.rangeOk t (localPart a) n false false && m.rangeOk t (localPart a) n true false

/-- The test of QUEUE_CREATE finds rings that are out of range. -/
theorem Block.not_ringsInRange_iff {m : Block} {q : QueueId} {c : Cmd} :
    (!m.ringTest q.tenant (c.p 0).toNat (64 * 2 ^ field (c.p 2) 59 56) || !m.ringTest q.tenant (c.p 1).toNat (32 * 2 ^ field (c.p 2) 55 52)) = true ↔
      ¬ m.RingsInRange q c := by
  have htest (a n : Nat) : m.ringTest q.tenant a n = true ↔ m.RingInRange q.tenant a n := by
    simp only [Block.ringTest, Block.RingInRange, Bool.and_eq_true, Option.isNone_iff_eq_none, decide_eq_true_eq, and_assoc]
  rw [← Bool.not_and, Bool.not_eq_true', ← Bool.not_eq_true, Bool.and_eq_true, htest, htest, Block.RingsInRange]

section
variable {m : Block} {q : QueueId} {c : Cmd} (hr : m.runs q 0x23 c = true)
include hr

/-- QUEUE_CREATE in no context. -/
theorem queueCreateEffect_of_contextless (h : m.context? (c.createdId q).tenant (c.createdId q).ctx = none) :
    queueCreateEffect q m = m.complete q 7 0 := by
  simp only [queueCreateEffect, m.onCommand_of_runs q 0x23 c _ hr]
  exact if_pos (Option.isNone_iff_eq_none.mpr h)

variable (hx : (m.context? (c.createdId q).tenant (c.createdId q).ctx).isSome)
include hx

/-- QUEUE_CREATE with rings out of range. -/
theorem queueCreateEffect_of_misplaced (h : ¬ m.RingsInRange q c) : queueCreateEffect q m = m.complete q 2 0 := by
  simp only [queueCreateEffect, m.onCommand_of_runs q 0x23 c _ hr]
  exact (if_neg (ne_true_of_eq_false (Option.isNone_eq_false_iff.mpr hx))).trans (if_pos (Block.not_ringsInRange_iff.mpr h))

/-- QUEUE_CREATE with rings in range is a conflict where the queue exists, and else creates it (R289). -/
theorem queueCreateEffect_of_placed (h : m.RingsInRange q c) : queueCreateEffect q m =
    if (m.queue? (c.createdId q)).isSome then m.complete q 8 0 else (m.addQueue (c.createdQueue q)).complete q 0 0 := by
  simp only [queueCreateEffect, m.onCommand_of_runs q 0x23 c _ hr]
  exact (if_neg (ne_true_of_eq_false (Option.isNone_eq_false_iff.mpr hx))).trans (if_neg fun h' => Block.not_ringsInRange_iff.mp h' h)

end

/-- Identity of the queue that QUEUE_DESTROY names. -/
def Cmd.destroyedId (c : Cmd) (q : QueueId) : QueueId := ⟨q.tenant, field (c.p 0) 7 0, field (c.p 0) 11 8⟩

/-- A queue's fetched packets that have not started complete ABORTED. -/
def Block.abortFetched (m : Block) (id : QueueId) : Block :=
  (m.cmd.cmds.filter fun y => y.q == id).foldl (fun m y => ({ m with cmd.cmds := m.cmd.cmds.erase y } : Block).refusePacket y 0xA 0) m

/-- A queue is gone. -/
def Block.dropQueue (m : Block) (id : QueueId) : Block := { m with cmd.queues := m.cmd.queues.filter fun (y : Queue) => y.id != id }

section
variable {m : Block} {q : QueueId} {c : Cmd} {x : Queue} (hr : m.runs q 0x24 c = true) (hx : m.queue? (c.destroyedId q) = some x)
  (hwork : isAdmin (c.destroyedId q) = false)
include hr hx hwork

/-- QUEUE_DESTROY waits for the packet that runs; then those that have not started end ABORTED, and the queue goes (Table 12.9). -/
theorem queueDestroyEffect_of_work : queueDestroyEffect q m =
    if (m.running (c.destroyedId q)).isSome then (m.modQueue (c.destroyedId q) fun y => { y with destroyBy := some q }).setWait q .unit
    else ((Block.abortPackets (c.destroyedId q) (2 ^ x.log2Sq + x.waiting.length) (m.abortFetched (c.destroyedId q))).dropQueue
      (c.destroyedId q)).complete q 0 0 := by
  obtain ⟨hc, hop, hw⟩ := m.running_of_runs q 0x24 c hr
  unfold Cmd.destroyedId at hx hwork
  simp only [queueDestroyEffect, hc, hop, hw, hx, hwork, ne_eq, not_true_eq_false, beq_self_eq_true, Bool.true_or, Bool.not_true,
    Bool.false_eq_true, or_self, if_false]
  rfl

end

/- Resources -/

/-- The OWNER register that a RESOURCE_ASSIGN or RESOURCE_RELEASE names. -/
def Cmd.resourceReg (c : Cmd) : Nat := resourceOwner (field (c.p 0) 63 60) (field (c.p 0) 51 40) (field (c.p 0) 7 0)

section
variable {m : Block} {c : Cmd}

/-- A resource for no context. -/
theorem Block.resourceAssignPerform_of_contextless (h : m.context? c.q.tenant (field (c.p 1) 7 0) = none) :
    m.resourceAssignPerform c = m.complete c.q 7 0 := by
  simp only [Block.resourceAssignPerform, h]

variable (hx : (m.context? c.q.tenant (field (c.p 1) 7 0)).isSome)
include hx

/-- A resource that has an owner. -/
theorem Block.resourceAssignPerform_of_owned (h : m.fld c.resourceReg 63 63 = 1) : m.resourceAssignPerform c = m.complete c.q 8 0 := by
  obtain ⟨x, hx⟩ := Option.isSome_iff_exists.mp hx
  simp only [Block.resourceAssignPerform, hx]
  exact if_pos h

/-- A DMA channel without one is cleared and the context's (R120, R295). -/
theorem Block.resourceAssignPerform_of_channel (h : m.fld c.resourceReg 63 63 = 0) (hkind : field (c.p 0) 63 60 = 0) : m.resourceAssignPerform c =
    ((m.clearResource 0 (field (c.p 0) 51 40) (field (c.p 0) 7 0)).setReg c.resourceReg
      (putBit (putField (putField 0 12 8 c.q.tenant) 7 0 (field (c.p 1) 7 0)) 63 true)).complete c.q 0 0 := by
  obtain ⟨x, hx⟩ := Option.isSome_iff_exists.mp hx
  rw [Cmd.resourceReg, hkind] at h ⊢
  simp only [Block.resourceAssignPerform, hx, hkind, h, zero_ne_one, if_false, OfNat.zero_ne_ofNat]

end

/-- RESOURCE_RELEASE of a channel or ring: the context's own waits until it is idle, and is then cleared and free (Table 12.9). -/
theorem resourceReleaseEffect_of_runs {m : Block} {q : QueueId} {c : Cmd} (hr : m.runs q 0x26 c = true) (hkind : field (c.p 0) 63 60 ≠ 4) :
    resourceReleaseEffect q m =
      if !m.ownedBy c.resourceReg q.tenant (field (c.p 1) 7 0) then m.complete q 7 0
      else if !m.resourceIdle (field (c.p 0) 63 60) (field (c.p 0) 51 40) (field (c.p 0) 7 0) then m.setWait q .unit
      else ((m.clearResource (field (c.p 0) 63 60) (field (c.p 0) 51 40) (field (c.p 0) 7 0)).setReg c.resourceReg 0).complete q 0 0 := by
  obtain ⟨hc, hop, hw⟩ := m.running_of_runs q 0x26 c hr
  simp only [resourceReleaseEffect, hc, hop, hw, hkind, ne_eq, not_true_eq_false, beq_self_eq_true, Bool.true_or, Bool.not_true,
    Bool.false_eq_true, or_self, if_false]
  rfl

/-- Settles O39: a context, a queue and a resource by whether they are there, a teardown by what is outstanding, a release by the owner's work. -/
theorem contextCommands : Obligations.ContextCommands := by
  refine ⟨?_, ?_, ?_, ?_, ?_, ?_, ?_, ?_, ?_, ?_⟩
  · intro q c x s hfreely hx hq
    obtain ⟨hr, hfree⟩ := Block.runs_of_freely hfreely
    subst hq
    exact gives_of_commit rfl ((s.m.onCommand_of_runs c.q 0x20 c _ hr).trans ((s.m.enable_of_free c _ hfree).trans
      (Block.contextCreatePerform_of_present hx)))
  · intro q c s hfreely hq id x hnone hpool hcm hroom hbare
    obtain ⟨hr, hfree⟩ := Block.runs_of_freely hfreely
    subst hq
    exact gives_of_commit rfl ((s.m.onCommand_of_runs c.q 0x20 c _ hr).trans ((s.m.enable_of_free c _ hfree).trans
      (Block.contextCreatePerform_of_windowless hnone hpool hcm hroom hbare)))
  · intro q c x s hr hx ht
    exact gives_of_commit rfl ((s.m.onCommand_of_runs q 0x21 c _ hr).trans (Block.startTeardown_of_present false hx ht))
  · intro q c x s hr hx ht
    exact gives_of_commit rfl ((s.m.onCommand_of_runs q 0x22 c _ hr).trans (Block.startTeardown_of_present true hx ht))
  · intro q c s hnone
    exact ⟨fun hr => gives_of_commit rfl ((s.m.onCommand_of_runs q 0x21 c _ hr).trans (Block.startTeardown_of_absent false hnone)),
      fun hr => gives_of_commit rfl ((s.m.onCommand_of_runs q 0x22 c _ hr).trans (Block.startTeardown_of_absent true hnone))⟩
  · intro t ctx x d s hx hd
    exact ⟨fun hout hp hbare => gives_of_commit rfl (teardownDrainEndEffect_of_drained hx hd hout hp hbare),
      fun hout hp hlate => gives_of_commit rfl (teardownDrainTimeoutEffect_of_late hx hd hout hp hlate),
      fun hp hbare => gives_of_commit rfl (purgeEndEffect_of_purging hx hd hp hbare)⟩
  · intro q c s hr id sq cq inRange new
    have hplaced {m' : Block} (hx : (s.m.context? id.tenant id.ctx).isSome) (h1 : inRange (c.p 0).toNat (64 * 2 ^ sq))
        (h2 : inRange (c.p 1).toNat (32 * 2 ^ cq)) (h : (if (s.m.queue? id).isSome then s.m.complete q 8 0 else
          (s.m.addQueue (c.createdQueue q)).complete q 0 0) = m') : Gives (.queueCreate q) s m' :=
      gives_of_commit rfl ((queueCreateEffect_of_placed hr hx ⟨h1, h2⟩).trans h)
    refine ⟨fun hnone => gives_of_commit rfl (queueCreateEffect_of_contextless hr hnone), fun hx h1 h2 => ⟨fun hold => hplaced hx h1 h2 (if_pos hold),
      fun hnew hst => hplaced hx h1 h2 ?_, fun hnew hst => hplaced hx h1 h2 ?_⟩,
      fun hx h => gives_of_commit rfl (queueCreateEffect_of_misplaced hr hx h)⟩
    all_goals
      rw [hnew, Option.isSome_none, if_neg Bool.false_ne_true, Cmd.createdQueue, Cmd.starveTime]
      simp only [hst, if_true, if_false]
      rfl
  · intro q c x s hr id hx hwork
    have hdestroy := queueDestroyEffect_of_work hr hx hwork
    exact ⟨fun h => gives_of_commit rfl (hdestroy.trans (if_pos h)),
      fun h => gives_of_commit rfl (hdestroy.trans (if_neg (by rw [show s.m.running (c.destroyedId q) = none from h]; exact Bool.false_ne_true)))⟩
  · intro q c s hfreely kind unit idx ctx owner
    obtain ⟨hr, hfree⟩ := Block.runs_of_freely hfreely
    obtain rfl := Block.q_of_runs hr
    have hgives {m' : Block} (h : s.m.resourceAssignPerform c = m') : Gives (.resourceAssign c.q) s m' :=
      gives_of_commit rfl ((s.m.onCommand_of_runs c.q 0x25 c _ hr).trans ((s.m.enable_of_free c _ hfree).trans h))
    exact ⟨fun h => hgives (Block.resourceAssignPerform_of_contextless h), fun hx h => hgives (Block.resourceAssignPerform_of_owned hx h),
      fun hx h hkind => hgives (Block.resourceAssignPerform_of_channel hx h hkind)⟩
  · intro q c s hr kind unit idx owner hkind
    have hgives {m' : Block} (h : resourceReleaseEffect q s.m = m') : Gives (.resourceRelease q) s m' := gives_of_commit rfl h
    have hrelease := resourceReleaseEffect_of_runs hr hkind
    refine ⟨fun h => hgives (hrelease.trans (if_pos ?_)), fun h hbusy => hgives (hrelease.trans ((if_neg ?_).trans (if_pos ?_))),
      fun h hidle => hgives (hrelease.trans ((if_neg ?_).trans (if_neg ?_)))⟩
    · exact congrArg not h
    · exact ne_true_of_eq_false (congrArg not h)
    · exact congrArg not hbusy
    · exact ne_true_of_eq_false (congrArg not h)
    · exact ne_true_of_eq_false (congrArg not hidle)

end Sys2Proof.Machine

/-! SUPPORT. MAILBOX_GO, the I3C port, and the answer to a mailbox request (R313 to R315, R381, Table 12.12). -/
namespace Sys2Proof.Machine

/- Mailboxes -/

/-- GO by a requester that may use the mailbox: it starts a request and asks for M0, and sets only OVERRUN while one is in progress (R314,
R430). -/
theorem mailboxGoEffect_of_open {m : Block} {r : Requester} {k : Nat} (hk : k < 64) (hopen : m.mailboxOpen r k = true) : mailboxGoEffect r k m =
    if m.cho.mbBusy.contains k then m.setFld (Reg.cmdMbCtl k) 2 2 1
    else ({ m with cho.mbBusy := insertNat m.cho.mbBusy k } : Block).askWake := by
  refine if_neg ?_
  rw [hopen]
  exact not_or.mpr ⟨Nat.not_le.mpr hk, Bool.false_ne_true⟩

/- The I3C port -/

/-- A target that runs does what a command asks. -/
theorem Block.ccc_of_runs {m : Block} (f : Block → Block) (h : m.i3cRuns = true) : m.ccc f = f m := if_pos h

/-- One that does not run does nothing. -/
theorem Block.ccc_of_off {m : Block} (f : Block → Block) (h : m.i3cRuns = false) : m.ccc f = m := if_neg (ne_true_of_eq_false h)

/-- A slice has the length asked for. -/
@[simp] theorem length_slice (bs : List Byte) (off n : Nat) : (slice bs off n).length = n := by
  simp only [slice, List.length_append, List.length_take, List.length_drop, List.length_replicate]
  omega

/-- The bits of a mask are those listed. -/
theorem testBit_maskOf (l : List Nat) (i : Nat) : (maskOf l).testBit i = decide (i ∈ l) := by
  have hfold (a : Nat) : (l.foldl (fun m j => m ||| (1 <<< j)) a).testBit i = (a.testBit i || decide (i ∈ l)) := by
    induction l generalizing a with
    | nil => simp
    | cons j l ih =>
      rw [List.foldl_cons, ih, Nat.testBit_or, Nat.one_shiftLeft, Nat.testBit_two_pow, Bool.or_assoc, ← Bool.decide_or]
      simp only [List.mem_cons, eq_comm]
  rw [maskOf, hfold, Nat.zero_testBit, Bool.false_or]

/-- A write of ones clears those bits among the event bits (R381). -/
theorem testBit_clearedEvents (events bits : Nat) {i : Nat} (hi : i < 16) :
    (maskOf ((List.range 16).filter fun i => events.testBit i && !bits.testBit i)).testBit i = (events.testBit i && !bits.testBit i) := by
  rw [testBit_maskOf]
  simp only [List.mem_filter, List.mem_range, hi, true_and, Bool.decide_eq_true]

/-- A read of the port returns one string of bytes, of the length of its command; a free draw may go with it (log entry 10). -/
theorem exec_i3cRead {f : Instr} {s : State} (hrun : s.m.i3cRuns = true) (hf : f = .getpid ∨ f = .getbcr ∨ f = .getdcr ∨ f = .getstatus) :
    ∃ (b : List Byte) (k : Nat), exec f s = s.commit (({ s.m with free := k } : Block).i3cData b) ∧ (f = .getpid → b.length = 6) ∧
      (f = .getbcr ∨ f = .getdcr → b.length = 1) ∧ (f = .getstatus → b.length = 2) := by
  rcases hf with rfl | rfl | rfl | rfl
  · exact ⟨(leBytes 6 Config.i3cPid).reverse, s.m.free, congrArg s.commit (Block.ccc_of_runs _ hrun), by simp, by simp, by simp⟩
  · exact ⟨[Config.i3cBcr], s.m.free, congrArg s.commit (Block.ccc_of_runs _ hrun), by simp, by simp, by simp⟩
  · exact ⟨[Config.i3cDcr], s.m.free, congrArg s.commit (Block.ccc_of_runs _ hrun), by simp, by simp, by simp⟩
  · exact ⟨slice (s.m.drawBytes 2).1 0 2, s.m.free + 1, congrArg s.commit (Block.ccc_of_runs _ hrun), by simp, by simp, by simp⟩

/- The answer to a mailbox request -/

/-- An interrupt message leaves the mailbox buffers. -/
@[simp] theorem Block.interrupt_mbuf (m : Block) (t msg : Nat) : (m.interrupt t msg).mbuf = m.mbuf := by
  unfold Block.interrupt
  extract_lets
  split <;> rfl

/-- It leaves the requests in progress. -/
@[simp] theorem Block.interrupt_mbBusy (m : Block) (t msg : Nat) : (m.interrupt t msg).cho.mbBusy = m.cho.mbBusy := by
  unfold Block.interrupt
  extract_lets
  split <;> rfl

/-- Of the registers it writes CHO_IRQ_PEND alone (R375). -/
theorem Block.reg_interrupt {m : Block} {t r : Nat} (msg : Nat) (h : r ≠ Reg.choIrqPend (m.hostPort t)) : (m.interrupt t msg).reg r = m.reg r := by
  unfold Block.interrupt
  extract_lets
  split
  · rfl
  · exact Block.reg_setReg_ne _ _ _ _ h

/-- Two runs of bytes read as one. -/
theorem Memory.readN_add (m : Memory) (a n k : Nat) : m.readN a (n + k) = m.readN a n ++ m.readN (a + n) k := by
  rw [Memory.readN_eq_map, Memory.readN_eq_map, Memory.readN_eq_map, List.range_add, List.map_append, List.map_map]
  simp only [Function.comp_def, Nat.add_assoc]

/-- Two strings written one after the other read back. -/
theorem Memory.readN_writeN_append {m : Memory} (a : Nat) (bs cs : List Byte) (h : m.wf) :
    (m.writeN a (bs ++ cs)).readN a bs.length = bs ∧ (m.writeN a (bs ++ cs)).readN (a + bs.length) cs.length = cs := by
  have hboth := Memory.readN_writeN (bs ++ cs) m a h
  rw [List.length_append, Memory.readN_add] at hboth
  exact List.append_inj hboth (by rw [Memory.readN_eq_map, List.length_map, List.length_range])

/-- The header of an answer of format 3.x (Table 12.12). -/
def answerHeader (op len seq tenant status : Nat) : List Byte :=
  [3, 0] ++ leBytes 2 op ++ leBytes 2 len ++ leBytes 2 seq ++ [BitVec.ofNat 8 tenant, 1] ++ leBytes 2 status ++ [0, 0, 0, 0]

/-- An answer of format 3.x is its header and its body. -/
theorem MgmtReq.answer_of_format3 {r : MgmtReq} (tenant status : Nat) (body : List Byte) (h : r.major = 3) :
    r.answer tenant status body = answerHeader r.opcode body.length r.seq tenant status ++ body := by
  rw [MgmtReq.answer, h]
  rfl

/-- A number below 2^16 is spelt by two bytes. -/
theorem leNat_leBytes_two {v : Nat} (h : v < 2 ^ 16) : leNat (leBytes 2 v) = v := by
  rw [leNat_leBytes, Nat.mod_eq_of_lt h]

/-- The fields of the header. -/
theorem answerHeader_fields {op len seq tenant status : Nat} (hop : op < 2 ^ 16) (hlen : len < 2 ^ 16) (hseq : seq < 2 ^ 16) (ht : tenant < 2 ^ 8)
    (hst : status < 2 ^ 16) : leAt (answerHeader op len seq tenant status) 0 2 = 3 ∧ leAt (answerHeader op len seq tenant status) 2 2 = op ∧
      leAt (answerHeader op len seq tenant status) 4 2 = len ∧ leAt (answerHeader op len seq tenant status) 6 2 = seq ∧
      leAt (answerHeader op len seq tenant status) 8 1 = tenant ∧ leAt (answerHeader op len seq tenant status) 9 1 = 1 ∧
      leAt (answerHeader op len seq tenant status) 10 2 = status ∧ leAt (answerHeader op len seq tenant status) 12 4 = 0 := by
  refine ⟨?_, leNat_leBytes_two hop, leNat_leBytes_two hlen, leNat_leBytes_two hseq, ?_, ?_, leNat_leBytes_two hst, ?_⟩
  · show leNat [3, 0] = 3
    decide
  · show leNat (leBytes 1 tenant) = tenant
    rw [leNat_leBytes, Nat.mod_eq_of_lt ht]
  · show leNat [1] = 1
    decide
  · show leNat [0, 0, 0, 0] = 0
    decide

section
variable {m : Block} {r : MgmtReq} {k : Nat} (status : Nat) (body : List Byte) (hport : r.port = .mailbox k)
include hport

/-- The block that an answer to a mailbox request leaves, up to its interrupt: the bytes in the response half, the request over, DONE set. -/
theorem Block.respond_of_mailbox : m.respond r status body =
    ((({ m with
      mbuf := m.mbuf.writeN (mailboxKey k + 0x1000) (r.answer (m.fld (Reg.cmdMbCtl k) 60 56) status body)
      cho.mbBusy := m.cho.mbBusy.filter (· != k) } : Block).setFld (Reg.cmdMbCtl k) 1 1 1).interrupt (m.fld (Reg.cmdMbCtl k) 60 56)
        (irqWord 1 0 0 0 k)) := by
  unfold Block.respond
  rw [hport]
  rfl

/-- Its response half. -/
theorem Block.respond_mbuf : (m.respond r status body).mbuf =
    m.mbuf.writeN (mailboxKey k + 0x1000) (r.answer (m.fld (Reg.cmdMbCtl k) 60 56) status body) := by
  rw [Block.respond_of_mailbox status body hport, Block.interrupt_mbuf]
  rfl

/-- DONE is set and the request is over (R315). -/
theorem Block.respond_done (hk : k < 64) : (m.respond r status body).fld (Reg.cmdMbCtl k) 1 1 = 1 ∧
    (m.respond r status body).cho.mbBusy = m.cho.mbBusy.filter (· != k) := by
  rw [Block.respond_of_mailbox status body hport, Block.interrupt_mbBusy, Block.fld, Block.reg_interrupt _ (by simp only [Reg.cmdMbCtl, Reg.choIrqPend]; omega)]
  exact ⟨Block.fld_setFld_self _ _ _ _ _ (by decide), rfl⟩

end

/-- Settles O50: MAILBOX_GO by whether a request is in progress, the port's commands by whether its target runs, and the answer's bytes by the
laws of memory. -/
theorem mailboxAndI3C : Obligations.MailboxAndI3C := by
  refine ⟨⟨?_, ?_, ?_⟩, ?_⟩
  · intro p t k s hp ht hk hopen
    have hgives {m' : Block} (h : mailboxGoEffect (.host p t) k s.m = m') : Gives (.mailboxGo (.host p t) k) s m' :=
      gives_of_commit rfl ((s.m.byHost_of_ok p t _ hp ht).trans h)
    have hgo := mailboxGoEffect_of_open hk hopen
    refine ⟨fun hbusy => (hgives (hgo.trans (if_pos hbusy))).completes ⟨?_, ?_⟩, fun hidle => hgives (hgo.trans (if_neg (ne_true_of_eq_false hidle)))⟩
    · exact Block.fld_setFld_self _ _ _ _ _ (by decide)
    · exact (OnlyRegs.setReg s.m _ (.head _)).trans (OnlyRegs.settle _ _)
  · intro s hrun
    have hgives {c : Instr} {f : Block → Block} {m' : Block} (hc : exec c s = s.commit (s.m.ccc f)) (h : f s.m = m') : Gives c s m' :=
      gives_of_commit hc ((Block.ccc_of_runs f hrun).trans h)
    refine ⟨fun a ha hnone => hgives rfl (if_pos ⟨Option.isNone_iff_eq_none.mpr hnone, ha⟩),
      fun hnone => hgives rfl (if_pos (Option.isNone_iff_eq_none.mpr hnone)), hgives rfl rfl, fun f hf => ?_,
      fun k hk => ⟨hgives rfl (if_pos hk), hgives rfl (if_pos hk)⟩,
      fun k hk => ⟨hgives rfl (if_neg (ne_true_of_eq_false hk)), hgives rfl (if_neg (ne_true_of_eq_false hk))⟩, fun bits => ?_⟩
    · obtain ⟨b, k, hexec, hlengths⟩ := exec_i3cRead hrun hf
      exact completes_of_commit hexec ⟨⟨b, rfl, hlengths⟩, OnlyRegs.settle [] _⟩
    · exact (hgives (c := .i3cEventClear bits) rfl rfl).completes
        ⟨fun i hi => testBit_clearedEvents s.m.cho.i3cEvents bits hi, OnlyRegs.settle [] _⟩
  · intro c a k s hoff hc
    simp only [List.mem_cons, List.not_mem_nil, or_false] at hc
    rcases hc with rfl | rfl | rfl | rfl | rfl | rfl | rfl | rfl | rfl | rfl <;> exact gives_of_commit rfl (Block.ccc_of_off _ hoff)
  · intro m k status r body hport hmajor hop hseq hst hlen hwf hk t m' h
    have ht : t < 2 ^ 8 := Nat.lt_of_lt_of_le (Nat.mod_lt _ (by decide)) (by decide : 2 ^ (60 + 1 - 56) ≤ 2 ^ 8)
    have hmbuf : m'.mbuf = m.mbuf.writeN (mailboxKey k + 0x1000) (answerHeader r.opcode body.length r.seq t status ++ body) := by
      rw [Block.respond_mbuf status body hport, MgmtReq.answer_of_format3 _ _ _ hmajor]
    obtain ⟨hhead, hbody⟩ := Memory.readN_writeN_append (mailboxKey k + 0x1000) (answerHeader r.opcode body.length r.seq t status) body hwf
    have hh : h = answerHeader r.opcode body.length r.seq t status := (congrArg (Memory.readN · _ 16) hmbuf).trans hhead
    obtain ⟨hdone, hover⟩ := Block.respond_done (m := m) status body hport hk
    obtain ⟨h0, h2, h4, h6, h8, h9, h10, h12⟩ := answerHeader_fields hop (show body.length < 2 ^ 16 by omega) hseq ht hst
    rw [hh]
    refine ⟨hdone, hover, h0, h2, h4, h6, h8, h9, h10, h12, (congrArg (Memory.readN · _ _) hmbuf).trans hbody, fun a ha => ?_⟩
    rw [hmbuf]
    refine Memory.read_writeN_out _ _ _ _ (ha.imp_right fun h => ?_)
    rwa [List.length_append, ← Nat.add_assoc]

end Sys2Proof.Machine

/-! SUPPORT. Management requests (R314 to R317, R401, R405, R410, R473, R482): the answer of each row to the request that stands at its port. -/
namespace Sys2Proof.Machine

section
variable {m0 m : Block} {p : Port} {op : Nat} {r : MgmtReq} (h : m0.heard p op = some (m, r)) (k : Block → MgmtReq → Block)
include h

/-- A request that is heard is served by the rows of its opcode: the row that its body names acts, and the others leave it. -/
theorem Block.serve_of_heard (mine : List Byte → Bool) : m0.serve p op mine k = if mine r.body then k m r else m0 := by
  unfold Block.heard at h
  split at h
  · cases h
  · next b hb =>
    extract_lets r1 a at h
    split at h
    · next hsound =>
      simp only [Bool.and_eq_true, beq_iff_eq, decide_eq_true_eq, Bool.or_eq_true, Bool.not_eq_true'] at hsound
      obtain ⟨⟨⟨⟨⟨hlen, hans⟩, hauth⟩, hhead⟩, hpol⟩, hop⟩ := hsound
      cases h
      have hst : (if r1.2 ≠ 0 then r1.2 else if (m0.fwAnswers || m0.pwr.trip) = true then m0.policy r1.1 else 0) = 0 := by
        rw [if_neg (not_not_intro hhead)]
        rcases hpol with hrom | hpol
        · rw [hrom, if_neg Bool.false_ne_true]
        · rw [hpol, ite_self]
      simp only [Block.serve, hb]
      refine (if_neg (not_or.mpr ⟨Nat.not_lt.mpr hlen, ?_⟩)).trans ((if_neg ?_).trans ((if_neg (not_not_intro hst)).trans ?_))
      · rw [hans]
        decide
      · show ¬ (!a.1) = true
        exact ne_true_of_eq_false (congrArg not hauth)
      · exact if_congr (and_iff_right hop) rfl rfl
    · cases h

/-- The row of a request acts. -/
theorem Block.serve_of_mine {mine : List Byte → Bool} (hm : mine r.body = true) : m0.serve p op mine k = k m r := by
  rw [Block.serve_of_heard h, if_pos hm]

end
/-- The body of a request with several rows names the row of its first byte. -/
theorem firstIs_of_first {b : List Byte} {v : Nat} (last : Nat) (h : leAt b 0 1 = v) : firstIs v last b = true := by
  rw [firstIs, beq_iff_eq.mpr h, Bool.or_true, Bool.true_or]

/-- It does not name another. -/
theorem firstIs_of_other {b : List Byte} {v last : Nat} (hb : b ≠ []) (h : leAt b 0 1 ≠ v) (hlast : leAt b 0 1 ≤ last) : firstIs v last b = false := by
  rw [firstIs, List.isEmpty_eq_false_iff.mpr hb, beq_eq_false_iff_ne.mpr h, decide_eq_false (Nat.not_lt.mpr hlast)]
  rfl

/- IDENTIFY, HEALTH, TELEMETRY, FW_STATUS -/

section
variable {m0 m : Block} {p : Port} {r : MgmtReq}

/-- IDENTIFY has no body (R317). -/
theorem identifyEffect_of_heard (h : m0.heard p 0x01 = some (m, r)) :
    identifyEffect p m0 = if restZero r.body 0 then m.respond r 0 m.capBytes else m.respond r 2 [] := Block.serve_of_mine h _ rfl

/-- TELEMETRY without a body (R317). -/
theorem telemetryEffect_of_empty (h : m0.heard p 0x03 = some (m, r)) (hb : restZero r.body 0 = true) : telemetryEffect p m0 =
    m.respond r 0 (wordBytes (([Reg.pwrState, Reg.pwrInput, Reg.pwrEnergy] ++ (List.range 8).map Reg.pwrRail ++ (List.range 16).map Reg.pwrTemp).map
      m.regValue)) :=
  (Block.serve_of_mine h _ rfl).trans (if_pos hb)

/-- FW_STATUS without a body (R401). -/
theorem fwStatusEffect_of_empty (h : m0.heard p 0x12 = some (m, r)) (hb : restZero r.body 0 = true) : fwStatusEffect p m0 =
    m.respond r 0 (wordBytes ([Reg.fwRun, Reg.fwStaged, Reg.fwAct, Reg.fwActTime, Reg.fwActEnd].map m.regValue)) :=
  (Block.serve_of_mine h _ rfl).trans (if_pos hb)

section
variable (h : m0.heard p 0x02 = some (m, r))
include h

/-- HEALTH, SECTION 0: the summary (R473). -/
theorem healthSummaryEffect_of_sound (hlen : 1 ≤ r.body.length) (hsec : leAt r.body 0 1 = 0) (hb : restZero r.body 0 = true) :
    healthSummaryEffect p m0 = m.respond r 0 (m.healthBytes (m.portTenant p)) :=
  (Block.serve_of_mine h _ (firstIs_of_first 1 hsec)).trans (if_pos ⟨hlen, hb⟩)

/-- SECTION 1 is another row's. -/
theorem healthSummaryEffect_of_section1 (hlen : 1 ≤ r.body.length) (hsec : leAt r.body 0 1 = 1) : healthSummaryEffect p m0 = m0 :=
  (Block.serve_of_heard h _ _).trans
    (if_neg (ne_true_of_eq_false (firstIs_of_other (List.ne_nil_of_length_pos hlen) (by omega) (le_of_eq hsec))))

/-- SECTION 1: records of a tenant, of which the port's tenant may ask its own, and tenant 0 every one (R446, R473). -/
theorem healthFaultRecordsEffect_of_sound (hsec : leAt r.body 0 1 = 1) (hlen : 8 ≤ r.body.length) (hn : 1 ≤ leAt r.body 5 2) (hn' : leAt r.body 5 2 ≤ 63)
    (ht : leAt r.body 7 1 < 32) (hb : restZero r.body 8 = true) : healthFaultRecordsEffect p m0 =
      if m.portTenant p ≠ 0 ∧ leAt r.body 7 1 ≠ m.portTenant p then m.respond r 3 []
      else m.respond r 0 (recordsBody (leAt r.body 1 4)
        (((m.flt.faults.filter fun f => f.tenant == leAt r.body 7 1 && decide (leAt r.body 1 4 ≤ f.seq)).take (min (leAt r.body 5 2) (recordRoom p))).map
          fun f => (f.seq, f.bytes))) := by
  refine (Block.serve_of_mine h _ (firstIs_of_first 1 hsec)).trans (if_neg ?_)
  simp only [hsec, hb, Nat.not_lt.mpr hlen, Nat.not_lt.mpr hn, gt_iff_lt, Nat.not_lt.mpr hn', ge_iff_le, Nat.not_le.mpr ht, ne_eq, not_true_eq_false,
    Bool.not_true, Bool.false_eq_true, or_self, not_false_eq_true]

end

/- Attestation -/

section
variable (h : m0.heard p 0x20 = some (m, r)) (hb : attestBodyOk r.body = true)
include h hb

/-- ATTEST OP 0: the report is being signed, and the answer waits (R482). -/
theorem attestGenerateEffect_of_sound (hop : leAt r.body 0 1 = 0) : attestGenerateEffect p m0 =
    { m with cho.reportPend := m.cho.reportPend ++ [(r, m.report (r.body.drop 16))] }.inProgress p := by
  refine (Block.serve_of_mine h _ (firstIs_of_first 2 hop)).trans (if_neg ?_)
  rw [hop, hb]
  decide

/-- ATTEST OP 1: a part of the port's report, when it has one. -/
theorem attestReadEffect_of_sound (hop : leAt r.body 0 1 = 1) : attestReadEffect p m0 =
    (m.cho.reports.find? fun e => e.1 == portKey p).elim (m.respond r 7 []) fun e => m.readPart r e.2 := by
  refine (Block.serve_of_mine h _ (firstIs_of_first 2 hop)).trans ((if_neg ?_).trans ?_)
  · rw [hop, hb]
    decide
  · cases m.cho.reports.find? fun e => e.1 == portKey p <;> rfl

/-- ATTEST OP 2: a part of the certificate chain. -/
theorem attestReadChainEffect_of_sound (hop : leAt r.body 0 1 = 2) : attestReadChainEffect p m0 = m.readPart r m.fw.chain := by
  refine (Block.serve_of_mine h _ (firstIs_of_first 2 hop)).trans (if_neg ?_)
  rw [hop, hb]
  decide

end

/-- ATTEST_SIGNED: the signed report is the port's, and OP 0 is answered with its length (R482). -/
theorem attestSignedEffect_of_pending {e : MgmtReq × List Byte} {rep : List Byte}
    (h : (m.cho.reportPend.find? fun e => portKey e.1.port == portKey p) = some e)
    (hrep : e.2 ++ slice (Config.mlDsaSign Config.identitySeed (sha3 e.2)) 0 4627 = rep) : attestSignedEffect p m =
      { m with
        cho.reportPend := m.cho.reportPend.filter fun (x : MgmtReq × List Byte) => portKey x.1.port != portKey p
        cho.reports := Tbl.put m.cho.reports (portKey p) rep }.respond e.1 0 (leBytes 4 rep.length) := by
  subst hrep
  simp only [attestSignedEffect, h]

/- RESET_MODULE -/

/-- A RESET_MODULE with its confirmation is answered and made due 10 ms later, unless a thermal trip forbids it (R410, R438, log entry 41). -/
theorem Block.resetModule_of_confirmed {cold : Bool} (h : m0.heard p 0x30 = some (m, r)) (hlen : r.body.length = 8) (hzero : leAt r.body 1 3 = 0)
    (hconfirm : leAt r.body 4 4 = 0x4D545352) (hscope : leAt r.body 0 1 = if cold then 1 else 0) : m0.resetModule p cold =
      if m.tripAllows cold (portSource p) then
        { m with cho.resetPend := m.cho.resetPend ++ [(cold, m.time + 250000, portSource p)] }.respond r 0 []
      else m.respond r 8 [] := by
  refine (Block.serve_of_mine h _ (firstIs_of_first 1 hscope)).trans ((if_neg ?_).trans ?_)
  · simp only [hscope, hlen, hzero, hconfirm, ne_eq, not_true_eq_false, or_self, not_false_eq_true]
  · cases m.tripAllows cold (portSource p) <;> rfl

/-- The oldest reset that was answered follows once it is due. -/
theorem resetDelayExpiryEffect_of_pending {cold : Bool} {due source : Nat} {rest : List (Bool × Nat × Nat)}
    (h : m.cho.resetPend = (cold, due, source) :: rest) :
    resetDelayExpiryEffect m = if m.time < due then m else { m with cho.resetPend := rest }.requestReset cold source := by
  simp only [resetDelayExpiryEffect, h]

/-- With none nothing follows. -/
theorem resetDelayExpiryEffect_of_none (h : m.cho.resetPend = []) : resetDelayExpiryEffect m = m := by
  simp only [resetDelayExpiryEffect, h]

/- HANG_READ, LOG_READ -/

section
variable (h : m0.heard p 0x40 = some (m, r)) (hlen : 8 ≤ r.body.length) (hb : restZero r.body 8 = true)
include h hlen hb

/-- HANG_READ past the last record (log entry 40). -/
theorem hangReadEffect_of_none (hnone : (m.flt.hangs.find? fun x => decide (leAt r.body 0 4 ≤ x.seq)) = none) :
    hangReadEffect p m0 = m.respond r 7 [] := by
  refine (Block.serve_of_mine h _ rfl).trans ?_
  simp only [Nat.not_lt.mpr hlen, hb, hnone, Bool.not_true, Bool.false_eq_true, or_self, if_false]

/-- HANG_READ of a record: up to 4,064 bytes from its offset (R473). -/
theorem hangReadEffect_of_record {x : HangRec} (hx : (m.flt.hangs.find? fun x => decide (leAt r.body 0 4 ≤ x.seq)) = some x)
    (hoff : leAt r.body 4 4 < x.bytes.length) : hangReadEffect p m0 =
      m.respond r 0 (leBytes 4 x.seq ++ leBytes 4 x.bytes.length ++ leBytes 4 (leAt r.body 4 4) ++ [0, 0, 0, 0] ++
        (x.bytes.drop (leAt r.body 4 4)).take 4064) := by
  refine (Block.serve_of_mine h _ rfl).trans ?_
  simp only [Nat.not_lt.mpr hlen, hb, hx, ge_iff_le, Nat.not_le.mpr hoff, Bool.not_true, Bool.false_eq_true, or_self, if_false]

end

/-- LOG_READ of 1 to 63 records (R405). -/
theorem logReadEffect_of_sound (h : m0.heard p 0x50 = some (m, r)) (hlen : 6 ≤ r.body.length) (hn : 1 ≤ leAt r.body 4 2) (hn' : leAt r.body 4 2 ≤ 63)
    (hb : restZero r.body 6 = true) : logReadEffect p m0 = m.respond r 0 (recordsBody (leAt r.body 0 4)
      (((m.fw.log.filter fun x => decide (leAt r.body 0 4 ≤ x.seq)).take (leAt r.body 4 2)).map fun x => (x.seq, x.bytes))) := by
  refine (Block.serve_of_mine h _ rfl).trans (if_neg ?_)
  simp only [hb, Nat.not_lt.mpr hlen, Nat.not_lt.mpr hn, gt_iff_lt, Nat.not_lt.mpr hn', Bool.not_true, Bool.false_eq_true, or_self, not_false_eq_true]

end

/-- The broadcast of a boot ROM that waits for an image over the network (R393). -/
def Block.bootAnswer (m : Block) : List Byte :=
  MgmtReq.answer { port := .net broadcast [], major := 2, opcode := 1, seq := 0, body := [] } 0 0 m.capBytes

/-- It goes out while no image is being staged. -/
theorem netBootBroadcastEffect_of_waiting {m : Block} (hrom : m.romTakes (.net 0 []) ≠ none) (hst : m.fw.staging = none) :
    netBootBroadcastEffect m = { m with cho.netOut := m.cho.netOut ++ [(broadcast, m.bootAnswer)], pwr.pins.mgmtOn := true } := by
  refine if_neg ?_
  rw [hst, Option.isNone_iff_eq_none]
  exact not_or.mpr ⟨hrom, Bool.false_ne_true⟩

/-- Settles O51: each row answers the request that is heard at its port, by what its body holds and by what the block has to give. -/
theorem managementRows : Obligations.ManagementRows := by
  refine ⟨?_, ?_, ?_, ?_, ?_, ?_, ?_, ?_, ?_, ?_, ?_, ?_⟩
  · intro p m r s h
    exact ⟨fun hb => gives_of_commit rfl ((identifyEffect_of_heard h).trans (if_pos hb)),
      fun hb => gives_of_commit rfl ((identifyEffect_of_heard h).trans (if_neg (ne_true_of_eq_false hb)))⟩
  · intro p m r s h hlen
    refine ⟨fun hsec hb => gives_of_commit rfl (healthSummaryEffect_of_sound h hlen hsec hb), fun hsec hlen8 hn hn' ht hb => ?_,
      fun hsec => gives_of_commit rfl (healthSummaryEffect_of_section1 h hlen hsec)⟩
    have hrecords := healthFaultRecordsEffect_of_sound h hsec hlen8 hn hn' ht hb
    exact ⟨fun hown => gives_of_commit rfl (hrecords.trans (if_neg fun hforeign => hown.elim hforeign.1 hforeign.2)),
      fun ht0 hother => gives_of_commit rfl (hrecords.trans (if_pos ⟨ht0, hother⟩))⟩
  · intro p m r s h hb
    exact gives_of_commit rfl (telemetryEffect_of_empty h hb)
  · intro p m r s h hb
    exact gives_of_commit rfl (fwStatusEffect_of_empty h hb)
  · intro p m r s h _ hb
    refine ⟨fun hop => gives_of_commit rfl (attestGenerateEffect_of_sound h hb hop), fun hop => ?_,
      fun hop => gives_of_commit rfl (attestReadChainEffect_of_sound h hb hop)⟩
    have hread := attestReadEffect_of_sound h hb hop
    exact ⟨fun e he => gives_of_commit rfl (hread.trans (congrArg (Option.elim · _ _) he)),
      fun hnone => gives_of_commit rfl (hread.trans (congrArg (Option.elim · _ _) hnone))⟩
  · intro p e s h rep
    exact gives_of_commit rfl (attestSignedEffect_of_pending h rfl)
  · intro p cold c m r s h hlen hzero hconfirm hrow
    have hgives {m' : Block} (e : (if m.tripAllows cold (portSource p) then
        { m with cho.resetPend := m.cho.resetPend ++ [(cold, m.time + 250000, portSource p)] }.respond r 0 [] else m.respond r 8 []) = m') :
        Gives c s m' := by
      rcases hrow with ⟨rfl, rfl, hscope⟩ | ⟨rfl, rfl, hscope⟩
      · exact gives_of_commit rfl ((Block.resetModule_of_confirmed (cold := false) h hlen hzero hconfirm hscope).trans e)
      · exact gives_of_commit rfl ((Block.resetModule_of_confirmed (cold := true) h hlen hzero hconfirm hscope).trans e)
    exact ⟨fun hok => hgives (if_pos hok), fun hno => hgives (if_neg (ne_true_of_eq_false hno))⟩
  · intro s h
    exact gives_of_commit rfl (resetDelayExpiryEffect_of_none h)
  · intro cold due source rest s h
    exact ⟨fun hearly => gives_of_commit rfl ((resetDelayExpiryEffect_of_pending h).trans (if_pos hearly)),
      fun hdue => gives_of_commit rfl ((resetDelayExpiryEffect_of_pending h).trans (if_neg (Nat.not_lt.mpr hdue)))⟩
  · intro p m r s h hlen hb off
    exact ⟨fun hnone => gives_of_commit rfl (hangReadEffect_of_none h hlen hb hnone),
      fun x hx hoff => gives_of_commit rfl (hangReadEffect_of_record h hlen hb hx hoff)⟩
  · intro p m r s h hlen hn hn' hb
    exact gives_of_commit rfl (logReadEffect_of_sound h hlen hn hn' hb)
  · intro s hrom hst
    have hgives : Gives .netBootBroadcast s { s.m with cho.netOut := s.m.cho.netOut ++ [(broadcast, s.m.bootAnswer)], pwr.pins.mgmtOn := true } :=
      gives_of_commit rfl (netBootBroadcastEffect_of_waiting hrom hst)
    exact hgives.completes ⟨rfl, List.length_append, OnlyRegs.settle [] _⟩

end Sys2Proof.Machine

/-! SUPPORT. A pull-up and the resumption after it (R329): registers put back from a saved list, a memory cut in two by a test on its keys and
joined again. -/
namespace Sys2Proof.Machine

/-- A saved list of registers written back, one after another. -/
def Block.putRegs (m : Block) (l : List (Nat × Word)) : Block := l.foldl (fun m e => m.setReg e.1 e.2) m

/-- Registers written back are those of the list, where no key stands twice. -/
theorem Block.reg_putRegs (l : List (Nat × Word)) (hl : (l.map (·.1)).Nodup) (m : Block) (r : Nat) :
    (m.putRegs l).reg r = ((l.find? fun e => e.1 == r).map (·.2)).getD (m.reg r) := by
  induction l generalizing m with
  | nil => rfl
  | cons e l ih =>
    obtain ⟨hnot, hrest⟩ := List.nodup_cons.mp hl
    rw [Block.putRegs, List.foldl_cons, ← Block.putRegs, ih hrest]
    by_cases he : e.1 = r
    · have hnone : (l.find? fun e => e.1 == r) = none :=
        List.find?_eq_none.mpr fun x hx => by simpa using fun hr => hnot (List.mem_map.mpr ⟨x, hx, hr.trans he.symm⟩)
      simp [hnone, he]
    · simp [he, Block.reg_setReg_ne _ _ _ _ (Ne.symm he)]

/-- Memory, buffers, poison and cores stand. -/
theorem Block.putRegs_frame (l : List (Nat × Word)) (m : Block) :
    (m.putRegs l).mem = m.mem ∧ (m.putRegs l).bufs = m.bufs ∧ (m.putRegs l).poison = m.poison ∧ (m.putRegs l).bufPoison = m.bufPoison ∧
      (m.putRegs l).cores = m.cores := by
  induction l generalizing m with
  | nil => exact ⟨rfl, rfl, rfl, rfl, rfl⟩
  | cons e l ih => exact ih (m.setReg e.1 e.2)

/-- The first entry with a key that a test selects, among those selected. -/
theorem find?_filter_key {α : Type} (p : Nat → Bool) (l : List (Nat × α)) (r : Nat) :
    (l.filter fun e => p e.1).find? (fun e => e.1 == r) = if p r then l.find? (fun e => e.1 == r) else none := by
  rw [List.find?_filter]
  split
  · rename_i hr
    congr 1
    funext e
    by_cases he : e.1 = r <;> simp [he, hr]
  · rename_i hr
    exact List.find?_eq_none.mpr fun e _ => by simp; exact fun he hr' => hr (hr' ▸ he)

/-- A register that a reset of some registers leaves alone. -/
theorem Block.reg_resetRegs_of_not (m : Block) (p : Nat → Bool) (r : Nat) (h : p r = false) : (m.resetRegs p).reg r = m.reg r := by
  simp [Block.reg, Block.resetRegs, find?_filter_key (fun k => !p k), h]

/-- A register that it resets. -/
theorem Block.reg_resetRegs_of_test (m : Block) (p : Nat → Bool) (r : Nat) (h : p r = true) :
    (m.resetRegs p).reg r = resetValue m.fuse.variant r := by
  simp [Block.reg, Block.resetRegs, find?_filter_key (fun k => !p k), h]

/-- A memory reads the first cell listed at an address, and 0x00 where none is. -/
theorem Memory.read_eq_find (l : Memory) (a : Nat) : l.read a = ((l.find? fun c => c.1 == a).map (·.2)).getD 0 := by
  induction l with
  | nil => rfl
  | cons c l ih => by_cases ha : c.1 = a <;> simp [Memory.read, ha, ih]

/-- The cells that a test on addresses selects: the others read 0x00. -/
theorem Memory.read_filter (p : Nat → Bool) (l : Memory) (a : Nat) : Memory.read (l.filter fun c => p c.1) a = if p a then l.read a else 0 := by
  rw [Memory.read_eq_find, Memory.read_eq_find, find?_filter_key]
  cases p a <;> rfl

/-- The cells that a test on addresses rejects, with those that it selects put behind them, read as the memory does. -/
theorem Memory.read_filter_append (p : Nat → Bool) (l : Memory) (a : Nat) :
    Memory.read ((l.filter fun c => !p c.1) ++ l.filter fun c => p c.1) a = l.read a := by
  rw [Memory.read_eq_find, Memory.read_eq_find, List.find?_append, find?_filter_key (fun k => !p k), find?_filter_key]
  cases p a <;> simp

/-- What a list holds once members of another have been inserted into it. -/
theorem mem_foldl_insertNat (ks : List Nat) {l : List Nat} {k : Nat} : k ∈ ks.foldl insertNat l ↔ k ∈ ks ∨ k ∈ l := by
  induction ks generalizing l with
  | nil => simp
  | cons a ks ih => rw [List.foldl_cons, ih, mem_insertNat, List.mem_cons]; tauto

/-- The task that a pull-up saves (R329). -/
def Block.savedBy (m : Block) (n : Nat) : SavedTask :=
  { task := (m.core n).task, slot := (m.core n).slot, lastCtx := (m.core n).lastCtx, regs := m.regs.filter fun e => taskReg n e.1
    sregs := (m.core n).sregs, loops := (m.core n).loops, calls := (m.core n).calls, codeOff := (m.core n).codeOff
    codeSize := (m.core n).codeSize, matQ := (m.core n).matQ, vecQ := (m.core n).vecQ, sfuQ := (m.core n).sfuQ, copyQ := (m.core n).copyQ
    loads := (m.core n).loads, stores := (m.core n).stores, signals := (m.core n).signals, hold := (m.core n).hold
    drainMask := (m.core n).drainMask, ordStamp := (m.core n).ordStamp, waitStart := (m.core n).waitStart, waitAddr := (m.core n).waitAddr
    met := (m.core n).met, att := (m.core n).att, bufs := m.bufs.filter fun e => inBufs n e.1, bufBad := m.bufPoison.filter (inBufs n)
    cmHeld := false, cm := [], cmBad := [] }

/-- What a pull-up leaves of the core (R329). -/
def Block.keptBy (m : Block) (n : Nat) : CoreState :=
  { lastCtx := (m.core n).lastCtx, cmCorr := (m.core n).cmCorr, cmUncorr := (m.core n).cmUncorr, hangs := (m.core n).hangs
    saved := some (m.savedBy n) }

/-- A pull-up saves the task and resets its registers. -/
theorem Block.pullUp_eq (m : Block) (n : Nat) : m.pullUp n = (m.resetRegs (taskReg n)).setCore n (m.keptBy n) := rfl

/-- The core after a pull-up. -/
@[simp] theorem Block.core_pullUp (m : Block) (n : Nat) : (m.pullUp n).core n = m.keptBy n := by
  rw [Block.pullUp_eq, Block.core_setCore_self]

/-- The registers that a pull-up saved and reset hold their values once they are written back. -/
theorem Block.reg_putRegs_pullUp (m : Block) (n : Nat) (h : (m.regs.map (·.1)).Nodup) (r : Nat) :
    (((m.pullUp n).resetRegs (taskReg n)).putRegs (m.savedBy n).regs).reg r = m.reg r := by
  have hsaved : (m.savedBy n).regs = m.regs.filter fun e => taskReg n e.1 := rfl
  rw [hsaved, Block.reg_putRegs _ ((List.filter_sublist.map _).nodup h), find?_filter_key]
  cases hr : taskReg n r with
  | false =>
    rw [if_neg Bool.false_ne_true, Block.reg_resetRegs_of_not _ _ _ hr]
    exact m.reg_resetRegs_of_not _ _ hr
  | true =>
    rw [if_pos rfl, Block.reg_resetRegs_of_test _ _ _ hr, Block.reg]
    cases m.regs.find? fun e => e.1 == r <;> rfl

section
variable {m : Block} {n : Nat} {s : SavedTask} (hctx : (m.core n).lastCtx = s.lastCtx)
include hctx

/-- A task that comes back to a core whose last context it has finds the registers that were saved. -/
theorem Block.reg_resumeTask (r : Nat) : (m.resumeTask n s).reg r = ((m.resetRegs (taskReg n)).putRegs s.regs).reg r := by
  simp only [Block.resumeTask, if_pos hctx]
  rfl

/-- Its operand buffers are those saved, and the other cores' stand. -/
theorem Block.bufs_resumeTask : (m.resumeTask n s).bufs = m.bufs.filter (fun (e : Host.Cell) => !inBufs n e.1) ++ s.bufs := by
  simp only [Block.resumeTask, if_pos hctx]
  exact congrArg (fun l : Memory => l.filter (fun (e : Host.Cell) => !inBufs n e.1) ++ s.bufs) (Block.putRegs_frame s.regs _).2.1

/-- So is their poison. -/
theorem Block.bufPoison_resumeTask : (m.resumeTask n s).bufPoison = s.bufBad.foldl insertNat (m.bufPoison.filter fun k => !inBufs n k) := by
  simp only [Block.resumeTask, if_pos hctx]
  exact congrArg (fun l : List Nat => s.bufBad.foldl insertNat (l.filter fun k => !inBufs n k)) (Block.putRegs_frame s.regs _).2.2.2.1

/-- Memory and its poison stand, where the task's window was not given away. -/
theorem Block.mem_resumeTask (hcm : s.cmHeld = false) : (m.resumeTask n s).mem = m.mem ∧ (m.resumeTask n s).poison = m.poison := by
  simp only [Block.resumeTask, if_pos hctx, hcm, Bool.false_eq_true, if_false]
  exact ⟨(Block.putRegs_frame s.regs _).1, (Block.putRegs_frame s.regs _).2.2.1⟩

/-- The other cores stand. -/
theorem Block.core_resumeTask_ne {k : Nat} (hk : k ≠ n) : (m.resumeTask n s).core k = m.core k := by
  simp only [Block.resumeTask, if_pos hctx]
  rw [Block.core_setCore_ne _ _ _ _ hk]
  exact congrArg (fun t => Tbl.getD {} t k) (Block.putRegs_frame s.regs _).2.2.2.2

end

/-- The core that a resumption right after the pull-up gives back is the core as it was. -/
theorem Block.core_resumeTask_pullUp (m : Block) (n : Nat) (h : (m.core n).saved = none) :
    ((m.pullUp n).resumeTask n (m.savedBy n)).core n = m.core n := by
  rw [Block.resumeTask, Block.core_setCore_self, Block.core_pullUp]
  have hcore : { m.core n with saved := none } = m.core n := by rw [← h]
  exact hcore

/-- Settles O36: what the pull-up saves and resets, the resumption writes back. -/
theorem pullUpThenResume : Obligations.PullUpThenResume := by
  intro m n x hnodup _ hsaved hx m'
  have hx' : x = m.savedBy n := by
    rw [Block.core_pullUp] at hx
    exact (Option.some.inj hx).symm
  subst hx'
  have hctx : ((m.pullUp n).core n).lastCtx = (m.savedBy n).lastCtx := by rw [Block.core_pullUp]; rfl
  obtain ⟨hmem, hpoison⟩ := Block.mem_resumeTask hctx rfl
  refine ⟨fun r => ?_, fun a => congrArg (Memory.read · a) hmem, fun a => ?_, fun k hk => ?_, m.core_resumeTask_pullUp n hsaved, fun k => ?_, hpoison⟩
  · rw [Block.reg_resumeTask hctx]
    exact m.reg_putRegs_pullUp n hnodup r
  · rw [Block.bufs_resumeTask hctx]
    exact Memory.read_filter_append (inBufs n) m.bufs a
  · rw [Block.core_resumeTask_ne hctx hk]
    exact m.core_setCore_ne n k _ hk
  · rw [Block.bufPoison_resumeTask hctx, mem_foldl_insertNat]
    change k ∈ m.bufPoison.filter (inBufs n) ∨ k ∈ m.bufPoison.filter (fun k => !inBufs n k) ↔ _
    cases h : inBufs n k <;> simp [h]

end Sys2Proof.Machine

/-! SUPPORT. The choice of the next queue (R302, R321): the first of the least elements of a list by a key, as a fold finds it. -/
namespace Sys2Proof.Machine

section
variable {α : Type} {key : α → Nat} {f : Option α → α → Option α}
  (hsome : ∀ y x, f (some y) x = if key x < key y then some x else some y)
include hsome

/-- A fold that keeps the least element seen, from one element on: it answers that one or a member, and none of them is less. -/
theorem foldl_least_some (l : List α) (y : α) :
    ∃ z, l.foldl f (some y) = some z ∧ (z = y ∨ z ∈ l) ∧ key z ≤ key y ∧ ∀ x ∈ l, key z ≤ key x := by
  induction l generalizing y with
  | nil => exact ⟨y, rfl, .inl rfl, le_rfl, by simp⟩
  | cons a l ih =>
    rw [List.foldl_cons, hsome]
    by_cases h : key a < key y
    · rw [if_pos h]
      obtain ⟨z, hz, hmem, hle, hall⟩ := ih a
      refine ⟨z, hz, .inr (List.mem_cons.mpr hmem), by omega, fun x hx => ?_⟩
      rcases List.mem_cons.mp hx with rfl | hx
      · exact hle
      · exact hall x hx
    · rw [if_neg h]
      obtain ⟨z, hz, hmem, hle, hall⟩ := ih y
      refine ⟨z, hz, hmem.imp_right (List.mem_cons_of_mem _), hle, fun x hx => ?_⟩
      rcases List.mem_cons.mp hx with rfl | hx
      · omega
      · exact hall x hx

variable (hnone : ∀ x, f none x = some x)
include hnone

/-- A fold over a list that is not empty answers a member that none is less than. -/
theorem foldl_least (l : List α) (h : l ≠ []) : ∃ z ∈ l, l.foldl f none = some z ∧ ∀ x ∈ l, key z ≤ key x := by
  obtain ⟨a, l, rfl⟩ := List.exists_cons_of_ne_nil h
  obtain ⟨z, hz, hmem, hle, hall⟩ := foldl_least_some hsome l a
  refine ⟨z, List.mem_cons.mpr hmem, by rw [List.foldl_cons, hnone, hz], fun x hx => ?_⟩
  rcases List.mem_cons.mp hx with rfl | hx
  · exact hle
  · exact hall x hx

/-- What it answers of any list is such a member. -/
theorem foldl_least_of_some (l : List α) {z : α} (h : l.foldl f none = some z) : z ∈ l ∧ ∀ x ∈ l, key z ≤ key x := by
  have hl : l ≠ [] := fun e => by simp [e] at h
  obtain ⟨z', hmem, hz', hall⟩ := foldl_least hsome hnone l hl
  obtain rfl : z' = z := Option.some.inj (hz'.symm.trans h)
  exact ⟨hmem, hall⟩

end

/-- The queues that firmware admits PACED packets from, each with its first waiting packet (R321). -/
def Block.pacedHeads (m : Block) : List (Queue × (Nat × Nat × Packet)) :=
  (m.cmd.queues.filter fun q => m.ctxOpen q.id.tenant q.id.ctx && q.destroyBy.isNone).filterMap fun q => q.waiting.head?.map fun w => (q, w)

/-- Which they are. -/
theorem Block.mem_pacedHeads {m : Block} {x : Queue} {w : Nat × Nat × Packet} : (x, w) ∈ m.pacedHeads ↔
    (x ∈ m.cmd.queues ∧ m.ctxOpen x.id.tenant x.id.ctx = true ∧ x.destroyBy = none) ∧ x.waiting.head? = some w := by
  simp only [Block.pacedHeads, List.mem_filterMap, List.mem_filter, Bool.and_eq_true, Option.isNone_iff_eq_none, Option.map_eq_some_iff,
    Prod.mk.injEq]
  constructor
  · rintro ⟨q, ⟨hq, hopen, hd⟩, w', hw, rfl, rfl⟩
    exact ⟨⟨hq, hopen, hd⟩, hw⟩
  · rintro ⟨⟨hq, hopen, hd⟩, hw⟩
    exact ⟨x, ⟨hq, hopen, hd⟩, w, hw, rfl, rfl⟩

/-- A waiting packet's place: its doorbell's tick, then tenant, context and queue (R321). -/
def pacedKey (x : Queue × (Nat × Nat × Packet)) : Nat := (x.2.1 * 32 + x.1.id.tenant) * 4096 + x.1.id.ctx * 16 + x.1.id.queue

/-- The packet that is admitted next comes first by that place. -/
theorem Block.nextPaced_least {m : Block} {x : Queue × (Nat × Nat × Packet)} (h : m.nextPaced = some x) :
    x ∈ m.pacedHeads ∧ ∀ y ∈ m.pacedHeads, pacedKey x ≤ pacedKey y :=
  foldl_least_of_some (fun _ _ => rfl) (fun _ => rfl) m.pacedHeads h

/-- A packet that does not come later by its place has no later doorbell, for queues that the system can name. -/
theorem tick_le_of_pacedKey_le {x y : Queue × (Nat × Nat × Packet)} (hx : y.1.id.tenant < 32 ∧ y.1.id.ctx < 256 ∧ y.1.id.queue < 16)
    (h : pacedKey x ≤ pacedKey y) : x.2.1 ≤ y.2.1 := by
  simp only [pacedKey] at h
  omega

/-- The queues of a class that can be dispatched (R302). -/
def Block.classQueues (m : Block) (k : Nat) : List Queue := m.cmd.queues.filter fun q => q.asClass == k && m.canDispatch q

/-- Which they are. -/
theorem Block.mem_classQueues {m : Block} {k : Nat} {q : Queue} :
    q ∈ m.classQueues k ↔ q ∈ m.cmd.queues ∧ q.asClass = k ∧ m.canDispatch q = true := by
  simp [Block.classQueues]

/-- The queue that comes first in the order of tenant, context and queue. -/
def leastQueue (l : List Queue) : Option Queue := l.foldl (fun b x => match b with
  | none => some x
  | some y => if qkey x.id < qkey y.id then some x else b) none

/-- None comes before it. -/
theorem leastQueue_of_ne_nil {l : List Queue} (h : l ≠ []) : ∃ q ∈ l, leastQueue l = some q ∧ ∀ y ∈ l, qkey q.id ≤ qkey y.id :=
  foldl_least (key := fun x : Queue => qkey x.id) (fun _ _ => rfl) (fun _ => rfl) l h

/-- The next queue of a class where none was dispatched before. -/
theorem Block.nextOfClass_of_first {m : Block} {k : Nat} (h : (m.cmd.lastRun.find? fun e => e.1 == k) = none) :
    m.nextOfClass k = leastQueue (m.classQueues k) := by
  rw [Block.nextOfClass, h]
  rfl

/-- The next queue of a class after the queue dispatched last. -/
theorem Block.nextOfClass_of_last {m : Block} {k j : Nat} {last : QueueId} (h : (m.cmd.lastRun.find? fun e => e.1 == k) = some (j, last)) :
    m.nextOfClass k =
      (leastQueue ((m.classQueues k).filter fun q => qkey q.id > qkey last)).or (leastQueue (m.classQueues k)) := by
  rw [Block.nextOfClass, h]
  rfl

/-- Settles O33: both choices are the least of a list. -/
theorem queueChoice : Obligations.QueueChoice := by
  constructor
  · intro m x w hids h served
    obtain ⟨hmem, hleast⟩ := Block.nextPaced_least h
    obtain ⟨hserved, hw⟩ := Block.mem_pacedHeads.mp hmem
    refine ⟨hserved, hw, fun y hy v hv => ?_⟩
    exact tick_le_of_pacedKey_le (x := (x, w)) (y := (y, v)) (hids y hy.1) (hleast (y, v) (Block.mem_pacedHeads.mpr ⟨hy, hv⟩))
  · intro m k hex
    obtain ⟨q0, hq0, hcls0, hcan0⟩ := hex
    have hne : m.classQueues k ≠ [] := List.ne_nil_of_mem (Block.mem_classQueues.mpr ⟨hq0, hcls0, hcan0⟩)
    obtain ⟨q, hq, hleast, hall⟩ := leastQueue_of_ne_nil hne
    cases hlast : m.cmd.lastRun.find? fun e => e.1 == k with
    | none =>
      obtain ⟨hqm, hcls, hcan⟩ := Block.mem_classQueues.mp hq
      exact ⟨q, hqm, (Block.nextOfClass_of_first hlast).trans hleast, hcls, hcan,
        fun y hy hyk hyc => hall y (Block.mem_classQueues.mpr ⟨hy, hyk, hyc⟩)⟩
    | some e =>
      obtain ⟨j, last⟩ := e
      have hnext := Block.nextOfClass_of_last hlast
      by_cases hlater : (m.classQueues k).filter (fun q => qkey q.id > qkey last) = []
      · have hle : ∀ y ∈ m.classQueues k, qkey y.id ≤ qkey last := fun y hy => by simpa using List.filter_eq_nil_iff.mp hlater y hy
        obtain ⟨hqm, hcls, hcan⟩ := Block.mem_classQueues.mp hq
        refine ⟨q, hqm, ?_, hcls, hcan, fun y hy hyk hyc => ?_⟩
        · rw [hnext, hlater, hleast]; rfl
        · have hy' := Block.mem_classQueues.mpr ⟨hy, hyk, hyc⟩
          simp only [Nat.not_lt.mpr (hle q hq), if_false]
          exact ⟨hle y hy', hall y hy'⟩
      · obtain ⟨z, hz, hzleast, hzall⟩ := leastQueue_of_ne_nil hlater
        obtain ⟨hzk, hzlast⟩ := List.mem_filter.mp hz
        obtain ⟨hzm, hcls, hcan⟩ := Block.mem_classQueues.mp hzk
        refine ⟨z, hzm, by rw [hnext, hzleast]; rfl, hcls, hcan, fun y hy hyk hyc => ?_⟩
        have hlt : qkey last < qkey z.id := by simpa using hzlast
        simp only [hlt, if_true]
        by_cases hyl : qkey last < qkey y.id
        · exact .inr (hzall y (List.mem_filter.mpr ⟨Block.mem_classQueues.mpr ⟨hy, hyk, hyc⟩, by simpa using hyl⟩))
        · exact .inl (Nat.not_lt.mp hyl)

end Sys2Proof.Machine

/-! SUPPORT. Admission to the pace guarantee (R320, R321, R323, R328, R333): what PACED_ADMISSION does with the packet it takes, check by
check. -/
namespace Sys2Proof.Machine

/-- An update of a queue that keeps its held records keeps the count of the stud book (R459). -/
theorem Block.booked_modQueue (m : Block) (q : QueueId) {f : Queue → Queue} (h : ∀ y, (f y).held = y.held) : (m.modQueue q f).booked = m.booked := by
  have hlen (y : Queue) : ((fun y : Queue => (y.held.filter fun r => r.entry.isSome).length) ∘ fun y => if y.id == q then f y else y) y =
      (y.held.filter fun r => r.entry.isSome).length := by
    by_cases hq : y.id = q <;> simp [hq, h]
  simp only [Block.booked, Block.modQueue, mapIf, List.map_map]
  rw [List.map_congr_left fun y _ => hlen y]

/-- A quiet update keeps the time. -/
theorem Block.Quiet.time {m m' : Block} (h : m.Quiet m') : m'.time = m.time := by
  obtain ⟨⟨-, -, -, -, -, -, -, -, htime, -⟩, -⟩ := h
  exact htime

/-- Firmware's reads of a command's KV list leave the units. -/
theorem Block.quiet_sightKv (m : Block) (c : Cmd) (payload : List Byte) (kv : List Nat) : m.Quiet (m.sightKv c payload kv) :=
  (Block.Quiet.foldl _ (fun m _ => m.quiet_correct _ _) _ m).trans (Block.Quiet.foldl _ (fun m _ => m.quiet_correct _ _) _ _)

/-- So do its reads of the saddle table. -/
theorem Block.quiet_sightTable (m : Block) (c : Cmd) : m.Quiet (m.sightTable c) := by
  unfold Block.sightTable
  split
  · exact Block.Quiet.refl m
  · exact m.quiet_correct _ _

/-- The block once firmware has read what a command names (R161, R162). -/
def Block.sighted (m : Block) (c : Cmd) : Block := (m.sightTable c).sightPayload c

/-- Reading leaves the units. -/
theorem Block.quiet_sighted (m : Block) (c : Cmd) : m.Quiet (m.sighted c) := (m.quiet_sightTable c).trans (Block.quiet_correct _ _ _)

/-- The payload of a TASK_RUN; other commands that PACED carries have none. -/
def Block.pacedPayload (m : Block) (c : Cmd) : List Byte := if c.opcode = 0x102 then m.readPayload c else []

section
variable {m : Block} {c : Cmd}

/-- In an emergency a packet has reason 6 (R333). -/
theorem Block.paceAdmit_of_emergency (he : m.pwr.emergOpen = true) : m.paceAdmit c = m.paceReject c 6 0 := by
  rw [Block.paceAdmit, if_pos he]

variable (he : m.pwr.emergOpen = false) {al : Allowed} {masks : List Nat}
include he

/-- An opcode that no PACED queue carries has reason 2. -/
theorem Block.paceAdmit_of_not_paced (hop : opcodeRow c.opcode = some (al, false, masks)) : m.paceAdmit c = m.paceReject c 2 0 := by
  simp [Block.paceAdmit, he, hop]

variable (hop : opcodeRow c.opcode = some (al, true, masks))
include hop

/-- One that admin queues do not carry has status 3. -/
theorem Block.paceAdmit_of_admin (ha : isAdmin c.q = true) (h0 : c.opcode ≠ 0) : m.paceAdmit c = m.refusePacket c 3 0 := by
  simp [Block.paceAdmit, he, hop, ha, h0]

variable (ha : ¬ (isAdmin c.q = true ∧ c.opcode ≠ 0))
include ha

/-- A packet without a DEADLINE has reason 3. -/
theorem Block.paceAdmit_of_no_deadline (hd : c.deadline = 0) : m.paceAdmit c = m.paceReject c 3 0 := by
  simp [Block.paceAdmit, he, hop, ha, hd]

variable (hd : c.deadline ≠ 0)
include hd

/-- At a full stud book it has reason 7. -/
theorem Block.paceAdmit_of_full (hb : bookRoom ≤ m.booked) : m.paceAdmit c = m.paceReject c 7 0 := by
  simp [Block.paceAdmit, he, hop, ha, hd, hb]

variable (hb : m.booked < bookRoom)
include hb

/-- A saddle table that cannot be bound gives the status (R246). -/
theorem Block.paceAdmit_of_table {st : Nat} (hs : (m.sighted c).saddleNeeds c = .error st) :
    m.paceAdmit c = (m.sighted c).refusePacket c st 0 := by
  simp only [Block.sighted] at hs
  simp [Block.paceAdmit, he, hop, ha, hd, Nat.not_le.mpr hb, hs, Block.sighted]

/-- So does a KV list (R297). -/
theorem Block.paceAdmit_of_list {b : List (Nat × Nat) × List Nat} {st : Nat} (hs : (m.sighted c).saddleNeeds c = .ok b)
    (hk : (m.sighted c).kvNeeds c ((m.sighted c).pacedPayload c) = .error st) : m.paceAdmit c = (m.sighted c).refusePacket c st 0 := by
  simp only [Block.sighted, Block.pacedPayload] at hs hk
  simp [Block.paceAdmit, he, hop, ha, hd, Nat.not_le.mpr hb, hs, hk, Block.sighted]

/-- What is left is decided by its bytes and its bound. -/
theorem Block.paceAdmit_of_bound {b : List (Nat × Nat) × List Nat} {kv : List Nat} (hs : (m.sighted c).saddleNeeds c = .ok b)
    (hk : (m.sighted c).kvNeeds c ((m.sighted c).pacedPayload c) = .ok kv) :
    m.paceAdmit c = ((m.sighted c).sightKv c ((m.sighted c).pacedPayload c) kv).paceDecide
      { c with binds := b.1, rows := b.2, kv := kv, payload := (m.sighted c).pacedPayload c, bound := true } := by
  simp only [Block.sighted, Block.pacedPayload] at hs hk
  simp [Block.paceAdmit, he, hop, ha, hd, Nat.not_le.mpr hb, hs, hk, Block.sighted, Block.pacedPayload]

end

section
variable {m : Block} {c : Cmd}

/-- The PAGED saddles that a command binds. -/
def Block.pagedSaddles (m : Block) (c : Cmd) : List Saddle := (m.boundSaddles c).filter fun z => z.state == .paged

/-- The bytes that a command makes the paging engines move (R328). -/
def Block.spilled (m : Block) (c : Cmd) : Nat := m.pagedBytes c + m.kvBytes c.kv

/-- Its bound, with the time of those bytes (R323, R328). -/
def Block.spilledBound (m : Block) (c : Cmd) : Nat × Nat × Nat :=
  m.paceBound c (if 0 < m.spilled c then m.pageTime m.pageAhead (m.spilled c) else 0)

/-- PAGED saddles without slots are reason 4 (log entry 111). -/
theorem Block.paceDecide_of_no_slots (h : ¬ (m.pagedSaddles c).length ≤ m.slotsFree c) : m.paceDecide c = m.paceReject c 4 0 := by
  rw [Block.paceDecide]
  exact if_pos (Nat.not_le.mp h)

variable (h : (m.pagedSaddles c).length ≤ m.slotsFree c)
include h

/-- Bytes past the reserve are reason 5 (R328). -/
theorem Block.paceDecide_of_full (hr : m.reserve < m.pageAhead + m.spilled c) : m.paceDecide c = m.paceReject c 5 0 := by
  rw [Block.paceDecide]
  exact (if_neg (Nat.not_lt.mpr h)).trans (if_pos hr)

variable (hr : m.pageAhead + m.spilled c ≤ m.reserve)
include hr

/-- A command whose bound its DEADLINE leaves room for is accepted (R321). -/
theorem Block.paceDecide_of_fit (ht : m.time + (m.spilledBound c).1 ≤ c.deadline) : m.paceDecide c = m.paceAccept c (m.spilledBound c) := by
  rw [Block.paceDecide]
  exact (if_neg (Nat.not_lt.mpr h)).trans ((if_neg (Nat.not_lt.mpr hr)).trans (if_pos ht))

/-- Any other has reason 1, with its bound (R320). -/
theorem Block.paceDecide_of_late (ht : c.deadline < m.time + (m.spilledBound c).1) :
    m.paceDecide c = m.paceReject c 1 (min (m.spilledBound c).1 (2 ^ 32 - 1)) := by
  rw [Block.paceDecide]
  exact (if_neg (Nat.not_lt.mpr h)).trans ((if_neg (Nat.not_lt.mpr hr)).trans (if_neg (Nat.not_le.mpr ht)))

end

/-- The block once the next PACED packet of a queue is taken. -/
def Block.pacedTaken (m : Block) (q : QueueId) : Block := m.modQueue q fun y => { y with waiting := y.waiting.drop 1 }

/-- The command that a waiting packet makes. -/
def Block.pacedCmd (m : Block) (q : QueueId) (w : Nat × Nat × Packet) : Cmd := { q := q, packet := w.2.2, sqHead := w.2.1, admitted := m.time }

section
variable {m : Block} {q : QueueId} {x : Queue} {w : Nat × Nat × Packet} (hnext : m.nextPaced = some (x, w)) (hid : x.id = q)
  (hserving : m.serving = true)
include hnext hid hserving

/-- The packet that comes next is checked, and then admitted. -/
theorem pacedAdmissionEffect_of_next : pacedAdmissionEffect q m =
    ((m.pacedTaken q).fetchStatus (m.pacedCmd q w) true).elim ((m.pacedTaken q).paceAdmit (m.pacedCmd q w))
      fun st => (m.pacedTaken q).refusePacket (m.pacedCmd q w) st 0 := by
  rw [pacedAdmissionEffect, hnext]
  refine (if_neg (by simp [hid, hserving])).trans ?_
  rw [← Block.pacedTaken, ← Block.pacedCmd]
  dsimp only
  cases (m.pacedTaken q).fetchStatus (m.pacedCmd q w) true <;> rfl

/-- A packet that its check refuses completes with the status. -/
theorem pacedAdmissionEffect_of_refused {st : Nat} (h : (m.pacedTaken q).fetchStatus (m.pacedCmd q w) true = some st) :
    pacedAdmissionEffect q m = (m.pacedTaken q).refusePacket (m.pacedCmd q w) st 0 := by
  rw [pacedAdmissionEffect_of_next hnext hid hserving, h, Option.elim_some]

/-- One that passes goes on to its admission. -/
theorem pacedAdmissionEffect_of_passed (h : (m.pacedTaken q).fetchStatus (m.pacedCmd q w) true = none) :
    pacedAdmissionEffect q m = (m.pacedTaken q).paceAdmit (m.pacedCmd q w) := by
  rw [pacedAdmissionEffect_of_next hnext hid hserving, h, Option.elim_none]

end

/-- Settles O32: the checks in their order, and the decision on what is left. -/
theorem pacedAdmission : Obligations.PacedAdmission := by
  intro q x w masks al s hnext hid hserving m c
  have hpass {m' : Block} (h : m.fetchStatus c true = none) (hm : m.paceAdmit c = m') : Gives (.pacedAdmission q) s m' :=
    gives_of_commit rfl ((pacedAdmissionEffect_of_passed hnext hid hserving h).trans hm)
  have hbooked : m.booked = s.m.booked := s.m.booked_modQueue q fun _ => rfl
  refine ⟨fun st h => gives_of_commit rfl (pacedAdmissionEffect_of_refused hnext hid hserving h), fun h he => ?_, fun h he hop => ?_,
    fun h he hop => ?_⟩
  all_goals change m.pwr.emergOpen = _ at he
  · exact hpass h (Block.paceAdmit_of_emergency he)
  · exact hpass h (Block.paceAdmit_of_not_paced he hop)
  refine ⟨fun ha h0 => hpass h (Block.paceAdmit_of_admin he hop ha h0), fun ha => ?_⟩
  have ha' : ¬ (isAdmin c.q = true ∧ c.opcode ≠ 0) := by
    rintro ⟨h1, h2⟩
    rcases ha with ha | ha
    · exact Bool.false_ne_true (ha.symm.trans h1)
    · exact h2 ha
  rw [← hbooked]
  refine ⟨fun hd => hpass h (Block.paceAdmit_of_no_deadline he hop ha' hd),
    fun hd hb => hpass h (Block.paceAdmit_of_full he hop ha' hd hb), fun hd hb => ?_⟩
  intro m1 payload
  refine ⟨fun st hs => hpass h (Block.paceAdmit_of_table he hop ha' hd hb hs),
    fun b st hs hk => hpass h (Block.paceAdmit_of_list he hop ha' hd hb hs hk), fun b kv hs hk => ?_⟩
  intro m2 c1 paged spilled fits t
  have hdecide {m' : Block} (hm : m2.paceDecide c1 = m') : Gives (.pacedAdmission q) s m' :=
    hpass h ((Block.paceAdmit_of_bound he hop ha' hd hb hs hk).trans hm)
  have htime : m2.time = s.m.time := ((m.quiet_sighted c).trans (Block.quiet_sightKv _ _ _ _)).time
  rw [← htime]
  exact ⟨fun hf => hdecide (Block.paceDecide_of_no_slots hf), fun hf hr => hdecide (Block.paceDecide_of_full hf hr),
    fun hf hr ht => hdecide (Block.paceDecide_of_fit hf hr ht), fun hf hr ht => hdecide (Block.paceDecide_of_late hf hr ht)⟩

end Sys2Proof.Machine

/-! SUPPORT. PULLED_UP_RESUME, PACED_OVERRUN_STOP and SUSPENSION_END (R329, R330, R334): what each does when its condition holds. -/
namespace Sys2Proof.Machine

/-- A pulled-up task is resumed once its core is free and no PACED command needs it (R329). -/
theorem pulledUpResumeEffect_of_free {m : Block} {n : Nat} {x : SavedTask} (hsaved : (m.core n).saved = some x) (hserving : m.serving = true)
    (htask : (m.core n).task = none) (hneeds : m.pacedNeeds n = false) : pulledUpResumeEffect n m = m.resumeTask n x := by
  simp only [pulledUpResumeEffect, hsaved, hserving, htask, hneeds, Option.isNone_none, Bool.not_false, Bool.and_self, if_true]

/-- The time of a PACED command is up from the last tick before lead tick + T_adm + W on, outside a suspension window (R330, R334). -/
theorem Block.overrun_of_late {m : Block} {c : Cmd} {p : Pace} {l : Nat} (hpace : c.pace = some p) (hlead : p.lead = some l)
    (hlate : l + m.fld Reg.paceAdm 31 0 + p.work ≤ m.time + 1) (he : m.pwr.emergOpen = false) (hr : m.pwr.recovery = none) :
    m.overrun c = true := by
  simp only [Block.overrun, hpace, hlead, he, hr, hlate, Option.any_some, Option.isNone_none, Bool.not_false, Bool.and_self, decide_true]

/-- A command whose time is up is stopped (R330). -/
theorem pacedOverrunStopEffect_of_overrun {m : Block} {q : QueueId} {c : Cmd} (hrun : m.running q = some c) (h : m.overrun c = true) :
    pacedOverrunStopEffect q m = m.stopOverrun c := by
  simp only [pacedOverrunStopEffect, hrun, h, if_true]

/-- The end of a suspension window sets the lead ticks that have passed (R334). -/
theorem suspensionEndEffect_of_over {m : Block} (hopen : m.fld Reg.paceStatus 63 63 = 0) (hend : m.reg Reg.paceSuspEnd ≠ 0) :
    suspensionEndEffect m = m.resetLeads (m.reg Reg.paceSuspEnd).toNat :=
  if_neg fun h => h.elim (fun h1 => by omega) hend

/-- A lead tick that has passed becomes the window's end. -/
theorem Block.resetLeads_eq (m : Block) (e : Nat) : m.resetLeads e =
    { m with cmd.cmds := m.cmd.cmds.map fun c => { c with pace := c.pace.map fun p => { p with lead := p.lead.map fun l => max l e } } } := by
  have hlead (l : Nat) : (if l < e then e else l) = max l e := by split <;> omega
  simp only [Block.resetLeads, hlead]

/-- Settles O35: each row by its own condition. -/
theorem paceEvents : Obligations.PaceEvents := by
  refine ⟨fun n x s hsaved hserving htask hneeds => gives_of_commit rfl (pulledUpResumeEffect_of_free hsaved hserving htask hneeds),
    fun q c p l s hrun hpace hlead hlate he hr => gives_of_commit rfl
      (pacedOverrunStopEffect_of_overrun hrun (Block.overrun_of_late hpace hlead hlate he hr)), fun s hopen hend => ?_⟩
  have hgives : Gives .suspensionEnd s (s.m.resetLeads (s.m.reg Reg.paceSuspEnd).toNat) := gives_of_commit rfl (suspensionEndEffect_of_over hopen hend)
  rw [Block.resetLeads_eq] at hgives
  exact hgives.completes ⟨rfl, OnlyRegs.settle [] _⟩

end Sys2Proof.Machine

/-! SUPPORT. Measurements, the commit of the security version, and the management key (R480, R488, R489, R491). -/
namespace Sys2Proof.Machine

/-- A list after the change of one element. -/
theorem getElem?_modifyAt {α : Type} (f : α → α) (l : List α) (i k : Nat) :
    (modifyAt f l i)[k]? = if k = i then l[k]?.map f else l[k]? := by
  induction l generalizing i k with
  | nil => simp [modifyAt]
  | cons a l ih => cases i <;> cases k <;> simp [modifyAt, ih]

/-- The log has room for an extension (R481). -/
theorem Block.extend_of_room {m : Block} (r src : Nat) (d : List Byte) (h : m.sec.events.length < 32) : m.extend r src d =
    { m with
      sec.meas := modifyAt (fun x => sha3 (x ++ d)) m.sec.meas r
      sec.events := m.sec.events ++ [{ reg := r, source := src, time := m.time, digest := d }] } := by
  rw [Block.extend]
  exact if_pos h

/-- A full log notes that an event is missing. -/
theorem Block.extend_of_full {m : Block} (r src : Nat) (d : List Byte) (h : 32 ≤ m.sec.events.length) : m.extend r src d =
    ({ m with sec.meas := modifyAt (fun x => sha3 (x ++ d)) m.sec.meas r } : Block).setFld Reg.secStatus 60 60 1 := by
  rw [Block.extend]
  exact if_neg (Nat.not_lt.mpr h)

section
variable {m : Block} {r : Requester}

/-- A write without the confirmation value does nothing (R488). -/
theorem svnCommitEffect_of_unconfirmed {k : Nat} (h : k ≠ 0x5356) : svnCommitEffect r k m = m := if_pos (.inr (.inl h))

/-- A write by neither firmware nor the system's host does nothing (R491). -/
theorem svnCommitEffect_of_other (k : Nat) (h : (isFw r || isSysHost r) = false) : svnCommitEffect r k m = m := if_pos (.inl (by rw [h]; rfl))

variable (hr : (isFw r || isSysHost r) = true) (hb : m.sec.svnBusy = false)
include hr hb

/-- A commit that is refused sets COMMIT_ERR (R488). -/
theorem svnCommitEffect_of_refused (h : m.svnRefused = true) : svnCommitEffect r 0x5356 m = m.setFld Reg.secSvnCtl 63 63 1 := by
  rw [svnCommitEffect, hr, hb, h]
  rfl

/-- Another starts. -/
theorem svnCommitEffect_of_fit (h : m.svnRefused = false) :
    svnCommitEffect r 0x5356 m = ({ m with sec.svnBusy := true } : Block).setFld Reg.secSvnCtl 63 62 1 := by
  rw [svnCommitEffect, hr, hb, h]
  rfl

end

/-- A tenant's host is not the system's. -/
theorem isFw_or_isSysHost_of_tenant (p : Nat) {t : Nat} (h : t ≠ 0) : (isFw (.host p t) || isSysHost (.host p t)) = false := beq_false_of_ne h

/-- What a tenant's host asks for where only firmware and the system's host are heard does nothing. -/
theorem mgmtKeyEffects_of_tenant (m : Block) (p : Nat) {t : Nat} (h : t ≠ 0) :
    mgmtKeySetEffect (.host p t) m = m ∧ mgmtKeyClearEffect (.host p t) m = m := by
  rw [mgmtKeySetEffect, mgmtKeyClearEffect, isFw_or_isSysHost_of_tenant p h]
  exact ⟨rfl, rfl⟩

/-- Without a commit under way its end does nothing. -/
theorem svnCommitCompleteEffect_of_idle {m : Block} (h : m.sec.svnBusy = false) : svnCommitCompleteEffect m = m := by
  rw [svnCommitCompleteEffect, h]
  rfl

/-- The end of a commit blows fuses up to the running image's security version (R488). -/
theorem svnCommitCompleteEffect_of_busy {m : Block} (h : m.sec.svnBusy = true) : svnCommitCompleteEffect m =
    ({ m with sec.svnBusy := false, fuse.svnFuses := max m.fuse.svnFuses (min 64 m.fw.runSvn) } : Block).setFld Reg.secSvnCtl 62 62 0 := by
  rw [svnCommitCompleteEffect, h]
  rfl

/-- Settles O57: each row by who asks and by what it finds. -/
theorem securityRows : Obligations.SecurityRows := by
  refine ⟨fun m r src d x hx hroom => ?_, fun m r src d hfull => ?_, fun k s hk => ?_, fun p k s hp => ?_, fun s hbusy => ⟨fun h => ?_, fun h => ?_⟩,
    fun k s hk => gives_of_commit rfl (svnCommitEffect_of_unconfirmed hk),
    fun s => ⟨fun h => gives_of_commit rfl (svnCommitCompleteEffect_of_idle h), fun h hle => ?_⟩,
    fun s => ⟨gives_of_commit rfl rfl, gives_of_commit rfl rfl⟩, fun p t s hp htag ht => ?_⟩
  · rw [Block.extend_of_room r src d hroom]
    refine ⟨?_, fun k hk => ?_, by simp, ⟨_, rfl, rfl, rfl, rfl, rfl⟩, OnlyRegs.refl _ _⟩
    · simp [getElem?_modifyAt, hx]
    · simp [getElem?_modifyAt, hk]
  · rw [Block.extend_of_full r src d hfull]
    exact ⟨rfl, Block.fld_setFld_self _ _ _ _ _ (by decide)⟩
  · rcases hk with rfl | rfl <;> exact gives_of_commit rfl rfl
  · exact gives_of_commit rfl (s.m.byHost_of_ok p 0 _ hp rfl)
  · have hgives : Gives (.svnCommit .firmware 0x5356) s (s.m.setFld Reg.secSvnCtl 63 63 1) :=
      gives_of_commit rfl (svnCommitEffect_of_refused rfl hbusy h)
    exact hgives.completes ⟨Block.fld_setFld_self _ _ _ _ _ (by decide), (OnlyRegs.setReg _ _ (by simp)).trans (OnlyRegs.settle _ _)⟩
  · have hgives : Gives (.svnCommit .firmware 0x5356) s (({ s.m with sec.svnBusy := true } : Block).setFld Reg.secSvnCtl 63 62 1) :=
      gives_of_commit rfl (svnCommitEffect_of_fit rfl hbusy h)
    exact hgives.completes ⟨Block.fld_setFld_self _ _ _ _ _ (by decide), rfl,
      (OnlyRegs.setReg { s.m with sec.svnBusy := true } _ (by simp)).trans (OnlyRegs.settle _ _)⟩
  · have hgives := gives_of_commit (c := .svnCommitComplete) (s := s) rfl (svnCommitCompleteEffect_of_busy h)
    refine hgives.completes ⟨rfl, le_max_left _ _, ?_, rfl, Block.fld_setFld_self _ _ _ _ _ (by decide)⟩
    exact max_le hle (min_le_left _ _)
  · obtain ⟨hset, hclear⟩ := mgmtKeyEffects_of_tenant s.m p ht
    exact ⟨gives_of_commit rfl ((s.m.byHost_of_ok p t _ hp htag).trans hset), gives_of_commit rfl ((s.m.byHost_of_ok p t _ hp htag).trans hclear),
      gives_of_commit rfl ((s.m.byHost_of_ok p t _ hp htag).trans (svnCommitEffect_of_other _ (isFw_or_isSysHost_of_tenant p ht)))⟩

end Sys2Proof.Machine

/-! SUPPORT. Steps: every command commits an effect, so that a step answers a next state and leaves the memories in canonical form (Table 6.1); and
one tick of the timebase (R425). -/
namespace Sys2Proof.Machine

/-- Every command commits an effect on the block. -/
theorem exec_commits (c : Instr) (s : State) : ∃ m : Block, exec c s = s.commit m := by
  cases c <;> exact ⟨_, rfl⟩

/-- What a settled block's memories are. -/
theorem Block.canonical_settle (m : Block) : m.settle.Canonical := ⟨Memory.wf_canon _, Memory.wf_canon _, Memory.wf_canon _⟩

/-- A block in canonical form stands as it settles. -/
theorem Block.settle_of_canonical {m : Block} (h : m.Canonical) : m.settle = m := by
  obtain ⟨hmem, hbufs, hmbuf⟩ := h
  rw [Block.settle, Memory.canon_of_wf _ hmem, Memory.canon_of_wf _ hbufs, Memory.canon_of_wf _ hmbuf]

/-- The first cell of a canonical memory reads as it is listed. -/
theorem Memory.read_cons_self (k : Nat) (v : Byte) (t : Memory) : Memory.read ((k, v) :: t) k = v := if_pos rfl

/-- A canonical memory that lists a cell does not read as one whose cells all lie above it. -/
theorem Memory.read_ne_of_lt {k : Nat} {v : Byte} {t b : Memory} (h : Memory.wf ((k, v) :: t)) (hb : ∀ c ∈ b, k < c.1) :
    Memory.read ((k, v) :: t) k ≠ b.read k := by
  rw [Memory.read_cons_self, Memory.read_of_lt b k hb]
  exact h.2 (k, v) List.mem_cons_self

/-- The cells behind the first of a canonical memory: they are in canonical form and lie above it. -/
theorem Memory.wf_of_cons {k : Nat} {v : Byte} {t : Memory} (h : Memory.wf ((k, v) :: t)) : t.wf ∧ ∀ c ∈ t, k < c.1 :=
  ⟨⟨(List.pairwise_cons.mp h.1).2, fun c hc => h.2 c (List.mem_cons_of_mem _ hc)⟩, (List.pairwise_cons.mp h.1).1⟩

/-- A canonical memory whose first cell lies at `k` has none below it. -/
theorem Memory.lt_of_cons {k : Nat} {v : Byte} {t : Memory} (h : Memory.wf ((k, v) :: t)) {a : Nat} (ha : a < k) :
    ∀ c ∈ (k, v) :: t, a < c.1 := by
  intro c hc
  rcases List.mem_cons.mp hc with rfl | hc
  · exact ha
  · exact Nat.lt_trans ha ((Memory.wf_of_cons h).2 c hc)

/-- Canonical memories that read alike at every address are equal. -/
theorem Memory.ext_of_wf {a b : Memory} (ha : a.wf) (hb : b.wf) (h : ∀ k, a.read k = b.read k) : a = b := by
  induction a generalizing b with
  | nil =>
    cases b with
    | nil => rfl
    | cons d u => exact absurd (h d.1).symm (Memory.read_ne_of_lt hb (by simp))
  | cons c t ih =>
    obtain ⟨k, v⟩ := c
    cases b with
    | nil => exact absurd (h k) (Memory.read_ne_of_lt ha (by simp))
    | cons d u =>
      obtain ⟨j, w⟩ := d
      obtain ⟨ht, htk⟩ := Memory.wf_of_cons ha
      obtain ⟨hu, huj⟩ := Memory.wf_of_cons hb
      rcases Nat.lt_trichotomy k j with hlt | rfl | hlt
      · exact absurd (h k) (Memory.read_ne_of_lt ha (Memory.lt_of_cons hb hlt))
      · have hv : v = w := by simpa [Memory.read_cons_self] using h k
        have htail (x : Nat) : Memory.read t x = Memory.read u x := by
          by_cases hx : k = x
          · rw [← hx, Memory.read_of_lt t k htk, Memory.read_of_lt u k huj]
          · simpa [Memory.read, hx] using h x
        rw [hv, ih ht hu htail]
      · exact absurd (h j).symm (Memory.read_ne_of_lt hb (Memory.lt_of_cons ha hlt))

/-- A step commits an effect to the state without the command it runs. -/
theorem step_commits (s : State) : ∃ m : Block, step s = ({ s with pending := s.pending.tail } : State).commit m := by
  obtain ⟨m, pending⟩ := s
  cases pending with
  | nil => exact ⟨m.tick, rfl⟩
  | cons c rest => exact exec_commits c { m := m, pending := rest }

/-- Settles O59: a step commits an effect, and what it commits settles. -/
theorem everyStepKeepsMemoriesCanonical : Obligations.EveryStepKeepsMemoriesCanonical := by
  refine ⟨fun s _ => ?_, fun a b ha hb h => Memory.ext_of_wf ha hb h,
    fun m => ⟨m.canonical_settle, Block.settle_of_canonical, fun k => Memory.read_canon m.mem k⟩⟩
  obtain ⟨m, hm⟩ := step_commits s
  exact ⟨_, hm, rfl, m.canonical_settle⟩

/-- Without an overrun firmware stops nothing (R330). -/
theorem Block.stopOverruns_of_none {m : Block} (h : ∀ c ∈ m.cmd.cmds, m.overrun c = false) : m.stopOverruns = m := by
  have hnone : m.cmd.cmds.filter m.overrun = [] := List.filter_eq_nil_iff.mpr fun c hc => by simp [h c hc]
  rw [Block.stopOverruns, hnone]
  rfl

/-- Where no core has work that goes on by itself, none does any (R81). -/
theorem Block.settleAll_of_none {m : Block}
    (h : ∀ e ∈ m.cores, (m.core e.1).goesOn = false ∧ ((m.core e.1).task ≠ none ∨ m.fld (Reg.coreTaskId e.1) 63 63 = 0)) : m.settleAll = m := by
  have hnone : ((m.cores.map (·.1)).filter fun n => (m.core n).goesOn || ((m.core n).task.isNone && m.fld (Reg.coreTaskId n) 63 63 == 1)) = [] := by
    refine List.filter_eq_nil_iff.mpr fun n hn => ?_
    obtain ⟨e, he, rfl⟩ := List.mem_map.mp hn
    obtain ⟨hgoes, htask⟩ := h e he
    rcases htask with htask | htask <;> simp [hgoes, htask]
  rw [Block.settleAll, hnone]
  rfl

/-- Settles O58: `step` by its two cases, and a tick in which nothing is due. -/
theorem stepRunsFrontCommand : Obligations.StepRunsFrontCommand := by
  refine ⟨fun c s rest => rfl, fun s hs => ?_, fun m hoff => ?_, fun m hon hover hquiet => ?_⟩
  · obtain ⟨m, pending⟩ := s
    obtain rfl : pending = [] := hs
    rfl
  · rw [Block.tick, hoff]
    rfl
  · rw [Block.tick, if_pos hon, Block.stopOverruns_of_none hover]
    exact Block.settleAll_of_none (m := { m with time := m.time + 1 }) hquiet

end Sys2Proof.Machine

/-! SUPPORT. The state after reset: every register reads its reset value, and those that come once for each core or tile have one value. -/
namespace Sys2Proof.Machine

/-- After reset a register holds its reset value. -/
theorem reg_reset (r : Nat) : State.reset.m.reg r = resetValue .sbm3216 r := rfl

/-- The cores' blocks lie in window 16 of the register map. -/
theorem Reg.coreSeqStatus_window {n : Nat} (h : n < 128) : Reg.coreSeqStatus n / 0x100000 = 16 := by
  simp only [Reg.coreSeqStatus]
  omega

/-- STATE of every core resets to idle. -/
theorem resetValue_coreSeqStatus (v : Variant) {n : Nat} (h : n < 128) : resetValue v (Reg.coreSeqStatus n) = 0 := by
  have hoff : ¬ (Reg.coreSeqStatus n % 0x1000 = 0x28 ∧ Reg.coreSeqStatus n < Reg.coreHitchTmo 128) := by
    simp only [Reg.coreSeqStatus, Reg.coreHitchTmo]
    omega
  rw [resetValue, Reg.coreSeqStatus_window h]
  exact if_neg hoff

/-- The time limit of every core's waits. -/
theorem resetValue_coreHitchTmo (v : Variant) {n : Nat} (h : n < 128) : resetValue v (Reg.coreHitchTmo n) = 0x017D7840 := by
  have hwindow : Reg.coreHitchTmo n / 0x100000 = 16 := by
    simp only [Reg.coreHitchTmo]
    omega
  have hoff : Reg.coreHitchTmo n % 0x1000 = 0x28 ∧ Reg.coreHitchTmo n < Reg.coreHitchTmo 128 := by
    simp only [Reg.coreHitchTmo]
    omega
  rw [resetValue, hwindow]
  exact if_pos hoff

/-- The time limit of every Drover. -/
theorem resetValue_drvCfg (v : Variant) {t : Nat} (h : t < 16) : resetValue v (Reg.drvCfg t) = 0x017D7840 := by
  have hwindow : Reg.drvCfg t / 0x100000 = 14 := by
    simp only [Reg.drvCfg]
    omega
  have hoff : Reg.drvCfg t % 0x1000 = 0 ∧ Reg.drvCfg t < Reg.drvCfg 16 := by
    simp only [Reg.drvCfg]
    omega
  rw [resetValue, hwindow]
  exact if_pos hoff

/-- Settles O60: the reset state holds nothing, and each register named has the value of its table. -/
theorem resetState : Obligations.ResetState := by
  refine ⟨rfl, by decide, fun _ => rfl, rfl, fun n hn => ?_, rfl, rfl, rfl, rfl, fun n hn => resetValue_coreHitchTmo _ hn,
    fun t ht => resetValue_drvCfg _ ht, by decide⟩
  rw [Block.coreSt, Block.fld, reg_reset, resetValue_coreSeqStatus _ hn]
  rfl

end Sys2Proof.Machine

/-! SUPPORT. Module resets (R407 to R420): a request, and what it leaves of the power state; the assertion of a warm and of a cold reset; the
release. -/
namespace Sys2Proof.Machine

/- What a request does beside the reset itself -/

/-- A trace point leaves the power state. -/
@[simp] theorem Block.pwr_trace (m : Block) (u k : Nat) : (m.trace u k).pwr = m.pwr :=
  (apply_ite Block.pwr _ _ _).trans (ite_self m.pwr)

/-- So does an I3C event. -/
@[simp] theorem Block.pwr_i3cEvent (m : Block) (b : Nat) : (m.i3cEvent b).pwr = m.pwr := by
  simp only [Block.i3cEvent]
  split <;> rfl

/-- So does the end of an activation. -/
theorem Block.pwr_endAct (m : Block) (outcome : Nat) : (m.endAct outcome).pwr = m.pwr := by
  simp only [Block.endAct, Block.pwr_trace, Block.pwr_i3cEvent, Block.setReg_pwr, Block.setFld_pwr]

/-- So does its cancellation. -/
theorem Block.pwr_actCancel (m : Block) : m.actCancel.pwr = m.pwr := by
  simp only [Block.actCancel]
  split
  · exact m.pwr_endAct 3
  · rfl

/-- The start of device recovery leaves the reset under way. -/
theorem Block.rst_openRecovery (m : Block) (source : Nat) : (m.openRecovery source).pwr.rst = m.pwr.rst := by
  rw [← congrArg Power.rst m.pwr_actCancel]
  simp only [Block.openRecovery, Block.pwr_trace, Block.windowOpened, Block.showWindow, Block.catchPaced, Block.setReg_pwr, Block.pwr_i3cEvent]
  split <;> rfl

section
variable {m : Block} {cold : Bool} {source : Nat} (hon : m.pwr.powered = true) (hfree : m.pwr.stuck = false)
  (hallow : m.tripAllows cold source = true)
include hon hfree hallow

/-- A request that meets another reset is counted (R411). -/
theorem Block.requestReset_of_absorbed {r : ResetInProgress} (hr : m.pwr.rst = some r) (h : cold = false ∨ r.cold = true) :
    m.requestReset cold source = m.satFld Reg.rstStatus 47 32 1 := by
  rcases h with rfl | h
  · simp [Block.requestReset, hon, hfree, hallow, hr]
  · simp [Block.requestReset, hon, hfree, hallow, hr, h]

/-- A cold one makes a warm reset cold (R411). -/
theorem Block.requestReset_of_colder {r : ResetInProgress} (hr : m.pwr.rst = some r) (hc : cold = true) (h : r.cold = false) :
    (m.requestReset cold source).pwr.rst = some { r with cold := true, source := source, request := m.time, asserted := none } := by
  subst hc
  simp [Block.requestReset, hon, hfree, hallow, hr, h]

/-- A request outside option loading that meets no reset begins one. -/
theorem Block.requestReset_of_none (hr : m.pwr.rst = none) (hopt : m.optLoading = false) :
    (m.requestReset cold source).pwr.rst = some { cold := cold, source := source, request := m.time, restart := false } := by
  simp only [Block.requestReset, hon, hfree, hallow, hr, hopt, Bool.not_true, Bool.false_and, Bool.or_false, Bool.false_eq_true, or_self, if_false]
  split
  · rw [Block.pwr_actCancel]
  · split
    · rfl
    · rw [Block.rst_openRecovery]

end

/-- A request without the confirmation value does nothing (R410). -/
theorem Block.rstModule_of_unconfirmed (m : Block) (r : Requester) (cold : Bool) {k : Nat} (h : k ≠ 0x5A3C) : m.rstModule r cold k = m := if_pos h

/- The assertion of a warm reset -/

/-- A commit that is cut short takes no time. -/
theorem Block.time_cutCommit (m : Block) : m.cutCommit.time = m.time := by
  simp only [Block.cutCommit]
  split <;> rfl

/-- Nor does staging that fails. -/
theorem Block.time_stageFail (m : Block) : m.stageFail.time = m.time := by
  simp only [Block.stageFail]
  split
  · split <;> rfl
  · rfl

/-- What each update of a fold leaves alone, the fold does. -/
theorem Block.foldl_keeps_of_mem {α β : Type} (g : Block → β) {f : Block → α → Block} {l : List α} (h : ∀ x ∈ l, ∀ m, g (f m x) = g m) (m : Block) :
    g (l.foldl f m) = g m := by
  induction l generalizing m with
  | nil => rfl
  | cons x l ih => exact (ih (fun y hy => h y (List.mem_cons_of_mem _ hy)) _).trans (h x List.mem_cons_self m)

/-- The same for an update that leaves it alone whatever it is given. -/
theorem Block.foldl_keeps {α β : Type} (g : Block → β) {f : Block → α → Block} (h : ∀ m x, g (f m x) = g m) (l : List α) (m : Block) :
    g (l.foldl f m) = g m := Block.foldl_keeps_of_mem g (fun x _ m => h m x) m

/-- Nor do page-ins that are dropped. -/
theorem Block.time_dropLoads (m : Block) : m.dropLoads.time = m.time := by
  refine Block.foldl_keeps Block.time (fun m s => ?_) _ m
  simp only [Block.dropPages]
  split
  · exact Block.foldl_keeps (f := Block.invalidateTile) Block.time (fun _ _ => rfl) (List.range m.tileCount) m
  · rfl

/-- How a warm reset ends: nodes with unanswered bursts are noted, the measurements are cleared, the memories are in self-refresh, and the reset
controller's registers are set (R420). -/
def Block.warmSigns (m : Block) (r : ResetInProgress) : Block :=
  let m2 := (m.fab.tx.filter fun p => !p.unacked.isEmpty).foldl (fun m p => m.noteUnreach p.node) m
  (((((m2.clearMeas.memState 2 3).setFld Reg.rstStatus 63 60 0).setReg Reg.rstCause
    (putField (putField 0 63 60 1) 59 56 r.source)).setReg Reg.rstTime (BitVec.ofNat 64 r.request)).satFld Reg.rstCounts 63 32 1)

/-- A register that a test on its key drops holds its reset value. -/
theorem Block.reg_of_dropped {m : Block} {l : List (Nat × Word)} {p : Nat → Bool} {f : Nat × Word → Nat × Word} (hf : ∀ e, (f e).1 = e.1)
    (hm : m.regs = (l.filter fun e => p e.1).map f) {k : Nat} (hk : p k = false) : m.reg k = resetValue m.fuse.variant k := by
  have hnone : m.regs.find? (fun e => e.1 == k) = none := by
    rw [hm]
    refine List.find?_eq_none.mpr fun e he => ?_
    obtain ⟨d, hd, rfl⟩ := List.mem_map.mp he
    have hpd : p d.1 = true := (List.mem_filter.mp hd).2
    simpa [hf] using fun hdk => by simp [hdk, hk] at hpd
  rw [Block.reg, hnone]

/-- What the assertion of a warm reset does first: firmware is down, memory tags are gone, and registers that do not survive are reset. -/
theorem Block.assertWarm_eq (m : Block) (r : ResetInProgress) : ∃ m1 : Block, m.assertWarm r = m1.warmSigns r ∧ m1.fw.fwUp = false ∧
    m1.time = m.time ∧ m1.pwr.pstate = 0 ∧ m1.tags = [] ∧ ∀ k, keepWarm k = false → m1.reg k = resetValue m1.fuse.variant k := by
  refine ⟨_, rfl, rfl, ?_, rfl, rfl, fun k hk => Block.reg_of_dropped (fun e => ?_) rfl hk⟩
  · exact (Block.time_dropLoads _).trans ((Block.time_stageFail _).trans m.time_cutCommit)
  · split <;> rfl

/-- What a reset shows of the block, beside its registers. -/
def Block.beside (m : Block) : Firmware × Nat × Power × List Nat := (m.fw, m.time, m.pwr, m.tags)

/-- Moving a memory to another state leaves it. -/
theorem Block.beside_moveState (m : Block) (old new r : Nat) : (m.moveState old new r).beside = m.beside := by
  simp only [Block.moveState]
  split <;> rfl

/-- So does moving all of them. -/
theorem Block.beside_memState (m : Block) (old new : Nat) : (m.memState old new).beside = m.beside :=
  (Block.foldl_keeps Block.beside (fun m _ => m.beside_moveState old new _) _ _).trans
    (Block.foldl_keeps Block.beside (fun m _ => m.beside_moveState old new _) _ m)

/-- A register of another window is no memory's status. -/
theorem Block.reg_memState (m : Block) (old new : Nat) {k : Nat} (h10 : k / 0x100000 ≠ 10) (h11 : k / 0x100000 ≠ 11) :
    (m.memState old new).reg k = m.reg k := by
  have hmove (m : Block) {r : Nat} (hr : k ≠ r) : (m.moveState old new r).reg k = m.reg k := by
    simp only [Block.moveState]
    split
    · exact m.reg_setFld_ne r k _ _ _ hr
    · rfl
  have hstacks : m.stackCount ≤ 32 := by
    simp only [Block.stackCount, Block.tileCount]
    split <;> omega
  refine (Block.foldl_keeps_of_mem (fun m => m.reg k) (fun c hc m => hmove m ?_) _).trans
    (Block.foldl_keeps_of_mem (fun m => m.reg k) (fun c hc m => hmove m ?_) m)
  · rintro rfl
    simp only [List.mem_range, Reg.ddrStatus] at hc h11
    omega
  · rintro rfl
    simp only [List.mem_range, Reg.hbmStatus] at hc h10
    omega

/-- A note that a node is out of reach leaves it. -/
theorem Block.beside_noteUnreach (m : Block) (node : Nat) : (m.noteUnreach node).beside = m.beside := by
  simp only [Block.noteUnreach]
  split <;> rfl

/-- And the registers. -/
theorem Block.reg_noteUnreach (m : Block) (node k : Nat) : (m.noteUnreach node).reg k = m.reg k := by
  simp only [Block.noteUnreach]
  split <;> rfl

/-- The end of a warm reset leaves it. -/
theorem Block.beside_warmSigns (m : Block) (r : ResetInProgress) : (m.warmSigns r).beside = m.beside :=
  (Block.beside_memState _ 2 3).trans (Block.foldl_keeps Block.beside (fun m _ => m.beside_noteUnreach _) _ m)

/-- And every register but those that it sets. -/
theorem Block.reg_warmSigns (m : Block) (r : ResetInProgress) {k : Nat} (h : k ∉ [Reg.secStatus, Reg.rstStatus, Reg.rstCause, Reg.rstTime, Reg.rstCounts])
    (h10 : k / 0x100000 ≠ 10) (h11 : k / 0x100000 ≠ 11) : (m.warmSigns r).reg k = m.reg k := by
  simp only [List.mem_cons, List.not_mem_nil, or_false, not_or] at h
  obtain ⟨hsec, hstatus, hcause, htime, hcounts⟩ := h
  simp only [Block.warmSigns]
  rw [Block.reg_satFld_ne _ _ _ _ _ _ hcounts, Block.reg_setReg_ne _ _ _ _ htime, Block.reg_setReg_ne _ _ _ _ hcause,
    Block.reg_setFld_ne _ _ _ _ _ _ hstatus, Block.reg_memState _ _ _ h10 h11, Block.clearMeas, Block.reg_setFld_ne _ _ _ _ _ _ hsec]
  exact Block.foldl_keeps (fun m => m.reg k) (fun m _ => m.reg_noteUnreach _ k) _ m

/-- The registers that it sets (R420). -/
theorem Block.warmSigns_regs (m : Block) {r : ResetInProgress} (hs : r.source < 16) (hr : r.request < 2 ^ 64) :
    (m.warmSigns r).fld Reg.rstCause 63 60 = 1 ∧ (m.warmSigns r).fld Reg.rstCause 59 56 = r.source ∧
    ((m.warmSigns r).reg Reg.rstTime).toNat = r.request ∧ (m.warmSigns r).phase = 0 := by
  have hcause : (m.warmSigns r).reg Reg.rstCause = putField (putField 0 63 60 1) 59 56 r.source := by
    simp only [Block.warmSigns]
    rw [Block.reg_satFld_ne _ _ _ _ _ _ (by decide), Block.reg_setReg_ne _ _ _ _ (by decide), Block.reg_setReg_self]
  have htime : (m.warmSigns r).reg Reg.rstTime = BitVec.ofNat 64 r.request := by
    simp only [Block.warmSigns]
    rw [Block.reg_satFld_ne _ _ _ _ _ _ (by decide), Block.reg_setReg_self]
  refine ⟨?_, ?_, ?_, ?_⟩
  · rw [Block.fld, hcause, field_putField_apart _ _ _ _ _ _ (by decide) (by decide), field_putField_self _ _ _ _ (by decide)]
    rfl
  · rw [Block.fld, hcause, field_putField_self _ _ _ _ (by decide)]
    exact Nat.mod_eq_of_lt hs
  · rw [htime, BitVec.toNat_ofNat, Nat.mod_eq_of_lt hr]
  · simp only [Block.phase, Block.warmSigns, Block.fld]
    rw [Block.reg_satFld_ne _ _ _ _ _ _ (by decide), Block.reg_setReg_ne _ _ _ _ (by decide), Block.reg_setReg_ne _ _ _ _ (by decide),
      Block.reg_setFld_self, field_putField_self _ _ _ _ (by decide), Nat.zero_mod]

/-- The state that the assertion of a warm reset leaves (R420). -/
theorem Block.assertWarm_post (m : Block) {r : ResetInProgress} (hs : r.source < 16) (hr : r.request < 2 ^ 64) :
    let m' := m.assertWarm r
    m'.fld Reg.rstCause 63 60 = 1 ∧ m'.fld Reg.rstCause 59 56 = r.source ∧ (m'.reg Reg.rstTime).toNat = r.request ∧ m'.phase = 0 ∧
      m'.fw.fwUp = false ∧ m'.time = m.time ∧ m'.pwr.pstate = 0 ∧ (∀ n < 128, m'.coreSt n = 0) ∧ m'.tags = [] := by
  obtain ⟨m1, heq, hfw, htime, hpwr, htags, hreg⟩ := m.assertWarm_eq r
  obtain ⟨hfw', htime', hpwr', htags'⟩ := by simpa only [Block.beside, Prod.mk.injEq] using m1.beside_warmSigns r
  obtain ⟨hkind, hsource, hrequest, hphase⟩ := m1.warmSigns_regs hs hr
  intro m'
  rw [show m' = m1.warmSigns r from heq]
  refine ⟨hkind, hsource, hrequest, hphase, hfw'.symm ▸ hfw, htime'.trans htime, hpwr'.symm ▸ hpwr, fun n hn => ?_, htags'.trans htags⟩
  have hwindow := Reg.coreSeqStatus_window hn
  have hlost : keepWarm (Reg.coreSeqStatus n) = false := by simp only [keepWarm, hwindow]
  have hother : Reg.coreSeqStatus n ∉ [Reg.secStatus, Reg.rstStatus, Reg.rstCause, Reg.rstTime, Reg.rstCounts] := by
    simp only [List.mem_cons, List.not_mem_nil, or_false, Reg.coreSeqStatus, Reg.secStatus, Reg.rstStatus, Reg.rstCause, Reg.rstTime, Reg.rstCounts]
    omega
  rw [Block.coreSt, Block.fld, m1.reg_warmSigns r hother (by omega) (by omega), hreg _ hlost, resetValue_coreSeqStatus _ hn]
  rfl

/- The assertion of a cold reset that restarts option loading -/

/-- The state that it leaves (R416, R418). -/
theorem Block.assertCold_post (m : Block) {r : ResetInProgress} (hs : r.source < 16) (hr : r.restart = true) :
    let m' := m.assertCold r
    m'.fld Reg.rstCause 63 60 = 0 ∧ m'.fld Reg.rstCause 59 56 = r.source ∧ m'.reg Reg.rstTime = 0 ∧ m'.phase = 0 ∧ m'.cores = [] ∧ m'.cmd.cmds = [] := by
  intro m'
  have heq : m' = (((({ m.coldKeep true with pwr.rst := some { r with asserted := some (m.coldKeep true).time, request := r.request } } :
      Block).setFld Reg.rstStatus 63 60 0).setReg Reg.rstCause (putField 0 59 56 r.source)).setReg Reg.rstTime 0) := by
    simp only [m', Block.assertCold, hr, if_true]
  have hcause : m'.reg Reg.rstCause = putField 0 59 56 r.source := by
    rw [heq, Block.reg_setReg_ne _ _ _ _ (by decide), Block.reg_setReg_self]
  refine ⟨?_, ?_, by rw [heq, Block.reg_setReg_self], ?_, by rw [heq]; rfl, by rw [heq]; rfl⟩
  · rw [Block.fld, hcause, field_putField_apart _ _ _ _ _ _ (by decide) (by decide)]
    rfl
  · rw [Block.fld, hcause, field_putField_self _ _ _ _ (by decide)]
    exact Nat.mod_eq_of_lt hs
  · rw [Block.phase, Block.fld, heq, Block.reg_setReg_ne _ _ _ _ (by decide), Block.reg_setReg_ne _ _ _ _ (by decide), Block.reg_setFld_self,
      field_putField_self _ _ _ _ (by decide), Nat.zero_mod]

/- The release -/

/-- What holds a reset (R411, R412, R420). -/
def Block.resetHolds (m : Block) (r : ResetInProgress) (a : Nat) : Prop :=
  m.pwr.stuck = true ∨ m.pwr.refclk = false ∨ 2 ≤ m.clkMode ∨ m.time < m.pwr.holdUntil ∨ m.time < m.pwr.lowUntil ∨ (r.cold = false ∧ m.time < a + 25000)

/-- The digest of the option block as the ROM measures it (Table 20.2). -/
def Block.optionDigest (m : Block) : List Byte :=
  let o := m.fw.opt
  sha3 (Config.optionBlockBytes [o.seq, o.prefSlot, if o.trial then 1 else 0, o.tries, o.paceSlot, o.sadGib, o.reserveMib, o.traceEn.toNat])

/-- The release of a warm reset, once the ROM is measured: the option block is measured, every tile's clock runs, and stage 2 of option loading
begins (R417, R420). -/
def Block.warmReleased (m : Block) : Block :=
  let m3 := { m.extend 3 0 m.optionDigest with
    pwr := { m.pwr with rst := none, coldOpt := false, wdogStart := m.time, pstate := 0
                        recovery := m.pwr.recovery.map fun (x : Nat × Nat) => (x.1, 3) } }
  ((m3.allTiles fun _ t => { t with pllOn := true, idleFrom := m3.time }).setFld Reg.rstStatus 63 60 2).boot

section
variable {m : Block} {r : ResetInProgress} {a : Nat} (hr : m.pwr.rst = some r) (ha : r.asserted = some a)
include hr ha

/-- A reset that is held is not released. -/
theorem resetReleaseEffect_of_held (h : m.resetHolds r a) : resetReleaseEffect m = m := by
  simp only [resetReleaseEffect, hr, ha]
  exact if_pos (by simpa [Block.resetHolds] using h)

/-- A warm reset that is not is. -/
theorem resetReleaseEffect_of_warm (h : ¬ m.resetHolds r a) (hc : r.cold = false) (hs : r.restart = false) (hm : m.measureRom.pwr.stuck = false) :
    resetReleaseEffect m = m.measureRom.warmReleased := by
  simp only [resetReleaseEffect, hr, ha]
  rw [if_neg (by simpa [Block.resetHolds] using h)]
  simp only [hc, hs, Bool.false_eq_true, if_false, hm, Block.warmReleased, Block.optionDigest]

end

section
variable {m : Block} {r : ResetInProgress} (hr : m.pwr.rst = some r) (ha : r.asserted = none) (hs : m.pwr.stuck = false)
include hr ha hs

/-- A warm reset is asserted by the row of its own, not by that of a cold one. -/
theorem resetEffects_of_warm (h : r.cold = false) : warmResetEffect m = m.assertWarm r ∧ coldResetEffect m = m := by
  simp [warmResetEffect, coldResetEffect, hr, ha, hs, h]

/-- And a cold reset by its own. -/
theorem resetEffects_of_cold (h : r.cold = true) : coldResetEffect m = m.assertCold r ∧ warmResetEffect m = m := by
  simp [warmResetEffect, coldResetEffect, hr, ha, hs, h]

end

/-- Three low samples of MOD_RST_N ask for a warm reset, and hold it (R412). -/
theorem modRstNAssertEffect_of_low {m : Block} {n : Nat} (hn : 3 ≤ n) (hon : m.pwr.powered = true) : modRstNAssertEffect n m =
    { m.requestReset false 2 with
      pwr.holdUntil := max m.pwr.holdUntil (m.time + 25000), pwr.lowUntil := max m.pwr.lowUntil (m.time + (n - 3)) } := by
  rw [modRstNAssertEffect]
  exact if_neg (by simp [hon, hn])

/-- Fewer do not. -/
theorem modRstNAssertEffect_of_short (m : Block) {n : Nat} (hn : n < 3) : modRstNAssertEffect n m = m := if_pos (.inl hn)

/-- Settles O53: requests by who asks and what they meet, assertions by what they leave, and the release by what holds it. -/
theorem moduleResets : Obligations.ModuleResets := by
  refine ⟨fun cold c s hc => ?_, fun m cold source hon hfree hallow => ⟨fun r hr => ⟨?_, ?_⟩, fun hr hopt => ?_⟩,
    fun n s hn hon => gives_of_commit rfl (modRstNAssertEffect_of_low hn hon),
    fun n s hn => gives_of_commit rfl (modRstNAssertEffect_of_short s.m hn), fun r s hr ha hs => ⟨fun h => ?_, fun h => ?_⟩,
    fun m r hs hr => ⟨m.assertWarm_post hs hr, m.assertCold_post hs⟩, fun r a s hr ha h => gives_of_commit rfl (resetReleaseEffect_of_held hr ha h),
    fun r a s hr ha h1 h2 h3 h4 h5 hc hs h6 hm => gives_of_commit rfl (resetReleaseEffect_of_warm hr ha ?_ hc hs hm)⟩
  · have hexec (r : Requester) (k : Nat) : exec (c r k) s = s.commit (s.m.byHost r fun m => m.rstModule r cold k) := by
      rcases hc with ⟨rfl, rfl⟩ | ⟨rfl, rfl⟩ <;> rfl
    refine ⟨gives_of_commit (hexec _ _) rfl, fun p hp => gives_of_commit (hexec _ _) (s.m.byHost_of_ok p 0 _ hp rfl), fun r k hk hr => ?_⟩
    rcases hr with rfl | rfl <;> exact gives_of_commit (hexec _ _) (s.m.rstModule_of_unconfirmed _ cold hk)
  · exact fun h => Block.requestReset_of_absorbed hon hfree hallow hr h
  · exact fun hcold h => Block.requestReset_of_colder hon hfree hallow hr hcold h
  · exact ⟨_, Block.requestReset_of_none hon hfree hallow hr hopt, rfl, rfl, rfl, rfl⟩
  · obtain ⟨hwarm, hcold⟩ := resetEffects_of_warm hr ha hs h
    exact ⟨gives_of_commit rfl hwarm, gives_of_commit rfl hcold⟩
  · obtain ⟨hcold, hwarm⟩ := resetEffects_of_cold hr ha hs h
    exact ⟨gives_of_commit rfl hcold, gives_of_commit rfl hwarm⟩
  · simp only [Block.resetHolds, h1, h2, Bool.true_eq_false, Bool.false_eq_true, false_or]
    omega

end Sys2Proof.Machine

/-! SUPPORT. Power, boot and narrower resets (R390 to R392, R407 to R409, R414, R416 to R419, R424): what each row does when its condition holds. -/
namespace Sys2Proof.Machine

/- Power -/

/-- A commit of the security version that is cut short blows no fuse back (R488). -/
theorem Block.svnFuses_le_cutCommit (m : Block) : m.fuse.svnFuses ≤ m.cutCommit.fuse.svnFuses := by
  simp only [Block.cutCommit]
  split
  · exact le_rfl
  · exact Nat.le_add_right _ _

/-- Staging that fails blows none. -/
theorem Block.fuse_stageFail (m : Block) : m.stageFail.fuse = m.fuse := by
  simp only [Block.stageFail]
  split
  · split <;> rfl
  · rfl

/-- The module without power (R429): the memories read zero, and no core, queue or firmware is left. -/
theorem Block.powerDown_post (m : Block) : let m' := m.powerDown
    m'.pwr.powered = false ∧ m'.cores = [] ∧ m'.cmd.queues = [] ∧ m'.fw.fwUp = false ∧ m.fuse.svnFuses ≤ m'.fuse.svnFuses ∧
      ∀ a, a < hostBase → m'.mem.read a = 0 := by
  refine ⟨rfl, rfl, rfl, rfl, ?_, fun a ha => ?_⟩
  · exact (m.svnFuses_le_cutCommit).trans_eq (congrArg Fuses.svnFuses (m.cutCommit.fuse_stageFail).symm)
  · exact (Memory.read_filter (fun a => decide (hostBase ≤ a)) m.cutCommit.stageFail.mem a).trans (if_neg (by simpa using ha))

/-- Power that is there already. -/
theorem powerOnEffect_of_on (straps : Nat) {m : Block} (h : m.pwr.powered = true) : powerOnEffect straps m = m := if_pos h

/-- PWR_GOOD rises (R416). -/
theorem powerOnEffect_of_off (straps : Nat) {m : Block} (h : m.pwr.powered = false) : powerOnEffect straps m =
    ({ m.coldKeep false with pwr.powered := true, pwr.straps := straps, pwr.holdUntil := 0, pwr.lowUntil := 0 } : Block).assertCold
      { cold := true, source := 1, request := 0 } := by
  rw [powerOnEffect, h]
  rfl

/-- An input voltage outside its limits for their time takes the power away (Table 18.1). -/
theorem inputVoltageFaultEffect_of_out {m : Block} {mv ticks : Nat} (hon : m.pwr.powered = true)
    (h : (mv < 44000 ∧ 2500 ≤ ticks) ∨ (57000 < mv ∧ 250 ≤ ticks)) : inputVoltageFaultEffect mv ticks m = m.powerDown := if_pos ⟨hon, h⟩

/-- One inside them does not. -/
theorem inputVoltageFaultEffect_of_in (m : Block) {mv : Nat} (ticks : Nat) (h1 : 44000 ≤ mv) (h2 : mv ≤ 57000) :
    inputVoltageFaultEffect mv ticks m = m := if_neg (by omega)

/- Boot -/

section
variable {m : Block} (hrst : m.pwr.rst = none)
include hrst

/-- What the ROM makes of the image that it has copied in stage 2 (R390 to R393). -/
theorem firmwareLoadedEffect_of_stage2 {slot : Nat} (hphase : m.phase = 2) (hup : m.fw.fwUp = false) (hslot : m.fw.bootSlot = some slot) :
    let img := if slot ≤ 1 then m.slotImage slot else m.fw.netImage
    firmwareLoadedEffect slot m =
      if m.sound img then
        { (({ m.startImage slot img with fw.netImage := [], fw.staging := none }).setFld Reg.rstStatus 63 60 3).trainingStarts with
          pwr.wdogStart := if slot ≤ 1 then m.pwr.wdogStart else m.time }
      else if slot ≤ 1 then m.pickSlot else { m with fw.bootSlot := none, fw.netImage := [] } := by
  rw [firmwareLoadedEffect]
  refine (if_neg (by simp [hphase, hup, hrst, hslot])).trans ?_
  simp only [hphase, Nat.reduceEqDiff, if_false]

omit hrst in
/-- Option loading whose time is not over goes on (R419). -/
theorem optionWatchdogExpiryEffect_of_early (h : m.time < m.pwr.wdogStart + 500000000) : optionWatchdogExpiryEffect m = m :=
  if_pos (.inr (.inr (.inr h)))

/-- In stage 3 its end asks for a warm reset. -/
theorem optionWatchdogExpiryEffect_of_late (hphase : m.phase = 3) (h : m.pwr.wdogStart + 500000000 ≤ m.time) :
    optionWatchdogExpiryEffect m = (m.satFld Reg.rstStatus 59 56 1).requestReset false 6 := by
  simp only [optionWatchdogExpiryEffect, hphase, hrst]
  exact if_neg (by simpa using h)

/-- The block once stages 3 and 4 of option loading have run (R417). -/
def Block.optionsLoaded (m : Block) : Block :=
  let m1 := m.mountControl.fillMaps.fillBanks
  let m2 := (if m.pwr.recovery.isSome then m1.remountBanks else m1).repairRows.bringHbm.bringTier.configure
  let m3 := { m2.fillCap with
    fw.fwUp := true, fw.fetchStop := false, pwr.pins.modReady := true, pwr.pins.mgmtOn := true, pwr.recovery := m2.pwr.recovery.map fun (x : Nat × Nat) => (x.1, 4) }
  (m3.setFld Reg.rstStatus 63 60 4).setFld Reg.rstStatus 59 56 0

section
variable (hphase : m.phase = 3) (hon : m.pwr.powered = true) (hup : m.fw.fwUp = false)
include hphase hon hup

/-- Option loading ends with the Evotrix ports in training, and the Chotus ports where the ROM has not freed them already (R417). -/
theorem optionLoadingEndEffect_of_stage3 :
    optionLoadingEndEffect m = (if m.optionsLoaded.bootSrc ≥ 2 then m.optionsLoaded else m.optionsLoaded.freeChotus).freeEvotrix := by
  rw [optionLoadingEndEffect]
  exact if_neg (by simp [hphase, hrst, hon, hup])

/-- An image from flash or the network: the Chotus ports start here. -/
theorem optionLoadingEndEffect_of_flash (h : m.optionsLoaded.bootSrc < 2) : optionLoadingEndEffect m = m.optionsLoaded.freeChotus.freeEvotrix := by
  rw [optionLoadingEndEffect_of_stage3 hrst hphase hon hup, if_neg (Nat.not_le.mpr h)]

/-- An image from a mailbox: they have started already. -/
theorem optionLoadingEndEffect_of_mailbox (h : 2 ≤ m.optionsLoaded.bootSrc) : optionLoadingEndEffect m = m.optionsLoaded.freeEvotrix := by
  rw [optionLoadingEndEffect_of_stage3 hrst hphase hon hup, if_pos h]

end

end

section
variable {m : Block} (hrun : m.fwRuns = true) (hm0 : m.pwr.pstate = 0) (htrial : m.fld Reg.fwRun 61 61 = 1) (hfb : m.fld Reg.fwRun 60 60 = 0)

/-- A trial image that has not run for 60 s is not confirmed (R392). -/
theorem trialConfirmEffect_of_early (h : m.time < m.fw.runSince + 1500000000) : trialConfirmEffect m = m := if_pos (.inr (.inr (.inr (.inr h))))

include hrun hm0 htrial hfb

/-- One that has is. -/
theorem trialConfirmEffect_of_late (h : m.fw.runSince + 1500000000 ≤ m.time) :
    trialConfirmEffect m = (m.writeOpt fun o => { o with trial := false, tries := 0 }).setFld Reg.fwRun 61 61 0 :=
  if_neg (by simpa [hrun, hm0, htrial, hfb] using h)

end

/- Narrower resets -/

section
variable {m : Block} {d : Nat} (hon : m.pwr.powered = true) (hstyle : m.fld Reg.aonStraps 61 61 = 1) (hd : d < m.domains)
include hon hstyle hd

/-- A domain that fails a module reset holds the module in reset (R414). -/
theorem domainResetFailEffect_of_module (h : m.pwr.rst ≠ none) : domainResetFailEffect d m =
    { (m.setFld Reg.rstStatus 16 16 1).setFld Reg.rstStatus 15 0 d with pwr.stuck := true } := by
  rw [domainResetFailEffect]
  exact (if_neg (by simp [hon, hstyle, hd])).trans (if_pos (Option.isSome_iff_ne_none.mpr h))

/-- One that fails a narrower reset makes it escalate (R414, R449). -/
theorem domainResetFailEffect_of_narrow {r : NarrowReset} (h : m.pwr.rst = none) (hr : (m.pwr.narrow.find? fun r => m.reaches r d) = some r) :
    domainResetFailEffect d m = ((m.setFld Reg.rstStatus 16 16 1).setFld Reg.rstStatus 15 0 d).escalate r := by
  rw [domainResetFailEffect]
  refine (if_neg (by simp [hon, hstyle, hd])).trans ((if_neg (by simp [h])).trans ?_)
  rw [hr]

end

section
variable {m : Block} (f : Block → Block)

/-- A narrow reset asked for during a module reset is absorbed and counted (R411). -/
theorem Block.narrowCmd_of_module (h : m.pwr.rst ≠ none) : m.narrowCmd .firmware 0x5A3C f = m.satFld Reg.rstStatus 47 32 1 := by
  simp [Block.narrowCmd, isFw, Option.isSome_iff_ne_none.mpr h]

/-- During option loading it is dropped (R418). -/
theorem Block.narrowCmd_of_loading (h : m.pwr.rst = none) (hup : m.fw.fwUp = false) : m.narrowCmd .firmware 0x5A3C f = m := by
  simp [Block.narrowCmd, isFw, h, hup]

/-- Else it is done. -/
theorem Block.narrowCmd_of_up (h : m.pwr.rst = none) (hup : m.fw.fwUp = true) : m.narrowCmd .firmware 0x5A3C f = f m := by
  simp [Block.narrowCmd, isFw, h, hup]

end

/-- What the reset commands of a core, a tile, an engine and a fabric port make of a unit that is there (R408, R512). -/
def NarrowRow (s : State) (c : Instr) (f : Block → Block) : Prop := ∃ g, exec c s = s.commit (s.m.narrowCmd .firmware 0x5A3C g) ∧ g s.m = f s.m

/- The reference clock -/

/-- A loss that is too short does nothing (R424). -/
theorem refclkLossEffect_of_short (m : Block) {ticks : Nat} (h : ticks < 250) : refclkLossEffect ticks m = m := if_pos (.inr (.inr h))

/-- Another opens an emergency, and starts device recovery where firmware runs. -/
theorem refclkLossEffect_of_long {m : Block} {ticks : Nat} (ha : m.alive = true) (hr : m.pwr.refclk = true) (h : 250 ≤ ticks) :
    let m1 := (({ m with pwr.refclk := false } : Block).satFld Reg.aonRefclk 31 0 1).emergency 5
    refclkLossEffect ticks m = if m1.fw.fwUp then m1.startRecovery else m1 := by
  rw [refclkLossEffect]
  exact if_neg (by simp [ha, hr, h])

/-- Settles O54: each row by its own condition; the narrow resets by the state of the module reset and of firmware. -/
theorem powerAndBoot : Obligations.PowerAndBoot := by
  refine ⟨fun straps s => ⟨fun h => gives_of_commit rfl (powerOnEffect_of_on straps h), fun h => gives_of_commit rfl (powerOnEffect_of_off straps h)⟩,
    fun s hon => ?_, fun mv ticks s hon => ⟨fun h => gives_of_commit rfl (inputVoltageFaultEffect_of_out hon h),
      fun h1 h2 => gives_of_commit rfl (inputVoltageFaultEffect_of_in s.m ticks h1 h2)⟩,
    fun slot s hphase hup hrst hslot => gives_of_commit rfl (firmwareLoadedEffect_of_stage2 hrst hphase hup hslot),
    fun s hphase hrst hon hup => ?_, fun s hphase hrst => ⟨fun h => gives_of_commit rfl (optionWatchdogExpiryEffect_of_early h),
      fun h => gives_of_commit rfl (optionWatchdogExpiryEffect_of_late hrst hphase h)⟩,
    fun s hrun hm0 htrial hfb => ⟨fun h => gives_of_commit rfl (trialConfirmEffect_of_early h), fun h => ?_⟩,
    fun d s hon hstyle hd => ⟨fun h => gives_of_commit rfl (domainResetFailEffect_of_module hon hstyle hd h),
      fun r h hr => gives_of_commit rfl (domainResetFailEffect_of_narrow hon hstyle hd h hr)⟩, fun n c f s hrow => ?_,
    fun ticks s ha hr => ⟨fun h => gives_of_commit rfl (refclkLossEffect_of_short s.m h), fun h => ⟨fun hup => ?_, fun hup => ?_⟩⟩,
    fun s => gives_of_commit rfl rfl⟩
  · have hgives : Gives .powerLoss s s.m.powerDown := gives_of_commit rfl (if_pos hon)
    obtain ⟨hoff, hcores, hqueues, hfw, hfuses, hmem⟩ := s.m.powerDown_post
    exact hgives.completes ⟨hoff, hcores, hqueues, hfw, hfuses, fun a ha => (Memory.read_canon _ a).trans (hmem a ha)⟩
  · exact ⟨fun h => gives_of_commit rfl (optionLoadingEndEffect_of_flash hrst hphase hon hup h),
      fun h => gives_of_commit rfl (optionLoadingEndEffect_of_mailbox hrst hphase hon hup h)⟩
  · have hgives := gives_of_commit (c := .trialConfirm) (s := s) rfl (trialConfirmEffect_of_late hrun hm0 htrial hfb h)
    exact hgives.completes ⟨Block.fld_setFld_self _ _ _ _ _ (by decide), rfl, rfl⟩
  · have hnarrow : NarrowRow s c f := by
      rcases hrow with ⟨rfl, hn, rfl⟩ | ⟨rfl, hn, rfl⟩ | ⟨e, he, rfl, rfl⟩ | ⟨rfl, rfl⟩
      · exact ⟨_, rfl, if_neg (Nat.not_le.mpr hn)⟩
      · exact ⟨_, rfl, if_neg (Nat.not_le.mpr hn)⟩
      · exact ⟨_, rfl, by simp only [he]⟩
      · exact ⟨_, rfl, rfl⟩
    obtain ⟨g, hexec, hg⟩ := hnarrow
    exact ⟨fun h => gives_of_commit hexec (Block.narrowCmd_of_module g h),
      fun h hup => gives_of_commit hexec ((Block.narrowCmd_of_up g h hup).trans hg), fun h hup => gives_of_commit hexec (Block.narrowCmd_of_loading g h hup)⟩
  · exact gives_of_commit rfl ((refclkLossEffect_of_long ha hr h).trans (if_pos hup))
  · exact gives_of_commit rfl ((refclkLossEffect_of_long ha hr h).trans (if_neg (by simp [hup])))

end Sys2Proof.Machine

/-! SUPPORT. Power states, emergencies and the cap (R423, R430 to R439, R496): what changing every tile does to one of them, what an emergency
leaves of the power state, and each row under its own condition. -/
namespace Sys2Proof.Machine

/- Every tile at once -/

/-- Changing tiles of a list changes each of them once. -/
theorem Block.tile_foldl_modTile (f : Nat → TileState → TileState) (t : Nat) {l : List Nat} (hl : l.Nodup) (m : Block) :
    (l.foldl (fun m t => m.modTile t (f t)) m).tile t = if t ∈ l then f t (m.tile t) else m.tile t := by
  induction l generalizing m with
  | nil => rfl
  | cons k l ih =>
    obtain ⟨hk, hl⟩ := List.nodup_cons.mp hl
    rw [List.foldl_cons, ih hl]
    by_cases h : t = k
    · subst h
      rw [if_neg hk, if_pos List.mem_cons_self, Block.tile_modTile_self]
    · rw [Block.tile_modTile_ne _ _ _ _ h]
      simp [h]

/-- A tile that is there once every present tile has changed. -/
theorem Block.tile_allTiles (m : Block) (f : Nat → TileState → TileState) {t : Nat} (h : t < m.tileCount) :
    (m.allTiles f).tile t = f t (m.tile t) :=
  (Block.tile_foldl_modTile f t List.nodup_range m).trans (if_pos (List.mem_range.mpr h))

/-- The power state stands where only tiles change. -/
@[simp] theorem Block.pwr_allTiles (m : Block) (f : Nat → TileState → TileState) : (m.allTiles f).pwr = m.pwr :=
  Block.foldl_keeps (f := fun m t => m.modTile t (f t)) Block.pwr (fun _ _ => rfl) _ m

/-- So it does when the hardware brakes. -/
@[simp] theorem Block.pwr_applyBrake (m : Block) : m.applyBrake.pwr = m.pwr := by
  simp only [Block.applyBrake]
  split
  · rfl
  · exact m.pwr_allTiles _

/- Emergencies -/

/-- A window that opens leaves the power state. -/
@[simp] theorem Block.pwr_windowOpened (m : Block) (recovery : Bool) (start : Nat) : (m.windowOpened recovery start).pwr = m.pwr := rfl

/-- So does an activation that is deferred again. -/
@[simp] theorem Block.pwr_actEmergency (m : Block) : m.actEmergency.pwr = m.pwr := (apply_ite Block.pwr _ _ _).trans (ite_self m.pwr)

/-- The beginning of a new cause up to the opening of the window: it is counted and kept, the management bus hears of it, and the hardware brakes
(R435 to R437). -/
def Block.causeBegins (m : Block) (cause : Nat) : Block :=
  let m1 := if cause ≤ 4 then m.satFld Reg.pwrEvents (causeField cause + 15) (causeField cause) 1 else m
  let m2 := { m1 with pwr.causes := m1.pwr.causes ++ [cause], pwr.effDue := m1.pwr.effDue || cause == 3 }
  (if cause = 1 then m2.i3cEvent 1 else if cause = 2 ∨ cause = 4 then m2.i3cEvent 0 else m2).applyBrake

/-- It adds the cause. -/
theorem Block.causes_causeBegins (m : Block) (cause : Nat) : (m.causeBegins cause).pwr.causes = m.pwr.causes ++ [cause] := by
  simp only [Block.causeBegins, Block.pwr_applyBrake, apply_ite Block.pwr, Block.pwr_i3cEvent, Block.satFld_pwr, ite_self]

/-- A new cause opens the window where none is open (R435). -/
theorem Block.emergency_of_new {m : Block} {cause : Nat} (h : m.pwr.causes.contains cause = false) :
    let m4 := m.causeBegins cause
    m.emergency cause = if m4.pwr.emergOpen then m4
      else ((({ m4 with pwr.emergOpen := true } : Block).setFld Reg.pwrState 60 58 cause).windowOpened false m.time).actEmergency.trace 8 6 := by
  rw [Block.emergency]
  exact if_neg (Bool.eq_false_iff.mp h)

/-- What a new cause leaves of the power state. -/
theorem Block.emergency_post {m : Block} {cause : Nat} (h : m.pwr.causes.contains cause = false) :
    (m.emergency cause).pwr.causes = m.pwr.causes ++ [cause] ∧ (m.emergency cause).pwr.emergOpen = true := by
  rw [Block.emergency_of_new h, ← m.causes_causeBegins cause]
  split
  next hopen => exact ⟨rfl, hopen⟩
  next => simp only [Block.pwr_trace, Block.pwr_actEmergency, Block.pwr_windowOpened, Block.setFld_pwr, and_self]

section
variable {m : Block} (ha : m.alive = true)
include ha

/-- An input pin that is low for two ticks is a cause (Table 18.5). -/
theorem pinEffects_of_long {ticks : Nat} (h : 2 ≤ ticks) : brakeAssertEffect ticks m = m.emergency 1 ∧ thermAlertAssertEffect ticks m = m.emergency 2 :=
  ⟨if_pos ⟨ha, h⟩, if_pos ⟨ha, h⟩⟩

/-- So is a current above 160 A for 500. -/
theorem overcurrentDetectEffect_of_long {ca ticks : Nat} (hca : 16000 < ca) (h : 500 ≤ ticks) : overcurrentDetectEffect ca ticks m = m.emergency 3 :=
  if_pos ⟨ha, hca, h⟩

/-- So is a tile's sensor at its emergency threshold. -/
theorem tileEmergencyTempEffect_of_hot {t temp : Nat} (ht : t < m.tileCount) (h : m.fld Reg.pwrTherm 31 16 ≤ temp) :
    tileEmergencyTempEffect t temp m = (m.modTile t fun x => { x with temp := temp, hot := true }).emergency 4 :=
  if_neg (by simp [ha, ht, h])

end

/-- What is too short or too little is none. -/
theorem pinEffects_of_short (m : Block) {ticks : Nat} (h : ticks < 2) : brakeAssertEffect ticks m = m ∧ thermAlertAssertEffect ticks m = m :=
  ⟨if_neg fun h' => absurd h'.2 (Nat.not_le.mpr h), if_neg fun h' => absurd h'.2 (Nat.not_le.mpr h)⟩

/-- A cause that has not been over for long enough stays. -/
theorem Block.causeOver_of_short (m : Block) (cause : Nat) {ticks : Nat} (h : ticks < 25000) : m.causeOver cause ticks = false := by
  simp [Block.causeOver, Nat.not_le.mpr h]

/-- With a cause left the window stays open. -/
theorem emergencyWindowCloseEffect_of_cause {m : Block} (h : m.pwr.causes ≠ []) : emergencyWindowCloseEffect m = m :=
  if_pos (.inr (.inl (by simpa using h)))

/-- The power state at the end of an emergency, before a cap that was written meanwhile takes effect (R434, R496). -/
def Block.emergencyOver (m : Block) : Block :=
  { m with pwr.emergOpen := false, pwr.effCap := m.pwr.effCap || m.pwr.effDue, pwr.effDue := false, pwr.capLater := none, pwr.under97 := 0 }

/-- Without one it closes once the clocks are back, and a deferred activation goes on (R399, R435). -/
theorem emergencyWindowCloseEffect_of_none {m : Block} (hopen : m.pwr.emergOpen = true) (h : m.pwr.causes = []) (hclk : m.clocksBack = true) :
    emergencyWindowCloseEffect m = (match m.pwr.capLater with
      | some w => m.emergencyOver.writeCap w
      | none => m.emergencyOver).windowClosed.actResume.trace 8 6 := by
  rw [emergencyWindowCloseEffect]
  exact (if_neg (by simp [hopen, h, hclk])).trans rfl

/-- Outside an emergency a cap is written at once where no warning lowers it (R434, R439). -/
theorem Block.writeCap_of_unsaved {m : Block} (w : Nat) (he : m.pwr.emergOpen = false) (hs : m.pwr.capSaved = none) :
    m.writeCap w = m.setFld Reg.pwrCap 15 0 (max 2880 (min w m.sustained)) := by
  simp [Block.writeCap, he, hs]

/-- Where one does, it is kept for the warning's end too. -/
theorem Block.writeCap_of_saved {m : Block} (w : Nat) (he : m.pwr.emergOpen = false) {x : Nat} (hs : m.pwr.capSaved = some x) :
    let c := max 2880 (min w m.sustained)
    m.writeCap w = { m with pwr.capSaved := some c }.setFld Reg.pwrCap 15 0 (min c (m.sustained * 9 / 10)) := by
  simp [Block.writeCap, he, hs]

/- Capping -/

section
variable {m : Block} (ha : m.alive = true) (hup : m.fw.fwUp = true)
include ha hup

/-- A window of measurements (R433). -/
theorem powerCapWindowEffect_of_up (mw mv ca : Nat) (temps : List Nat) : let m1 := m.telemetry mw mv ca temps
    powerCapWindowEffect mw mv ca temps m = if m1.pwr.emergOpen then m1 else m1.capStep mw mv := if_neg (by simp [ha, hup])

/-- A hot inlet lowers the cap and raises the alert where no warning stands (R439). -/
theorem coolantWarnEffect_of_hot {i sec : Nat} (o : Nat) (hi : 400 < i) (hsec : 1 ≤ sec) (hwarn : m.fld Reg.pwrCool 63 63 = 0) :
    let m1 := m.setFld Reg.pwrCool 31 0 (i % 65536 * 65536 + o % 65536)
    let cap := m.fld Reg.pwrCap 15 0
    coolantWarnEffect i o sec m =
      { m1.setFld Reg.pwrCool 63 63 1 with pwr.pins.modAlertN := false, pwr.capSaved := some cap }.setFld Reg.pwrCap 15 0 (min cap (m.sustained * 9 / 10)) := by
  rw [coolantWarnEffect]
  exact (if_neg (by simp [ha, hup])).trans (if_neg (by simp [hi, hsec, hwarn]))

/-- Coolant within its limits is noted. -/
theorem coolantWarnEffect_of_cool {i o : Nat} (sec : Nat) (hi : i ≤ 400) (ho : o ≤ i + 150) :
    coolantWarnEffect i o sec m = m.setFld Reg.pwrCool 31 0 (i % 65536 * 65536 + o % 65536) := by
  rw [coolantWarnEffect]
  exact (if_neg (by simp [ha, hup])).trans (if_pos (by simp [Nat.not_lt.mpr hi, Nat.not_lt.mpr ho]))

end

/-- The clock of a tile at the end of a window: it steps down, or up in the tenth window in a row under 97% of the cap, or stays. -/
theorem Block.tile_capStep (m : Block) (mw mv : Nat) {t : Nat} (ht : t < m.tileCount) :
    let n := if 100 * mw < 97 * 1000 * m.capNow mv then m.pwr.under97 + 1 else 0
    ((m.capStep mw mv).tile t).mhz = if 1000 * m.capNow mv < mw ∨ m.fld Reg.pwrTherm 47 32 ≤ (m.tile t).temp then stepDown m.fg (m.tile t).mhz
      else if 10 ≤ n then min 3000 ((m.tile t).mhz + 100) else (m.tile t).mhz := by
  rw [Block.capStep]
  dsimp only
  refine (congrArg TileState.mhz (Block.tile_allTiles _ _ (by exact ht))).trans ?_
  simp only [Bool.or_eq_true, decide_eq_true_eq, apply_ite TileState.mhz]
  rfl

/- Power states -/

section
variable {m : Block} {t : Nat}

/-- A tile that has been idle for long enough stops its PLL (R423). -/
theorem tilePllIdleStopEffect_of_idle (ht : t < m.tileCount) (hfw : m.fwRuns = true) (hidle : ∀ c < 8, (m.core (8 * t + c)).task = none)
    (hlong : (m.tile t).idleFrom + m.fld Reg.tileClkIdle 31 0 ≤ m.time) : tilePllIdleStopEffect t m = m.modTile t fun x => { x with pllOn := false } := by
  rw [tilePllIdleStopEffect]
  refine if_neg ?_
  have hbusy : ((List.range 8).any fun c => (m.core (8 * t + c)).task.isSome) = false := by simpa using hidle
  simp [ht, hfw, hbusy, hlong]

/-- One with a task on a core does not. -/
theorem tilePllIdleStopEffect_of_busy {c : Nat} (hc : c < 8) (h : (m.core (8 * t + c)).task ≠ none) : tilePllIdleStopEffect t m = m := by
  rw [tilePllIdleStopEffect]
  exact if_pos (.inr (.inr (.inl (List.any_eq_true.mpr ⟨c, List.mem_range.mpr hc, Option.isSome_iff_ne_none.mpr h⟩))))

/-- M1 follows once no tile's PLL runs (Table 18.3). -/
theorem m1EntryEffect_of_stopped (hfw : m.fwRuns = true) (hm0 : m.pwr.pstate = 0) (h : ∀ t < m.tileCount, (m.tile t).pllOn = false) :
    m1EntryEffect m = { m with pwr.pstate := 1, fw.awayAt := m.time } := if_neg (by simpa [hfw, hm0] using h)

/-- Before that it does not. -/
theorem m1EntryEffect_of_running (ht : t < m.tileCount) (h : (m.tile t).pllOn = true) : m1EntryEffect m = m :=
  if_pos (.inr (.inr (List.any_eq_true.mpr ⟨t, List.mem_range.mpr ht, h⟩)))

/-- M2 is entered from M0 where it is asked for and nothing keeps the module out of it (R431). -/
theorem m2EntryEffect_of_quiet (hfw : m.fwRuns = true) (hreq : m.fld Reg.pwrCtl 1 0 = 2) (hquiet : m.quiet = true) (hm0 : m.pwr.pstate = 0) :
    m2EntryEffect m = (({ m with fw.awayAt := m.time, pwr.pstate := 2, pwr.wake := false } : Block).memState 2 3).allTiles fun _ t => { t with pllOn := false } := by
  rw [m2EntryEffect]
  refine (if_neg (by simp [hfw, hreq, hquiet])).trans ?_
  rw [if_pos hm0]

/-- Work keeps the module out of it. -/
theorem m2EntryEffect_of_work (h : m.quiet = false) : m2EntryEffect m = m := if_pos (.inr (.inr (by simp [h])))

/-- It is left on a request (Table 18.3). -/
theorem m2WakeEffect_of_asked (hm2 : m.pwr.pstate = 2) (h : m.pwr.wake = true ∨ m.fld Reg.pwrCtl 1 0 = 0) :
    let m1 := (m.stacksTo 3 1).trainStacks
    m2WakeEffect m = (({ m1.toM0 with pwr.wake := false }.memState 3 2).allTiles fun _ t => { t with pllOn := true, idleFrom := m.time }).applyBrake :=
  if_neg (by simpa [hm2] using fun hw => h.resolve_left (by simp [hw]))

/-- Without one it is not. -/
theorem m2WakeEffect_of_unasked (hw : m.pwr.wake = false) (hreq : m.fld Reg.pwrCtl 1 0 ≠ 0) : m2WakeEffect m = m := if_pos (.inr (by simp [hw, hreq]))

end

/- Training of a stack -/

/-- A fault record sets no register. -/
theorem Block.fld_faultFor (m : Block) (kind mtype idx t c addr len cause flags node : Nat) (q : Option QueueId) (r hi lo : Nat) :
    (m.faultFor kind mtype idx t c addr len cause flags node q).fld r hi lo = m.fld r hi lo := rfl

/-- Nor does it fail a stack. -/
theorem Block.failedStacks_faultFor (m : Block) (kind mtype idx t c addr len cause flags node : Nat) (q : Option QueueId) :
    (m.faultFor kind mtype idx t c addr len cause flags node q).flt.failedStacks = m.flt.failedStacks := rfl

/-- A stack that trains is ready (R165). -/
theorem Block.trainStack_of_sound {m : Block} {k : Nat} (h : m.flt.deadStacks.contains k = false) :
    (m.trainStack k).fld (Reg.hbmStatus k) 63 60 = 2 ∧ (m.trainStack k).flt.failedStacks.contains k = false := by
  rw [Block.trainStack, if_pos (by rw [h]; rfl)]
  exact ⟨Block.fld_setFld_self _ _ _ _ _ (by decide), by simp⟩

/-- A dead one is failed, whatever records its tenants get. -/
theorem Block.trainStack_of_dead {m : Block} {k : Nat} (h : m.flt.deadStacks.contains k = true) :
    (m.trainStack k).fld (Reg.hbmStatus k) 63 60 = 4 ∧ (m.trainStack k).flt.failedStacks.contains k = true := by
  rw [Block.trainStack, if_neg (by rw [h]; exact Bool.noConfusion)]
  have hfld : (m.setFld (Reg.hbmStatus k) 63 60 4).fld (Reg.hbmStatus k) 63 60 = 4 := Block.fld_setFld_self _ _ _ _ _ (by decide)
  dsimp only
  split
  next hfailed => exact ⟨hfld, hfailed⟩
  next =>
    constructor
    · refine (Block.foldl_keeps (fun m => m.fld (Reg.hbmStatus k) 63 60) (fun m t => ?_) _ _).trans ?_
      · exact Block.fld_faultFor m _ _ _ _ _ _ _ _ _ _ _ _ _ _
      · exact hfld
    · refine (Block.foldl_keeps (fun m => m.flt.failedStacks.contains k) (fun m t => ?_) _ _).trans ?_
      · rw [Block.failedStacks_faultFor]
      · exact List.contains_iff_mem.mpr (mem_insertNat.mpr (.inl rfl))

/- The thermal trip -/

/-- A commit that is cut short and staging that fails leave the memories. -/
theorem Block.mem_cutCommit_stageFail (m : Block) : m.cutCommit.stageFail.mem = m.mem := by
  have hcut : m.cutCommit.mem = m.mem := by
    simp only [Block.cutCommit]
    split <;> rfl
  rw [← hcut, Block.stageFail]
  split
  · split <;> rfl
  · rfl

/-- A tile below its trip threshold. -/
theorem thermalTripEffect_of_below (m : Block) (t : Nat) {temp : Nat} (h : temp < m.fld Reg.pwrTherm 15 0) : thermalTripEffect t temp m = m :=
  if_pos (.inr (.inr h))

/-- One at it takes the module to M3, with host memory left (R438). -/
theorem thermalTripEffect_post {m : Block} {t temp : Nat} (ha : m.alive = true) (ht : t < m.tileCount) (h : m.fld Reg.pwrTherm 15 0 ≤ temp) :
    let m' := thermalTripEffect t temp m
    m'.pwr.pstate = 3 ∧ m'.pwr.trip = true ∧ m'.fw.fwUp = false ∧ m'.cores = [] ∧ m'.cmd.cmds = [] ∧ m'.cmd.queues = [] ∧
      ∀ a, m'.mem.read a = if hostBase ≤ a then m.mem.read a else 0 := by
  rw [thermalTripEffect, if_neg (by simp [ha, ht, h])]
  refine ⟨rfl, rfl, rfl, rfl, rfl, rfl, fun a => ?_⟩
  refine (Memory.read_filter (fun a => decide (hostBase ≤ a)) _ a).trans ?_
  rw [Block.mem_cutCommit_stageFail]
  simp only [decide_eq_true_eq]
  rfl

/-- Settles O55: each row by its own condition; `capStep` by what it does to a tile, the thermal trip by the memories that survive it. -/
theorem powerRows : Obligations.PowerRows := by
  refine ⟨fun c cause s ha hc => ?_, fun k ca s h => ⟨gives_of_commit rfl (pinEffects_of_short s.m h).1, gives_of_commit rfl (pinEffects_of_short s.m h).2,
      fun hca => gives_of_commit rfl (if_neg fun h' => absurd h'.2.1 (Nat.not_lt.mpr hca))⟩,
    fun t temp s ha ht => ⟨fun h => gives_of_commit rfl (tileEmergencyTempEffect_of_hot ha ht h), fun h => gives_of_commit rfl (if_pos (.inr (.inr h)))⟩,
    fun m cause _ _ h => Block.emergency_post h,
    fun cause ticks s => ⟨fun h => gives_of_commit rfl (if_pos h),
      fun h => gives_of_commit rfl (if_neg (Bool.eq_false_iff.mp (s.m.causeOver_of_short cause h)))⟩,
    fun s hopen => ⟨fun h => gives_of_commit rfl (emergencyWindowCloseEffect_of_cause h), fun h hclk => ?_⟩,
    fun mw mv ca temps s ha hup => ?_, fun m mw mv t ht => ?_, fun mv ticks s => ⟨fun h1 h2 => gives_of_commit rfl (if_pos ⟨h1, h2⟩),
      fun h => gives_of_commit rfl (if_neg (by omega))⟩,
    fun i o sec s ha hup => ?_, fun t s ht hfw hidle hlong => gives_of_commit rfl (tilePllIdleStopEffect_of_idle ht hfw hidle hlong),
    fun t c s hc h => gives_of_commit rfl (tilePllIdleStopEffect_of_busy hc h),
    fun s hfw => ⟨fun hm0 h => gives_of_commit rfl (m1EntryEffect_of_stopped hfw hm0 h), fun t ht h => gives_of_commit rfl (m1EntryEffect_of_running ht h),
      fun hreq hquiet hm0 => gives_of_commit rfl (m2EntryEffect_of_quiet hfw hreq hquiet hm0), fun h => gives_of_commit rfl (m2EntryEffect_of_work h)⟩,
    fun s => gives_of_commit rfl (Block.byHost_firmware _ _),
    fun s hm2 => ⟨fun h => gives_of_commit rfl (m2WakeEffect_of_asked hm2 h), fun hw hreq => gives_of_commit rfl (m2WakeEffect_of_unasked hw hreq)⟩,
    fun m k _ => ⟨Block.trainStack_of_sound, Block.trainStack_of_dead⟩,
    fun t temp s ha ht => ⟨fun h => gives_of_commit rfl (thermalTripEffect_of_below s.m t h), fun h => ?_⟩⟩
  · rcases hc with ⟨k, hk, ⟨rfl, rfl⟩ | ⟨rfl, rfl⟩⟩ | ⟨ca, k, hca, hk, rfl, rfl⟩
    · exact gives_of_commit rfl (pinEffects_of_long ha hk).1
    · exact gives_of_commit rfl (pinEffects_of_long ha hk).2
    · exact gives_of_commit rfl (overcurrentDetectEffect_of_long ha hca hk)
  · intro m1
    have hover := emergencyWindowCloseEffect_of_none hopen h hclk
    refine ⟨fun hcap => gives_of_commit rfl (hover.trans (by rw [hcap]; rfl)), fun w hcap => ?_⟩
    rw [hcap] at hover
    dsimp only at hover
    exact ⟨fun hs => gives_of_commit rfl (hover.trans (by rw [Block.writeCap_of_unsaved (m := s.m.emergencyOver) w rfl hs]; rfl)),
      fun x hs => gives_of_commit rfl (hover.trans (by rw [Block.writeCap_of_saved (m := s.m.emergencyOver) w rfl hs]; rfl))⟩
  · have hwindow := powerCapWindowEffect_of_up ha hup mw mv ca temps
    exact ⟨fun h => gives_of_commit rfl (hwindow.trans (if_pos h)), fun h => gives_of_commit rfl (hwindow.trans (if_neg (Bool.eq_false_iff.mp h)))⟩
  · have hstep := m.tile_capStep mw mv ht
    dsimp only at hstep
    refine ⟨fun h => hstep.trans (if_pos (.inl h)), fun _ h => hstep.trans (if_pos (.inr h)), fun h1 h2 hlow hn => ?_, fun h1 h2 hhigh => ?_⟩
    · rw [hstep, if_neg (by omega), if_pos hlow, if_pos (by omega)]
    · rw [hstep, if_neg (by omega), if_neg (Nat.not_lt.mpr hhigh), if_neg (by omega)]
  · exact ⟨fun hi hsec hwarn => gives_of_commit rfl (coolantWarnEffect_of_hot ha hup o hi hsec hwarn),
      fun hi ho => gives_of_commit rfl (coolantWarnEffect_of_cool ha hup sec hi ho)⟩
  · have hgives : Gives (.thermalTrip t temp) s (thermalTripEffect t temp s.m) := gives_of_commit rfl rfl
    obtain ⟨hstate, htrip, hup, hcores, hcmds, hqueues, hmem⟩ := thermalTripEffect_post ha ht h
    exact hgives.completes ⟨hstate, htrip, hup, hcores, hcmds, hqueues,
      fun a ha => (Memory.read_canon _ a).trans ((hmem a).trans (if_neg (Nat.not_le.mpr ha))),
      fun a ha => (Memory.read_canon _ a).trans ((hmem a).trans (if_pos ha))⟩

end Sys2Proof.Machine

/-! SUPPORT. Firmware images (R393, R396 to R401): what firmware makes of a staging message and of an activation, and the steps of an activation. -/
namespace Sys2Proof.Machine

/- Staging -/

section
variable {m0 m : Block} {p : Port} {r : MgmtReq} (h : m0.heard p 0x10 = some (m, r)) (hb : stageBodyOk r.body = true) (hfw : m.fwAnswers = true)
include h hb hfw

/-- Firmware serves a sound FW_STAGE message by the row that its OP names (R396). -/
theorem Block.stage_of_firmware {op : Nat} (hop : leAt r.body 0 1 = op) (fw : Block → MgmtReq → Block) (rom : Nat → Block → MgmtReq → Block) :
    m0.stage p op fw rom = fw m r :=
  (Block.serve_of_mine h _ (firstIs_of_first 3 hop)).trans ((if_neg (by rw [hb]; decide)).trans (if_pos hfw))

/-- BEGIN. -/
theorem fwStageBeginEffect_of_sound (hop : leAt r.body 0 1 = 0) : fwStageBeginEffect p m0 =
    if m.stagedSt = 1 ∨ m.stagedSt = 2 ∨ m.actSt ≠ 0 then m.respond r 8 [] else (m.stageBegin (leAt r.body 8 8)).respond r 0 [] :=
  Block.stage_of_firmware h hb hfw hop _ _

/-- DATA with no staging under way. -/
theorem fwStageDataEffect_of_none (hop : leAt r.body 0 1 = 1) (hs : m.fw.staging = none) : fwStageDataEffect p m0 = m.respond r 8 [] :=
  (Block.stage_of_firmware h hb hfw hop _ _).trans (by rw [hs])

/-- DATA is programmed where its sectors are erased, and else waits. -/
theorem fwStageDataEffect_of_some (hop : leAt r.body 0 1 = 1) {x : Staging} (hs : m.fw.staging = some x) : fwStageDataEffect p m0 =
    if x.open_ m.fuse.sector x.waiting r then m.program x r
    else { m with fw.staging := some { x with waiting := x.waiting ++ [r] } }.inProgress p :=
  (Block.stage_of_firmware h hb hfw hop _ _).trans (by rw [hs])

/-- END with no staging under way. -/
theorem fwStageEndEffect_of_none (hop : leAt r.body 0 1 = 2) (hs : m.fw.staging = none) : fwStageEndEffect p m0 = m.respond r 8 [] :=
  (Block.stage_of_firmware h hb hfw hop _ _).trans (by rw [hs])

/-- END with no message waiting answers with what the image is worth. -/
theorem fwStageEndEffect_of_some (hop : leAt r.body 0 1 = 2) {x : Staging} (hs : m.fw.staging = some x) (hw : x.waiting = []) :
    fwStageEndEffect p m0 = (m.stageEnd x).1.respond r (m.stageEnd x).2 [] := by
  refine (Block.stage_of_firmware h hb hfw hop _ _).trans ?_
  rw [hs]
  dsimp only
  rw [Block.refuseWaiting, hw, List.foldl_nil]

/-- ABORT with no message waiting. -/
theorem fwStageAbortEffect_of_unwaited (hop : leAt r.body 0 1 = 3) (hw : ∀ x, m.fw.staging = some x → x.waiting = []) :
    fwStageAbortEffect p m0 = m.stageAbort.respond r 0 [] := by
  refine (Block.stage_of_firmware h hb hfw hop _ _).trans ?_
  cases hs : m.fw.staging with
  | none => rfl
  | some x =>
    dsimp only
    rw [Block.refuseWaiting, hw x hs, List.foldl_nil]

end

/-- An image with gaps fails its END. -/
theorem Block.stageEnd_of_gap (m : Block) {x : Staging} (h : x.image.any Option.isNone = true) :
    m.stageEnd x = ({ m with fw.staging := none }.setReg Reg.fwStaged (putField 0 63 60 4), 2) := if_pos h

/-- Erased sectors add to those that are, where no message waits for them. -/
theorem sectorEraseDoneEffect_of_unwaited {m : Block} (n : Nat) {x : Staging} (hs : m.fw.staging = some x) (hfw : m.fwAnswers = true) (hslot : x.slot ≤ 1)
    (hw : x.waiting = []) : sectorEraseDoneEffect n m = { m with fw.staging := some { x with erased := x.erased + n } } := by
  have hserved : ¬ ((!m.fwAnswers) = true ∨ x.slot > 1) := by
    rw [hfw]
    simpa using hslot
  simp only [sectorEraseDoneEffect, hs, if_neg hserved, hw, List.foldl_nil]

/- Activation -/

section
variable {m0 m : Block} {p : Port} {r : MgmtReq} {w : Nat} (h : m0.heard p 0x11 = some (m, r)) (hlen : 16 ≤ r.body.length) (hw : leAt r.body 0 1 = w)
  (hzero : leAt r.body 1 7 = 0) (hrest : restZero r.body 16 = true) (k : Block → MgmtReq → Block)
include h hlen hw hzero hrest

/-- A sound FW_ACTIVATE passes its shared checks in turn: an image is staged, it is the one that is named, and no activation is under way (R397). -/
theorem Block.activate_of_sound : m0.activate p w k =
    if m.stagedSt ≠ 3 then m.respond r 7 []
    else if leAt r.body 8 4 ≠ m.fld Reg.fwStaged 31 0 ∨ m.actSt ≠ 0 then m.respond r 8 []
    else k (m.setReg Reg.fwActTime (BitVec.ofNat 64 m.time)) r := by
  refine (Block.serve_of_mine h _ (firstIs_of_first 1 hw)).trans (if_neg ?_)
  simp [hw, Nat.not_lt.mpr hlen, hzero, hrest]

/-- Nothing is staged. -/
theorem Block.activate_of_unstaged (hst : m.stagedSt ≠ 3) : m0.activate p w k = m.respond r 7 [] :=
  (Block.activate_of_sound h hlen hw hzero hrest k).trans (if_pos hst)

/-- Another image is, or an activation is under way. -/
theorem Block.activate_of_conflict (hst : m.stagedSt = 3) (hc : leAt r.body 8 4 ≠ m.fld Reg.fwStaged 31 0 ∨ m.actSt ≠ 0) :
    m0.activate p w k = m.respond r 8 [] :=
  (Block.activate_of_sound h hlen hw hzero hrest k).trans ((if_neg (not_not_intro hst)).trans (if_pos hc))

/-- The activation begins. -/
theorem Block.activate_of_clear (hst : m.stagedSt = 3) (hver : leAt r.body 8 4 = m.fld Reg.fwStaged 31 0) (hact : m.actSt = 0) :
    m0.activate p w k = k (m.setReg Reg.fwActTime (BitVec.ofNat 64 m.time)) r :=
  (Block.activate_of_sound h hlen hw hzero hrest k).trans
    ((if_neg (not_not_intro hst)).trans (if_neg (not_or.mpr ⟨not_not_intro hver, not_not_intro hact⟩)))

end

section
variable {m : Block} {a : Activation} (ha : m.fw.act = some a)
include ha

/-- The drain ends once no command runs, or at its limit, with no PACED command left: the tasks that still run are pulled up (Table 16.4). -/
theorem activationDrainLimitEffect_of_drained (hst : m.actSt = 2) (hfw : m.fwRuns = true) (hpaced : ∀ c ∈ m.cmd.cmds, c.pace = none)
    (h : (∀ c ∈ m.cmd.cmds, c.started = false) ∨ a.began + m.fld Reg.fwActDrain 39 0 ≤ m.time) : activationDrainLimitEffect m =
      { m.loose.foldl (fun (b : Block) n => b.pullUp n) m with fw.act := some { a with pulled := m.loose } }.handover := by
  simp only [activationDrainLimitEffect, ha]
  refine if_neg ?_
  have hunpaced : (m.cmd.cmds.any fun c => c.pace.isSome) = false := by simpa using hpaced
  rw [hst, hfw, hunpaced]
  rcases h with h | h
  · have hidle : (m.cmd.cmds.any fun c => c.started) = false := by simpa using h
    simp [hidle]
  · simp [Nat.not_lt.mpr h]

/-- Until then it goes on. -/
theorem activationDrainLimitEffect_of_busy (hbusy : ∃ c ∈ m.cmd.cmds, c.started = true) (h : m.time < a.began + m.fld Reg.fwActDrain 39 0) :
    activationDrainLimitEffect m = m := by
  simp only [activationDrainLimitEffect, ha]
  exact if_pos (.inr (.inr (.inr ⟨List.any_eq_true.mpr hbusy, h⟩)))

/-- A deferred activation is cancelled once its time is over (R399). -/
theorem activationDeferExpiryEffect_of_deferred (hst : m.actSt = 1) :
    activationDeferExpiryEffect m = if m.time < a.request + m.fld Reg.fwActDefer 39 0 then m else m.endAct 2 := by
  simp only [activationDeferExpiryEffect, ha]
  exact if_congr (or_iff_right (not_not_intro hst)) rfl rfl

end

/-- The control complex restarts with the image that is sound: the target's, else the previous one; with neither, the ROM waits (R391, R398). -/
theorem activationRestartDoneEffect_of_restart {m : Block} (hst : m.actSt = 3) (hup : m.fw.fwUp = false) (hrst : m.pwr.rst = none)
    (hon : m.pwr.powered = true) :
    let t := m.fw.opt.prefSlot
    activationRestartDoneEffect m =
      if m.sound (m.slotImage t) then (m.startImage t (m.slotImage t)).takeOver m.actPulled
      else if m.sound (m.slotImage (1 - t)) then ({ m with fw.fallback := true }.startImage (1 - t) (m.slotImage (1 - t))).takeOver m.actPulled
      else { m with fw.recoveryWait := true } :=
  if_neg (by simp [hst, hup, hrst, hon])

/-- Settles O52: staging and activation by the request that is heard, the steps of an activation by their conditions. -/
theorem firmwareUpdate : Obligations.FirmwareUpdate := by
  refine ⟨fun p m r s h hb hfw => ⟨fun hop => ?_, fun hop => ?_, fun hop => ?_, fun hop => ?_⟩, fun n x s hs hfw hslot hw => ?_,
    fun p w c m r s h hlen hw hzero hrest hrow => ?_, fun a s ha => ⟨fun hst hfw hpaced => ?_, fun hst => ?_⟩,
    fun s hst hup hrst hon => gives_of_commit rfl (activationRestartDoneEffect_of_restart hst hup hrst hon)⟩
  · have hbegin := fwStageBeginEffect_of_sound h hb hfw hop
    exact ⟨fun hbusy => gives_of_commit rfl (hbegin.trans (if_pos hbusy)),
      fun h1 h2 h3 => gives_of_commit rfl (hbegin.trans (if_neg (by simp [h1, h2, h3])))⟩
  · refine ⟨fun hs => gives_of_commit rfl (fwStageDataEffect_of_none h hb hfw hop hs), fun x hs => ?_⟩
    have hdata := fwStageDataEffect_of_some h hb hfw hop hs
    exact ⟨fun hopen => gives_of_commit rfl (hdata.trans (if_pos hopen)), fun hshut => gives_of_commit rfl (hdata.trans (if_neg (Bool.eq_false_iff.mp hshut)))⟩
  · refine ⟨fun hs => gives_of_commit rfl (fwStageEndEffect_of_none h hb hfw hop hs), fun x hs hw hgap => ?_,
      fun x hs hw _ => gives_of_commit rfl (fwStageEndEffect_of_some h hb hfw hop hs hw)⟩
    refine gives_of_commit rfl ((fwStageEndEffect_of_some h hb hfw hop hs hw).trans ?_)
    rw [m.stageEnd_of_gap hgap]
  · exact ⟨fun hs => gives_of_commit rfl (fwStageAbortEffect_of_unwaited h hb hfw hop (by simp [hs])),
      fun x hs hw => gives_of_commit rfl (fwStageAbortEffect_of_unwaited h hb hfw hop (by simp [hs, hw]))⟩
  · have hgives := gives_of_commit (c := .sectorEraseDone n) (s := s) rfl (sectorEraseDoneEffect_of_unwaited n hs hfw hslot hw)
    exact hgives.completes ⟨rfl, OnlyRegs.settle [] _⟩
  · rcases hrow with ⟨rfl, rfl⟩ | ⟨rfl, rfl⟩
    · refine ⟨fun hst => gives_of_commit rfl (Block.activate_of_unstaged h hlen hw hzero hrest _ hst),
        fun hst hc => gives_of_commit rfl (Block.activate_of_conflict h hlen hw hzero hrest _ hst hc), fun hst hver hact => ?_⟩
      have hclear : fwActivateNowEffect p s.m = _ := Block.activate_of_clear h hlen hw hzero hrest _ hst hver hact
      exact ⟨fun _ hopen => gives_of_commit rfl (hclear.trans (if_pos hopen)),
        fun _ hshut => gives_of_commit rfl (hclear.trans (if_neg (Bool.eq_false_iff.mp hshut))), fun h1 => absurd h1 (by decide)⟩
    · exact ⟨fun hst => gives_of_commit rfl (Block.activate_of_unstaged h hlen hw hzero hrest _ hst),
        fun hst hc => gives_of_commit rfl (Block.activate_of_conflict h hlen hw hzero hrest _ hst hc),
        fun hst hver hact => ⟨fun h0 => absurd h0 (by decide), fun h0 => absurd h0 (by decide),
          fun _ => gives_of_commit rfl (Block.activate_of_clear h hlen hw hzero hrest _ hst hver hact)⟩⟩
  · exact ⟨fun h => gives_of_commit rfl (activationDrainLimitEffect_of_drained ha hst hfw hpaced h),
      fun hbusy h => gives_of_commit rfl (activationDrainLimitEffect_of_busy ha hbusy h)⟩
  · have hdefer := activationDeferExpiryEffect_of_deferred ha hst
    exact ⟨fun h => gives_of_commit rfl (hdefer.trans (if_pos h)), fun h => gives_of_commit rfl (hdefer.trans (if_neg (Nat.not_lt.mpr h)))⟩

end Sys2Proof.Machine

/-! SUPPORT. Chotus (R364 to R379): port training and the mapping, host requests, snoops, heartbeats and the loss of a host. -/
namespace Sys2Proof.Machine

/- Ports and the mapping -/

section
variable {m : Block} {p : Nat} (hp : p < 2)
include hp

section
variable (hst : m.choSt p = 1) (id : Nat) {lanes : Nat}
include hst

/-- A port in training that reaches no width fails (R364). -/
theorem chotusPortTrainingEffect_of_failed (hw : chotusWidth lanes = 0) :
    chotusPortTrainingEffect p id lanes m = (m.setReg (Reg.choPortStatus p) (putField 0 63 60 4)).flushHost := by
  rw [chotusPortTrainingEffect]
  exact (if_neg (by simp [hp, hst])).trans (if_pos hw)

variable (hw : chotusWidth lanes ≠ 0) {id}
include hw

/-- One whose host does not fit the mapping is kept down (R365). -/
theorem chotusPortTrainingEffect_of_misfit (hj : m.joins p id = false) :
    chotusPortTrainingEffect p id lanes m = ((m.setReg (Reg.choPortStatus p) 0).modChotus p fun x => { x with barred := true }).flushHost := by
  rw [chotusPortTrainingEffect]
  exact (if_neg (by simp [hp, hst])).trans ((if_neg hw).trans (if_pos (by rw [hj]; rfl)))

/-- Another comes up: in STATE 3 while its host's hold runs, else in STATE 2, and then it sends its pending interrupts (R364, R375, R378). -/
theorem chotusPortTrainingEffect_of_fit (hj : m.joins p id = true) :
    let lost := (m.chotus p).lossTick.isSome
    let word := putField (putField (putField 0 63 60 (if lost then 3 else 2)) 59 55 (chotusWidth lanes)) 31 0 id
    let m1 := ((m.setReg (Reg.choPortStatus p) word).setReg (Reg.choHbLast p) (BitVec.ofNat 64 m.time)).modChotus p fun x => { x with everUp := true }
    let m2 := if m1.fld Reg.choMode 63 62 = 1 ∧ m1.choSt 0 = 2 ∧ m1.choSt 1 = 2 then m1.setFld Reg.choMode 63 62 2 else m1
    let m3 := if m2.cho.modeOpen then { m2 with cho.modeOpen := false, cho.modeTick := m2.time + 2500000 } else m2
    chotusPortTrainingEffect p id lanes m = (if (if lost then 3 else 2) = 2 then m3.sendPending p else m3).flushHost := by
  rw [chotusPortTrainingEffect]
  exact (if_neg (by simp [hp, hst])).trans ((if_neg hw).trans (if_neg (by rw [hj]; decide)))

end

/-- A failing lane retrains a port that carries traffic (R367). -/
theorem chotusLaneFailEffect_of_up (lanes : Nat) (hst : m.choSt p = 2 ∨ m.choSt p = 3) : chotusLaneFailEffect p lanes m = m.chotusRetrain p :=
  if_pos ⟨hp, hst⟩

/-- So does a write of RETRAIN for one that is not held down. -/
theorem chotusPortRetrainEffect_of_free (hd : m.fld (Reg.choPortCtl p) 0 0 = 0) (hb : (m.chotus p).barred = false) :
    chotusPortRetrainEffect .firmware p m = m.chotusRetrain p := if_neg (by simp [isFw, hp, hd, hb])

/-- A write of DISABLE takes a port down. -/
theorem chotusPortDisableEffect_of_true : chotusPortDisableEffect .firmware p true m = (m.setFld (Reg.choPortCtl p) 0 0 1).chotusDown p 0 := by
  rw [chotusPortDisableEffect]
  exact if_neg (by simp [isFw, hp])

/-- One that clears it lets the port train. -/
theorem chotusPortDisableEffect_of_false (hd : m.fld (Reg.choPortCtl p) 0 0 = 1) (hb : (m.chotus p).barred = false) :
    chotusPortDisableEffect .firmware p false m = (m.setFld (Reg.choPortCtl p) 0 0 0).chotusDown p 1 := by
  rw [chotusPortDisableEffect]
  refine (if_neg (by simp [isFw, hp])).trans ?_
  exact (if_neg Bool.false_ne_true).trans (if_pos ⟨hd, by rw [hb]; rfl⟩)

/- Host requests -/

/-- A request at a port that carries traffic is served when its tag is accepted, else dropped (R368). -/
theorem hostRequestEffect_of_up (t a : Nat) (op : HostOp) (hst : m.choSt p = 2 ∨ m.choSt p = 3) :
    hostRequestEffect p t a op m = if m.tagOk p t then m.serveHost p t a op else m.dropHost p op := if_neg (by omega)

/- Snoops -/

/-- One with such a snoop fails. -/
theorem snoopTimeoutEffect_of_some (h : ∃ x ∈ m.cho.snoops, x.port = p ∧ x.since + 25000 ≤ m.time) :
    let m1 := m.chotusDown p 4
    snoopTimeoutEffect p m = ((m1.cho.directory.filter fun d => d.port == p).foldl (fun m d => m.copyGone d.gran p none true) m1).pumpAll := by
  rw [snoopTimeoutEffect]
  have hany : (m.cho.snoops.any fun x => x.port == p && decide (x.since + 25000 ≤ m.time)) = true := by simpa using h
  exact if_neg (by simp [hp, hany])

end

section
variable {m : Block} (hmode : m.fld Reg.choMode 63 62 = 0) (hopen : m.cho.modeOpen = false) (htime : m.cho.modeTick ≤ m.time)
  (hrst : m.pwr.rst = none) (hon : m.pwr.powered = true)
include hmode hopen htime hrst hon

/-- The mapping by the ports that are up (R365). -/
theorem chotusModeFixEffect_of_due : let id (p : Nat) : Nat := m.fld (Reg.choPortStatus p) 31 0
    chotusModeFixEffect m = if m.choSt 0 = 2 then
        if m.choSt 1 = 2 then ({ m with cho.modeIds := [id 0, id 1] }.setFld Reg.choMode 63 62 (if id 0 = id 1 then 2 else 3)).flushHost
        else ({ m with cho.modeIds := [id 0] }.setFld Reg.choMode 63 62 1).flushHost
      else if m.choSt 1 = 2 then ({ m with cho.modeIds := [id 1] }.setFld Reg.choMode 63 62 1).flushHost
      else { m with cho.modeOpen := true } := by
  rw [chotusModeFixEffect]
  refine (if_neg (by simp [hmode, hopen, htime, hrst, hon])).trans ?_
  by_cases h0 : m.choSt 0 = 2
  · rw [if_pos h0, beq_iff_eq.mpr h0]
    by_cases h1 : m.choSt 1 = 2
    · rw [if_pos h1, beq_iff_eq.mpr h1]
    · rw [if_neg h1, beq_false_of_ne h1]
  · rw [if_neg h0, beq_false_of_ne h0]
    by_cases h1 : m.choSt 1 = 2
    · rw [if_pos h1, beq_iff_eq.mpr h1]
    · rw [if_neg h1, beq_false_of_ne h1]

end

/-- A read that its check refuses is dropped (R369). -/
theorem Block.serveHost_read_of_refused {m : Block} {t a n : Nat} (p : Nat) (h : m.hostCheck t a n false = false) :
    m.serveHost p t a (.read n) = m.dropHost p (.read n) := if_pos (by rw [h]; rfl)

/-- Another is answered where no other host holds the granule exclusive. -/
theorem Block.serveHost_read_of_alone {m : Block} {p t a n : Nat} (h : m.hostCheck t a n false = true) (hcopies : m.otherCopies p a n false = []) :
    m.serveHost p t a (.read n) = m.hostRead p a n :=
  (if_neg (by rw [h]; decide)).trans (if_pos (by rw [hcopies]; rfl))

/-- A port with no snoop that is 1 ms old does not time out (R376). -/
theorem snoopTimeoutEffect_of_none {m : Block} {p : Nat} (h : ∀ x ∈ m.cho.snoops, x.port ≠ p ∨ m.time < x.since + 25000) : snoopTimeoutEffect p m = m := by
  refine if_pos (.inr ?_)
  simpa [or_iff_not_imp_left] using h

/-- A response ends the snoops that it answers (R372). -/
theorem snoopResponseEffect_of_some {m : Block} {p a : Nat} (d : Option (List Byte)) (h : ∃ x ∈ m.cho.snoops, x.gran = a / 128 ∧ x.port = p) :
    snoopResponseEffect p a d m = (m.copyGone (a / 128) p d false).pumpAll := if_pos (by simpa using h)

/-- One that answers none does nothing. -/
theorem snoopResponseEffect_of_none {m : Block} {p a : Nat} (d : Option (List Byte)) (h : ∀ x ∈ m.cho.snoops, x.gran ≠ a / 128 ∨ x.port ≠ p) :
    snoopResponseEffect p a d m = m := if_neg (by simpa [imp_iff_not_or] using h)

/- Heartbeats -/

/-- A port carries its host's requests in STATE 2 and, while the host's hold runs, in STATE 3. -/
theorem Block.byHost_of_carried (m : Block) {p t : Nat} (f : Block → Block) (h : m.choSt p = 2 ∨ m.choSt p = 3) (ht : m.tagOk p t = true) :
    m.byHost (.host p t) f = f m := (if_neg (by omega)).trans (if_pos ht)

/-- Outside bonded mode a port's heartbeat counts for itself (R366). -/
theorem Block.hostPorts_of_single {m : Block} (p : Nat) (h : m.fld Reg.choMode 63 62 ≠ 2) : m.hostPorts p = [p] := if_neg h

section
variable {m : Block} {p : Nat} (hp : p < 2) (hmode : m.fld Reg.choMode 63 62 ≠ 2)
include hp hmode

/-- A heartbeat is noted, and inside the hold it brings a lost host back (R377 to R379). -/
theorem heartbeatWriteEffect_of_single (t : Nat) :
    let m1 := (m.setReg (Reg.choHbLast p) (BitVec.ofNat 64 m.time)).modChotus p fun x => { x with noFurther := false }
    heartbeatWriteEffect (.host p t) p m = match (m.chotus p).lossTick with
      | some l => if m.time < l + m1.fld Reg.choHold 39 0 then m1.hostBack p else m1
      | none => m1 := by
  intro m1
  have hloss : (m1.chotus p).lossTick = (m.chotus p).lossTick := (congrArg ChotusState.lossTick (Tbl.getD_put_self _ _ _ _)).trans rfl
  rw [← hloss]
  simp only [heartbeatWriteEffect, Block.hostPorts_of_single p hmode]
  exact (if_neg (by simp [hp])).trans rfl

section
variable (hfw : m.fwRuns = true) (hup : (m.chotus p).everUp = true) (hloss : (m.chotus p).lossTick = none) (hfurther : (m.chotus p).noFurther = false)

omit hp in
/-- A host whose time is not over is not lost (R377). -/
theorem hostLostEffect_of_early (h : m.time < (m.reg (Reg.choHbLast p)).toNat + m.fld Reg.choHbTmo 39 0) : hostLostEffect p m = m := by
  simp only [hostLostEffect, Block.hostPorts_of_single p hmode, List.map_cons, List.map_nil, List.foldl_cons, List.foldl_nil, Nat.zero_max]
  exact if_pos (.inr (.inr (.inr (.inr (.inr h)))))

include hfw hup hloss hfurther

/-- Another is: its port holds its traffic, and its queues keep how far they have been read (R377, R378). -/
theorem hostLostEffect_of_late (h : (m.reg (Reg.choHbLast p)).toNat + m.fld Reg.choHbTmo 39 0 ≤ m.time) (hst : m.choSt p = 2) :
    let due := (m.reg (Reg.choHbLast p)).toNat + m.fld Reg.choHbTmo 39 0
    let m1 := (m.setFld (Reg.choPortStatus p) 63 60 3).modChotus p fun y => { y with lossTick := some due }
    let queues := mapIf (fun q : Queue => m.hostPort q.id.tenant == p)
      (fun q => { q with lossTail := some (if ringOnModule q then q.sqTail else q.sqHead) }) m.cmd.queues
    hostLostEffect p m = { m1 with cmd.queues := queues }.i3cEvent 2 := by
  simp only [hostLostEffect, Block.hostPorts_of_single p hmode, List.map_cons, List.map_nil, List.foldl_cons, List.foldl_nil, Nat.zero_max, if_pos hst,
    List.contains_cons, List.contains_nil, Bool.or_false]
  exact (if_neg (by simp [hp, hfw, hup, hloss, hfurther, h])).trans rfl

end

end

section
variable {m : Block} {p l : Nat} (hloss : (m.chotus p).lossTick = some l)
include hloss

/-- A hold whose time is not over goes on (R378). -/
theorem hostHoldExpiryEffect_of_early (h : m.time < l + m.fld Reg.choHold 39 0) : hostHoldExpiryEffect p m = m := by
  simp only [hostHoldExpiryEffect, hloss]
  exact if_pos h

/-- Whether an address lies on a port's host. -/
def Block.inHost (m : Block) (p a : Nat) : Bool := decide (hostBase ≤ localPart a) && m.hostPortOf (localPart a) == p

/-- The port of a lost host at the end of its hold: what was kept for the host is dropped, and the port is up. -/
def Block.holdOver (m : Block) (p : Nat) : Block :=
  ((m.modChotus p fun x => { x with lossTick := none, noFurther := true, kept := [], pendIrq := [] }).setReg (Reg.choIrqPend p) 0).setFld
    (Reg.choPortStatus p) 63 60 2

/-- At its end the lost host's tenants are destroyed, and tenant 0 loses the contexts and the queues whose rings lie there. -/
theorem hostHoldExpiryEffect_of_late (h : l + m.fld Reg.choHold 39 0 ≤ m.time) (hmode : m.fld Reg.choMode 63 62 ≠ 2) (hst : m.choSt p = 3) :
    let doomed := (m.cmd.tenants.filter fun t => t.id != 0 && t.exists_ && !t.dying && m.hostPort t.id == p).map (·.id)
    let ctxs := (m.cmd.contexts.filter fun x => x.tenant == 0 && x.exists_ && x.tear.isNone &&
      (m.cmd.queues.any fun q => q.id.tenant == 0 && q.id.ctx == x.ctx && (m.inHost p q.sqBase || m.inHost p q.cqBase))).map (·.ctx)
    let m2 := ctxs.foldl (fun m c => m.beginTeardown 0 c none false) (doomed.foldl (fun m t => m.destroyTenant t none) (m.holdOver p))
    hostHoldExpiryEffect p m = if m.inHost p (m.reg Reg.cmdSysSq).toNat then m2.sysOff.setFld Reg.cmdSysCfg 63 63 0 else m2 := by
  have hst' : ((m.modChotus p fun x => { x with lossTick := none, noFurther := true, kept := [], pendIrq := [] }).setReg (Reg.choIrqPend p) 0).choSt p = 3 := by
    rw [← hst, Block.choSt, Block.fld, Block.reg_setReg_ne _ _ _ _ (by simp only [Reg.choIrqPend, Reg.choPortStatus]; omega)]
    rfl
  simp only [hostHoldExpiryEffect, hloss, Block.hostPorts_of_single p hmode, List.foldl_cons, List.foldl_nil, if_neg (Nat.not_lt.mpr h), if_pos hst',
    List.contains_cons, List.contains_nil, Bool.or_false, Block.inHost, Block.holdOver]
  rfl

end

/-- Settles O49: each row by the state of its port, and outside bonded mode, where a host is one port's. -/
theorem chotusRows : Obligations.ChotusRows := by
  refine ⟨fun p id lanes s hp hst => ⟨fun hw => gives_of_commit rfl (chotusPortTrainingEffect_of_failed hp hst id hw),
      fun hw hj => gives_of_commit rfl (chotusPortTrainingEffect_of_misfit hp hst hw hj), fun hw hj => ?_⟩,
    fun s hmode hopen htime hrst hon => ?_, fun p t a op s hp hst => ?_,
    fun m p t a n => ⟨Block.serveHost_read_of_refused p, Block.serveHost_read_of_alone⟩,
    fun p a d s => ⟨fun h => gives_of_commit rfl (snoopResponseEffect_of_some d h), fun h => gives_of_commit rfl (snoopResponseEffect_of_none d h)⟩,
    fun p s hp => ⟨fun h => gives_of_commit rfl (snoopTimeoutEffect_of_none h), fun h => gives_of_commit rfl (snoopTimeoutEffect_of_some hp h)⟩,
    fun p lanes s hp hst => gives_of_commit rfl (chotusLaneFailEffect_of_up hp lanes hst),
    fun p s hp => ⟨fun hd hb => gives_of_commit rfl (chotusPortRetrainEffect_of_free hp hd hb), gives_of_commit rfl (chotusPortDisableEffect_of_true hp),
      fun hd hb => gives_of_commit rfl (chotusPortDisableEffect_of_false hp hd hb)⟩,
    fun p t s hp hst ht hmode => ?_, fun p s hp hfw hmode hup hloss hfurther => ⟨fun h => gives_of_commit rfl (hostLostEffect_of_early hmode h),
      fun h hst => gives_of_commit rfl (hostLostEffect_of_late hp hmode hfw hup hloss hfurther h hst)⟩,
    fun p l s hloss => ⟨fun h => gives_of_commit rfl (hostHoldExpiryEffect_of_early hloss h), fun h hmode hst => ?_⟩⟩
  · have htrained := chotusPortTrainingEffect_of_fit hp hst hw hj
    exact ⟨fun hlost => gives_of_commit rfl (htrained.trans (congrArg Block.flushHost (if_pos (if_neg (Bool.eq_false_iff.mp hlost))))),
      fun hlost => gives_of_commit rfl (htrained.trans (congrArg Block.flushHost (if_neg (by rw [if_pos hlost]; decide))))⟩
  · have hfix := chotusModeFixEffect_of_due hmode hopen htime hrst hon
    refine ⟨fun h0 h1 => gives_of_commit rfl (hfix.trans ?_), fun h0 h1 => gives_of_commit rfl (hfix.trans ?_),
      fun h0 h1 hid => gives_of_commit rfl (hfix.trans ?_), fun h0 h1 hid => gives_of_commit rfl (hfix.trans ?_),
      fun h0 h1 => gives_of_commit rfl (hfix.trans ?_)⟩
    · rw [if_pos h0, if_neg h1]
    · rw [if_neg h0, if_pos h1]
    · rw [if_pos h0, if_pos h1, if_pos hid]
    · rw [if_pos h0, if_pos h1, if_neg hid]
    · rw [if_neg h0, if_neg h1]
  · have hrequest := hostRequestEffect_of_up hp t a op hst
    exact ⟨fun ht => gives_of_commit rfl (hrequest.trans (if_pos ht)), fun ht => gives_of_commit rfl (hrequest.trans (if_neg (Bool.eq_false_iff.mp ht)))⟩
  · have hheard := (Block.byHost_of_carried s.m (heartbeatWriteEffect (.host p t) p) hst ht).trans (heartbeatWriteEffect_of_single hp hmode t)
    refine ⟨fun hloss => gives_of_commit rfl (hheard.trans ?_), fun l hloss hin => gives_of_commit rfl (hheard.trans ?_)⟩
    · rw [hloss]
    · rw [hloss]
      exact if_pos hin
  · have hover := hostHoldExpiryEffect_of_late hloss h hmode hst
    exact ⟨fun hsys => gives_of_commit rfl (hover.trans (if_neg (Bool.eq_false_iff.mp hsys))), fun hsys => gives_of_commit rfl (hover.trans (if_pos hsys))⟩

end Sys2Proof.Machine

/-! SUPPORT. Collectives (R355 to R360): what becomes of a descriptor, of the source of a collective that may start, of an arriving segment, and how
a collective ends. -/
namespace Sys2Proof.Machine

/- The command -/

/-- Whether a collective's descriptor lies in this module, where the context may read and write it. -/
def Block.collMine (m : Block) (q : QueueId) (ga : Nat) : Prop :=
  m.remoteNode ga = none ∧ m.check q.tenant q.ctx ga 128 false = none ∧ m.check q.tenant q.ctx ga 128 true = none

/-- The collective that a descriptor gives, before its members are known. -/
def Block.collOf (m : Block) (q : QueueId) (ga : Nat) : Coll :=
  let w := leWords 16 (m.readMem (localPart ga) 128)
  { die := field (wordAt w 0) 46 43, q := q, words := w, addr := ga, members := [], start := m.time }

/-- Whether its member table can be read. -/
def Block.collSound (m : Block) (c : Coll) : Bool := decide (2 ≤ c.n) && m.collExtent c (wordAt c.words 5).toNat (2 * c.n) false

/-- The collective with its members. -/
def Block.collMembers (m : Block) (c : Coll) : Coll := { c with members := (List.range c.n).map (m.memberNode (wordAt c.words 5).toNat) }

/-- The engine takes the descriptor, with the reason that its checks give. -/
def Block.collOwn (m : Block) (q : QueueId) (c : Coll) : Block :=
  { m.setWait q .unit with eng.colls := m.eng.colls ++ [{ c with reason := m.collRefusal c }] }

section
variable {m : Block} {q : QueueId} {c : Cmd} (h : m.runs q 0x130 c = true)
include h

/-- A descriptor elsewhere ends the command (R355). -/
theorem collectiveEffect_of_foreign (hmine : ¬ m.collMine q (c.p 0).toNat) : collectiveEffect q m = m.complete q 2 0 := by
  rw [collectiveEffect, Block.onCommand_of_runs _ _ _ _ _ h]
  refine if_pos ?_
  simpa only [Block.collMine, not_and_or, Bool.or_eq_true, Option.isSome_iff_ne_none, or_assoc] using hmine

section
variable (hmine : m.collMine q (c.p 0).toNat)
include hmine

/-- One that a host holds exclusive is snooped. -/
theorem collectiveEffect_of_held (hex : m.heldExclusive (localPart (c.p 0).toNat) 128 = true) :
    collectiveEffect q m = m.snoopReads (localPart (c.p 0).toNat) 128 := by
  obtain ⟨hnode, hread, hwrite⟩ := hmine
  rw [collectiveEffect, Block.onCommand_of_runs _ _ _ _ _ h]
  exact (if_neg (by simp [hnode, hread, hwrite])).trans (if_pos hex)

variable (hex : m.heldExclusive (localPart (c.p 0).toNat) 128 = false)
include hex

/-- A poisoned one ends the command. -/
theorem collectiveEffect_of_poisoned (hp : (m.correct (localPart (c.p 0).toNat) 128).poisoned (localPart (c.p 0).toNat) 128 = true) :
    collectiveEffect q m = (m.correct (localPart (c.p 0).toNat) 128).complete q 2 0 := by
  obtain ⟨hnode, hread, hwrite⟩ := hmine
  rw [collectiveEffect, Block.onCommand_of_runs _ _ _ _ _ h]
  exact (if_neg (by simp [hnode, hread, hwrite])).trans ((if_neg (Bool.eq_false_iff.mp hex)).trans (if_pos hp))

/-- Any other is taken; one whose member table can be read and that is refused tells the members (R359). -/
theorem collectiveEffect_of_clean (hp : (m.correct (localPart (c.p 0).toNat) 128).poisoned (localPart (c.p 0).toNat) 128 = false) :
    let m0 := m.correct (localPart (c.p 0).toNat) 128
    let c0 := m0.collOf q (c.p 0).toNat
    collectiveEffect q m = if m0.collSound c0 then
        if m0.collRefusal (m0.collMembers c0) ≠ 0 then
          (m0.collMembers c0).others.foldl (fun m i => m.collSend (m0.collMembers c0) i none) (m0.collOwn q (m0.collMembers c0))
        else m0.collOwn q (m0.collMembers c0)
      else m0.collOwn q c0 := by
  obtain ⟨hnode, hread, hwrite⟩ := hmine
  intro m0 c0
  rw [collectiveEffect, Block.onCommand_of_runs _ _ _ _ _ h]
  refine (if_neg (by simp [hnode, hread, hwrite])).trans ((if_neg (Bool.eq_false_iff.mp hex)).trans ((if_neg (Bool.eq_false_iff.mp hp)).trans ?_))
  have hrow (b : Bool) : (let c1 := { c0 with members := if b then (List.range c0.n).map (m0.memberNode (wordAt c0.words 5).toNat) else [] }
      if m0.collRefusal c1 ≠ 0 ∧ b = true then c1.others.foldl (fun m i => m.collSend c1 i none) (m0.collOwn q c1) else m0.collOwn q c1) =
      if b then
        if m0.collRefusal (m0.collMembers c0) ≠ 0 then
          (m0.collMembers c0).others.foldl (fun m i => m.collSend (m0.collMembers c0) i none) (m0.collOwn q (m0.collMembers c0))
        else m0.collOwn q (m0.collMembers c0)
      else m0.collOwn q c0 := by
    cases b
    · exact if_neg (by simp)
    · exact (if_congr (and_iff_left rfl) rfl rfl).trans (if_pos rfl).symm
  exact hrow (m0.collSound c0)

end

end

/- The start -/

/-- What an engine has of a collective's source: the extents that are not empty, read in their order. -/
def Block.collGot (m : Block) (c : Coll) : Got :=
  ((m.collSources c).filter fun e => e.2 != 0).foldl (fun (g : Got) e => g.join fun m => m.engRead c.mover e.1 e.2) (.data m [] false)

/-- The poisoned parts of a source that has been read. -/
def Block.collBad (m m1 : Block) (c : Coll) : List (Nat × Nat) :=
  (((m.collSources c).filter fun e => e.2 != 0).foldl
    (fun (r : List (Nat × Nat) × Nat) e => (r.1 ++ m1.badParts (localPart e.1) e.2 r.2, r.2 + e.2)) ([], 0)).1

/-- What becomes of a collective that may start: its source is refused, or still to come, or here (R355, R356). -/
def Block.collStart (m : Block) (c : Coll) : Got → Block
  | .bad _ _ _ => m.collFail c 2
  | .need _ => m.request c.mover (((m.collSources c).filter fun e => e.2 != 0).flatMap fun e => m.engNeeds c.mover e.1 e.2)
  | .data m1 bs _ =>
    let c1 := { c with started := true, src := bs, srcBad := m.collBad m1 c }
    ((m1.setColl c1).collFirst c1).collCatchUp c1

/-- Whether a collective of an operation may start at a die. -/
def Coll.ready (die op : Nat) (c : Coll) : Bool := c.die == die && c.op == op && !c.started && c.reason == 0

section
variable {m : Block} {die op : Nat}

/-- With none that may start nothing starts. -/
theorem runCollective_of_none (h : m.eng.colls.find? (Coll.ready die op) = none) : runCollective op die m = m := by
  unfold Coll.ready at h
  simp only [runCollective, h]

/-- The first that may start goes by its source. -/
theorem runCollective_of_some {c : Coll} (h : m.eng.colls.find? (Coll.ready die op) = some c) : runCollective op die m = m.collStart c (m.collGot c) := by
  unfold Coll.ready at h
  simp only [runCollective, h]
  rfl

end

/- Segments, aborts and timeouts -/

/-- The answer of a die to a segment. -/
def Block.collAnswer (m : Block) (node master seq : Nat) (g : CollSeg) (kind : Nat) : Block :=
  m.reply { kind := kind, srcNode := m.ownNode, dstNode := node, tenant := g.tenant, ctx := g.ctx, master := master, seq := seq, tag := 0
            addr := 0, data := [], mask := [], poison := false, hitch := 0, inc := 0 }

section
variable {m : Block} {die : Nat} (node master seq : Nat) {g : CollSeg} (hd : die < m.tileCount) (hm2 : m.pwr.pstate ≠ 2)
include hd hm2

/-- A segment of a context that is gone is dropped and counted. -/
theorem collectiveSegmentEffect_of_revoked (h : m.revoked g.tenant g.ctx = true) :
    collectiveSegmentEffect die node master seq g m = (m.addFld Reg.cmdDropped 63 0 1).collAnswer node master seq g 5 := by
  rw [collectiveSegmentEffect]
  exact (if_neg (Nat.not_le.mpr hd)).trans ((if_neg hm2).trans (if_pos h))

variable (h : m.revoked g.tenant g.ctx = false)
include h

/-- One for a collective that has started or ended is taken. -/
theorem collectiveSegmentEffect_of_started {c : Coll} (hc : m.coll? die g.tenant g.ctx g.collId = some c) (hs : c.started = true ∨ c.reason ≠ 0) :
    collectiveSegmentEffect die node master seq g m = ((m.collTake c g).beat 5 die).collAnswer node master seq g 5 := by
  simp only [collectiveSegmentEffect, hc, if_pos hs]
  exact (if_neg (Nat.not_le.mpr hd)).trans ((if_neg hm2).trans (if_neg (Bool.eq_false_iff.mp h)))

/-- An early one is held, at 1,024 of them turned back (R359). -/
theorem collectiveSegmentEffect_of_early (he : ∀ c, m.coll? die g.tenant g.ctx g.collId = some c → c.started = false ∧ c.reason = 0) :
    collectiveSegmentEffect die node master seq g m =
      if (m.eng.collHeld.filter fun e => e.1 == die).length ≥ 1024 then m.collAnswer node master seq g 6
      else { m with eng.collHeld := m.eng.collHeld ++ [(die, g)] }.collAnswer node master seq g 5 := by
  rw [collectiveSegmentEffect]
  refine (if_neg (Nat.not_le.mpr hd)).trans ((if_neg hm2).trans ((if_neg (Bool.eq_false_iff.mp h)).trans ?_))
  cases hc : m.coll? die g.tenant g.ctx g.collId with
  | none => rfl
  | some c =>
    obtain ⟨hs, hr⟩ := he c hc
    exact if_neg (by simp [hs, hr])

end

/-- A collective that has no reason to end gets one. -/
theorem Block.collFail_of_running {m : Block} {c : Coll} (reason : Nat) (h : c.reason = 0) : m.collFail c reason = m.setColl { c with reason := reason } :=
  if_neg (not_not_intro h)

/-- One that has keeps it. -/
theorem Block.collFail_of_failed {m : Block} {c : Coll} (reason : Nat) (h : c.reason ≠ 0) : m.collFail c reason = m := if_pos h

/-- An abort ends the collective that it names. -/
theorem collectiveAbortEffect_of_some {m : Block} {die t x id : Nat} {c : Coll} (h : m.coll? die t x id = some c) :
    collectiveAbortEffect die t x id m = m.collFail c 4 := by
  simp only [collectiveAbortEffect, h]

section
variable {m : Block} {q : QueueId} {c : Coll} (h : (m.eng.colls.find? fun c => c.q == q) = some c)
include h

/-- The timer ends one that no recovering peer holds (R359, R464). -/
theorem collectiveTimeoutEffect_of_unheld (hheld : m.peerHeld q = false) :
    collectiveTimeoutEffect q m = if m.time < c.start + m.fld Reg.fabCollTmo 39 0 then m else m.collFail c 7 := by
  simp only [collectiveTimeoutEffect, h]
  exact if_congr (or_iff_left (Bool.eq_false_iff.mp hheld)) rfl rfl

/- The end -/

/-- Whether a collective's output is at its home and its sends are acknowledged (R360). -/
def Block.collHome (m : Block) (c : Coll) : Prop :=
  c.done = true ∧ (∀ e ∈ m.collOutputs c, m.writeWaits (localPart e.1) e.2 = false) ∧ ∀ o ∈ m.eng.collOut, c.owns o = true → o.seg = none

omit h in
/-- The model's test of it. -/
theorem Block.collHome_iff (m : Block) (c : Coll) : m.collHome c ↔
    (c.done && !((m.collOutputs c).any fun e => m.writeWaits (localPart e.1) e.2) && !m.eng.collOut.any fun x => c.owns x && x.seg.isSome) = true := by
  simp [Block.collHome, and_assoc]

/-- The reason that a collective ends with: that of its failure, else damage, else a segment that was too large, else none. -/
def Coll.endReason (c : Coll) : Nat := if c.reason ≠ 0 then c.reason else if c.damaged then 6 else if c.tooBig then 5 else 0

/-- The block without a collective and its segments. -/
def Block.collGone (m : Block) (q : QueueId) (c : Coll) : Block :=
  { m with
    eng.colls := m.eng.colls.filter fun (x : Coll) => x.q != q
    eng.collOut := m.eng.collOut.filter fun (x : CollOut) => !(c.owns x && x.seg.isSome) }

/-- RESULT is written, the hitch signalled, and the end counted. -/
def Block.collTold (m : Block) (q : QueueId) (c : Coll) (reason : Nat) : Block :=
  let m2 := ((m.collGone q c).collPut c (c.addr + 64) (leBytes 8 (collResult reason * 2 ^ 62 + reason * 2 ^ 56)) []).getD (m.collGone q c)
  (if bit (wordAt c.words 0) 47 then m2.signal q.tenant q.ctx (field (wordAt c.words 0) 41 32) (field (wordAt c.words 0) 31 0) else m2).addFld
    (Reg.fabCollDone c.die) 63 0 1

/-- Timeouts and aborts are counted too. -/
def Block.collCounted (m : Block) (c : Coll) (reason : Nat) : Block :=
  if reason = 7 then m.satFld (Reg.fabCollFail c.die) 63 32 1 else if reason = 4 then m.satFld (Reg.fabCollFail c.die) 31 0 1 else m

/-- A collective that has not failed and is not done goes on. -/
theorem collectiveEndEffect_of_away (hr : c.reason = 0) (hhome : ¬ m.collHome c) : collectiveEndEffect q m = m := by
  rw [m.collHome_iff] at hhome
  simp only [collectiveEndEffect, h]
  exact if_pos ⟨hr, (Bool.not_eq_true' _).mpr (Bool.eq_false_iff.mpr hhome)⟩

section
variable (hover : c.reason ≠ 0 ∨ m.collHome c)
include hover

/-- One that ends invalidates host copies of RESULT first (R152). -/
theorem collectiveEndEffect_of_copies (hcopies : m.hostCopies ((localPart c.addr + 64) / 128) ≠ []) :
    collectiveEndEffect q m = m.snoopEntries (m.hostCopies ((localPart c.addr + 64) / 128)) := by
  rw [m.collHome_iff] at hover
  simp only [collectiveEndEffect, h]
  refine (if_neg ?_).trans (if_pos (by simpa using hcopies))
  rintro ⟨hr, haway⟩
  exact Bool.eq_false_iff.mp ((Bool.not_eq_true' _).mp haway) (hover.resolve_left (not_not_intro hr))

/-- With none it ends. -/
theorem collectiveEndEffect_of_over (hd : c.die < m.tileCount) (hcopies : m.hostCopies ((localPart c.addr + 64) / 128) = []) :
    collectiveEndEffect q m = ((m.collTold q c c.endReason).collCounted c c.endReason).complete q (collStatus c.endReason) 0 := by
  rw [m.collHome_iff] at hover
  simp only [collectiveEndEffect, h]
  refine (if_neg ?_).trans ((if_neg (by simp [hcopies])).trans ?_)
  · rintro ⟨hr, haway⟩
    exact Bool.eq_false_iff.mp ((Bool.not_eq_true' _).mp haway) (hover.resolve_left (not_not_intro hr))
  · simp only [if_pos hd, if_neg (Nat.not_le.mpr hd)]
    rfl

end

end

/-- Which reason a collective without one of its own ends with. -/
theorem Coll.endReason_of_sound {c : Coll} (hr : c.reason = 0) : c.endReason = if c.damaged then 6 else if c.tooBig then 5 else 0 :=
  if_neg (not_not_intro hr)

/-- Settles O46: the command by its descriptor, a start by its source, a segment by its collective, an end by its reason. -/
theorem collectiveRows : Obligations.CollectiveRows := by
  refine ⟨fun q c s hrun => ?_, fun die op c s hrow => ?_, fun die node master seq g s hd hm2 => ?_, fun die t x id c s h => ?_,
    fun q c s h hheld hr => ?_, fun q c s h hd => ?_⟩
  · intro ga a m0 w c0 own c1 mine
    refine ⟨fun hm => gives_of_commit rfl (collectiveEffect_of_foreign hrun hm), fun hm hex => gives_of_commit rfl (collectiveEffect_of_held hrun hm hex),
      fun hm hex hp => gives_of_commit rfl (collectiveEffect_of_poisoned hrun hm hex hp), fun hm hex hp => ?_⟩
    have htaken := collectiveEffect_of_clean hrun hm hex hp
    refine ⟨fun hbad => gives_of_commit rfl (htaken.trans (if_neg ?_)), fun hn hext => ?_⟩
    · simp only [Block.collSound, Bool.and_eq_true, decide_eq_true_eq, not_and_or]
      exact hbad.imp Nat.not_le.mpr Bool.eq_false_iff.mp
    · replace htaken := htaken.trans (if_pos (Bool.and_eq_true_iff.mpr ⟨decide_eq_true hn, hext⟩))
      exact ⟨fun hr => gives_of_commit rfl (htaken.trans (if_neg (not_not_intro hr))), fun hr => gives_of_commit rfl (htaken.trans (if_pos hr))⟩
  · have hexec : exec c s = s.commit (runCollective op die s.m) := by
      rcases hrow with ⟨rfl, rfl⟩ | ⟨rfl, rfl⟩ | ⟨rfl, rfl⟩ | ⟨rfl, rfl⟩ <;> rfl
    have hstart {k : Coll} {got : Got} (hk : s.m.eng.colls.find? (Coll.ready die op) = some k) (hgot : s.m.collGot k = got) :
        Gives c s (s.m.collStart k got) := by
      rw [← hgot]
      exact gives_of_commit hexec (runCollective_of_some hk)
    refine ⟨fun hnone => gives_of_commit hexec (runCollective_of_none hnone),
      fun k hk => ⟨fun kind ga n hgot => hstart hk hgot, fun l hgot => hstart hk hgot⟩, fun k m bs p hk => ?_⟩
    intro ext bad k1 hgot
    exact hstart hk hgot
  · refine ⟨fun h => gives_of_commit rfl (collectiveSegmentEffect_of_revoked node master seq hd hm2 h), fun h => ⟨fun c hc hs =>
        gives_of_commit rfl (collectiveSegmentEffect_of_started node master seq hd hm2 h hc hs), fun he hfew => ?_, fun he hmany => ?_⟩⟩
    · exact gives_of_commit rfl ((collectiveSegmentEffect_of_early node master seq hd hm2 h he).trans (if_neg (Nat.not_le.mpr hfew)))
    · exact gives_of_commit rfl ((collectiveSegmentEffect_of_early node master seq hd hm2 h he).trans (if_pos hmany))
  · exact ⟨fun hr => gives_of_commit rfl ((collectiveAbortEffect_of_some h).trans (Block.collFail_of_running 4 hr)),
      fun hr => gives_of_commit rfl ((collectiveAbortEffect_of_some h).trans (Block.collFail_of_failed 4 hr))⟩
  · have htimer := collectiveTimeoutEffect_of_unheld h hheld
    exact ⟨fun hlate => gives_of_commit rfl (htimer.trans ((if_neg (Nat.not_lt.mpr hlate)).trans (Block.collFail_of_running 7 hr))),
      fun hearly => gives_of_commit rfl (htimer.trans (if_pos hearly))⟩
  · intro gone told home copies
    refine ⟨fun hr hhome => gives_of_commit rfl (collectiveEndEffect_of_away h hr hhome),
      fun hover hcopies => gives_of_commit rfl (collectiveEndEffect_of_copies h hover hcopies), fun hcopies => ?_⟩
    have hend (reason : Nat) (hreason : c.endReason = reason) (hover : c.reason ≠ 0 ∨ s.m.collHome c) :
        collectiveEndEffect q s.m = ((told reason).collCounted c reason).complete q (collStatus reason) 0 := by
      rw [← hreason]
      exact collectiveEndEffect_of_over h hover hd hcopies
    have hown (hr : c.reason ≠ 0) : c.endReason = c.reason := if_pos hr
    refine ⟨fun hr hhome hdam hbig => gives_of_commit rfl (hend 0 ?_ (.inr hhome)), fun hr hhome hdam hbig => gives_of_commit rfl (hend 5 ?_ (.inr hhome)),
      fun hr hhome hdam => gives_of_commit rfl (hend 6 ?_ (.inr hhome)), fun hr => gives_of_commit rfl (hend 4 ?_ (.inl ?_)),
      fun hr => gives_of_commit rfl (hend 7 ?_ (.inl ?_)), fun hr => ?_⟩
    · rw [Coll.endReason_of_sound hr, hdam, hbig]
      rfl
    · rw [Coll.endReason_of_sound hr, hdam, hbig]
      rfl
    · rw [Coll.endReason_of_sound hr, hdam]
      rfl
    · exact (hown (by omega)).trans hr
    · omega
    · exact (hown (by omega)).trans hr
    · omega
    · simp only [List.mem_cons, List.not_mem_nil, or_false, not_or] at hr
      obtain ⟨h0, h4, h6, h7⟩ := hr
      refine gives_of_commit rfl ((hend c.reason (hown h0) (.inl h0)).trans ?_)
      rw [Block.collCounted, if_neg h7, if_neg h4, collStatus, if_neg h0, if_neg h6, if_neg h7]

end Sys2Proof.Machine

/-! SUPPORT. Fabric transactions (R339, R350 to R354): how a burst arrives and is applied, the answers to a read, what closes a read or a burst, and
the frames that are lost. -/
namespace Sys2Proof.Machine

/- Pairs -/

/-- The receiving side of a pair as it was set. -/
theorem Block.rxPair_setRxPair (m : Block) {p : RxPair} {master node : Nat} (hm : p.master = master) (hn : p.node = node) :
    (m.setRxPair p).rxPair master node = p := by
  subst hm hn
  have hold : (m.fab.rx.filter fun x => !(x.master == p.master && x.node == p.node)).find? (fun x => x.master == p.master && x.node == p.node) = none := by
    exact List.find?_eq_none.mpr fun x hx => Bool.eq_false_iff.mp ((Bool.not_eq_true' _).mp (List.mem_filter.mp hx).2)
  rw [Block.rxPair, Block.setRxPair]
  dsimp only
  rw [List.find?_append, hold]
  simp

/-- Nothing is applied while a pair's next burst has not come. -/
theorem Block.pumpPair_of_none {m : Block} {master node : Nat} (fuel : Nat)
    (h : ((m.rxPair master node).early.find? fun e => e.2.seq == (m.rxPair master node).expect) = none) :
    Block.pumpPair master node (fuel + 1) m = m := by
  simp only [Block.pumpPair, h]

/- Arrival -/

section
variable {m : Block} {port : Nat} {b : Burst}

/-- A port that carries no traffic delivers nothing. -/
theorem Block.arrive_of_unusable (b : Burst) (h : m.portUsable port = false) : m.arrive port b = m := if_pos (by rw [h]; rfl)

variable (hport : m.portUsable port = true)
include hport

/-- A burst that arrives in M2 wakes the module (R431). -/
theorem Block.arrive_of_asleep (b : Burst) (hm2 : m.pwr.pstate = 2) : m.arrive port b = m.askWake :=
  (if_neg (by rw [hport]; decide)).trans (if_pos hm2)

variable (hm2 : m.pwr.pstate ≠ 2)
include hm2

/-- One for another node is dropped and counted (R353). -/
theorem Block.arrive_of_foreign (hus : m.forUs b = false) : m.arrive port b = m.satFld Reg.fabDrop 63 32 1 :=
  (if_neg (by rw [hport]; decide)).trans ((if_neg hm2).trans (if_pos (by rw [hus]; rfl)))

/-- How far a burst is ahead of the next one of its pair. -/
def Block.burstAhead (m : Block) (b : Burst) : Nat := (b.seq + 2 ^ 32 - (m.rxPair b.master b.srcNode).expect) % 2 ^ 32

/-- The pair with a burst held early. -/
def Block.holdEarly (m : Block) (port : Nat) (b : Burst) : Block :=
  m.setRxPair { m.rxPair b.master b.srcNode with early := (m.rxPair b.master b.srcNode).early ++ [(port / 4, b)] }

/-- One for this node goes by its place in its pair (R352, R353): answered again, there already, turned back, or held and applied in its turn. -/
theorem Block.arrive_of_ours (hus : m.forUs b = true) : m.arrive port b =
    if m.burstAhead b ≥ 2 ^ 31 then m.reply (answerBurst m b 5 0)
    else if (m.rxPair b.master b.srcNode).early.any fun e => e.2.seq == b.seq then m
    else if m.burstAhead b ≠ 0 ∧ m.storeUsed (port / 4) + burstBytes b > 0x800000 then m.reply (answerBurst m b 6 0)
    else Block.pumpPair b.master b.srcNode ((m.rxPair b.master b.srcNode).early.length + 1) (m.holdEarly port b) :=
  (if_neg (by rw [hport]; decide)).trans ((if_neg hm2).trans (if_neg (by rw [hus]; decide)))

/-- One that is not behind, in a pair with no early one, is held where it is next or has room. -/
theorem Block.arrive_of_first (hus : m.forUs b = true) (hearly : (m.rxPair b.master b.srcNode).early = []) (hnear : m.burstAhead b < 2 ^ 31)
    (hroom : m.burstAhead b = 0 ∨ m.storeUsed (port / 4) + burstBytes b ≤ 0x800000) :
    m.arrive port b = Block.pumpPair b.master b.srcNode 1 (m.holdEarly port b) := by
  rw [Block.arrive_of_ours hport hm2 hus, if_neg (Nat.not_le.mpr hnear), hearly, List.any_nil, if_neg Bool.false_ne_true, if_neg (by omega)]
  rfl

end

section
variable {m : Block} {b : Burst} (port : Nat) (hearly : (m.rxPair b.master b.srcNode).early = []) (hm : (m.rxPair b.master b.srcNode).master = b.master)
  (hn : (m.rxPair b.master b.srcNode).node = b.srcNode)
include hearly hm hn

/-- A burst held alone is its pair's only early one. -/
theorem Block.rxPair_holdEarly : (m.holdEarly port b).rxPair b.master b.srcNode = { m.rxPair b.master b.srcNode with early := [(port / 4, b)] } := by
  rw [Block.holdEarly, hearly]
  exact m.rxPair_setRxPair hm hn

/-- One that is not next stays held. -/
theorem Block.pumpPair_holdEarly_of_later (h : b.seq ≠ (m.rxPair b.master b.srcNode).expect) :
    Block.pumpPair b.master b.srcNode 1 (m.holdEarly port b) = m.holdEarly port b := by
  refine Block.pumpPair_of_none 0 ?_
  rw [Block.rxPair_holdEarly port hearly hm hn]
  simpa using h

/-- One that is next waits for host copies under it, or is applied (R152, R353). -/
theorem Block.pumpPair_holdEarly_of_next (h : b.seq = (m.rxPair b.master b.srcNode).expect) :
    let m1 := m.holdEarly port b
    let p := m.rxPair b.master b.srcNode
    Block.pumpPair b.master b.srcNode 1 m1 =
      if m1.burstHeld b ≠ [] then (m1.burstHeld b).foldl (fun m w => m.snoopCopies w.1 w.2) m1
      else (m1.applyBurst b).setRxPair { p with expect := (p.expect + 1) % 2 ^ 32 } := by
  intro m1 p
  have hfirst : ((m1.rxPair b.master b.srcNode).early.find? fun e => e.2.seq == (m1.rxPair b.master b.srcNode).expect) = some (port / 4, b) := by
    rw [Block.rxPair_holdEarly port hearly hm hn]
    simpa using h
  simp only [Block.pumpPair, hfirst]
  refine if_congr (by simp) rfl ?_
  rw [Block.rxPair_holdEarly port hearly hm hn]
  simp [p, hearly]

end

/- What a burst does -/

section
variable {m : Block} {b : Burst}

/-- A burst of a context that is gone is dropped, counted and acknowledged (R309). -/
theorem Block.applyBurst_of_revoked (h : m.revoked b.tenant b.ctx = true) :
    m.applyBurst b = (m.addFld Reg.cmdDropped 63 0 1).reply (answerBurst m b 5 0) := if_pos h

variable (h : m.revoked b.tenant b.ctx = false)
include h

/-- One that a check refuses is answered with the fault kind (R353). -/
theorem Block.applyBurst_of_refused (hk : b.kind ≤ 1) {k : Nat} (hcheck : m.arrivalCheck b.tenant b.ctx b.addr b.data.length true = some k) :
    m.applyBurst b = m.reply (answerBurst m b 6 k) := by
  rw [Block.applyBurst, if_neg (Bool.eq_false_iff.mp h), if_pos hk, hcheck]

/-- A write is applied. -/
theorem Block.applyBurst_of_write (hk : b.kind = 0) (hcheck : m.arrivalCheck b.tenant b.ctx b.addr b.data.length true = none) :
    m.applyBurst b = (m.writeGranules b.addr b.data b.mask b.poison (b.data.length / 128 + 2)).reply (answerBurst m b 5 0) := by
  rw [Block.applyBurst, if_neg (Bool.eq_false_iff.mp h), if_pos (by omega), hcheck]
  exact (if_pos hk).trans (by rw [if_pos (show b.kind ≤ 1 by omega)])

/-- A signalled write is applied and then signals (R354). -/
theorem Block.applyBurst_of_signalledWrite (hk : b.kind = 1) (hcheck : m.arrivalCheck b.tenant b.ctx b.addr b.data.length true = none) {a : Nat} :
    let w := m.writeGranules b.addr b.data b.mask b.poison (b.data.length / 128 + 2)
    w.hitchAddr b.tenant b.ctx b.hitch = some a → m.applyBurst b = (w.hitchAdd a b.inc).reply (answerBurst m b 5 0) := by
  intro w ha
  rw [Block.applyBurst, if_neg (Bool.eq_false_iff.mp h), if_pos (by omega), hcheck]
  dsimp only
  rw [if_pos (show b.kind ≤ 1 by omega), if_neg (show b.kind ≠ 0 by omega), ha]

/-- A signal adds to its hitch. -/
theorem Block.applyBurst_of_signal (hk : b.kind = 2) {a : Nat} (ha : m.hitchAddr b.tenant b.ctx b.hitch = some a) :
    m.applyBurst b = (m.hitchAdd a b.inc).reply (answerBurst m b 5 0) := by
  rw [Block.applyBurst, if_neg (Bool.eq_false_iff.mp h), if_neg (by omega)]
  dsimp only
  rw [if_neg (show ¬ b.kind ≤ 1 by omega), if_neg (show b.kind ≠ 0 by omega), ha]

/-- One whose hitch the context does not have is counted and refused. -/
theorem Block.applyBurst_of_strayedSignal (hk : b.kind = 2) (ha : m.hitchAddr b.tenant b.ctx b.hitch = none) :
    m.applyBurst b = (m.satFld Reg.fabDrop 31 0 1).reply (answerBurst m b 6 7) := by
  rw [Block.applyBurst, if_neg (Bool.eq_false_iff.mp h), if_neg (by omega)]
  dsimp only
  rw [if_neg (show ¬ b.kind ≤ 1 by omega), if_neg (show b.kind ≠ 0 by omega), ha]

end

/- Reads -/

section
variable {m : Block} {port : Nat} {b : Burst} (n : Nat)

section
variable (hport : m.portUsable port = true) (hm2 : m.pwr.pstate ≠ 2)
include hport hm2

/-- A read request for this node is served. -/
theorem readRequestEffect_of_ours (hus : m.forUs b = true) : readRequestEffect port b n m = m.serveRead b n :=
  (if_neg (by rw [hport]; decide)).trans ((if_neg hm2).trans (if_neg (by rw [hus]; decide)))

/-- One for another is dropped and counted. -/
theorem readRequestEffect_of_foreign (hus : m.forUs b = false) : readRequestEffect port b n m = m.satFld Reg.fabDrop 63 32 1 :=
  (if_neg (by rw [hport]; decide)).trans ((if_neg hm2).trans (if_pos (by rw [hus]; rfl)))

end

/-- A read that passes its check, of memory that no host holds exclusive, is answered with its granules (R353). -/
theorem Block.serveRead_of_clean (hreg : m.peerReg b = none) (hrev : m.revoked b.tenant b.ctx = false)
    (hcheck : m.arrivalCheck b.tenant b.ctx b.addr (128 * n) false = none) (hex : m.heldExclusive b.addr (128 * n) = false) :
    let m1 := m.correct b.addr (128 * n)
    m.serveRead b n = m1.answerRead b n fun i => (m1, m1.readMem (b.addr + 128 * i) 128, m1.poisoned (b.addr + 128 * i) 128) := by
  simp only [Block.serveRead, hreg, hrev, hcheck, hex, Bool.false_eq_true, if_false]

/-- Peer firmware's read of a register is answered with it (R134). -/
theorem Block.serveRead_of_register {off : Nat} (hreg : m.peerReg b = some off) : m.serveRead b n = m.peerRead b off := by
  simp only [Block.serveRead, hreg]

end

section
variable {m : Block} {port : Nat} (hport : m.portUsable port = true)
include hport

/-- Read data is kept for the read that waits for it, or ends one of a context that is gone. -/
theorem readDataEffect_of_waiting {b : Burst} (hus : m.forUs b = true) {r : RemoteRead}
    (hr : (m.fab.reads.find? fun r => r.tag == b.tag && r.node == b.srcNode && r.data.isNone) = some r) : readDataEffect port b m =
      if m.revoked r.tenant r.ctx then { m with fab.reads := m.fab.reads.filter (· != r) }
      else { m with fab.reads := mapIf (· == r) (fun x => { x with data := some (slice b.data 0 x.bytes, b.poison), hitch := b.tagged }) m.fab.reads } := by
  simp only [readDataEffect, hr]
  exact if_neg (by simp [hport, hus])

/- Answers to bursts -/

section
variable (master node id : Nat)

/-- A negative answer to a read curbs its master (R445). -/
theorem negativeAcknowledgementEffect_of_read (kind : Nat) {r : RemoteRead}
    (hr : (m.fab.reads.find? fun r => r.tag == id && r.master == master && r.node == node && r.data.isNone) = some r) :
    negativeAcknowledgementEffect port master node true id kind m =
      ({ m with fab.reads := m.fab.reads.filter (· != r) }).curbSource master r.tenant r.ctx kind r.addr r.bytes node := by
  rw [negativeAcknowledgementEffect]
  refine (if_neg (by rw [hport]; decide)).trans ((if_pos rfl).trans ?_)
  rw [hr]

/-- One to a burst without a fault kind sends it again (R352). -/
theorem negativeAcknowledgementEffect_of_noRoom : negativeAcknowledgementEffect port master node false id 0 m =
    (m.routePair (m.txPair master node) fun _ u => u.burst.seq == id).routeColl fun _ x =>
      Master.code (.coll x.die) == master && x.node == node && x.id == id :=
  (if_neg (by rw [hport]; decide)).trans ((if_neg Bool.false_ne_true).trans (if_pos rfl))

/-- One with a kind curbs its master. -/
theorem negativeAcknowledgementEffect_of_fault {kind : Nat} (hk : kind ≠ 0) {u : TxBurst}
    (hu : ((m.txPair master node).unacked.find? fun u => u.burst.seq == id) = some u) : negativeAcknowledgementEffect port master node false id kind m =
      (m.release master node id).curbSource master u.burst.tenant u.burst.ctx kind u.burst.addr u.burst.data.length node := by
  rw [negativeAcknowledgementEffect]
  refine (if_neg (by rw [hport]; decide)).trans ((if_neg Bool.false_ne_true).trans ((if_neg hk).trans ?_))
  rw [hu]

end

/-- A purge ahead of a pair with nothing held moves it on (R309). -/
theorem purgeEffect_of_ahead {b : Burst} (hus : m.forUs b = true) (hearly : (m.rxPair b.master b.srcNode).early = []) (h : m.burstAhead b < 2 ^ 31) :
    purgeEffect port b m = m.setRxPair { m.rxPair b.master b.srcNode with expect := b.seq } := by
  rw [purgeEffect]
  refine (if_neg (by simp [hport, hus])).trans ?_
  rw [Block.burstAhead] at h
  dsimp only
  rw [hearly, if_pos h]
  dsimp only [List.filter_nil, List.length_nil, Block.pumpPair]

end

/- Resends -/

/-- Without collective segments none is sent again. -/
theorem Block.routeColl_of_none {m : Block} (which : Block → CollOut → Bool) (h : m.eng.collOut = []) : m.routeColl which = m := by
  rw [Block.routeColl, h]
  dsimp only [List.foldl_nil]
  rw [← h]

section
variable {m : Block} {master node : Nat} (seq : Nat)

/-- A pair without unanswered bursts sends none again. -/
theorem burstResendTimeoutEffect_of_none (hun : (m.txPair master node).unacked = []) (hcoll : m.eng.collOut = []) :
    burstResendTimeoutEffect master node seq m = m.setTxPair (m.txPair master node) := by
  rw [burstResendTimeoutEffect]
  refine (Block.routeColl_of_none _ ?_).trans ?_
  all_goals rw [Block.routePair, hun, List.foldl_nil]
  · exact hcoll
  · rw [← hun]

/-- A burst that has not been answered for 200 µs is sent again (R352). -/
theorem burstResendTimeoutEffect_of_due {u : TxBurst} (hun : (m.txPair master node).unacked = [u]) (hseq : u.burst.seq = seq) (hport : u.port ≠ none)
    (hdue : u.sentAt + 5000 ≤ m.time) (hcoll : (m.route (m.txPair master node).node u).2.eng.collOut = []) :
    let r := m.route (m.txPair master node).node u
    burstResendTimeoutEffect master node seq m = r.2.setTxPair { m.txPair master node with unacked := [r.1] } := by
  have hwhich : (u.burst.seq == seq && u.port.isSome && decide (u.sentAt + 5000 ≤ m.time)) = true := by
    simp [hseq, Option.isSome_iff_ne_none.mpr hport, hdue]
  have hpair : (m.routePair (m.txPair master node) fun _ u => u.burst.seq == seq && u.port.isSome && decide (u.sentAt + 5000 ≤ m.time)) =
      (m.route (m.txPair master node).node u).2.setTxPair { m.txPair master node with unacked := [(m.route (m.txPair master node).node u).1] } := by
    rw [Block.routePair, hun, List.foldl_cons, List.foldl_nil, if_pos hwhich]
    rfl
  intro r
  rw [burstResendTimeoutEffect]
  dsimp only
  rw [hpair]
  exact Block.routeColl_of_none _ hcoll

end

/- Lost frames -/

/-- A field that counts up stops at its maximum. -/
theorem Block.fld_satFld_self (m : Block) (r k : Nat) {hi lo : Nat} (h : hi < 64) :
    (m.satFld r hi lo k).fld r hi lo = min (m.fld r hi lo + k) (2 ^ (hi + 1 - lo) - 1) := by
  rw [Block.satFld, Block.fld_setFld_self _ _ _ _ _ h]
  have hpos : 0 < 2 ^ (hi + 1 - lo) := Nat.two_pow_pos _
  exact Nat.mod_eq_of_lt (by rw [satAdd]; omega)

/-- The block once a lost frame is counted. -/
def Block.frameLost (m : Block) (port codewords : Nat) : Block :=
  (m.satFld (Reg.fabPortErr port) 31 16 1).satFld (Reg.fabPortErr port) 63 32 codewords

/-- The counter of lost frames. -/
theorem Block.fld_frameLost (m : Block) (port codewords : Nat) :
    (m.frameLost port codewords).fld (Reg.fabPortErr port) 31 16 = min (m.fld (Reg.fabPortErr port) 31 16 + 1) 0xFFFF :=
  (Block.fld_setFld_apart _ _ _ _ _ _ _ (by decide) (by decide)).trans (m.fld_satFld_self _ 1 (by decide))

section
variable {m : Block} {port : Nat} (hst : m.portSt port = 2 ∨ m.portSt port = 3) (again : Bool) (symbols : List Nat) (codewords : Nat)
include hst

/-- The third replay in a row that is lost too makes a lane fail (R339). -/
theorem frameReplayEffect_of_inFrames :
    let m1 := m.frameLost port codewords
    let n := if again then (m.fport port).replays + 1 else 0
    frameReplayEffect ⟨port, again, symbols, codewords⟩ m = if n < 3 then m1.setFport port { m.fport port with replays := n }
      else (m1.setFport port { m.fport port with replays := 0 }).declareLane port (m1.worstLane port symbols) := by
  have hframes : m.inFrames port = true := by simpa [Block.inFrames] using hst
  rw [frameReplayEffect]
  exact if_neg (by rw [hframes]; decide)

end

/-- A replay on a Chotus port that has not failed eight times is counted (R376). -/
theorem linkLevelReplayEffect_of_few {m : Block} {p failures : Nat} (hp : p < 2) (hst : m.choSt p = 2 ∨ m.choSt p = 3) (h : failures < 8) :
    linkLevelReplayEffect p failures m = m.satFld (Reg.choPortErr p) 63 48 1 := by
  rw [linkLevelReplayEffect]
  exact (if_neg (by omega)).trans (if_neg (by omega))

/-- Settles O47: a burst by its place in its pair and by its kind, the rest by what it answers. -/
theorem fabricTransactions : Obligations.FabricTransactions := by
  refine ⟨fun port b0 c k s hrow => ?_, fun m b => ?_, fun port n b s hport hm2 => ⟨fun hus => gives_of_commit rfl (readRequestEffect_of_ours n hport hm2 hus),
      fun hreg hrev hcheck hex => Block.serveRead_of_clean n hreg hrev hcheck hex, fun off hreg => Block.serveRead_of_register n hreg,
      fun hus => gives_of_commit rfl (readRequestEffect_of_foreign n hport hm2 hus)⟩,
    fun port b r s hport hus hr => ?_, fun port master node seq s hport => gives_of_commit rfl (if_pos hport),
    fun port master node id kind s hport => ⟨fun r hr => gives_of_commit rfl (negativeAcknowledgementEffect_of_read hport master node id kind hr), ?_,
      fun u hk hu => gives_of_commit rfl (negativeAcknowledgementEffect_of_fault hport master node id hk hu)⟩,
    fun port b s hport hus => ?_, fun master node seq s hun hcoll => gives_of_commit rfl (burstResendTimeoutEffect_of_none seq hun hcoll),
    fun master node seq u s hun _ hseq hport hdue hcoll => gives_of_commit rfl (burstResendTimeoutEffect_of_due seq hun hseq hport hdue hcoll),
    fun port again symbols codewords s hst => ?_, fun p failures s hp hst h => ?_⟩
  · have hexec : exec c s = s.commit (s.m.arrive port { b0 with kind := k }) := by
      rcases hrow with ⟨rfl, rfl⟩ | ⟨rfl, rfl⟩ | ⟨rfl, rfl⟩ <;> rfl
    intro b p ahead m1
    refine ⟨fun hport => gives_of_commit hexec (Block.arrive_of_unusable b hport), fun hport hm2 =>
      ⟨fun hus => gives_of_commit hexec (Block.arrive_of_foreign hport hm2 hus), fun hus hpast => ?_, fun hus hnear hdup => ?_,
        fun hus hpos hnear hnew hfull => ?_, fun hus hpos hnear hearly hlater hm hn hroom => ?_, fun hus hnext hexp hearly hm hn => ?_⟩,
      fun hport hm2 => gives_of_commit hexec (Block.arrive_of_asleep hport b hm2)⟩
    · exact gives_of_commit hexec ((Block.arrive_of_ours hport hm2 hus).trans (if_pos hpast))
    · exact gives_of_commit hexec ((Block.arrive_of_ours hport hm2 hus).trans ((if_neg (Nat.not_le.mpr hnear)).trans (if_pos (by simpa using hdup))))
    · exact gives_of_commit hexec ((Block.arrive_of_ours hport hm2 hus).trans ((if_neg (Nat.not_le.mpr hnear)).trans ((if_neg (by simpa using hnew)).trans
        (if_pos ⟨Nat.ne_of_gt hpos, hfull⟩))))
    · exact gives_of_commit hexec ((Block.arrive_of_first hport hm2 hus hearly hnear (.inr hroom)).trans
        (Block.pumpPair_holdEarly_of_later port hearly hm hn hlater))
    · have hzero : s.m.burstAhead b = 0 := by
        rw [Block.burstAhead, hnext, show p.expect + 2 ^ 32 - (s.m.rxPair b.master b.srcNode).expect = 2 ^ 32 from Nat.add_sub_cancel_left _ _, Nat.mod_self]
      have hheld := (Block.arrive_of_first hport hm2 hus hearly (by rw [hzero]; decide) (.inl hzero)).trans
        (Block.pumpPair_holdEarly_of_next port hearly hm hn hnext)
      exact ⟨fun hfree => gives_of_commit hexec (hheld.trans (if_neg (not_not_intro hfree))),
        fun hcopies => gives_of_commit hexec (hheld.trans (if_pos hcopies))⟩
  · refine ⟨Block.applyBurst_of_revoked, fun hrev hk k hcheck => Block.applyBurst_of_refused hrev hk hcheck,
      fun hrev hk hcheck => Block.applyBurst_of_write hrev hk hcheck, fun hrev hk hcheck => ?_,
      fun hrev hk ha => Block.applyBurst_of_strayedSignal hrev hk ha, fun hrev hk a ha => Block.applyBurst_of_signal hrev hk ha⟩
    intro w a ha
    exact Block.applyBurst_of_signalledWrite hrev hk hcheck ha
  · have hdata := readDataEffect_of_waiting hport hus hr
    exact ⟨fun hrev => gives_of_commit rfl (hdata.trans (if_neg (Bool.eq_false_iff.mp hrev))), fun hrev => gives_of_commit rfl (hdata.trans (if_pos hrev))⟩
  · rintro rfl
    exact gives_of_commit rfl (negativeAcknowledgementEffect_of_noRoom hport master node id)
  · intro p hearly h
    exact gives_of_commit rfl (purgeEffect_of_ahead hport hus hearly h)
  · intro m n
    have hframe := frameReplayEffect_of_inFrames hst again symbols codewords
    exact ⟨s.m.fld_frameLost port codewords, fun hfew => gives_of_commit rfl (hframe.trans (if_pos hfew)),
      fun hmany => gives_of_commit rfl (hframe.trans (if_neg (Nat.not_lt.mpr hmany)))⟩
  · have hgives := gives_of_commit (c := .linkLevelReplay p failures) (s := s) rfl (linkLevelReplayEffect_of_few hp hst h)
    exact hgives.completes ⟨s.m.fld_satFld_self _ 1 (by decide), (OnlyRegs.setReg s.m _ List.mem_cons_self).trans (OnlyRegs.settle _ _)⟩

end Sys2Proof.Machine
